-- ==== Sys2Proof/Word.lean ====
section
/-! DEFINITION. The word types of the device and their plainest arithmetic. Registers are 32 bits wide (00_scope.md,
"Registers and tables"), counters 64 bits (R10), bytes are bytes. Everything that a reading of the spec could get wrong
stands in Sys2Proof/Machine instead. -/

namespace Sys2Proof

abbrev Byte := BitVec 8
abbrev W16 := BitVec 16
abbrev W32 := BitVec 32
abbrev W64 := BitVec 64
/-- The signed 48-bit accumulators of a Pewter lane (R92). -/
abbrev W48 := BitVec 48

/-- A stored association from numbers to values: keys strictly rising, one canonical list for one content. -/
abbrev Tab (α : Type) := List (Nat × α)

/-- Byte-addressed contents, in the host's cell form. -/
abbrev Mem := List Host.Cell

end Sys2Proof
end

