-- ==== Sys2Proof/Machine/Tab.lean ====
section
/-! DEFINITION. Operations on the sorted association lists that hold every sparse part of the state: per-instance tables,
registers and memory. A key that is not listed reads as the table's default, and writing the default removes the key, so
that equal contents are equal lists. -/

namespace Sys2Proof

namespace Tab

variable {α : Type}

/-- The entry of `k`, if one is listed. -/
def look : Tab α → Nat → Option α
  | [], _ => none
  | (k', v) :: t, k => if k' = k then some v else look t k

/-- Lists `v` at `k`, keeping the keys rising. -/
def put : Tab α → Nat → α → Tab α
  | [], k, v => [(k, v)]
  | (k', v') :: t, k, v =>
    if k < k' then (k, v) :: (k', v') :: t
    else if k = k' then (k, v) :: t
    else (k', v') :: put t k v

/-- Removes the entry of `k`. -/
def del : Tab α → Nat → Tab α
  | [], _ => []
  | (k', v') :: t, k => if k' = k then del t k else (k', v') :: del t k

/-- The value at `k`, `d` where none is listed. -/
def get (d : α) (t : Tab α) (k : Nat) : α := (look t k).getD d

/-- Sets the value at `k`, keeping the canonical form for the default `d`. -/
def set [DecidableEq α] (d : α) (t : Tab α) (k : Nat) (v : α) : Tab α :=
  if v = d then del t k else put t k v

/-- Every listed key is at least `lo`, keys rise strictly and no entry equals the default. -/
def wfFrom [DecidableEq α] (d : α) : Nat → Tab α → Bool
  | _, [] => true
  | lo, (k, v) :: t => decide (lo ≤ k) && decide (v ≠ d) && wfFrom d (k + 1) t

/-- The canonical form of a table with default `d`. -/
def wf [DecidableEq α] (d : α) (t : Tab α) : Bool := wfFrom d 0 t

end Tab

end Sys2Proof
end

