-- ==== Sys2Proof/Machine/Bits.lean ====
section
/-! DEFINITION. Bit fields, sign extension, saturation, byte order and the sequence-number comparison of R11: the helpers
that every family of commands uses. -/

namespace Sys2Proof

/-- Field [hi:lo] of a number. -/
def bits (x hi lo : Nat) : Nat := (x >>> lo) % 2 ^ (hi + 1 - lo)

/-- Bit i of a number. -/
def bit (x i : Nat) : Bool := x.testBit i

/-- `x` with field [hi:lo] replaced by the low bits of `v`. -/
def setBits (x hi lo v : Nat) : Nat :=
  (x / 2 ^ (hi + 1)) * 2 ^ (hi + 1) + (v % 2 ^ (hi + 1 - lo)) * 2 ^ lo + x % 2 ^ lo

/-- A Bool as a bit. -/
def b2n (b : Bool) : Nat := if b then 1 else 0

/-- The two's complement value of the low `w` bits. -/
def sext (w x : Nat) : Int :=
  let y := x % 2 ^ w
  if y < 2 ^ (w - 1) then Int.ofNat y else Int.ofNat y - Int.ofNat (2 ^ w)

/-- The low `w` bits of an integer. -/
def wrap (w : Nat) (x : Int) : Nat := (x % (Int.ofNat (2 ^ w))).toNat

/-- Saturation to a signed `w`-bit range (R93, R91). -/
def satS (w : Nat) (x : Int) : Int :=
  if x < -(Int.ofNat (2 ^ (w - 1))) then -(Int.ofNat (2 ^ (w - 1)))
  else if Int.ofNat (2 ^ (w - 1)) ≤ x then Int.ofNat (2 ^ (w - 1)) - 1 else x

/-- Floor division by a power of two: the arithmetic right shift of R93. -/
def asr (x : Int) (s : Nat) : Int := x / Int.ofNat (2 ^ s)

/-- R11: `a` is newer than `b` among n-bit sequence numbers. -/
def seqNewer (n a b : Nat) : Bool :=
  let d := (a + 2 ^ n - b % 2 ^ n) % 2 ^ n
  decide (1 ≤ d) && decide (d < 2 ^ (n - 1))

/-- R11: equal sequence numbers. -/
def seqEqual (n a b : Nat) : Bool := a % 2 ^ n == b % 2 ^ n

/-- R11: every other case is stale. -/
def seqStale (n a b : Nat) : Bool := !seqNewer n a b && !seqEqual n a b

/-- The little-endian bytes of the low 8n bits. -/
def toLE : Nat → Nat → List Byte
  | 0, _ => []
  | n + 1, x => BitVec.ofNat 8 x :: toLE n (x / 256)

/-- The number that little-endian bytes spell. -/
def fromLE : List Byte → Nat
  | [] => 0
  | b :: bs => b.toNat + 256 * fromLE bs

/-- The big-endian bytes of the low 8n bits (network byte order). -/
def toBE (n x : Nat) : List Byte := (toLE n x).reverse

/-- The number that big-endian bytes spell. -/
def fromBE (bs : List Byte) : Nat := fromLE bs.reverse

/-- Element i of a list, `d` past its end. -/
def nth {α : Type} (d : α) : List α → Nat → α
  | [], _ => d
  | a :: _, 0 => a
  | _ :: t, n + 1 => nth d t n

/-- A list with element i replaced; unchanged past its end. -/
def setNth {α : Type} : List α → Nat → α → List α
  | [], _, _ => []
  | _ :: t, 0, v => v :: t
  | a :: t, n + 1, v => a :: setNth t n v

/-- Word i of a list of bytes, little-endian (R54). -/
def word32At (bs : List Byte) (i : Nat) : Nat := fromLE ((bs.drop (4 * i)).take 4)

/-- The 64-bit little-endian word at byte offset `o`. -/
def word64At (bs : List Byte) (o : Nat) : Nat := fromLE ((bs.drop o).take 8)

/-- Ceiling division. -/
def ceilDiv (a b : Nat) : Nat := (a + b - 1) / b

/-- The length of a number in bits: 0 for 0. -/
def bitLen (x : Nat) : Nat := if x = 0 then 0 else x.log2 + 1

end Sys2Proof
end

