-- ==== Sys2Proof/Command.lean ====
section
/-! DEFINITION. The operand types of the commands: who sends one, and the data from outside the package that one carries. -/

namespace Sys2Proof

/-- Who reads or writes a register: firmware on the Sideboard, a function (0 the physical function), a context of L1 firmware, or the
board's management controller at the I3C target (R493). -/
inductive Requester where
  | firmware
  | func (n : Nat)
  | ctx (x : Nat)
  | bmc
  deriving DecidableEq, Repr

/-- Where a mailbox command comes from (R406, R414): mailbox `m` of a function, the mailbox queue whose entry firmware has
taken, or firmware itself, which creates the contexts of L1 firmware (R164). -/
inductive Issuer where
  | mbox (fn m : Nat)
  | queue (q : Nat)
  | firmware
  deriving DecidableEq, Repr

/-- The header words H0 to H2 of a mailbox buffer as the host wrote them (R415). -/
structure MbxHeader where
  h0 : W32
  h1 : W32
  h2 : W32
  deriving DecidableEq, Repr

/-- What a read of memory outside the package answered: its bytes, or an error (R389). -/
inductive ExtData where
  | data (bytes : List Byte)
  | error
  deriving DecidableEq, Repr

/-- Who waits for a shelf, a page or a line: a Tin thread, a DMA queue, a Bronze job, a Solder request. -/
inductive Reader where
  | tin (core thread : Nat)
  | dma (cluster queue : Nat)
  | bronze (unit : Nat)
  | solder (node seq : Nat)
  deriving DecidableEq, Repr

/-- The block that RST_BLOCK names (R445). -/
inductive RstBlock where
  | cluster (c : Nat)
  | bronze (u : Nat)
  | nand (n : Nat)
  | port (p : Nat)
  | stack (t : Nat)
  | hallstand | solder | bureau | dumbwaiter | bimetal | armoire | cabinet | invar | pcie | sideboard | resetController
  deriving DecidableEq, Repr

end Sys2Proof
end

