-- ==== Sys2Proof/Syntax.lean ====
section
/-! DEFINITION. The commands of the device: one constructor per row of spec/opcode_table.json, in the table's order, with the
operands that the rule of the row names. A physical outcome that no rule computes (data from outside the package, a sensor
reading, which event comes next) is an operand. -/

namespace Sys2Proof

/-- The 300 rows of spec/opcode_table.json. -/
inductive Instr where
  /-- LOW_WORD_READ (R8): A read of the low word of a 64-bit register pair returns it and captures the high word into the reading function's private shadow. -/
  | lowWordRead (r : Requester) (a : Nat)
  /-- HIGH_WORD_READ (R8): A read of the high word of a 64-bit pair returns the function's shadow, which is zero if no low-word read has filled it. -/
  | highWordRead (r : Requester) (a : Nat)
  /-- LOW_WORD_WRITE (R9): A write to the low word of a 64-bit RW pair is held until the same function writes the high word, and is discarded at that function's next write to another register of the block. -/
  | lowWordWrite (r : Requester) (a : Nat) (v : W32)
  /-- HIGH_WORD_WRITE (R9): A write to the high word of a 64-bit RW pair makes the held low word and the high word take effect together. -/
  | highWordWrite (r : Requester) (a : Nat) (v : W32)
  /-- REGISTER_WRITE (R5): A write to a register that has no row of its own acts under its access type: RW, W1C, W1S, WO, RWL in the configuration state, or reserved. -/
  | registerWrite (r : Requester) (a : Nat) (v : W32)
  /-- INV_NOW_READ (R354): A read of INV_NOW_W0 returns word 0 of Invar time and captures W1 and W2 for the reading function. -/
  | invNowRead (r : Requester)
  /-- SIZE_TABLE_PUBLISH (R19): Firmware makes the size table odd, writes the changed registers, makes it even again and then posts SIZE_CHANGED. -/
  | sizeTablePublish
  /-- PLL_RETUNE_DONE (R23): The 20 µs retune of a region's idle PLL path ends, and every engine of the region stops at its next boundary. -/
  | pllRetuneDone (r : Nat)
  /-- REGION_STEP_SWITCH (R23): Once the last engine has stopped and the core rail is in range, the region switches clocks at one A-cycle edge with 64 T-cycles of bubbles. -/
  | regionStepSwitch (r : Nat)
  /-- STEP_CHANGE_ABANDON (R485): When the VRM has not reported the rail in range 100 µs after the retune ended, the step change is abandoned and the region keeps its step. -/
  | stepChangeAbandon (r : Nat)
  /-- VRM_IN_RANGE (R485): A VRM reports a VDD_CORE rail within range after a voltage write, which releases a waiting step switch. -/
  | vrmInRange (d : Nat)
  /-- GATING_ENTRY (R26): A cluster that has been idle for its programmed interval, with no task, template or Sterling context, begins power gating. -/
  | gatingEntry (c : Nat)
  /-- GATING_RETENTION_POINT (R27): Gating entry reaches its retention point, after which a wake must wait and run the full sequence. -/
  | gatingRetentionPoint (c : Nat)
  /-- REGION_PLL_STOP (R27): A region's PLL stops when both its clusters are gated and region sleep is permitted. -/
  | regionPllStop (r : Nat) (permitted : Bool)
  /-- WAKE_REQUEST (R217): Cabinet sends a wake request to a gated cluster when a ready or nearly ready task targets it, restarting the region PLL first if needed. -/
  | wakeRequest (c : Nat)
  /-- WAKE_DONE (R27): The wake sequence ends: the epoch increments, latches and queues read empty and the cluster accepts dispatch. -/
  | wakeDone (c : Nat)
  /-- FEEDER_CYCLE (R37): In each T-cycle the feeder sends a valid row or a counted bubble on each port of its column groups under the budget of R39. -/
  | feederCycle (c : Nat) (late : List Nat)
  /-- TILE_BOUNDARY (R46): A Trestle tile boundary is reached, after 2,048 feeder cycles or an op, and the feeder chooses the queue to serve next, inserting any checked re-run. -/
  | tileBoundary (c : Nat)
  /-- ROW_LANDS (R41): A row's sums land in the drain buffer 258 T-cycles after entry and are added to the accumulator row. -/
  | rowLands (c : Nat) (flips : List (Nat × W32))
  /-- LOAD_BEGIN (R36): A waiting LOAD begins once the in-flight counter of its bank is zero in every segment it covers. -/
  | loadBegin (c : Nat)
  /-- DRAIN_ROW_CONVERT (R43): The converter converts one accumulator row to the output format and writes it once granted the scratchpad write port. -/
  | drainRowConvert (c : Nat)
  /-- CHECK_EVALUATE (R248): Sixteen T-cycles after the extra row's last sum lands, a checked tile's row and column checks are judged. -/
  | checkEvaluate (c : Nat)
  /-- CHECK_RERUN_OUTCOME (R249): The re-run of a mismatched tile ends as transient, permanent with the spare mapped, or unresolved with a CHECK fault. -/
  | checkRerunOutcome (c : Nat)
  /-- TRS_NOP (R61): A NOP tile op does nothing and ends a tile. -/
  | trsNop (c : Nat)
  /-- TRS_CONFIG (R57): CONFIG sets its queue's layout and operand formats for later rows and ends the queue's record of latest blocks. -/
  | trsConfig (c : Nat)
  /-- TRS_LOAD (R58): LOAD fills the bank that does not hold the problem's latest block with stationary records from the share. -/
  | trsLoad (c : Nat)
  /-- TRS_STREAM (R60): STREAM injects M rows of A against the latest block into the named accumulator rows, with an extra row per tile when checked. -/
  | trsStream (c : Nat)
  /-- TRS_DRAIN (R84): DRAIN converts accumulator rows to the output format and writes them, and optionally their digest marks, to the share. -/
  | trsDrain (c : Nat)
  /-- TRS_WAIT (R61): A WAIT tile op stalls its queue on a latch under the latch rules. -/
  | trsWait (c : Nat)
  /-- TRS_SIGNAL (R61): A SIGNAL tile op signals a latch once every earlier op of its queue, DRAIN writes included, has completed. -/
  | trsSignal (c : Nat)
  /-- TRS_END (R61): END completes when every earlier op of its queue has completed and reports the task complete to Cabinet. -/
  | trsEnd (c : Nat)
  /-- TRS_HALT (R68): Setting TRS_CTRL.HALT stops each Trestle queue at its next tile boundary, and clearing it resumes. -/
  | trsHalt (c : Nat) (set : Bool)
  /-- PEWTER_ISSUE_PUSH (R100): Cabinet or a Tin core pushes an issue record into a Pewter queue, in round-robin order when several push in one T-cycle. -/
  | pewterIssuePush (u : Nat)
  /-- KERNEL_START (R101): A Pewter kernel starts with its queue's state reset and P0 to P3 in s0 to s3, within 32 T-cycles. -/
  | kernelStart (u : Nat)
  /-- PEWTER_QUEUE_CHANGE (R105): At a Pewter tile boundary the unit chooses the radio queue if it can issue, else the tenant queue. -/
  | pewterQueueChange (u : Nat)
  /-- INSN_LINE_FETCH (R102): A 64-byte instruction line fetched after a branch outside the buffer arrives and issue resumes. -/
  | insnLineFetch (u wait : Nat)
  /-- TILE_LIMIT (R104): A Pewter tile that reaches 4,096 T-cycles without a boundary is aborted and its task completes with fault status. -/
  | tileLimit (u : Nat)
  /-- PWT_NOP (R126): NOP does nothing. -/
  | pwtNop (u : Nat)
  /-- PWT_TILE (R103): TILE marks a kernel tile boundary. -/
  | pwtTile (u : Nat)
  /-- PWT_END (R110): END ends the kernel once every earlier store is written and reports completion to its source. -/
  | pwtEnd (u : Nat)
  /-- PWT_WAIT (R126): WAIT waits on a latch for s(SA) and is a tile boundary. -/
  | pwtWait (u : Nat)
  /-- PWT_SIGNAL (R110): SIGNAL signals a latch once every earlier store of the kernel is written. -/
  | pwtSignal (u : Nat)
  /-- LOOP (R126): LOOP decrements a scalar and branches while it is nonzero. -/
  | loop (u : Nat)
  /-- JMP (R126): JMP branches relative to the PC. -/
  | jmp (u : Nat)
  /-- RDTIME (R126): RDTIME reads the nanoseconds field of Invar time into a scalar, and faults as ND in a Sterling context. -/
  | rdtime (u : Nat)
  /-- RDCYC (R126): RDCYC reads the low 32 bits of the unit's T-cycle count, and faults as ND in a Sterling context. -/
  | rdcyc (u : Nat)
  /-- SLI (R126): SLI loads a sign-extended immediate into a scalar. -/
  | sli (u : Nat)
  /-- SLIH (R126): SLIH sets the upper half of a scalar. -/
  | slih (u : Nat)
  /-- SADDI (R126): SADDI adds an immediate to a scalar. -/
  | saddi (u : Nat)
  /-- SADD (R126): SADD adds two scalars. -/
  | sadd (u : Nat)
  /-- SSUB (R126): SSUB subtracts two scalars. -/
  | ssub (u : Nat)
  /-- SGET (R126): SGET copies one lane of a vector register into a scalar. -/
  | sget (u : Nat)
  /-- VBCAST (R126): VBCAST writes a scalar to every active lane of a vector register. -/
  | vbcast (u : Nat)
  /-- SETVL (R126): SETVL sets the vector length from 1 to 32. -/
  | setvl (u : Nat)
  /-- AGSET (R113): AGSET writes one field of an address generator from a scalar. -/
  | agset (u : Nat)
  /-- ASETP (R126): ASETP sets the accumulator preset. -/
  | asetp (u : Nat)
  /-- PWT_LD (R114): LD loads a vector through an address generator, sign-extending narrow elements. -/
  | pwtLd (u : Nat)
  /-- PWT_ST (R117): ST stores a vector through an address generator, saturating narrow elements, optionally marking the digest. -/
  | pwtSt (u : Nat)
  /-- BFPU (R121): BFPU unpacks one or two BFP-IQ blocks into CI16 lanes. -/
  | bfpu (u : Nat)
  /-- BFPK (R122): BFPK packs groups of 12 lanes into BFP-IQ blocks. -/
  | bfpk (u : Nat)
  /-- LLR (R125): LLR demaps one QAM symbol per lane into INT8 log-likelihood ratios. -/
  | llr (u : Nat)
  /-- CMAC (R95): CMAC adds the exact complex product of two CI16 operands to an accumulator set. -/
  | cmac (u : Nat)
  /-- ACCR (R126): ACCR narrows an accumulator set to CI16 with a floor shift and saturation. -/
  | accr (u : Nat)
  /-- ACC32 (R126): ACC32 narrows one part of an accumulator set to INT32. -/
  | acc32 (u : Nat)
  /-- ACCSUM (R126): ACCSUM sums an accumulator set over the active lanes into lane 0. -/
  | accsum (u : Nat)
  /-- CMULH (R126): CMULH writes the shifted, saturated complex product of two vectors. -/
  | cmulh (u : Nat)
  /-- CADD (R126): CADD adds two complex vectors, saturating or halving. -/
  | cadd (u : Nat)
  /-- CSUB (R126): CSUB subtracts two complex vectors, saturating or halving. -/
  | csub (u : Nat)
  /-- VSHF (R126): VSHF shifts lanes by a signed count, saturating left and flooring right. -/
  | vshf (u : Nat)
  /-- CMAG2 (R126): CMAG2 writes the squared magnitude of each lane. -/
  | cmag2 (u : Nat)
  /-- VPERM (R126): VPERM permutes lanes of a vector by an index vector. -/
  | vperm (u : Nat)
  /-- NORM (R119): NORM normalises each lane by its redundant-sign count and writes the count. -/
  | norm (u : Nat)
  /-- EXPB (R120): EXPB writes the block exponent of each group of lanes. -/
  | expb (u : Nat)
  /-- BFLY2 (R123): BFLY2 computes a radix-2 butterfly with a Q15 twiddle. -/
  | bfly2 (u : Nat)
  /-- BFLY4 (R124): BFLY4 computes a radix-4 butterfly with Q15 twiddles. -/
  | bfly4 (u : Nat)
  /-- PWT_HALT (R129): Setting PWT_CTRL.HALT stops each Pewter queue at its next tile boundary, and clearing it resumes. -/
  | pwtHalt (u : Nat) (set : Bool)
  /-- TIN_ENTRY_START (R136): A thread starts a Tin entry task at its entry address with a0 to a3 set and all else zero, after the context's cache lines are invalidated. -/
  | tinEntryStart (m t : Nat)
  /-- TIN_ISSUE (R138): In each C-cycle the core issues one instruction from a ready thread chosen by tier and round-robin pointer. -/
  | tinIssue (m : Nat)
  /-- TIN_BASE_INSTRUCTION (R130): A thread executes an RV64GC or V instruction of the base profile. -/
  | tinBaseInstruction (m : Nat)
  /-- TIN_CSR_ACCESS (R132): A thread accesses a permitted CSR; cycle, time and instret are ND reads. -/
  | tinCsrAccess (m : Nat)
  /-- TIN_AMO (R134): A thread issues an A-extension AMO, performed at the scratchpad, the home HBM controller or over Solder according to its space. -/
  | tinAmo (m : Nat)
  /-- TIN_LR (R134): A thread issues LR and takes a 64-byte reservation. -/
  | tinLr (m : Nat)
  /-- TIN_SC (R134): A thread issues SC, which fails if the granule was written or the thread parked since the LR. -/
  | tinSc (m : Nat)
  /-- FENCE (R146): FENCE or FENCE.TSO parks the thread until every earlier access on every path has been performed. -/
  | fence (m : Nat)
  /-- FENCE_I (R142): FENCE.I invalidates the instruction-cache lines of the thread's context. -/
  | fenceI (m : Nat)
  /-- ECALL (R131): ECALL ends the thread with an ECALL fault. -/
  | ecall (m : Nat)
  /-- EBREAK (R131): EBREAK ends the thread with an ECALL fault. -/
  | ebreak (m : Nat)
  /-- EXT_RESPONSE_ARRIVE (R140): Data or an AMO result for a parked thread's cluster-external access arrives and the thread becomes ready, or the response is dropped if late. -/
  | extResponseArrive (m t x e : Nat) (ext : Option ExtData)
  /-- STORE_ACK (R146): A cluster-external store is acknowledged by its home, which may release a parked fence or a waiting TEXIT. -/
  | storeAck (m t x e path : Nat)
  /-- OUTBOUND_BUFFER_ACCEPT (R140): The outbound buffer accepts a parked thread's store and the thread becomes ready. -/
  | outboundBufferAccept (m t : Nat)
  /-- QUEUE_ROOM (R140): An engine queue gains room for a thread parked on PWISSUE, TRPUSH or DMAQ and the push enters. -/
  | queueRoom (m t : Nat)
  /-- LSIG (R154): LSIG signals a latch once the thread's earlier stores are performed. -/
  | lsig (m : Nat)
  /-- LWAIT (R154): LWAIT waits on a latch for a count, parking the thread if unsatisfied. -/
  | lwait (m : Nat)
  /-- LTRY (R149): LTRY takes a count from a latch if available and never parks; ND. -/
  | ltry (m : Nat)
  /-- LRD (R149): LRD reads a latch's count; ND. -/
  | lrd (m : Nat)
  /-- TRPUSH (R150): TRPUSH appends 1 to 64 tile-op records to the cluster's Trestle queue of the thread's class. -/
  | trpush (m : Nat)
  /-- DMAQ (R149): DMAQ queues a DMA descriptor to the cluster's DMA engine and names a latch to signal at its end. -/
  | dmaq (m : Nat)
  /-- PWISSUE (R149): PWISSUE pushes a Pewter issue record to the core's Pewter unit. -/
  | pwissue (m : Nat)
  /-- TYIELD (R149): TYIELD makes the thread ineligible for the next C-cycle and moves it behind its tier pointer. -/
  | tyield (m : Nat)
  /-- TEXIT (R148): TEXIT ends the thread's task, which is reported once every access of the thread has been performed. -/
  | texit (m : Nat)
  /-- TIN_TASK_REPORT (R148): Once every access of an ended or faulted thread is performed, its task is reported complete and the thread becomes FREE. -/
  | tinTaskReport (m t : Nat)
  /-- DGADD (R149): DGADD marks bytes for the task's step digest. -/
  | dgadd (m : Nat)
  /-- RNGW (R231): RNGW returns one Philox word of a stream of the task. -/
  | rngw (m : Nat)
  /-- RNGD (R231): RNGD returns two consecutive Philox words of a stream of the task. -/
  | rngd (m : Nat)
  /-- TRNG (R149): TRNG returns 64 bits from Armoire's true random source; ND. -/
  | trng (m : Nat)
  /-- SCAS (R149): SCAS performs a 64-bit compare-and-swap on a PINNED object or over Solder. -/
  | scas (m : Nat)
  /-- FAADD_D (R149): FAADD.D performs a binary64 float atomic add; ND. -/
  | faaddD (m : Nat)
  /-- FAADD_S (R149): FAADD.S performs a binary32 float atomic add; ND. -/
  | faaddS (m : Nat)
  /-- XLD (R149): XLD copies 8 to 256 bytes from an external address into the share. -/
  | xld (m : Nat)
  /-- XST (R149): XST copies 8 to 256 bytes from the share to an external address. -/
  | xst (m : Nat)
  /-- DINV (R142): DINV invalidates the data-cache lines of the thread's context. -/
  | dinv (m : Nat)
  /-- TIN_HALT (R162): Setting TIN_CTRL.HALT stops issue after the current instruction, and clearing it resumes. -/
  | tinHalt (m : Nat) (on : Bool)
  /-- LATCH_EVALUATION (R158): Once per N-cycle each latch applies arriving signals and tests pending WAITs in ascending waiter index. -/
  | latchEvaluation (c l : Nat)
  /-- CAB_CTX_CREATE (R163): Creates a context with a contiguous run of free slots at generation 0, a class floor, a weight and an event queue. -/
  | cabCtxCreate (i : Issuer) (owner slots floor weight evq : Nat)
  /-- CAB_CTX_SET_WEIGHT (R165): Changes a context's weight from the next dispatch decision. -/
  | cabCtxSetWeight (i : Issuer) (x weight : Nat)
  /-- CAB_CTX_TEARDOWN (R191): Starts teardown of a context: refuses its later descriptors, aborts its waiting and ready tasks and stops its engines' work. -/
  | cabCtxTeardown (i : Issuer) (x : Nat)
  /-- TEARDOWN_ENGINES_STOPPED (R191): When every engine has stopped the context's work, dispatched tasks end ABORTED and TEARDOWN_DONE is posted. -/
  | teardownEnginesStopped (x : Nat)
  /-- CAB_BAR_ALLOC (R187): Allocates a barrier with a participant count to a function. -/
  | cabBarAlloc (i : Issuer) (p : Nat)
  /-- CAB_BAR_FREE (R190): Frees a barrier, aborting every waiting and early ARRIVE. -/
  | cabBarFree (i : Issuer) (b : Nat)
  /-- DESCRIPTOR_ACCEPT (R173): Cabinet fetches a task descriptor, tests FGEN, checks it, resolves its predecessors and accepts it into its slot or refuses it. -/
  | descriptorAccept (data : ExtData)
  /-- COMMIT (R173): A commit-counter write commits every accepted descriptor up to the new value. -/
  | commit (q value : Nat)
  /-- DISPATCH_DECISION (R178): Every 9 hub N-cycles Cabinet picks one eligible task by deadline, class weight and context order, charges its energy and dispatches it. -/
  | dispatchDecision
  /-- TASK_COMPLETE (R181): Cabinet records a task's completion with its status and resolves its successors' dependences. -/
  | taskComplete
  /-- ARRIVE (R188): A ready ARRIVE counts at its barrier, is held as early, faults as stale, or releases the barrier when the count reaches P. -/
  | arrive (b : Nat)
  /-- COMPLETION_RECORD_POST (R186): A waiting completion record is posted to its CQ once there is room and host writes are performed, freeing the slot. -/
  | completionRecordPost (q fault : Nat)
  /-- DEADLINE_MISS (R193): Invar time reaches the DEADLINE of an incomplete class 0 task and DEADLINE_MISS is posted. -/
  | deadlineMiss
  /-- EXT_ALARM (R194): A context's oldest external access age rises to its alarm threshold and EXT_ALARM is posted. -/
  | extAlarm (x : Nat)
  /-- DMA_ROW (R168): A DMA engine reads a whole row and writes it out, taking the radio queue's next row first at each boundary. -/
  | dmaRow (c : Nat) (radio tenant : Option ExtData)
  /-- DMA_ROW_ACK (R181): A DMA row write is acknowledged at its destination; the last acknowledgement completes the transfer. -/
  | dmaRowAck (c q k : Nat)
  /-- CAB_RES_GRANT (R201): Grants, makes pending or refuses residency of a context on a cluster with a share and latch granules. -/
  | cabResGrant (i : Issuer) (x c grans lats restore : Nat) (wait : Bool)
  /-- CAB_RES_RELEASE (R203): Releases a residency slot, saving and scrubbing the share and then granting pending requests. -/
  | cabResRelease (i : Issuer) (c k save : Nat)
  /-- SHARE_COPY_DONE (R499): A residency save or restore copy completes with its last row acknowledged. -/
  | shareCopyDone (c k : Nat)
  /-- SHARE_SCRUB_DONE (R203): The released share granules are scrubbed, the slot is freed, RES_RELEASED is posted and pending grants are made. -/
  | shareScrubDone (c k : Nat)
  /-- ALL_BLOCKED (R207): A cluster stays all-blocked for CAB_RES_ALLBLK_US and ALL_BLOCKED is posted once. -/
  | allBlocked (c : Nat)
  /-- SLACK_UPDATE (R211): Every 1 µs Cabinet recomputes each enabled tracker's SLACK and acts on a low or negative value. -/
  | slackUpdate
  /-- ENERGY_REFILL (R214): Every 1 µs Bimetal computes the tenant pool and refills Sterling allotments, region credits and class 0 buckets. -/
  | energyRefill (temps : List (Nat × Nat))
  /-- TELEMETRY_SAMPLE (R214): Every 1 ms Bimetal reads the VRMs' package power and adjusts λ. -/
  | telemetrySample (watts : Nat)
  /-- CAB_CTX_SET_SEED (R220): Sets a context's 64-bit random seed. -/
  | cabCtxSetSeed (i : Issuer) (x seed : Nat)
  /-- CAB_CTX_STERLING (R221): Puts an idle, non-resident context into Sterling mode with a seed and digest ring, in HELD state. -/
  | cabCtxSterling (i : Issuer) (x seed ring e : Nat)
  /-- CAB_STL_ARM (R241): Arms a Sterling context for a LOCAL, CHAIN or INSTANT start barrier. -/
  | cabStlArm (i : Issuer) (x form t : Nat)
  /-- START_BARRIER_FIRE (R242): A start barrier fires: the resets of R227 and refresh restart take effect and the context enters RUNNING. -/
  | startBarrierFire (x : Nat)
  /-- SYNC_IN_PULSE (R244): A start or calibration pulse arrives on SYNC_IN and is acted on, forwarded or measured. -/
  | syncInPulse (width ring : Nat)
  /-- CHAIN_GO (R241): A write of CAB_STL_CHAIN_GO.GO makes the chain master emit a start pulse. -/
  | chainGo
  /-- CHAIN_CAL (R244): A write of CAB_STL_CHAIN_GO.CAL makes the chain master emit a calibration pulse. -/
  | chainCal
  /-- DIGEST_READBACK (R234): After the engine completion rule is met, the digest unit reads back the marked bytes in key order and computes the CRC-64 digest. -/
  | digestReadback (i : Nat)
  /-- DIGEST_APPEND (R239): A digest entry is written to the ring and PROD advances, or the completion waits when the ring is full. -/
  | digestAppend (i : Nat)
  /-- RING_CONS_RECHECK (R239): Every 1 µs the device re-reads CONS of a full digest ring. -/
  | ringConsRecheck (x : Nat)
  /-- BUR_OBJ_CREATE (R257): Creates an object in the tier range with a policy and interleave. -/
  | burObjCreate (i : Issuer) (owner base size policy : Nat) (spread : Bool) (stack : Nat) (mirror class0 : Bool) (ahead : Nat)
  /-- BUR_OBJ_QUERY (R260): Returns an object's table entry. -/
  | burObjQuery (i : Issuer) (k ogen : Nat)
  /-- BUR_OBJ_INSTALL (R266): Starts installing a CACHED or STREAM object from a host source list into flash. -/
  | burObjInstall (i : Issuer) (k ogen : Nat) (src : List (Nat × Nat))
  /-- INSTALL_COMPLETE (R266): An install finishes storing or fails a host read, and INSTALL_DONE is posted. -/
  | installComplete (k : Nat) (data : ExtData)
  /-- BUR_OBJ_REINSTALL (R282): Starts rewriting POISONED shelves of an object from a host source list. -/
  | burObjReinstall (i : Issuer) (k ogen first count : Nat) (src : List (Nat × Nat))
  /-- REINSTALL_STORED (R282): A reinstall's new stripes are written and each named shelf becomes FILLING. -/
  | reinstallStored (k : Nat) (data : ExtData)
  /-- BUR_OBJ_DESTROY (R267): Starts destroying an object with no references, exports or copies. -/
  | burObjDestroy (i : Issuer) (k ogen : Nat)
  /-- DESTROY_DONE (R267): A destroyed object's granules are scrubbed and freed and its number becomes free. -/
  | destroyDone (k : Nat)
  /-- DMW_PROMOTE (R274): Starts fills or refreshes last use of named shelves, optionally taking HOLD references. -/
  | dmwPromote (i : Issuer) (rs : List (Nat × Nat × Nat × Nat)) (hold : Bool)
  /-- DMW_EVICT (R274): Requests eviction of named shelves, skipping held ones. -/
  | dmwEvict (i : Issuer) (rs : List (Nat × Nat × Nat × Nat))
  /-- DMW_UNHOLD (R274): Drops HOLD references on named shelves. -/
  | dmwUnhold (i : Issuer) (rs : List (Nat × Nat × Nat × Nat))
  /-- DMW_ALLOWANCE (R265): Sets a function's cache allowance. -/
  | dmwAllowance (i : Issuer) (fn' allow : Nat)
  /-- DEMAND_READ (R270): A read request to a CACHED shelf takes a reference and is served, starts a fill or waits. -/
  | demandRead (who : Reader) (a : Nat)
  /-- STREAM_READ (R276): A read of a STREAM object stages the flash pages that cover it. -/
  | streamRead (who : Reader) (a blk bits : Nat)
  /-- CODEWORD_WRITTEN (R270): A 4 KiB codeword of a filling shelf is written to HBM and readers waiting on it are served. -/
  | codewordWritten (sh k blk bits : Nat)
  /-- FILL_COMPLETE (R269): All 512 codewords of a filling shelf are written and it becomes PRESENT. -/
  | fillComplete (sh : Nat)
  /-- REFERENCE_DROP (R269): A shelf reference is dropped; an EVICTING shelf reaching zero loses its mapping and becomes ABSENT. -/
  | referenceDrop (who : Reader) (a : Nat)
  /-- HARD_DECODE_FAIL (R280): A flash page read fails its hard-decision decode and enters the ladder. -/
  | hardDecodeFail (page blk : Nat)
  /-- LADDER_DONE (R280): The read-level ladder succeeds or ends after 16 re-reads. -/
  | ladderDone (page : Nat) (ok : Bool)
  /-- SOFT_DECODE_DONE (R280): The soft-decision decode succeeds or fails. -/
  | softDecodeDone (page : Nat) (ok : Bool)
  /-- STRIPE_REBUILD_DONE (R281): A stripe rebuild recovers the page or finds it unrecoverable, poisoning the shelf. -/
  | stripeRebuildDone (page blk : Nat) (ok : Bool)
  /-- FLASH_PATROL_READ (R279): A patrol read of a programmed block may schedule its relocation. -/
  | flashPatrolRead (blk bits : Nat) (ladder : Bool)
  /-- BLOCK_RELOCATE_DONE (R279): A block relocation for wear, read disturb or retention completes. -/
  | blockRelocateDone (blk : Nat)
  /-- NAND_DIE_FAILURE (R284): A NAND die or channel fails and Bureau starts rebuilding the stripes that lost pages. -/
  | nandDieFailure (n die : Nat)
  /-- NAND_REBUILD_DONE (R284): The rebuild of a failed die or channel completes. -/
  | nandRebuildDone (n die : Nat)
  /-- HBM_UE (R285): An HBM controller detects an uncorrectable error and refills, re-stages, repairs from the mirror or poisons the line. -/
  | hbmUe (a pc : Nat) (both : Bool)
  /-- HBM_PATROL_READ (R289): The controller's patrol reads and corrects a line. -/
  | hbmPatrolRead (t corrected : Nat)
  /-- MIRROR_PARTNER_LOST (R288): A MIRROR object's partner stack is lost; it degrades and firmware starts copying it to a new partner. -/
  | mirrorPartnerLost (k : Nat)
  /-- MIRROR_COPY_DONE (R288): The mirror copy completes and the object leaves DEGRADED. -/
  | mirrorCopyDone (k : Nat)
  /-- BAR4_READ (R268): A host read through BAR4 returns PINNED or PRESENT data or completes with Unsupported Request. -/
  | bar4Read (off n : Nat)
  /-- BAR4_WRITE (R268): A host write through BAR4 writes a PINNED object or is dropped and counted. -/
  | bar4Write (off : Nat) (bs : List Byte)
  /-- FH_CLASS_ADD (R294): Installs a fronthaul classifier entry, refusing overlaps. -/
  | fhClassAdd (i : Issuer) (k0 k1 k2 k3 : Nat)
  /-- FH_CLASS_DEL (R294): Removes a fronthaul classifier entry. -/
  | fhClassDel (i : Issuer) (k0 k1 k2 k3 : Nat)
  /-- SFN_TICK (R297): A numerology timer reaches a frame boundary and advances INV_NT_NOW. -/
  | sfnTick (t : Nat)
  /-- SLOT_TICK (R303): A numerology timer reaches a slot boundary and Cabinet instantiates the matching slot templates. -/
  | slotTick (t : Nat)
  /-- SYMBOL_TICK (R297): A numerology timer reaches a symbol boundary and signals its named latch. -/
  | symbolTick (t : Nat)
  /-- CAB_TPL_REGISTER (R301): Copies a slot template into the template store and reserves its slots. -/
  | cabTplRegister (i : Issuer) (addr : Nat)
  /-- CAB_TPL_UNREGISTER (R302): Marks a template RETIRING, freeing it when its instances complete. -/
  | cabTplUnregister (i : Issuer) (k : Nat)
  /-- BRONZE_JOB_START (R307): At a job boundary a Bronze unit takes the next job, radio first, and fetches its descriptor and input. -/
  | bronzeJobStart (u : Nat)
  /-- BRONZE_INPUT_FETCHED (R307): A job's input is staged and the job takes the decoder or encoder. -/
  | bronzeInputFetched (u q : Nat)
  /-- BRONZE_COMPUTE_DONE (R308): A job releases the decoder or encoder and its outputs, soft buffers and status record are written. -/
  | bronzeComputeDone (u q : Nat)
  /-- BRONZE_JOB_DONE (R306): Every output, soft-buffer write and status record of a job is acknowledged and the task completes. -/
  | bronzeJobDone (u q : Nat)
  /-- PARAM_REQUEST (R311): L1 firmware handles a FAPI PARAM.request. -/
  | paramRequest (es : List (List Byte))
  /-- CONFIG_REQUEST (R311): L1 firmware handles a FAPI CONFIG.request. -/
  | configRequest (es : List (List Byte)) (timer lead : Nat)
  /-- START_REQUEST (R311): L1 firmware handles a FAPI START.request. -/
  | startRequest (es : List (List Byte))
  /-- STOP_REQUEST (R311): L1 firmware handles a FAPI STOP.request. -/
  | stopRequest (es : List (List Byte))
  /-- DL_TTI_REQUEST (R313): L1 firmware handles a FAPI DL_TTI.request for a slot, refusing a late one. -/
  | dlTtiRequest (es : List (List Byte)) (sfn slot : Nat)
  /-- UL_TTI_REQUEST (R313): L1 firmware handles a FAPI UL_TTI.request for a slot, refusing a late one. -/
  | ulTtiRequest (es : List (List Byte)) (sfn slot : Nat)
  /-- UL_DCI_REQUEST (R311): L1 firmware handles a FAPI UL_DCI.request. -/
  | ulDciRequest (es : List (List Byte)) (sfn slot : Nat)
  /-- TX_DATA_REQUEST (R311): L1 firmware handles a FAPI TX_Data.request. -/
  | txDataRequest (es : List (List Byte)) (sfn slot : Nat) (ptrs : List (Nat × Nat))
  /-- INV_SET (R322): A write of INV_SET_GO loads an absolute time at the next tick and posts TIME_STEP. -/
  | invSet (v : W32)
  /-- INV_STEP (R322): A write of INV_STEP_HI steps time by a signed value and posts TIME_STEP. -/
  | invStep (lo hi : W32)
  /-- SERVO_SAMPLE (R327): A write of INV_SERVO_OFF_HI submits an offset sample that steps time or adjusts INCR. -/
  | servoSample (lo hi : W32)
  /-- SERVO_HOLDOVER (R328): No servo sample arrives for INV_SERVO_HOLD_MS and the servo enters HOLDOVER. -/
  | servoHoldover
  /-- REF_IN_LOSS (R326): REF_IN is lost and the PLL changes to REFCLK_25, clearing REF_SEL and setting REF_LOST. -/
  | refInLoss
  /-- REF_IN_RESTORE (R326): With REF_SEL set, REF_IN has been present for 1 ms and the PLL changes back to it. -/
  | refInRestore
  /-- PPS_IN_EDGE (R330): A rising edge on PPS_IN is stamped into INV_PPS_IN. -/
  | ppsInEdge (skew : Int)
  /-- GENERAL_TRIGGER_FIRE (R323): A general trigger's instant is reached and it signals a latch, posts TIME_TRIGGER or pulses PPS_OUT. -/
  | generalTriggerFire (g : Nat)
  /-- TX_DESCRIPTOR_FETCH (R334): Hallstand takes a NIC transmit descriptor, faulting it or making its frame the head of its queue. -/
  | txDescriptorFetch (q : Nat) (entry frame : ExtData)
  /-- FRAME_SELECT (R338): When the line is idle Hallstand selects an eligible head frame by strict class and the weighted group and starts it. -/
  | frameSelect (m : Nat)
  /-- FRAME_SENT (R336): A frame leaves the line and its transmit completion is posted. -/
  | frameSent (m : Nat)
  /-- GCL_GO (R345): A write of HST_GCL_GO makes the admin gate list pending or sets CHANGE_ERR. -/
  | gclGo (m : Nat) (w : W32)
  /-- GCL_CHANGE (R345): The pending gate list becomes oper at the first cycle start at or after CHANGE. -/
  | gclChange (m : Nat)
  /-- HST_TXQ_SET (R346): Sets a transmit queue's late policy. -/
  | hstTxqSet (i : Issuer) (q : Nat) (drop : Bool)
  /-- LINK_CHANGE (R353): A MAC goes up or down and LINK_CHANGE is posted; a down MAC's late frames are tested when it comes up. -/
  | linkChange (m : Nat) (up : Bool)
  /-- FRAME_RECEIVE (R349): A received frame is stamped, checked, policed and steered to fronthaul, management, Solder or function queues. -/
  | frameReceive (m : Nat) (bs : List Byte) (fcsOk : Bool) (rings : List ExtData)
  /-- HST_POL_SEL (R350): A write of HST_POL_SEL loads the selected policer's fields into the window. -/
  | hstPolSel (w : W32)
  /-- PORT_DISABLE (R346): Clearing a port's ETH_CTRL.EN flushes its queued frames with FLUSHED. -/
  | portDisable (p : Nat)
  /-- HST_RXF_ADD (R404): Installs a receive filter. -/
  | hstRxfAdd (i : Issuer) (mac addr : Nat) (vid : Option Nat) (base count : Nat) (default_ : Bool)
  /-- HST_RXF_DEL (R404): Removes a receive filter. -/
  | hstRxfDel (i : Issuer) (k : Nat)
  /-- SOLDER_REQUEST_RECEIVE (R370): The responder handles a Solder REQUEST packet: new session, accept, gap NAK, duplicate or NO_SESSION. -/
  | solderRequestReceive (bs : List Byte) (ce sumOk : Bool)
  /-- SOLDER_OP_PERFORM (R375): The home performs an accepted Solder operation on its line and the response is formed. -/
  | solderOpPerform (k : Nat)
  /-- SOLDER_RESPONSE_RECEIVE (R366): A requester receives a RESPONSE, answering operations and resetting the timeout. -/
  | solderResponseReceive (bs : List Byte) (sumOk : Bool)
  /-- SOLDER_NAK_RECEIVE (R372): A requester receives a NAK: GAP retransmits, NO_SESSION reopens or marks the peer LOST. -/
  | solderNakReceive (bs : List Byte) (sumOk : Bool)
  /-- RETRANSMIT_TIMEOUT (R371): The oldest unretired packet waits a full timeout and is retransmitted with the rest, W set to 1 and the timeout doubled. -/
  | retransmitTimeout (n : Nat)
  /-- WINDOW_INCREASE (R376): Each 20 µs without an ECN echo raises a destination's window by 1. -/
  | windowIncrease (n : Nat)
  /-- SOLDER_CONTROL_RECEIVE (R379): A CONTROL packet carrying a quorum command arrives and is queued for Armoire. -/
  | solderControlReceive (bs : List Byte) (v6 : Bool) (ip port : Nat) (sumOk : Bool)
  /-- QUORUM_VERIFY_DONE (R380): Armoire finishes checking a quorum command and it is refused or takes effect at the next hub N-cycle. -/
  | quorumVerifyDone
  /-- SLD_LOCAL_SET (R383): Sets the source IP of a logical MAC. -/
  | sldLocalSet (i : Issuer) (mac ip : Nat)
  /-- SLD_PEER_SET (R356): Writes a peer table entry. -/
  | sldPeerSet (i : Issuer) (n : Nat) (ps : List W32)
  /-- SLD_PEER_REOPEN (R372): Ends a peer's LOST state. -/
  | sldPeerReopen (i : Issuer) (n : Nat)
  /-- SLD_FUNC_DOMAIN (R357): Sets a function's Solder domain. -/
  | sldFuncDomain (i : Issuer) (fn domain : Nat)
  /-- SLD_EXPORT_ADD (R358): Installs an export of part of an object to a domain. -/
  | sldExportAdd (i : Issuer) (xs : List W32)
  /-- SLD_EXPORT_DEL (R358): Removes an export, answering stalled loads ADDR. -/
  | sldExportDel (i : Issuer) (k : Nat)
  /-- SLD_QUORUM_KEYS (R378): Registers the quorum public keys and threshold once. -/
  | sldQuorumKeys (i : Issuer) (threshold : Nat) (keys : List (List Byte))
  /-- SLD_FENCE (R379): Submits a signed quorum command from the physical function. -/
  | sldFence (i : Issuer) (cmd : List Byte)
  /-- SLD_PEER_SEL (R385): A write of SLD_PEER_SEL loads the selected peer's state into the peer window. -/
  | sldPeerSel (v : W32)
  /-- SLD_CTRL_EN (R372): Setting SLD_CTRL.EN draws a new incarnation; clearing it drops all sessions. -/
  | sldCtrlEn (v : W32)
  /-- DOORBELL_COUNT (R394): A write of a doorbell's COUNT advances the host-written counter, or is ignored and counted. -/
  | doorbellCount (fn i value : Nat)
  /-- DOORBELL_ARM (R399): A write of ARM arms a device-produced queue's interrupt or fires it at once. -/
  | doorbellArm (fn i a : Nat)
  /-- COAL_TIMER (R399): COAL_US passes after an armed queue's first record, the vector fires and the queue disarms. -/
  | coalTimer (q : Nat)
  /-- RECORD_POST (R396): The device posts a record to a device-produced queue, writing P back, dropping it stale or marking the queue FAILED. -/
  | recordPost (q fault : Nat)
  /-- QUEUE_ENTRY_FETCH (R397): The device fetches entries from a host-produced queue, marking it FAILED if the fetch fails. -/
  | queueEntryFetch (q : Nat) (data : ExtData) (wbOk : Bool)
  /-- QUE_CREATE (R401): Creates and enables a queue. -/
  | queCreate (i : Issuer) (idx typ kind logSize base wb pair vector coalCount coalUs typeCfg : Nat) (persist : Bool)
  /-- QUE_DESTROY (R402): Stops and disables a queue, flushing or aborting its entries. -/
  | queDestroy (i : Issuer) (idx : Nat)
  /-- QUE_QUERY (R420): Returns the context block of an owned queue. -/
  | queQuery (i : Issuer) (idx : Nat)
  /-- SOLDER_QUEUE_ENTRY (R405): A host Solder queue entry is taken and issued as a Solder operation. -/
  | solderQueueEntry (q : Nat) (entry src : ExtData)
  /-- MAILBOX_QUEUE_ENTRY (R406): Firmware takes a mailbox queue entry, carries out its command and posts a completion record. -/
  | mailboxQueueEntry (q : Nat) (entry : ExtData) (h : MbxHeader)
  /-- VF_CREATE (R408): Grants a virtual function its resources and makes it ACTIVE. -/
  | vfCreate (i : Issuer) (n queues vectors contexts share lat hbm cache objects jobs macMask txRate rxFilters : Nat)
  /-- VF_DESTROY (R412): Resets and removes a virtual function, destroying its objects and returning its grants. -/
  | vfDestroy (i : Issuer) (n : Nat)
  /-- VF_QUERY (R420): Returns a virtual function's state and grants. -/
  | vfQuery (i : Issuer) (n : Nat)
  /-- VF_FLR (R411): A function-level reset of a virtual function, or clearing VF Enable, runs the reset steps of R411. -/
  | vfFlr (fn : Option Nat)
  /-- PF_FLR (R413): A function-level reset of the physical function stops its non-persistent queues and tenant contexts while class 0 work runs on. -/
  | pfFlr
  /-- HOT_RESET (R423): A PCIe hot reset or link down resets the link and configuration space and then the physical function. -/
  | hotReset
  /-- MBX_DOORBELL (R416): A mailbox doorbell write takes, repeats, ignores or refuses a command by its SEQ. -/
  | mbxDoorbell (fn m seq : Nat) (h : MbxHeader)
  /-- MBX_NOP (R420): Replies OK with an empty body. -/
  | mbxNop (i : Issuer)
  /-- MBX_VERSION (R420): Returns the protocol versions accepted and the firmware version. -/
  | mbxVersion (i : Issuer)
  /-- POWER_ON (R423): Power-on from the supply monitors resets the whole package and clears the retained store. -/
  | powerOn
  /-- RESET_N_ASSERT (R424): RESET_N held low for 250 samples starts a full reset. -/
  | resetNAssert (samples : Nat)
  /-- PERST_N_ASSERT (R424): PERST_N held low for 25 samples starts a full or host-scope reset. -/
  | perstNAssert (samples : Nat)
  /-- RST_FULL (R446): A keyed write of RST_FULL starts a full reset. -/
  | rstFull (v : W32)
  /-- RESET_RELEASE (R429): The last reset source releases and the fixed release sequence brings up the domains to mailbox 0 READY. -/
  | resetRelease (code : Nat) (stackNos dies : List Nat)
  /-- FW_LOAD_BEGIN (R438): Starts staging a firmware bundle of TOTAL bytes with the overlays for choice 0. -/
  | fwLoadBegin (i : Issuer) (total : Nat) (names : List Nat)
  /-- FW_LOAD_CHUNK (R439): Writes a chunk of the staged bundle inline or read from the host window. -/
  | fwLoadChunk (i : Issuer) (off len mode : Nat) (data : ExtData)
  /-- FW_LOAD_END (R440): Checks the staged bundle, measures it, applies overlays and starts or holds firmware. -/
  | fwLoadEnd (i : Issuer) (gib : Nat) (cert : List Byte)
  /-- CFG_QUERY (R444): Returns the strap, overlays, requested item values and configuration measurement. -/
  | cfgQuery (i : Issuer) (items : List Nat)
  /-- RST_BLOCK (R445): Holds or releases one block in reset. -/
  | rstBlock (i : Issuer) (b : RstBlock) (hold : Bool)
  /-- SEC_REGION_SET (R451): Sets, disables or queries a region filter. -/
  | secRegionSet (i : Issuer) (f action flags base limit : Nat)
  /-- ATT_REPORT (R460): Returns a signed attestation report with a nonce and log entries. -/
  | attReport (i : Issuer) (nonce : List Byte) (first count : Nat)
  /-- IDENTITY_DERIVATION (R453): Armoire finishes deriving the identity key, or fails after two retries. -/
  | identityDerivation (ok : Bool)
  /-- DEBUG_ACCESS (R455): Use of the IEEE 1687 network erases the identity key and logs index 10. -/
  | debugAccess
  /-- GET_VERSION (R459): Answers an SPDM GET_VERSION request. -/
  | getVersion (req : List Byte)
  /-- GET_CAPABILITIES (R459): Answers an SPDM GET_CAPABILITIES request. -/
  | getCapabilities (req : List Byte)
  /-- NEGOTIATE_ALGORITHMS (R459): Answers an SPDM NEGOTIATE_ALGORITHMS request. -/
  | negotiateAlgorithms (req : List Byte)
  /-- GET_DIGESTS (R459): Answers an SPDM GET_DIGESTS request. -/
  | getDigests (req : List Byte)
  /-- GET_CERTIFICATE (R459): Answers an SPDM GET_CERTIFICATE request for slot 0. -/
  | getCertificate (req : List Byte)
  /-- CHALLENGE (R459): Answers an SPDM CHALLENGE request. -/
  | challenge (req : List Byte)
  /-- GET_MEASUREMENTS (R459): Answers an SPDM GET_MEASUREMENTS request with signed measurement blocks. -/
  | getMeasurements (req : List Byte)
  /-- SET_CERTIFICATE (R454): Accepts a host certificate chain for slot 0 when the leaf carries the identity key. -/
  | setCertificate (req : List Byte)
  /-- SVC_FENCE (R466): Fences an in-service unit. -/
  | svcFence (i : Issuer) (kind n col : Nat)
  /-- SVC_TEST (R466): Starts a test of a fenced unit. -/
  | svcTest (i : Issuer) (kind n col : Nat)
  /-- SVC_RETURN (R466): Returns a fenced unit that passed its test to service. -/
  | svcReturn (i : Issuer) (kind n col : Nat)
  /-- SVC_RETIRE (R466): Retires a fenced unit until a full reset. -/
  | svcRetire (i : Issuer) (kind n col : Nat)
  /-- UNIT_TEST_DONE (R466): A unit test ends, LAST_TEST is set and UNIT_TEST_DONE is posted. -/
  | unitTestDone (kind n : Nat) (pass : Bool)
  /-- AUTO_FENCE (R464): Firmware fences a unit within 50 µs of a fault that R462 names for automatic fencing. -/
  | autoFence
  /-- SRAM_UE (R462): An uncorrectable scratchpad, drain-buffer or register-file error poisons the reader's task and fences the cluster. -/
  | sramUe (c : Nat) (line : Option Nat) (slot : Nat)
  /-- D2D_LINK_FAILURE (R15): A die-to-die link fails and the die's three regions are fenced. -/
  | d2dLinkFailure (d : Nat)
  /-- PORT_FAILURE (R462): A port loses lock for 1 s or exceeds the FEC error rate and is fenced automatically. -/
  | portFailure (p : Nat)
  /-- STACK_MOVE_DONE (R468): The move of a stack's granules to other stacks after a repack or region loss completes. -/
  | stackMoveDone (t : Nat)
  /-- FW_RESTART (R474): Restarts the current firmware image or starts the held bundle. -/
  | fwRestart (i : Issuer) (mode : Nat)
  /-- WATCHDOG_EXPIRY (R470): The Sideboard watchdog expires and firmware restarts through the ROM, or awaits a bundle after repeated expiries. -/
  | watchdogExpiry
  /-- THERMAL_TRIP (R488): A sensor reaches 115 °C, THERMTRIP_N goes low and the package is held in full reset. -/
  | thermalTrip
  /-- TRIP_HOLD_END (R487): The removed rails return and stay in range for 1 ms, ending the trip hold and starting the release sequence. -/
  | tripHoldEnd (hot : Bool) (code : Nat) (stackNos dies : List Nat)
  /-- RAIL_UNDERVOLTAGE (R487): A monitored rail below its range for more than 2 µs starts a power-on reset. -/
  | railUndervoltage (k uv ns : Nat)
  /-- HBM_REFRESH (R226): At each fixed refresh interval the HBM controller refreshes the next bank of its stack in ascending order. -/
  | hbmRefresh (t : Nat)
  /-- PROGRAM_OR_ERASE_FAILURE (R279): A NAND program or erase fails, the block is marked grown bad and may deplete the free reserve. -/
  | programOrEraseFailure (blk gib : Nat)
  /-- PCIE_LINK_TRAINED (R386): PCIe link training completes and the link comes up at its negotiated rate and width in PCI_LINK_STATUS. -/
  | pcieLinkTrained (speed width : Nat) (flit : Bool)
  /-- DOE_DISCOVERY (R459): Firmware answers a DOE discovery (type 0) request on the physical function's Data Object Exchange capability. -/
  | doeDiscovery (index : Nat)
  /-- SPDM_UNSUPPORTED_REQUEST (R459): An SPDM request outside the supported set is answered ERROR UnsupportedRequest. -/
  | spdmUnsupportedRequest (req : List Byte)
  /-- FAPI_OTHER_MESSAGE (R311): A FAPI message of an unsupported type is answered with ERROR.indication MSG_INVALID_STATE and otherwise ignored. -/
  | fapiOtherMessage (es : List (List Byte))
  /-- PEWTER_ILLEGAL_OP (R111): A Pewter instruction whose OP the instruction list does not define is not executed and faults as ILLEGAL_OP. -/
  | pewterIllegalOp (u : Nat)
  /-- TRESTLE_ILLEGAL_OP (R55): A tile-op record with OPC 0x8 to 0xF is not executed and faults as ILLEGAL_OP, discarding the rest of its program. -/
  | trestleIllegalOp (c : Nat)
  /-- TIN_ILLEGAL_INSTRUCTION (R161): A Tin instruction with an undefined or unlisted custom encoding, or a privileged instruction, faults as ILLEGAL. -/
  | tinIllegalInstruction (m : Nat)
  deriving DecidableEq, Repr

end Sys2Proof
end

