-- ==== Sys2Proof/Decode.lean ====
section
/-! DEFINITION. The decoder of the command table. spec/opcode_table.json gives no row any bits: a command is no word, it comes from
outside by the interfaces that its rule names, so no word spells one. -/

namespace Sys2Proof

/-- The command that a word spells by the table's bits: no row of the table has bits. -/
def decodeTableWord (_nbits _w : Nat) : Option Instr := none

end Sys2Proof
end

