-- ==== Sys2Proof/Machine/Shake.lean ====
section
/-! DEFINITION. SHAKE256 and SHA3-512 (R453, R457 to R459), as FIPS 202 gives them. PRESUMED: the spec names them (log 27). -/

namespace Sys2Proof

/-- Lane (x, y) of the state. -/
def lane (a : List W64) (x y : Nat) : W64 := nth 0 a (x % 5 + 5 * (y % 5))

/-- Round constants. -/
def keccakRC : List W64 :=
  [0x0000000000000001, 0x0000000000008082, 0x800000000000808A, 0x8000000080008000, 0x000000000000808B, 0x0000000080000001,
   0x8000000080008081, 0x8000000000008009, 0x000000000000008A, 0x0000000000000088, 0x0000000080008009, 0x000000008000000A,
   0x000000008000808B, 0x800000000000008B, 0x8000000000008089, 0x8000000000008003, 0x8000000000008002, 0x8000000000000080,
   0x000000000000800A, 0x800000008000000A, 0x8000000080008081, 0x8000000000008080, 0x0000000080000001, 0x8000000080008008]

/-- Rotation of lane x + 5 y. -/
def keccakRot : List Nat :=
  [0, 1, 62, 28, 27, 36, 44, 6, 55, 20, 3, 10, 43, 25, 39, 41, 45, 15, 21, 8, 18, 2, 61, 56, 14]

/-- A list of 25 lanes from its function. -/
def lanes (f : Nat → Nat → W64) : List W64 := (List.range 25).map fun i => f (i % 5) (i / 5)

/-- One round: θ, ρ and π, χ, ι. -/
def keccakRound (a : List W64) (rc : W64) : List W64 :=
  let c := (List.range 5).map fun x => lane a x 0 ^^^ lane a x 1 ^^^ lane a x 2 ^^^ lane a x 3 ^^^ lane a x 4
  let d := (List.range 5).map fun x => nth 0 c ((x + 4) % 5) ^^^ (nth 0 c ((x + 1) % 5)).rotateLeft 1
  let t := lanes fun x y => lane a x y ^^^ nth 0 d x
  let b := lanes fun x y =>
    let u := (x + 3 * y) % 5
    (lane t u x).rotateLeft (nth 0 keccakRot (u + 5 * x))
  let e := lanes fun x y => lane b x y ^^^ (~~~ lane b (x + 1) y &&& lane b (x + 2) y)
  match e with
  | [] => []
  | h :: r => (h ^^^ rc) :: r

/-- The permutation of 24 rounds. -/
def keccakF (a : List W64) : List W64 := keccakRC.foldl keccakRound a

/-- Absorbs one block of a whole number of lanes. -/
def absorb (a : List W64) (block : List Byte) : List W64 :=
  keccakF (lanes fun x y =>
    let i := x + 5 * y
    lane a x y ^^^ BitVec.ofNat 64 (if 8 * i < block.length then word64At block (8 * i) else 0))

/-- Absorbs n blocks of r bytes. -/
def absorbAll (r : Nat) (a : List W64) (bs : List Byte) : Nat → List W64
  | 0 => a
  | n + 1 => absorbAll r (absorb a (bs.take r)) (bs.drop r) n

/-- The first r bytes of the state. -/
def squeezeBlock (r : Nat) (a : List W64) : List Byte := (a.flatMap fun w => toLE 8 w.toNat).take r

/-- Squeezes n blocks. -/
def squeeze (r : Nat) (a : List W64) : Nat → List Byte
  | 0 => []
  | n + 1 => squeezeBlock r a ++ squeeze r (keccakF a) n

/-- The padded message: the suffix byte, zeros and the final bit. -/
def keccakPad (r sfx : Nat) (m : List Byte) : List Byte :=
  let n := r - m.length % r
  let t := BitVec.ofNat 8 sfx :: List.replicate (n - 1) 0
  m ++ t.dropLast ++ [(t.getLast?.getD 0) ||| 0x80]

/-- The sponge with rate r. -/
def sponge (r sfx : Nat) (m : List Byte) (out : Nat) : List Byte :=
  let p := keccakPad r sfx m
  (squeeze r (absorbAll r (List.replicate 25 0) p (p.length / r)) (ceilDiv out r)).take out

/-- SHAKE256 with `out` output bytes. -/
def shake256 (m : List Byte) (out : Nat) : List Byte := sponge 136 0x1F m out
/-- SHA3-512. -/
def sha3_512 (m : List Byte) : List Byte := sponge 72 0x06 m 64

end Sys2Proof
end

