-- ==== Sys2Proof/Machine/Ed448.lean ====
section
/-! DEFINITION. Ed448 with an empty context (R378, R437, R453, R460), as RFC 8032 gives it. PRESUMED: the spec names it (log 27). -/

namespace Sys2Proof

/-- The field prime 2^448 − 2^224 − 1. -/
def edP : Nat := 2 ^ 448 - 2 ^ 224 - 1
/-- The group order. -/
def edL : Nat := 2 ^ 446 - 13818066809895115352007386748515426880336692474882178609894547503885
/-- −39081 in the field. -/
def edD : Nat := edP - 39081

/-- A power in the field: `n` bits of the exponent from the low end. -/
def edPow : Nat → Nat → Nat → Nat
  | 0, _, _ => 1
  | n + 1, b, e => (if e % 2 = 1 then b else 1) * edPow n (b * b % edP) (e / 2) % edP

/-- Subtraction in the field. -/
def edSub (a b : Nat) : Nat := (a + edP - b % edP) % edP

/-- A point in projective coordinates. -/
structure EdPoint where
  x : Nat
  y : Nat
  z : Nat
  deriving DecidableEq, Repr

/-- The neutral point. -/
def edZero : EdPoint := ⟨0, 1, 1⟩
/-- The base point. -/
def edBase : EdPoint :=
  ⟨224580040295924300187604334099896036246789641632564134246125461686950415467406032909029192869357953282578032075146446173674602635247710,
   298819210078481492676017930443930673437544040154080242095928241372331506189835876003536878655418784733982303233503462500531545062832660, 1⟩

/-- The complete addition of RFC 8032. -/
def edAdd (p q : EdPoint) : EdPoint :=
  let a := p.z * q.z % edP
  let b := a * a % edP
  let c := p.x * q.x % edP
  let d := p.y * q.y % edP
  let e := edD * c % edP * d % edP
  let f := edSub b e
  let g := (b + e) % edP
  let h := (p.x + p.y) * (q.x + q.y) % edP
  ⟨a * f % edP * edSub (edSub h c) d % edP, a * g % edP * edSub d c % edP, f * g % edP⟩

/-- k times a point, `n` bits of k from the low end. -/
def edMul : Nat → Nat → EdPoint → EdPoint
  | 0, _, _ => edZero
  | n + 1, k, p => let r := edMul n (k / 2) (edAdd p p); if k % 2 = 1 then edAdd p r else r

/-- Equality of points. -/
def edEq (p q : EdPoint) : Bool := p.x * q.z % edP == q.x * p.z % edP && p.y * q.z % edP == q.y * p.z % edP

/-- The 57-byte encoding of a point. -/
def edEncode (p : EdPoint) : List Byte :=
  let i := edPow 448 p.z (edP - 2)
  toLE 57 (p.y * i % edP + 2 ^ 455 * (p.x * i % edP % 2))

/-- Decodes a point. -/
def edDecode (bs : List Byte) : Option EdPoint :=
  let w := fromLE bs
  let y := w % 2 ^ 455
  let sign := w / 2 ^ 455
  if bs.length ≠ 57 ∨ edP ≤ y then none
  else
    let u := edSub (y * y % edP) 1
    let v := edSub (edD * y % edP * y % edP) 1
    let u3v := u * u % edP * u % edP * v % edP
    let x := u3v * edPow 448 (u3v * u % edP * u % edP * v % edP * v % edP) ((edP - 3) / 4) % edP
    if v * x % edP * x % edP ≠ u then none
    else if x = 0 ∧ sign = 1 then none
    else some ⟨if x % 2 = sign then x else edP - x, y, 1⟩

/-- SHAKE256 of dom4 for the pure variant with an empty context and a message, as a scalar. -/
def edHash (m : List Byte) : Nat :=
  let dom : List Byte := [0x53, 0x69, 0x67, 0x45, 0x64, 0x34, 0x34, 0x38, 0, 0]
  fromLE (shake256 (dom ++ m) 114) % edL

/-- The secret scalar and the hash half of a 57-byte seed. -/
def edSecret (seed : List Byte) : Nat × List Byte :=
  let h := shake256 seed 114
  let s := fromLE (h.take 56)
  (s % 2 ^ 447 / 4 * 4 + 2 ^ 447, h.drop 57)

/-- The public key of a seed. -/
def ed448Public (seed : List Byte) : List Byte := edEncode (edMul 448 (edSecret seed).1 edBase)

/-- The signature by a seed's key. -/
def ed448Sign (seed m : List Byte) : List Byte :=
  let (s, pre) := edSecret seed
  let a := ed448Public seed
  let r := edHash (pre ++ m)
  let rb := edEncode (edMul 446 r edBase)
  let k := edHash (rb ++ a ++ m)
  rb ++ toLE 57 ((r + k * s) % edL)

/-- Whether a signature holds: public key, message, signature. -/
def ed448Verify (pub m sig : List Byte) : Bool :=
  let s := fromLE (sig.drop 57)
  if sig.length ≠ 114 ∨ edL ≤ s then false
  else
    match edDecode pub, edDecode (sig.take 57) with
    | some a, some r =>
      let k := edHash (sig.take 57 ++ pub ++ m)
      let four (p : EdPoint) : EdPoint := edMul 3 4 p
      edEq (four (edMul 446 s edBase)) (edAdd (four r) (four (edMul 446 k a)))
    | _, _ => false

end Sys2Proof
end

