-- ==== Sys2Proof/Config.lean ====
section
/-! DEFINITION. The free values of the model: constants with no body, one for each value that the spec leaves open. Nothing can
evaluate them, and a theorem about the model holds whatever they are. Where a free value may differ each time, its argument is
the model's own counter State.nonce, which the meaning advances. -/

namespace Sys2Proof.Config

/-- A value that no rule states, fresh at each use: argument the counter State.nonce. -/
opaque freeValue : Nat → Nat

/-- DETAIL of a refusal whose body layout the spec does not give (R415): command code and status. -/
opaque detail : Nat → Nat → Nat

/-- Whether a LENGTH is the length of a command whose body layout the spec does not give (R416): command code and length. -/
opaque lengthOk : Nat → Nat → Bool

/-- The 57-byte secret that the physically unclonable function of a die gives (R453). -/
opaque identitySeed : List Byte

/-- The public key in the leaf of an X.509 certificate chain (R454). -/
opaque leafKey : List Byte → List Byte

/-- Values that an SPDM responder chooses: CTExponent, DataTransferSize, MaxSPDMmsgSize (R459). -/
opaque spdmSize : Nat → Nat

/-- The mask ROM's contents (R457). -/
opaque maskRom : List Byte

/-- The root public keys of the mask ROM, by index (R437, R440). -/
opaque rootKey : Nat → List Byte

/-- Banks that an HBM3E stack refreshes in turn (R226): the spec does not give their number. -/
opaque hbmBanks : Nat

/-- The lifting size that TS 38.212 implies for a base graph, A, CRC and C (R305). -/
opaque impliedZc : Nat → Nat → Nat → Nat → Nat

/-- The circular-buffer position of received value i of code block r under TS 38.212, by job descriptor words (R309). -/
opaque ratePos : List Nat → Nat → Nat → Nat

/-- Whether code block r passes (R306): job descriptor words and the soft values of its blocks. -/
opaque brzPass : List Nat → List (List Byte) → Nat → Bool

/-- Whether the transport-block CRC of a job of several blocks passes. -/
opaque brzTbCrc : List Nat → List (List Byte) → Bool

/-- Iterations that a decode of block r takes with early stop. -/
opaque brzIters : List Nat → List (List Byte) → Nat → Nat

/-- Payload bytes of a decode. -/
opaque brzDecode : List Nat → List (List Byte) → List Byte

/-- Rate-matched bytes of an encode of a payload. -/
opaque brzEncode : List Nat → List Byte → List Byte

/-- The register blocks that firmware grants a context of L1 firmware (R143): context and register address. -/
opaque l1Block : Nat → Nat → Bool

/-- The vl that vsetvl gives an AVL between VLMAX and 2 VLMAX (R130: the V extension leaves it between ⌈AVL / 2⌉ and VLMAX): AVL and
VLMAX. -/
opaque vlChoice : Nat → Nat → Nat

/-- Whether an agnostic element of a destination is overwritten with ones (R130): instruction word and element. -/
opaque agnosticOnes : Nat → Nat → Bool

end Sys2Proof.Config
end

