-- ==== Sys2Proof/Machine/RegMap.lean ====
section
/-! DEFINITION. The register map: for every register of the spec's register tables its BAR0 byte address as a function of
its instance numbers (R2), and one row with its access type (R5), its writable bits and its reset value. A 64-bit pair has one
address function, that of its low word, and the high word stands 4 above it (R8). The I3C target's registers (R493) are not in
BAR0 and are numbered from 2^48. -/

namespace Sys2Proof.Machine

/-- The access types of R5. -/
inductive Access where
  | rw | ro | w1c | w1s | wo | rwl
  deriving DecidableEq, Repr

/-- One register, or one array of registers, of a register table: `dims` are its instance counts and strides, `wr` the bits a
write sets (RW), `clr` the bits a written 1 clears (W1C), `cfg` the bits a write sets only in the configuration state (RWL). -/
structure RegRow where
  name : String
  base : Nat
  dims : List (Nat × Nat)
  acc : Access
  wr : Nat
  clr : Nat
  cfg : Nat
  reset : Nat
  deriving DecidableEq, Repr

namespace Reg

/-! ### 01_device_anatomy.md -/

def SBD_SIZE_SEQ : Nat := 0x100
def SBD_SIZE_FORMAT : Nat := 0x104
def SBD_SIZE_CLUSTERS : Nat := 0x108
def SBD_SIZE_REGIONS : Nat := 0x10c
def SBD_SIZE_BRONZE : Nat := 0x110
def SBD_SIZE_SHAPE : Nat := 0x118
def SBD_SIZE_TRESTLE_SPARE : Nat := 0x11c
def SBD_SIZE_NAND : Nat := 0x120
def SBD_SIZE_PORTS : Nat := 0x124
def SBD_SIZE_HBM_GIB : Nat := 0x128
def SBD_SIZE_FLASH_GIB : Nat := 0x12c
def SBD_SIZE_QUEUES : Nat := 0x130
def SBD_SIZE_FUNCS : Nat := 0x134
def SBD_SIZE_CABINET : Nat := 0x138
def SBD_SIZE_CONTEXTS : Nat := 0x13c
/-! ### 02_trestle_dataflow.md -/

def TRS_CTRL (c : Nat) : Nat := 0x1010000 + 0x80000 * c
def TRS_STATUS (c : Nat) : Nat := 0x1010004 + 0x80000 * c
def TRS_FAULT (c : Nat) : Nat := 0x1010008 + 0x80000 * c
def TRS_FAULT_TAG (c : Nat) : Nat := 0x101000c + 0x80000 * c
def TRS_PORT_RR (c : Nat) : Nat := 0x1010010 + 0x80000 * c
def TRS_ROWS_VALID (c : Nat) : Nat := 0x1010020 + 0x80000 * c
def TRS_BUBBLES_DRY (c : Nat) : Nat := 0x1010028 + 0x80000 * c
def TRS_BUBBLES_DRAIN (c : Nat) : Nat := 0x1010030 + 0x80000 * c
def TRS_BUBBLES_PORT (c : Nat) : Nat := 0x1010038 + 0x80000 * c
def TRS_LOAD_WAIT (c : Nat) : Nat := 0x1010040 + 0x80000 * c
def TRS_PREEMPT (c : Nat) : Nat := 0x1010048 + 0x80000 * c
def TRS_RELOADS (c : Nat) : Nat := 0x1010050 + 0x80000 * c
/-! ### 04_pewter_lanes.md -/

def PWT_CTRL (c k : Nat) : Nat := 0x1020000 + 0x80000 * c + 0x1000 * k
def PWT_STATUS (c k : Nat) : Nat := 0x1020004 + 0x80000 * c + 0x1000 * k
def PWT_FAULT (c k : Nat) : Nat := 0x1020008 + 0x80000 * c + 0x1000 * k
def PWT_FAULT_PC (c k : Nat) : Nat := 0x102000c + 0x80000 * c + 0x1000 * k
def PWT_PUSH_RR (c k : Nat) : Nat := 0x1020010 + 0x80000 * c + 0x1000 * k
def PWT_INSNS (c k : Nat) : Nat := 0x1020020 + 0x80000 * c + 0x1000 * k
def PWT_SAT (c k : Nat) : Nat := 0x1020028 + 0x80000 * c + 0x1000 * k
def PWT_STALL_MEM (c k : Nat) : Nat := 0x1020030 + 0x80000 * c + 0x1000 * k
def PWT_PREEMPT (c k : Nat) : Nat := 0x1020038 + 0x80000 * c + 0x1000 * k
def PWT_TILE_LIMIT (c k : Nat) : Nat := 0x1020040 + 0x80000 * c + 0x1000 * k
/-! ### 05_tin_cores_and_latches.md -/

def LAT_COUNT (c i : Nat) : Nat := 0x1030000 + 0x80000 * c + 0x4 * i
def LAT_OWNER (c i : Nat) : Nat := 0x1030400 + 0x80000 * c + 0x4 * i
def LAT_OVERFLOW (c i : Nat) : Nat := 0x1030480 + 0x80000 * c + 0x4 * i
def LAT_WAITING (c i : Nat) : Nat := 0x10304a0 + 0x80000 * c + 0x4 * i
def LAT_SIGNALS (c : Nat) : Nat := 0x10304c0 + 0x80000 * c
def LAT_WAITS (c : Nat) : Nat := 0x10304c8 + 0x80000 * c
def LAT_PASSES (c : Nat) : Nat := 0x10304d0 + 0x80000 * c
def TIN_CTRL (c m : Nat) : Nat := 0x1040000 + 0x80000 * c + 0x1000 * m
def TIN_STATUS (c m : Nat) : Nat := 0x1040004 + 0x80000 * c + 0x1000 * m
def TIN_FAULT (c m : Nat) : Nat := 0x1040008 + 0x80000 * c + 0x1000 * m
def TIN_FAULT_PC (c m : Nat) : Nat := 0x1040010 + 0x80000 * c + 0x1000 * m
def TIN_FAULT_ADDR (c m : Nat) : Nat := 0x1040018 + 0x80000 * c + 0x1000 * m
def TIN_ISSUE_RR (c m : Nat) : Nat := 0x1040020 + 0x80000 * c + 0x1000 * m
def TIN_THREAD_STATE (c m i : Nat) : Nat := 0x1040040 + 0x80000 * c + 0x1000 * m + 0x4 * i
def TIN_INSNS (c m : Nat) : Nat := 0x1040080 + 0x80000 * c + 0x1000 * m
def TIN_EXT_ACCESS (c m : Nat) : Nat := 0x1040088 + 0x80000 * c + 0x1000 * m
def TIN_PARK_CYCLES (c m : Nat) : Nat := 0x1040090 + 0x80000 * c + 0x1000 * m
def TIN_DMISS (c m : Nat) : Nat := 0x1040098 + 0x80000 * c + 0x1000 * m
def TIN_LATE_DROP (c m : Nat) : Nat := 0x10400a0 + 0x80000 * c + 0x1000 * m
/-! ### 06_task_graphs.md -/

def CAB_CTRL : Nat := 0x200000
def CAB_STATUS : Nat := 0x200004
def CAB_CLASS_WEIGHT_A : Nat := 0x200008
def CAB_CLASS_WEIGHT_B : Nat := 0x20000c
def CAB_DISPATCHED : Nat := 0x200020
def CAB_COMPLETED : Nat := 0x200028
def CAB_REFUSED : Nat := 0x200030
def CAB_STALE_FGEN_DROP : Nat := 0x200038
def CAB_LATE_DROP : Nat := 0x200040
def CAB_EVENT_DROP : Nat := 0x200048
def CAB_DEADLINE_MISS : Nat := 0x200050
def CAB_BAR_CFG (b : Nat) : Nat := 0x210000 + 0x10 * b
def CAB_BAR_STATE (b : Nat) : Nat := 0x210004 + 0x10 * b
def CAB_BAR_EARLY (b : Nat) : Nat := 0x210008 + 0x10 * b
def CAB_BAR_AGE_US (b : Nat) : Nat := 0x21000c + 0x10 * b
def CAB_CTX_CTRL (x : Nat) : Nat := 0x280000 + 0x80 * x
def CAB_CTX_INFO (x : Nat) : Nat := 0x280004 + 0x80 * x
def CAB_CTX_SLOT_BASE (x : Nat) : Nat := 0x280008 + 0x80 * x
def CAB_CTX_SLOT_COUNT (x : Nat) : Nat := 0x28000c + 0x80 * x
def CAB_CTX_WAITING (x : Nat) : Nat := 0x280010 + 0x80 * x
def CAB_CTX_READY (x : Nat) : Nat := 0x280014 + 0x80 * x
def CAB_CTX_RUNNING (x : Nat) : Nat := 0x280018 + 0x80 * x
def CAB_CTX_EXT_HBM (x : Nat) : Nat := 0x28001c + 0x80 * x
def CAB_CTX_EXT_HOST (x : Nat) : Nat := 0x280020 + 0x80 * x
def CAB_CTX_EXT_REG (x : Nat) : Nat := 0x280024 + 0x80 * x
def CAB_CTX_EXT_SOLDER (x : Nat) : Nat := 0x280028 + 0x80 * x
def CAB_CTX_EXT_OLDEST_US (x : Nat) : Nat := 0x28002c + 0x80 * x
def CAB_CTX_EXT_ALARM_US (x : Nat) : Nat := 0x280030 + 0x80 * x
def CAB_CTX_EVQ (x : Nat) : Nat := 0x280034 + 0x80 * x
def CAB_CTX_DISPATCHED (x : Nat) : Nat := 0x280038 + 0x80 * x
def CAB_CTX_COMPLETED (x : Nat) : Nat := 0x280040 + 0x80 * x
def CAB_CTX_FAULTED (x : Nat) : Nat := 0x280048 + 0x80 * x
def CAB_CTX_REFUSED (x : Nat) : Nat := 0x280050 + 0x80 * x
def CAB_CTX_LAST_DONE (x : Nat) : Nat := 0x280058 + 0x80 * x
/-! ### 07_radio_first_sharing.md -/

def CAB_RES_SUMMARY (c : Nat) : Nat := 0x220000 + 0x100 * c
def CAB_RES_IDLE_US (c : Nat) : Nat := 0x220004 + 0x100 * c
def CAB_RES_ALLBLK_US (c : Nat) : Nat := 0x220008 + 0x100 * c
def CAB_RES_EPOCH (c : Nat) : Nat := 0x22000c + 0x100 * c
def CAB_RES_SLOT (c i : Nat) : Nat := 0x220010 + 0x100 * c + 0x4 * i
def CAB_RES_RUN (c i : Nat) : Nat := 0x220030 + 0x100 * c + 0x4 * i
def CAB_RES_ALLBLK_AGE_US (c : Nat) : Nat := 0x220050 + 0x100 * c
def CAB_RES_WAKES (c : Nat) : Nat := 0x220058 + 0x100 * c
def CAB_RES_ALLBLK_CNT (c : Nat) : Nat := 0x220060 + 0x100 * c
def CAB_SLK_CTRL (g : Nat) : Nat := 0x230000 + 0x20 * g
def CAB_SLK_THRESH_NS (g : Nat) : Nat := 0x230004 + 0x20 * g
def CAB_SLK_REMAIN_NS (g : Nat) : Nat := 0x230008 + 0x20 * g
def CAB_SLK_SLACK_NS (g : Nat) : Nat := 0x23000c + 0x20 * g
def CAB_SLK_DEADLINE (g : Nat) : Nat := 0x230010 + 0x20 * g
def CAB_SLK_LOW (g : Nat) : Nat := 0x230018 + 0x20 * g
def BIM_CTRL : Nat := 0x300000
def BIM_PKG_LIMIT_W : Nat := 0x300004
def BIM_BASE_LOAD : Nat := 0x300008
def BIM_TEMP_MAX : Nat := 0x30000c
def BIM_PHI : Nat := 0x300010
def BIM_LAMBDA : Nat := 0x300014
def BIM_TENANT_POOL : Nat := 0x300018
def BIM_STEP_DOWN_US : Nat := 0x30001c
def BIM_STEP_UP_US : Nat := 0x300020
def BIM_CREDIT_WAIT : Nat := 0x300040
def BIM_C0_OVERDRAW : Nat := 0x300048
def BIM_STERLING_THROTTLE : Nat := 0x300050
def BIM_SENSOR (i : Nat) : Nat := 0x300200 + 0x4 * i
def BIM_REG_WEIGHT (r : Nat) : Nat := 0x301000 + 0x100 * r
def BIM_REG_FLOOR (r : Nat) : Nat := 0x301004 + 0x100 * r
def BIM_REG_STEP (r : Nat) : Nat := 0x301008 + 0x100 * r
def BIM_REG_C0_RESERVE (r : Nat) : Nat := 0x30100c + 0x100 * r
def BIM_REG_C0_BUCKET (r : Nat) : Nat := 0x301010 + 0x100 * r
def BIM_REG_CREDIT (r : Nat) : Nat := 0x301014 + 0x100 * r
def BIM_REG_CAP (r : Nat) : Nat := 0x301018 + 0x100 * r
def BIM_REG_STERLING_ALLOT (r : Nat) : Nat := 0x30101c + 0x100 * r
/-! ### 08_sterling_and_checked_results.md -/

def CAB_STL_STATE (x : Nat) : Nat := 0x240000 + 0x20 * x
def CAB_STL_RING_ENTRIES (x : Nat) : Nat := 0x240004 + 0x20 * x
def CAB_STL_RING_BASE (x : Nat) : Nat := 0x240008 + 0x20 * x
def CAB_STL_PROD (x : Nat) : Nat := 0x240010 + 0x20 * x
def CAB_STL_CONS (x : Nat) : Nat := 0x240014 + 0x20 * x
def CAB_STL_START_T (x : Nat) : Nat := 0x240018 + 0x20 * x
def CAB_STL_CHAIN_CTRL : Nat := 0x260000
def CAB_STL_CHAIN_GO : Nat := 0x260004
def CAB_STL_CHAIN_RING : Nat := 0x260008
def CAB_STL_CHAIN_COMP : Nat := 0x26000c
def CAB_STL_STARTS : Nat := 0x260010
def CAB_STL_LATE : Nat := 0x260018
def CAB_STL_ND_REFUSED : Nat := 0x260020
def CAB_STL_LATE_MARK : Nat := 0x260028
def CAB_STL_RING_STALL : Nat := 0x260030
def TRS_CHK_CTRL (c : Nat) : Nat := 0x1010100 + 0x80000 * c
def TRS_CHK_TOL (c : Nat) : Nat := 0x1010104 + 0x80000 * c
def TRS_CHK_SPARE (c : Nat) : Nat := 0x1010108 + 0x80000 * c
def TRS_CHK_TILES (c : Nat) : Nat := 0x1010110 + 0x80000 * c
def TRS_CHK_MISMATCH (c : Nat) : Nat := 0x1010118 + 0x80000 * c
def TRS_CHK_TRANSIENT (c : Nat) : Nat := 0x1010120 + 0x80000 * c
def TRS_CHK_SPARE_MAPS (c : Nat) : Nat := 0x1010128 + 0x80000 * c
def TRS_CHK_UNRESOLVED (c : Nat) : Nat := 0x1010130 + 0x80000 * c
/-! ### 09_memory_tiers.md -/

def BUR_CTRL : Nat := 0xe00000
def BUR_STATUS : Nat := 0xe00004
def BUR_RD_LIMIT : Nat := 0xe00008
def BUR_PATROL_H : Nat := 0xe0000c
def BUR_REFRESH_BITS : Nat := 0xe00010
def BUR_MAINT_PCT : Nat := 0xe00014
def BUR_REBUILD_PCT : Nat := 0xe00018
def BUR_WEAR_SPREAD : Nat := 0xe0001c
def BUR_FREE_GIB : Nat := 0xe00020
def BUR_STAGE_MIB : Nat := 0xe00024
def BUR_RETRY : Nat := 0xe00040
def BUR_SOFT : Nat := 0xe00048
def BUR_REBUILT : Nat := 0xe00050
def BUR_POISONED_PAGES : Nat := 0xe00058
def BUR_RELOC_BLOCKS : Nat := 0xe00060
def BUR_GROWN_BAD : Nat := 0xe00068
def BUR_UNMAPPED : Nat := 0xe00070
def BUR_INSTALL_BYTES : Nat := 0xe00078
def DMW_CTRL : Nat := 0xe10000
def DMW_POOL_FREE : Nat := 0xe10004
def DMW_PRESENT : Nat := 0xe10008
def DMW_FILLING : Nat := 0xe1000c
def DMW_POISONED : Nat := 0xe10010
def DMW_FILLS : Nat := 0xe10020
def DMW_EVICTS : Nat := 0xe10028
def DMW_CANCELS : Nat := 0xe10030
def DMW_IGNORED : Nat := 0xe10038
def DMW_FILL_WAIT : Nat := 0xe10040
def DMW_HBM_REFETCH : Nat := 0xe10048
def NAND_CFG (n : Nat) : Nat := 0xc00000 + 0x10000 * n
def NAND_STATUS (n : Nat) : Nat := 0xc00004 + 0x10000 * n
def NAND_BAD_BLOCKS (n : Nat) : Nat := 0xc00008 + 0x10000 * n
def NAND_ERASE_RANGE (n : Nat) : Nat := 0xc0000c + 0x10000 * n
def NAND_READS (n : Nat) : Nat := 0xc00010 + 0x10000 * n
def NAND_CORR_BITS (n : Nat) : Nat := 0xc00018 + 0x10000 * n
def NAND_UNCORR (n : Nat) : Nat := 0xc00020 + 0x10000 * n
def HBM_STATUS (s : Nat) : Nat := 0x1c00000 + 0x40000 * s
def HBM_PC_PRESENT (s : Nat) : Nat := 0x1c00004 + 0x40000 * s
def HBM_CAPACITY_GIB (s : Nat) : Nat := 0x1c00008 + 0x40000 * s
def HBM_GRANULES_FREE (s : Nat) : Nat := 0x1c0000c + 0x40000 * s
def HBM_SCRUB_H (s : Nat) : Nat := 0x1c00010 + 0x40000 * s
def HBM_CE (s : Nat) : Nat := 0x1c00020 + 0x40000 * s
def HBM_UE (s : Nat) : Nat := 0x1c00028 + 0x40000 * s
def HBM_POISON_READS (s : Nat) : Nat := 0x1c00030 + 0x40000 * s
def HBM_MIRROR_FIXES (s : Nat) : Nat := 0x1c00038 + 0x40000 * s
/-! ### 10_serving_cells.md -/

def INV_NT_CTRL (t : Nat) : Nat := 0x401000 + 0x40 * t
def INV_NT_OFFSET_NS (t : Nat) : Nat := 0x401004 + 0x40 * t
def INV_NT_SYMLATCH (t : Nat) : Nat := 0x401008 + 0x40 * t
def INV_NT_NOW (t : Nat) : Nat := 0x40100c + 0x40 * t
def INV_NT_TICKS (t : Nat) : Nat := 0x401010 + 0x40 * t
def INV_NT_SKIPPED (t : Nat) : Nat := 0x401018 + 0x40 * t
def CAB_TPL_CFG (i : Nat) : Nat := 0x270000 + 0x20 * i
def CAB_TPL_INSTANCE (i : Nat) : Nat := 0x270004 + 0x20 * i
def CAB_TPL_SKIPPED (i : Nat) : Nat := 0x270008 + 0x20 * i
def CAB_TPL_LAST_TICK (i : Nat) : Nat := 0x270010 + 0x20 * i
def BRZ_CTRL (r k : Nat) : Nat := 0x1c10000 + 0x40000 * r + 0x1000 * k
def BRZ_STATUS (r k : Nat) : Nat := 0x1c10004 + 0x40000 * r + 0x1000 * k
def BRZ_FAULT (r k : Nat) : Nat := 0x1c10008 + 0x40000 * r + 0x1000 * k
def BRZ_FAULT_JOB (r k : Nat) : Nat := 0x1c10010 + 0x40000 * r + 0x1000 * k
def BRZ_BLOCKS (r k : Nat) : Nat := 0x1c10020 + 0x40000 * r + 0x1000 * k
def BRZ_CRC_FAIL (r k : Nat) : Nat := 0x1c10028 + 0x40000 * r + 0x1000 * k
def BRZ_ITERS (r k : Nat) : Nat := 0x1c10030 + 0x40000 * r + 0x1000 * k
def BRZ_BUSY_CYC (r k : Nat) : Nat := 0x1c10038 + 0x40000 * r + 0x1000 * k
def BRZ_FLUSH (r k : Nat) : Nat := 0x1c10040 + 0x40000 * r + 0x1000 * k
/-! ### 11_ports_traffic_time.md -/

def INV_CTRL : Nat := 0x400000
def INV_STATUS : Nat := 0x400004
def INV_NOW_W0 : Nat := 0x400008
def INV_NOW_W1 : Nat := 0x40000c
def INV_NOW_W2 : Nat := 0x400010
def INV_NOW64 : Nat := 0x400014
def INV_SET_W0 : Nat := 0x400020
def INV_SET_W1 : Nat := 0x400024
def INV_SET_W2 : Nat := 0x400028
def INV_SET_GO : Nat := 0x40002c
def INV_STEP : Nat := 0x400030
def INV_INCR_FRAC : Nat := 0x400038
def INV_INCR_INT : Nat := 0x40003c
def INV_INCR_NOM_FRAC : Nat := 0x400040
def INV_INCR_NOM_INT : Nat := 0x400044
def INV_SERVO_OFF : Nat := 0x400048
def INV_SERVO_KP : Nat := 0x400050
def INV_SERVO_KI : Nat := 0x400054
def INV_SERVO_STEP_NS : Nat := 0x400058
def INV_SERVO_HOLD_MS : Nat := 0x40005c
def INV_LOCK_NS : Nat := 0x400060
def INV_SERVO_I : Nat := 0x400064
def INV_LAST_OFF_NS : Nat := 0x400068
def INV_PPS_IN_W0 : Nat := 0x400070
def INV_PPS_IN_W1 : Nat := 0x400074
def INV_PPS_IN_W2 : Nat := 0x400078
def INV_STEPS : Nat := 0x400080
def INV_SAMPLES : Nat := 0x400088
def INV_PPS_EDGES : Nat := 0x400090
def INV_RCLK0_CFG : Nat := 0x400098
def INV_RCLK1_CFG : Nat := 0x40009c
def INV_SIG_DROP : Nat := 0x4000a0
def INV_TRG_CTRL (g : Nat) : Nat := 0x402000 + 0x40 * g
def INV_TRG_LATCH (g : Nat) : Nat := 0x402004 + 0x40 * g
def INV_TRG_T (g : Nat) : Nat := 0x402008 + 0x40 * g
def INV_TRG_PERIOD_NS (g : Nat) : Nat := 0x402010 + 0x40 * g
def INV_TRG_WIDTH_NS (g : Nat) : Nat := 0x402014 + 0x40 * g
def INV_TRG_STATUS (g : Nat) : Nat := 0x402018 + 0x40 * g
def INV_TRG_FIRED (g : Nat) : Nat := 0x402020 + 0x40 * g
def INV_TRG_SKIPPED (g : Nat) : Nat := 0x402028 + 0x40 * g
def ETH_CFG (p : Nat) : Nat := 0x800000 + 0x40000 * p
def ETH_CTRL (p : Nat) : Nat := 0x800004 + 0x40000 * p
def ETH_STATUS (p : Nat) : Nat := 0x800008 + 0x40000 * p
def ETH_LANE_CFG (p i : Nat) : Nat := 0x800010 + 0x40000 * p + 0x4 * i
def ETH_MAC_CFG (p k : Nat) : Nat := 0x801000 + 0x40000 * p + 0x400 * k
def ETH_MAC_ADDR (p k : Nat) : Nat := 0x801004 + 0x40000 * p + 0x400 * k
def ETH_TS_EGRESS_ADJ (p k : Nat) : Nat := 0x80100c + 0x40000 * p + 0x400 * k
def ETH_TS_INGRESS_ADJ (p k : Nat) : Nat := 0x801010 + 0x40000 * p + 0x400 * k
def ETH_TX_FRAMES (p k : Nat) : Nat := 0x801020 + 0x40000 * p + 0x400 * k
def ETH_RX_FRAMES (p k : Nat) : Nat := 0x801028 + 0x40000 * p + 0x400 * k
def ETH_RX_FCS_ERR (p k : Nat) : Nat := 0x801030 + 0x40000 * p + 0x400 * k
def ETH_RX_OVERSIZE (p k : Nat) : Nat := 0x801038 + 0x40000 * p + 0x400 * k
def ETH_RX_DROP (p k : Nat) : Nat := 0x801040 + 0x40000 * p + 0x400 * k
def ETH_RX_UNMATCHED (p k : Nat) : Nat := 0x801048 + 0x40000 * p + 0x400 * k
def ETH_RX_POLICED (p k : Nat) : Nat := 0x801050 + 0x40000 * p + 0x400 * k
def ETH_FEC_CORR (p k : Nat) : Nat := 0x801058 + 0x40000 * p + 0x400 * k
def ETH_FEC_UNCORR (p k : Nat) : Nat := 0x801060 + 0x40000 * p + 0x400 * k
def HST_CTRL (m : Nat) : Nat := 0xa00000 + 0x4000 * m
def HST_OVERHEAD (m : Nat) : Nat := 0xa00004 + 0x4000 * m
def HST_STATUS (m : Nat) : Nat := 0xa00008 + 0x4000 * m
def HST_POLSEL (m : Nat) : Nat := 0xa0000c + 0x4000 * m
def HST_GCL_BASE (m : Nat) : Nat := 0xa00010 + 0x4000 * m
def HST_GCL_CYCLE_NS (m : Nat) : Nat := 0xa00018 + 0x4000 * m
def HST_GCL_LEN (m : Nat) : Nat := 0xa0001c + 0x4000 * m
def HST_GCL_CHANGE (m : Nat) : Nat := 0xa00020 + 0x4000 * m
def HST_GCL_GO (m : Nat) : Nat := 0xa00028 + 0x4000 * m
def HST_LATE_TOL_NS (m : Nat) : Nat := 0xa0002c + 0x4000 * m
def HST_PCP_POL (m i : Nat) : Nat := 0xa00040 + 0x4000 * m + 0x4 * i
def HST_CMAP_PCP (m : Nat) : Nat := 0xa00060 + 0x4000 * m
def HST_CMAP_DSCP (m i : Nat) : Nat := 0xa00064 + 0x4000 * m + 0x4 * i
def HST_DSCP_POL (m i : Nat) : Nat := 0xa00100 + 0x4000 * m + 0x4 * i
def HST_TX_LATE (m : Nat) : Nat := 0xa00200 + 0x4000 * m
def HST_DROP_LATE (m : Nat) : Nat := 0xa00208 + 0x4000 * m
def HST_DROP_OVERSIZE (m : Nat) : Nat := 0xa00210 + 0x4000 * m
def HST_STEP_OVERRUN (m : Nat) : Nat := 0xa00218 + 0x4000 * m
def HST_TC_SHAPER (m i : Nat) : Nat := 0xa00400 + 0x4000 * m + 0x40 * i
def HST_TC_BURST (m i : Nat) : Nat := 0xa00404 + 0x4000 * m + 0x40 * i
def HST_TC_WEIGHT (m i : Nat) : Nat := 0xa00408 + 0x4000 * m + 0x40 * i
def HST_TC_QUANTUM (m i : Nat) : Nat := 0xa0040c + 0x4000 * m + 0x40 * i
def HST_TC_CREDIT (m i : Nat) : Nat := 0xa00410 + 0x4000 * m + 0x40 * i
def HST_TC_MAXWIN_NS (m i : Nat) : Nat := 0xa00414 + 0x4000 * m + 0x40 * i
def HST_TC_TX_FRAMES (m i : Nat) : Nat := 0xa00420 + 0x4000 * m + 0x40 * i
def HST_TC_TX_BYTES (m i : Nat) : Nat := 0xa00428 + 0x4000 * m + 0x40 * i
def HST_POL_SEL : Nat := 0xb00000
def HST_POL_CFG : Nat := 0xb00004
def HST_POL_CIR : Nat := 0xb00008
def HST_POL_CBS : Nat := 0xb0000c
def HST_POL_PIR : Nat := 0xb00010
def HST_POL_EBS_PBS : Nat := 0xb00014
def HST_POL_GREEN : Nat := 0xb00020
def HST_POL_YELLOW : Nat := 0xb00028
def HST_POL_RED : Nat := 0xb00030
def HST_MGMT_RXQ (i : Nat) : Nat := 0xb00100 + 0x4 * i
/-! ### 12_solder_fabric.md -/

def SLD_CTRL : Nat := 0x700000
def SLD_STATUS : Nat := 0x700004
def SLD_NODE_ID : Nat := 0x700008
def SLD_UDP_PORT : Nat := 0x70000c
def SLD_QOS : Nat := 0x700010
def SLD_RTO_MIN_US : Nat := 0x700014
def SLD_RTO_MAX_US : Nat := 0x700018
def SLD_ECN_THRESH : Nat := 0x70001c
def SLD_INCARNATION : Nat := 0x700020
def SLD_QUORUM_CFG : Nat := 0x700024
def SLD_QUORUM_SEQ : Nat := 0x700028
def SLD_EXPELLED_COUNT : Nat := 0x700030
def SLD_TX_PKTS : Nat := 0x700040
def SLD_RX_PKTS : Nat := 0x700048
def SLD_RETX : Nat := 0x700050
def SLD_NAK_TX : Nat := 0x700058
def SLD_DUP_RX : Nat := 0x700060
def SLD_REPLAY_HITS : Nat := 0x700068
def SLD_RX_OVERFLOW : Nat := 0x700070
def SLD_EXPELLED_DROP : Nat := 0x700078
def SLD_ECN_ECHO_RX : Nat := 0x700080
def SLD_QUORUM_REJECT : Nat := 0x700088
def SLD_CHECKSUM_DROP : Nat := 0x700090
def SLD_PEER_SEL : Nat := 0x700100
def SLD_PEER_STATE : Nat := 0x700104
def SLD_PEER_UNRETIRED : Nat := 0x700108
def SLD_PEER_RTO_US : Nat := 0x70010c
def SLD_PEER_OLDEST_US : Nat := 0x700110
/-! ### 13_host_queues_and_functions.md -/

def SBD_MBX_DOORBELL (m : Nat) : Nat := 0x110000 + 0x40 * m
def SBD_MBX_STATUS (m : Nat) : Nat := 0x110004 + 0x40 * m
def SBD_MBX_GEN (m : Nat) : Nat := 0x110008 + 0x40 * m
def SBD_MBX_IRQ (m : Nat) : Nat := 0x11000c + 0x40 * m
def PCI_LINK_STATUS : Nat := 0x1000
def PCI_PF_GEN : Nat := 0x1004
def PCI_BAR4_BASE : Nat := 0x1008
def PCI_STALE_DROP : Nat := 0x1010
def PCI_BAD_DOORBELL : Nat := 0x1018
def QUE_CFG (q : Nat) : Nat := 0x2000000 + 0x40 * q
def QUE_PAIR (q : Nat) : Nat := 0x2000004 + 0x40 * q
def QUE_BASE (q : Nat) : Nat := 0x2000008 + 0x40 * q
def QUE_WB (q : Nat) : Nat := 0x2000010 + 0x40 * q
def QUE_PROD (q : Nat) : Nat := 0x2000018 + 0x40 * q
def QUE_CONS (q : Nat) : Nat := 0x200001c + 0x40 * q
def QUE_COAL (q : Nat) : Nat := 0x2000020 + 0x40 * q
def QUE_TYPE_CFG (q : Nat) : Nat := 0x2000024 + 0x40 * q
def QUE_STATE (q : Nat) : Nat := 0x2000028 + 0x40 * q
def QUE_DROPS (q : Nat) : Nat := 0x2000030 + 0x40 * q
def QUE_BAD_DOORBELL (q : Nat) : Nat := 0x2000038 + 0x40 * q
def VF_STATE (n : Nat) : Nat := 0x3000000 + 0x100 * n
def VF_GEN (n : Nat) : Nat := 0x3000004 + 0x100 * n
def VF_QBASE (n : Nat) : Nat := 0x3000008 + 0x100 * n
def VF_QCOUNT (n : Nat) : Nat := 0x300000c + 0x100 * n
def VF_VECTORS (n : Nat) : Nat := 0x3000010 + 0x100 * n
def VF_CONTEXTS (n : Nat) : Nat := 0x3000014 + 0x100 * n
def VF_HBM_QUOTA (n : Nat) : Nat := 0x3000018 + 0x100 * n
def VF_HBM_USED (n : Nat) : Nat := 0x300001c + 0x100 * n
def VF_STALE_DROP (n : Nat) : Nat := 0x3000020 + 0x100 * n
def VF_MBX_CMDS (n : Nat) : Nat := 0x3000028 + 0x100 * n
def VF_MBX_IGNORED (n : Nat) : Nat := 0x3000030 + 0x100 * n
/-! ### 14_reset_boot_configuration.md -/

def RST_CAUSE : Nat := 0x500000
def RST_STRAP : Nat := 0x500004
def RST_FULL : Nat := 0x500008
def RST_SCOPE : Nat := 0x50000c
def RST_BLK_CLUSTER : Nat := 0x500010
def RST_BLK_BRONZE : Nat := 0x500014
def RST_BLK_NAND : Nat := 0x50001c
def RST_BLK_MISC : Nat := 0x500020
def RST_FULL_COUNT : Nat := 0x500040
def RST_WDT_COUNT : Nat := 0x500048
def RET_BACKUP (i : Nat) : Nat := 0x500100 + 0x4 * i
def RET_STATUS : Nat := 0x500140
def RET_UE_COUNT : Nat := 0x500148
/-! ### 15_worlds_and_attestation.md -/

def SEC_STATUS : Nat := 0x600000
def SEC_LOG_COUNT : Nat := 0x600004
def SEC_VIOL_TOTAL : Nat := 0x600008
def SEC_VIOL_LAST : Nat := 0x600010
def SEC_VIOL_ADDR : Nat := 0x600018
def SEC_RF_CFG (f : Nat) : Nat := 0x601000 + 0x20 * f
def SEC_RF_BASE (f : Nat) : Nat := 0x601008 + 0x20 * f
def SEC_RF_LIMIT (f : Nat) : Nat := 0x601010 + 0x20 * f
def SEC_RF_VIOL (f : Nat) : Nat := 0x601018 + 0x20 * f
/-! ### 16_faults_and_service.md -/

def SBD_SVC_CTRL : Nat := 0x120000
def SBD_WDT_PERIOD_MS : Nat := 0x120004
def SBD_FW_STATE : Nat := 0x120008
def SBD_FW_RESTARTS : Nat := 0x120010
def SBD_AUTO_FENCES : Nat := 0x120018
def SBD_SVC_CLUSTER (i : Nat) : Nat := 0x120100 + 0x4 * i
def SBD_SVC_BRONZE (i : Nat) : Nat := 0x120200 + 0x4 * i
def SBD_SVC_REGION (i : Nat) : Nat := 0x120300 + 0x4 * i
def SBD_SVC_PORT (i : Nat) : Nat := 0x120340 + 0x4 * i
def SBD_SVC_NAND (i : Nat) : Nat := 0x120380 + 0x4 * i
def SBD_SVC_PC (i : Nat) : Nat := 0x120400 + 0x4 * i
/-! ### 17_balls_and_electrical.md -/

def BIM_I3C_ID : Nat := 0x1000000000000
def BIM_I3C_TEMP : Nat := 0x1000000000004
def BIM_I3C_POWER_W : Nat := 0x1000000000008
def BIM_I3C_LIMIT_W : Nat := 0x100000000000c
def BIM_I3C_CAP_W : Nat := 0x1000000000010
def BIM_I3C_RST_CAUSE : Nat := 0x1000000000014
/-! ### 11_ports_traffic_time.md -/

def HST_GCL_GATES (m e : Nat) : Nat := 0xa02000 + 0x4000 * m + 0x8 * e
def HST_GCL_INTERVAL (m e : Nat) : Nat := 0xa02004 + 0x4000 * m + 0x8 * e

end Reg

/-- Registers of 01_device_anatomy.md. -/
def regRows01 : List RegRow := [
  ⟨"SBD_SIZE_SEQ", 0x100, [], .ro, 0x0, 0x0, 0x0, 0x0⟩,
  ⟨"SBD_SIZE_FORMAT", 0x104, [], .ro, 0x0, 0x0, 0x0, 0x0⟩,
  ⟨"SBD_SIZE_CLUSTERS", 0x108, [], .ro, 0x0, 0x0, 0x0, 0x0⟩,
  ⟨"SBD_SIZE_REGIONS", 0x10c, [], .ro, 0x0, 0x0, 0x0, 0x0⟩,
  ⟨"SBD_SIZE_BRONZE_LO", 0x110, [], .ro, 0x0, 0x0, 0x0, 0x0⟩,
  ⟨"SBD_SIZE_BRONZE_HI", 0x114, [], .ro, 0x0, 0x0, 0x0, 0x0⟩,
  ⟨"SBD_SIZE_SHAPE", 0x118, [], .ro, 0x0, 0x0, 0x0, 0x0⟩,
  ⟨"SBD_SIZE_TRESTLE_SPARE", 0x11c, [], .ro, 0x0, 0x0, 0x0, 0x0⟩,
  ⟨"SBD_SIZE_NAND", 0x120, [], .ro, 0x0, 0x0, 0x0, 0x0⟩,
  ⟨"SBD_SIZE_PORTS", 0x124, [], .ro, 0x0, 0x0, 0x0, 0x0⟩,
  ⟨"SBD_SIZE_HBM_GIB", 0x128, [], .ro, 0x0, 0x0, 0x0, 0x0⟩,
  ⟨"SBD_SIZE_FLASH_GIB", 0x12c, [], .ro, 0x0, 0x0, 0x0, 0x0⟩,
  ⟨"SBD_SIZE_QUEUES", 0x130, [], .ro, 0x0, 0x0, 0x0, 0x0⟩,
  ⟨"SBD_SIZE_FUNCS", 0x134, [], .ro, 0x0, 0x0, 0x0, 0x0⟩,
  ⟨"SBD_SIZE_CABINET", 0x138, [], .ro, 0x0, 0x0, 0x0, 0x0⟩,
  ⟨"SBD_SIZE_CONTEXTS", 0x13c, [], .ro, 0x0, 0x0, 0x0, 0x0⟩]

/-- Registers of 02_trestle_dataflow.md. -/
def regRows02 : List RegRow := [
  ⟨"TRS_CTRL", 0x1010000, [(24, 0x80000)], .rw, 0x7, 0x0, 0x0, 0x0⟩,
  ⟨"TRS_STATUS", 0x1010004, [(24, 0x80000)], .ro, 0x0, 0x0, 0x0, 0x0⟩,
  ⟨"TRS_FAULT", 0x1010008, [(24, 0x80000)], .rw, 0x0, 0x1, 0x0, 0x0⟩,
  ⟨"TRS_FAULT_TAG", 0x101000c, [(24, 0x80000)], .ro, 0x0, 0x0, 0x0, 0x0⟩,
  ⟨"TRS_PORT_RR", 0x1010010, [(24, 0x80000)], .ro, 0x0, 0x0, 0x0, 0x0⟩,
  ⟨"TRS_ROWS_VALID_LO", 0x1010020, [(24, 0x80000)], .ro, 0x0, 0x0, 0x0, 0x0⟩,
  ⟨"TRS_ROWS_VALID_HI", 0x1010024, [(24, 0x80000)], .ro, 0x0, 0x0, 0x0, 0x0⟩,
  ⟨"TRS_BUBBLES_DRY_LO", 0x1010028, [(24, 0x80000)], .ro, 0x0, 0x0, 0x0, 0x0⟩,
  ⟨"TRS_BUBBLES_DRY_HI", 0x101002c, [(24, 0x80000)], .ro, 0x0, 0x0, 0x0, 0x0⟩,
  ⟨"TRS_BUBBLES_DRAIN_LO", 0x1010030, [(24, 0x80000)], .ro, 0x0, 0x0, 0x0, 0x0⟩,
  ⟨"TRS_BUBBLES_DRAIN_HI", 0x1010034, [(24, 0x80000)], .ro, 0x0, 0x0, 0x0, 0x0⟩,
  ⟨"TRS_BUBBLES_PORT_LO", 0x1010038, [(24, 0x80000)], .ro, 0x0, 0x0, 0x0, 0x0⟩,
  ⟨"TRS_BUBBLES_PORT_HI", 0x101003c, [(24, 0x80000)], .ro, 0x0, 0x0, 0x0, 0x0⟩,
  ⟨"TRS_LOAD_WAIT_LO", 0x1010040, [(24, 0x80000)], .ro, 0x0, 0x0, 0x0, 0x0⟩,
  ⟨"TRS_LOAD_WAIT_HI", 0x1010044, [(24, 0x80000)], .ro, 0x0, 0x0, 0x0, 0x0⟩,
  ⟨"TRS_PREEMPT_LO", 0x1010048, [(24, 0x80000)], .ro, 0x0, 0x0, 0x0, 0x0⟩,
  ⟨"TRS_PREEMPT_HI", 0x101004c, [(24, 0x80000)], .ro, 0x0, 0x0, 0x0, 0x0⟩,
  ⟨"TRS_RELOADS_LO", 0x1010050, [(24, 0x80000)], .ro, 0x0, 0x0, 0x0, 0x0⟩,
  ⟨"TRS_RELOADS_HI", 0x1010054, [(24, 0x80000)], .ro, 0x0, 0x0, 0x0, 0x0⟩]

/-- Registers of 04_pewter_lanes.md. -/
def regRows04 : List RegRow := [
  ⟨"PWT_CTRL", 0x1020000, [(24, 0x80000), (4, 0x1000)], .rw, 0x7, 0x0, 0x0, 0x0⟩,
  ⟨"PWT_STATUS", 0x1020004, [(24, 0x80000), (4, 0x1000)], .ro, 0x0, 0x0, 0x0, 0x0⟩,
  ⟨"PWT_FAULT", 0x1020008, [(24, 0x80000), (4, 0x1000)], .rw, 0x0, 0x1, 0x0, 0x0⟩,
  ⟨"PWT_FAULT_PC", 0x102000c, [(24, 0x80000), (4, 0x1000)], .ro, 0x0, 0x0, 0x0, 0x0⟩,
  ⟨"PWT_PUSH_RR", 0x1020010, [(24, 0x80000), (4, 0x1000)], .ro, 0x0, 0x0, 0x0, 0x0⟩,
  ⟨"PWT_INSNS_LO", 0x1020020, [(24, 0x80000), (4, 0x1000)], .ro, 0x0, 0x0, 0x0, 0x0⟩,
  ⟨"PWT_INSNS_HI", 0x1020024, [(24, 0x80000), (4, 0x1000)], .ro, 0x0, 0x0, 0x0, 0x0⟩,
  ⟨"PWT_SAT_LO", 0x1020028, [(24, 0x80000), (4, 0x1000)], .ro, 0x0, 0x0, 0x0, 0x0⟩,
  ⟨"PWT_SAT_HI", 0x102002c, [(24, 0x80000), (4, 0x1000)], .ro, 0x0, 0x0, 0x0, 0x0⟩,
  ⟨"PWT_STALL_MEM_LO", 0x1020030, [(24, 0x80000), (4, 0x1000)], .ro, 0x0, 0x0, 0x0, 0x0⟩,
  ⟨"PWT_STALL_MEM_HI", 0x1020034, [(24, 0x80000), (4, 0x1000)], .ro, 0x0, 0x0, 0x0, 0x0⟩,
  ⟨"PWT_PREEMPT_LO", 0x1020038, [(24, 0x80000), (4, 0x1000)], .ro, 0x0, 0x0, 0x0, 0x0⟩,
  ⟨"PWT_PREEMPT_HI", 0x102003c, [(24, 0x80000), (4, 0x1000)], .ro, 0x0, 0x0, 0x0, 0x0⟩,
  ⟨"PWT_TILE_LIMIT_LO", 0x1020040, [(24, 0x80000), (4, 0x1000)], .ro, 0x0, 0x0, 0x0, 0x0⟩,
  ⟨"PWT_TILE_LIMIT_HI", 0x1020044, [(24, 0x80000), (4, 0x1000)], .ro, 0x0, 0x0, 0x0, 0x0⟩]

/-- Registers of 05_tin_cores_and_latches.md. -/
def regRows05 : List RegRow := [
  ⟨"LAT_COUNT", 0x1030000, [(24, 0x80000), (256, 0x4)], .ro, 0x0, 0x0, 0x0, 0x0⟩,
  ⟨"LAT_OWNER", 0x1030400, [(24, 0x80000), (32, 0x4)], .ro, 0x0, 0x0, 0x0, 0x0⟩,
  ⟨"LAT_OVERFLOW", 0x1030480, [(24, 0x80000), (8, 0x4)], .w1c, 0x0, 0xffffffff, 0x0, 0x0⟩,
  ⟨"LAT_WAITING", 0x10304a0, [(24, 0x80000), (5, 0x4)], .ro, 0x0, 0x0, 0x0, 0x0⟩,
  ⟨"LAT_SIGNALS_LO", 0x10304c0, [(24, 0x80000)], .ro, 0x0, 0x0, 0x0, 0x0⟩,
  ⟨"LAT_SIGNALS_HI", 0x10304c4, [(24, 0x80000)], .ro, 0x0, 0x0, 0x0, 0x0⟩,
  ⟨"LAT_WAITS_LO", 0x10304c8, [(24, 0x80000)], .ro, 0x0, 0x0, 0x0, 0x0⟩,
  ⟨"LAT_WAITS_HI", 0x10304cc, [(24, 0x80000)], .ro, 0x0, 0x0, 0x0, 0x0⟩,
  ⟨"LAT_PASSES_LO", 0x10304d0, [(24, 0x80000)], .ro, 0x0, 0x0, 0x0, 0x0⟩,
  ⟨"LAT_PASSES_HI", 0x10304d4, [(24, 0x80000)], .ro, 0x0, 0x0, 0x0, 0x0⟩,
  ⟨"TIN_CTRL", 0x1040000, [(24, 0x80000), (8, 0x1000)], .rw, 0x7, 0x0, 0x0, 0x0⟩,
  ⟨"TIN_STATUS", 0x1040004, [(24, 0x80000), (8, 0x1000)], .ro, 0x0, 0x0, 0x0, 0x0⟩,
  ⟨"TIN_FAULT", 0x1040008, [(24, 0x80000), (8, 0x1000)], .rw, 0x0, 0x1, 0x0, 0x0⟩,
  ⟨"TIN_FAULT_PC_LO", 0x1040010, [(24, 0x80000), (8, 0x1000)], .ro, 0x0, 0x0, 0x0, 0x0⟩,
  ⟨"TIN_FAULT_PC_HI", 0x1040014, [(24, 0x80000), (8, 0x1000)], .ro, 0x0, 0x0, 0x0, 0x0⟩,
  ⟨"TIN_FAULT_ADDR_LO", 0x1040018, [(24, 0x80000), (8, 0x1000)], .ro, 0x0, 0x0, 0x0, 0x0⟩,
  ⟨"TIN_FAULT_ADDR_HI", 0x104001c, [(24, 0x80000), (8, 0x1000)], .ro, 0x0, 0x0, 0x0, 0x0⟩,
  ⟨"TIN_ISSUE_RR", 0x1040020, [(24, 0x80000), (8, 0x1000)], .ro, 0x0, 0x0, 0x0, 0x0⟩,
  ⟨"TIN_THREAD_STATE", 0x1040040, [(24, 0x80000), (8, 0x1000), (16, 0x4)], .ro, 0x0, 0x0, 0x0, 0x0⟩,
  ⟨"TIN_INSNS_LO", 0x1040080, [(24, 0x80000), (8, 0x1000)], .ro, 0x0, 0x0, 0x0, 0x0⟩,
  ⟨"TIN_INSNS_HI", 0x1040084, [(24, 0x80000), (8, 0x1000)], .ro, 0x0, 0x0, 0x0, 0x0⟩,
  ⟨"TIN_EXT_ACCESS_LO", 0x1040088, [(24, 0x80000), (8, 0x1000)], .ro, 0x0, 0x0, 0x0, 0x0⟩,
  ⟨"TIN_EXT_ACCESS_HI", 0x104008c, [(24, 0x80000), (8, 0x1000)], .ro, 0x0, 0x0, 0x0, 0x0⟩,
  ⟨"TIN_PARK_CYCLES_LO", 0x1040090, [(24, 0x80000), (8, 0x1000)], .ro, 0x0, 0x0, 0x0, 0x0⟩,
  ⟨"TIN_PARK_CYCLES_HI", 0x1040094, [(24, 0x80000), (8, 0x1000)], .ro, 0x0, 0x0, 0x0, 0x0⟩,
  ⟨"TIN_DMISS_LO", 0x1040098, [(24, 0x80000), (8, 0x1000)], .ro, 0x0, 0x0, 0x0, 0x0⟩,
  ⟨"TIN_DMISS_HI", 0x104009c, [(24, 0x80000), (8, 0x1000)], .ro, 0x0, 0x0, 0x0, 0x0⟩,
  ⟨"TIN_LATE_DROP_LO", 0x10400a0, [(24, 0x80000), (8, 0x1000)], .ro, 0x0, 0x0, 0x0, 0x0⟩,
  ⟨"TIN_LATE_DROP_HI", 0x10400a4, [(24, 0x80000), (8, 0x1000)], .ro, 0x0, 0x0, 0x0, 0x0⟩]

/-- Registers of 06_task_graphs.md. -/
def regRows06 : List RegRow := [
  ⟨"CAB_CTRL", 0x200000, [], .rw, 0x3, 0x0, 0x0, 0x0⟩,
  ⟨"CAB_STATUS", 0x200004, [], .ro, 0x0, 0x0, 0x0, 0x0⟩,
  ⟨"CAB_CLASS_WEIGHT_A", 0x200008, [], .rw, 0xffffffff, 0x0, 0x0, 0x10101040⟩,
  ⟨"CAB_CLASS_WEIGHT_B", 0x20000c, [], .rw, 0xffffff, 0x0, 0x0, 0x101010⟩,
  ⟨"CAB_DISPATCHED_LO", 0x200020, [], .ro, 0x0, 0x0, 0x0, 0x0⟩,
  ⟨"CAB_DISPATCHED_HI", 0x200024, [], .ro, 0x0, 0x0, 0x0, 0x0⟩,
  ⟨"CAB_COMPLETED_LO", 0x200028, [], .ro, 0x0, 0x0, 0x0, 0x0⟩,
  ⟨"CAB_COMPLETED_HI", 0x20002c, [], .ro, 0x0, 0x0, 0x0, 0x0⟩,
  ⟨"CAB_REFUSED_LO", 0x200030, [], .ro, 0x0, 0x0, 0x0, 0x0⟩,
  ⟨"CAB_REFUSED_HI", 0x200034, [], .ro, 0x0, 0x0, 0x0, 0x0⟩,
  ⟨"CAB_STALE_FGEN_DROP_LO", 0x200038, [], .ro, 0x0, 0x0, 0x0, 0x0⟩,
  ⟨"CAB_STALE_FGEN_DROP_HI", 0x20003c, [], .ro, 0x0, 0x0, 0x0, 0x0⟩,
  ⟨"CAB_LATE_DROP_LO", 0x200040, [], .ro, 0x0, 0x0, 0x0, 0x0⟩,
  ⟨"CAB_LATE_DROP_HI", 0x200044, [], .ro, 0x0, 0x0, 0x0, 0x0⟩,
  ⟨"CAB_EVENT_DROP_LO", 0x200048, [], .ro, 0x0, 0x0, 0x0, 0x0⟩,
  ⟨"CAB_EVENT_DROP_HI", 0x20004c, [], .ro, 0x0, 0x0, 0x0, 0x0⟩,
  ⟨"CAB_DEADLINE_MISS_LO", 0x200050, [], .ro, 0x0, 0x0, 0x0, 0x0⟩,
  ⟨"CAB_DEADLINE_MISS_HI", 0x200054, [], .ro, 0x0, 0x0, 0x0, 0x0⟩,
  ⟨"CAB_BAR_CFG", 0x210000, [(4096, 0x10)], .ro, 0x0, 0x0, 0x0, 0x0⟩,
  ⟨"CAB_BAR_STATE", 0x210004, [(4096, 0x10)], .ro, 0x0, 0x0, 0x0, 0x0⟩,
  ⟨"CAB_BAR_EARLY", 0x210008, [(4096, 0x10)], .ro, 0x0, 0x0, 0x0, 0x0⟩,
  ⟨"CAB_BAR_AGE_US", 0x21000c, [(4096, 0x10)], .ro, 0x0, 0x0, 0x0, 0x0⟩,
  ⟨"CAB_CTX_CTRL", 0x280000, [(4096, 0x80)], .rw, 0x1, 0x0, 0x0, 0x0⟩,
  ⟨"CAB_CTX_INFO", 0x280004, [(4096, 0x80)], .ro, 0x0, 0x0, 0x0, 0x0⟩,
  ⟨"CAB_CTX_SLOT_BASE", 0x280008, [(4096, 0x80)], .ro, 0x0, 0x0, 0x0, 0x0⟩,
  ⟨"CAB_CTX_SLOT_COUNT", 0x28000c, [(4096, 0x80)], .ro, 0x0, 0x0, 0x0, 0x0⟩,
  ⟨"CAB_CTX_WAITING", 0x280010, [(4096, 0x80)], .ro, 0x0, 0x0, 0x0, 0x0⟩,
  ⟨"CAB_CTX_READY", 0x280014, [(4096, 0x80)], .ro, 0x0, 0x0, 0x0, 0x0⟩,
  ⟨"CAB_CTX_RUNNING", 0x280018, [(4096, 0x80)], .ro, 0x0, 0x0, 0x0, 0x0⟩,
  ⟨"CAB_CTX_EXT_HBM", 0x28001c, [(4096, 0x80)], .ro, 0x0, 0x0, 0x0, 0x0⟩,
  ⟨"CAB_CTX_EXT_HOST", 0x280020, [(4096, 0x80)], .ro, 0x0, 0x0, 0x0, 0x0⟩,
  ⟨"CAB_CTX_EXT_REG", 0x280024, [(4096, 0x80)], .ro, 0x0, 0x0, 0x0, 0x0⟩,
  ⟨"CAB_CTX_EXT_SOLDER", 0x280028, [(4096, 0x80)], .ro, 0x0, 0x0, 0x0, 0x0⟩,
  ⟨"CAB_CTX_EXT_OLDEST_US", 0x28002c, [(4096, 0x80)], .ro, 0x0, 0x0, 0x0, 0x0⟩,
  ⟨"CAB_CTX_EXT_ALARM_US", 0x280030, [(4096, 0x80)], .rw, 0xffffffff, 0x0, 0x0, 0x0⟩,
  ⟨"CAB_CTX_EVQ", 0x280034, [(4096, 0x80)], .ro, 0x0, 0x0, 0x0, 0x0⟩,
  ⟨"CAB_CTX_DISPATCHED_LO", 0x280038, [(4096, 0x80)], .ro, 0x0, 0x0, 0x0, 0x0⟩,
  ⟨"CAB_CTX_DISPATCHED_HI", 0x28003c, [(4096, 0x80)], .ro, 0x0, 0x0, 0x0, 0x0⟩,
  ⟨"CAB_CTX_COMPLETED_LO", 0x280040, [(4096, 0x80)], .ro, 0x0, 0x0, 0x0, 0x0⟩,
  ⟨"CAB_CTX_COMPLETED_HI", 0x280044, [(4096, 0x80)], .ro, 0x0, 0x0, 0x0, 0x0⟩,
  ⟨"CAB_CTX_FAULTED_LO", 0x280048, [(4096, 0x80)], .ro, 0x0, 0x0, 0x0, 0x0⟩,
  ⟨"CAB_CTX_FAULTED_HI", 0x28004c, [(4096, 0x80)], .ro, 0x0, 0x0, 0x0, 0x0⟩,
  ⟨"CAB_CTX_REFUSED_LO", 0x280050, [(4096, 0x80)], .ro, 0x0, 0x0, 0x0, 0x0⟩,
  ⟨"CAB_CTX_REFUSED_HI", 0x280054, [(4096, 0x80)], .ro, 0x0, 0x0, 0x0, 0x0⟩,
  ⟨"CAB_CTX_LAST_DONE", 0x280058, [(4096, 0x80)], .ro, 0x0, 0x0, 0x0, 0x0⟩]

/-- Registers of 07_radio_first_sharing.md. -/
def regRows07 : List RegRow := [
  ⟨"CAB_RES_SUMMARY", 0x220000, [(24, 0x100)], .ro, 0x0, 0x0, 0x0, 0x0⟩,
  ⟨"CAB_RES_IDLE_US", 0x220004, [(24, 0x100)], .rw, 0xffffffff, 0x0, 0x0, 0xa⟩,
  ⟨"CAB_RES_ALLBLK_US", 0x220008, [(24, 0x100)], .rw, 0xffffffff, 0x0, 0x0, 0x64⟩,
  ⟨"CAB_RES_EPOCH", 0x22000c, [(24, 0x100)], .ro, 0x0, 0x0, 0x0, 0x0⟩,
  ⟨"CAB_RES_SLOT", 0x220010, [(24, 0x100), (8, 0x4)], .ro, 0x0, 0x0, 0x0, 0x0⟩,
  ⟨"CAB_RES_RUN", 0x220030, [(24, 0x100), (8, 0x4)], .ro, 0x0, 0x0, 0x0, 0x0⟩,
  ⟨"CAB_RES_ALLBLK_AGE_US", 0x220050, [(24, 0x100)], .ro, 0x0, 0x0, 0x0, 0x0⟩,
  ⟨"CAB_RES_WAKES_LO", 0x220058, [(24, 0x100)], .ro, 0x0, 0x0, 0x0, 0x0⟩,
  ⟨"CAB_RES_WAKES_HI", 0x22005c, [(24, 0x100)], .ro, 0x0, 0x0, 0x0, 0x0⟩,
  ⟨"CAB_RES_ALLBLK_CNT_LO", 0x220060, [(24, 0x100)], .ro, 0x0, 0x0, 0x0, 0x0⟩,
  ⟨"CAB_RES_ALLBLK_CNT_HI", 0x220064, [(24, 0x100)], .ro, 0x0, 0x0, 0x0, 0x0⟩,
  ⟨"CAB_SLK_CTRL", 0x230000, [(256, 0x20)], .ro, 0x0, 0x0, 0x0, 0x0⟩,
  ⟨"CAB_SLK_THRESH_NS", 0x230004, [(256, 0x20)], .rw, 0xffffffff, 0x0, 0x0, 0x4e20⟩,
  ⟨"CAB_SLK_REMAIN_NS", 0x230008, [(256, 0x20)], .ro, 0x0, 0x0, 0x0, 0x0⟩,
  ⟨"CAB_SLK_SLACK_NS", 0x23000c, [(256, 0x20)], .ro, 0x0, 0x0, 0x0, 0x0⟩,
  ⟨"CAB_SLK_DEADLINE_LO", 0x230010, [(256, 0x20)], .ro, 0x0, 0x0, 0x0, 0x0⟩,
  ⟨"CAB_SLK_DEADLINE_HI", 0x230014, [(256, 0x20)], .ro, 0x0, 0x0, 0x0, 0x0⟩,
  ⟨"CAB_SLK_LOW_LO", 0x230018, [(256, 0x20)], .ro, 0x0, 0x0, 0x0, 0x0⟩,
  ⟨"CAB_SLK_LOW_HI", 0x23001c, [(256, 0x20)], .ro, 0x0, 0x0, 0x0, 0x0⟩,
  ⟨"BIM_CTRL", 0x300000, [], .rw, 0x3, 0x0, 0x0, 0x0⟩,
  ⟨"BIM_PKG_LIMIT_W", 0x300004, [], .rw, 0x7ff, 0x0, 0x0, 0x5dc⟩,
  ⟨"BIM_BASE_LOAD", 0x300008, [], .rw, 0xffffff, 0x0, 0x0, 0x12c0⟩,
  ⟨"BIM_TEMP_MAX", 0x30000c, [], .ro, 0x0, 0x0, 0x0, 0x0⟩,
  ⟨"BIM_PHI", 0x300010, [], .ro, 0x0, 0x0, 0x0, 0x0⟩,
  ⟨"BIM_LAMBDA", 0x300014, [], .ro, 0x0, 0x0, 0x0, 0x100⟩,
  ⟨"BIM_TENANT_POOL", 0x300018, [], .ro, 0x0, 0x0, 0x0, 0x0⟩,
  ⟨"BIM_STEP_DOWN_US", 0x30001c, [], .rw, 0xffffffff, 0x0, 0x0, 0x32⟩,
  ⟨"BIM_STEP_UP_US", 0x300020, [], .rw, 0xffffffff, 0x0, 0x0, 0xc8⟩,
  ⟨"BIM_CREDIT_WAIT_LO", 0x300040, [], .ro, 0x0, 0x0, 0x0, 0x0⟩,
  ⟨"BIM_CREDIT_WAIT_HI", 0x300044, [], .ro, 0x0, 0x0, 0x0, 0x0⟩,
  ⟨"BIM_C0_OVERDRAW_LO", 0x300048, [], .ro, 0x0, 0x0, 0x0, 0x0⟩,
  ⟨"BIM_C0_OVERDRAW_HI", 0x30004c, [], .ro, 0x0, 0x0, 0x0, 0x0⟩,
  ⟨"BIM_STERLING_THROTTLE_LO", 0x300050, [], .ro, 0x0, 0x0, 0x0, 0x0⟩,
  ⟨"BIM_STERLING_THROTTLE_HI", 0x300054, [], .ro, 0x0, 0x0, 0x0, 0x0⟩,
  ⟨"BIM_SENSOR", 0x300200, [(64, 0x4)], .ro, 0x0, 0x0, 0x0, 0x0⟩,
  ⟨"BIM_REG_WEIGHT", 0x301000, [(12, 0x100)], .rw, 0xff, 0x0, 0x0, 0x1⟩,
  ⟨"BIM_REG_FLOOR", 0x301004, [(12, 0x100)], .rw, 0x3, 0x0, 0x0, 0x3⟩,
  ⟨"BIM_REG_STEP", 0x301008, [(12, 0x100)], .ro, 0x0, 0x0, 0x0, 0x0⟩,
  ⟨"BIM_REG_C0_RESERVE", 0x30100c, [(12, 0x100)], .rw, 0xffffff, 0x0, 0x0, 0x0⟩,
  ⟨"BIM_REG_C0_BUCKET", 0x301010, [(12, 0x100)], .ro, 0x0, 0x0, 0x0, 0x0⟩,
  ⟨"BIM_REG_CREDIT", 0x301014, [(12, 0x100)], .ro, 0x0, 0x0, 0x0, 0x0⟩,
  ⟨"BIM_REG_CAP", 0x301018, [(12, 0x100)], .rw, 0xffffff, 0x0, 0x0, 0x4000⟩,
  ⟨"BIM_REG_STERLING_ALLOT", 0x30101c, [(12, 0x100)], .rw, 0xffffff, 0x0, 0x0, 0x0⟩]

/-- Registers of 08_sterling_and_checked_results.md. -/
def regRows08 : List RegRow := [
  ⟨"CAB_STL_STATE", 0x240000, [(4096, 0x20)], .ro, 0x0, 0x0, 0x0, 0x0⟩,
  ⟨"CAB_STL_RING_ENTRIES", 0x240004, [(4096, 0x20)], .ro, 0x0, 0x0, 0x0, 0x0⟩,
  ⟨"CAB_STL_RING_BASE_LO", 0x240008, [(4096, 0x20)], .ro, 0x0, 0x0, 0x0, 0x0⟩,
  ⟨"CAB_STL_RING_BASE_HI", 0x24000c, [(4096, 0x20)], .ro, 0x0, 0x0, 0x0, 0x0⟩,
  ⟨"CAB_STL_PROD", 0x240010, [(4096, 0x20)], .ro, 0x0, 0x0, 0x0, 0x0⟩,
  ⟨"CAB_STL_CONS", 0x240014, [(4096, 0x20)], .ro, 0x0, 0x0, 0x0, 0x0⟩,
  ⟨"CAB_STL_START_T_LO", 0x240018, [(4096, 0x20)], .ro, 0x0, 0x0, 0x0, 0x0⟩,
  ⟨"CAB_STL_START_T_HI", 0x24001c, [(4096, 0x20)], .ro, 0x0, 0x0, 0x0, 0x0⟩,
  ⟨"CAB_STL_CHAIN_CTRL", 0x260000, [], .rw, 0xff3, 0x0, 0x0, 0x0⟩,
  ⟨"CAB_STL_CHAIN_GO", 0x260004, [], .wo, 0x0, 0x0, 0x0, 0x0⟩,
  ⟨"CAB_STL_CHAIN_RING", 0x260008, [], .ro, 0x0, 0x0, 0x0, 0x0⟩,
  ⟨"CAB_STL_CHAIN_COMP", 0x26000c, [], .rw, 0xfffff, 0x0, 0x0, 0x0⟩,
  ⟨"CAB_STL_STARTS_LO", 0x260010, [], .ro, 0x0, 0x0, 0x0, 0x0⟩,
  ⟨"CAB_STL_STARTS_HI", 0x260014, [], .ro, 0x0, 0x0, 0x0, 0x0⟩,
  ⟨"CAB_STL_LATE_LO", 0x260018, [], .ro, 0x0, 0x0, 0x0, 0x0⟩,
  ⟨"CAB_STL_LATE_HI", 0x26001c, [], .ro, 0x0, 0x0, 0x0, 0x0⟩,
  ⟨"CAB_STL_ND_REFUSED_LO", 0x260020, [], .ro, 0x0, 0x0, 0x0, 0x0⟩,
  ⟨"CAB_STL_ND_REFUSED_HI", 0x260024, [], .ro, 0x0, 0x0, 0x0, 0x0⟩,
  ⟨"CAB_STL_LATE_MARK_LO", 0x260028, [], .ro, 0x0, 0x0, 0x0, 0x0⟩,
  ⟨"CAB_STL_LATE_MARK_HI", 0x26002c, [], .ro, 0x0, 0x0, 0x0, 0x0⟩,
  ⟨"CAB_STL_RING_STALL_LO", 0x260030, [], .ro, 0x0, 0x0, 0x0, 0x0⟩,
  ⟨"CAB_STL_RING_STALL_HI", 0x260034, [], .ro, 0x0, 0x0, 0x0, 0x0⟩,
  ⟨"TRS_CHK_CTRL", 0x1010100, [(24, 0x80000)], .rw, 0x3, 0x0, 0x0, 0x2⟩,
  ⟨"TRS_CHK_TOL", 0x1010104, [(24, 0x80000)], .rw, 0xffffffff, 0x0, 0x0, 0x39800000⟩,
  ⟨"TRS_CHK_SPARE", 0x1010108, [(24, 0x80000)], .ro, 0x0, 0x0, 0x0, 0x0⟩,
  ⟨"TRS_CHK_TILES_LO", 0x1010110, [(24, 0x80000)], .ro, 0x0, 0x0, 0x0, 0x0⟩,
  ⟨"TRS_CHK_TILES_HI", 0x1010114, [(24, 0x80000)], .ro, 0x0, 0x0, 0x0, 0x0⟩,
  ⟨"TRS_CHK_MISMATCH_LO", 0x1010118, [(24, 0x80000)], .ro, 0x0, 0x0, 0x0, 0x0⟩,
  ⟨"TRS_CHK_MISMATCH_HI", 0x101011c, [(24, 0x80000)], .ro, 0x0, 0x0, 0x0, 0x0⟩,
  ⟨"TRS_CHK_TRANSIENT_LO", 0x1010120, [(24, 0x80000)], .ro, 0x0, 0x0, 0x0, 0x0⟩,
  ⟨"TRS_CHK_TRANSIENT_HI", 0x1010124, [(24, 0x80000)], .ro, 0x0, 0x0, 0x0, 0x0⟩,
  ⟨"TRS_CHK_SPARE_MAPS_LO", 0x1010128, [(24, 0x80000)], .ro, 0x0, 0x0, 0x0, 0x0⟩,
  ⟨"TRS_CHK_SPARE_MAPS_HI", 0x101012c, [(24, 0x80000)], .ro, 0x0, 0x0, 0x0, 0x0⟩,
  ⟨"TRS_CHK_UNRESOLVED_LO", 0x1010130, [(24, 0x80000)], .ro, 0x0, 0x0, 0x0, 0x0⟩,
  ⟨"TRS_CHK_UNRESOLVED_HI", 0x1010134, [(24, 0x80000)], .ro, 0x0, 0x0, 0x0, 0x0⟩]

/-- Registers of 09_memory_tiers.md. -/
def regRows09 : List RegRow := [
  ⟨"BUR_CTRL", 0xe00000, [], .rw, 0x7, 0x0, 0x0, 0x0⟩,
  ⟨"BUR_STATUS", 0xe00004, [], .ro, 0x0, 0x0, 0x0, 0x0⟩,
  ⟨"BUR_RD_LIMIT", 0xe00008, [], .rw, 0xffffffff, 0x0, 0x0, 0x30d40⟩,
  ⟨"BUR_PATROL_H", 0xe0000c, [], .rw, 0xffffffff, 0x0, 0x0, 0xa8⟩,
  ⟨"BUR_REFRESH_BITS", 0xe00010, [], .rw, 0xff, 0x0, 0x0, 0x40⟩,
  ⟨"BUR_MAINT_PCT", 0xe00014, [], .rw, 0x7f, 0x0, 0x0, 0xa⟩,
  ⟨"BUR_REBUILD_PCT", 0xe00018, [], .rw, 0x7f, 0x0, 0x0, 0x19⟩,
  ⟨"BUR_WEAR_SPREAD", 0xe0001c, [], .rw, 0xffff, 0x0, 0x0, 0xc8⟩,
  ⟨"BUR_FREE_GIB", 0xe00020, [], .ro, 0x0, 0x0, 0x0, 0x0⟩,
  ⟨"BUR_STAGE_MIB", 0xe00024, [], .rwl, 0x0, 0x0, 0xffff, 0x400⟩,
  ⟨"BUR_RETRY_LO", 0xe00040, [], .ro, 0x0, 0x0, 0x0, 0x0⟩,
  ⟨"BUR_RETRY_HI", 0xe00044, [], .ro, 0x0, 0x0, 0x0, 0x0⟩,
  ⟨"BUR_SOFT_LO", 0xe00048, [], .ro, 0x0, 0x0, 0x0, 0x0⟩,
  ⟨"BUR_SOFT_HI", 0xe0004c, [], .ro, 0x0, 0x0, 0x0, 0x0⟩,
  ⟨"BUR_REBUILT_LO", 0xe00050, [], .ro, 0x0, 0x0, 0x0, 0x0⟩,
  ⟨"BUR_REBUILT_HI", 0xe00054, [], .ro, 0x0, 0x0, 0x0, 0x0⟩,
  ⟨"BUR_POISONED_PAGES_LO", 0xe00058, [], .ro, 0x0, 0x0, 0x0, 0x0⟩,
  ⟨"BUR_POISONED_PAGES_HI", 0xe0005c, [], .ro, 0x0, 0x0, 0x0, 0x0⟩,
  ⟨"BUR_RELOC_BLOCKS_LO", 0xe00060, [], .ro, 0x0, 0x0, 0x0, 0x0⟩,
  ⟨"BUR_RELOC_BLOCKS_HI", 0xe00064, [], .ro, 0x0, 0x0, 0x0, 0x0⟩,
  ⟨"BUR_GROWN_BAD_LO", 0xe00068, [], .ro, 0x0, 0x0, 0x0, 0x0⟩,
  ⟨"BUR_GROWN_BAD_HI", 0xe0006c, [], .ro, 0x0, 0x0, 0x0, 0x0⟩,
  ⟨"BUR_UNMAPPED_LO", 0xe00070, [], .ro, 0x0, 0x0, 0x0, 0x0⟩,
  ⟨"BUR_UNMAPPED_HI", 0xe00074, [], .ro, 0x0, 0x0, 0x0, 0x0⟩,
  ⟨"BUR_INSTALL_BYTES_LO", 0xe00078, [], .ro, 0x0, 0x0, 0x0, 0x0⟩,
  ⟨"BUR_INSTALL_BYTES_HI", 0xe0007c, [], .ro, 0x0, 0x0, 0x0, 0x0⟩,
  ⟨"DMW_CTRL", 0xe10000, [], .rw, 0x1, 0x0, 0x0, 0x0⟩,
  ⟨"DMW_POOL_FREE", 0xe10004, [], .ro, 0x0, 0x0, 0x0, 0x0⟩,
  ⟨"DMW_PRESENT", 0xe10008, [], .ro, 0x0, 0x0, 0x0, 0x0⟩,
  ⟨"DMW_FILLING", 0xe1000c, [], .ro, 0x0, 0x0, 0x0, 0x0⟩,
  ⟨"DMW_POISONED", 0xe10010, [], .ro, 0x0, 0x0, 0x0, 0x0⟩,
  ⟨"DMW_FILLS_LO", 0xe10020, [], .ro, 0x0, 0x0, 0x0, 0x0⟩,
  ⟨"DMW_FILLS_HI", 0xe10024, [], .ro, 0x0, 0x0, 0x0, 0x0⟩,
  ⟨"DMW_EVICTS_LO", 0xe10028, [], .ro, 0x0, 0x0, 0x0, 0x0⟩,
  ⟨"DMW_EVICTS_HI", 0xe1002c, [], .ro, 0x0, 0x0, 0x0, 0x0⟩,
  ⟨"DMW_CANCELS_LO", 0xe10030, [], .ro, 0x0, 0x0, 0x0, 0x0⟩,
  ⟨"DMW_CANCELS_HI", 0xe10034, [], .ro, 0x0, 0x0, 0x0, 0x0⟩,
  ⟨"DMW_IGNORED_LO", 0xe10038, [], .ro, 0x0, 0x0, 0x0, 0x0⟩,
  ⟨"DMW_IGNORED_HI", 0xe1003c, [], .ro, 0x0, 0x0, 0x0, 0x0⟩,
  ⟨"DMW_FILL_WAIT_LO", 0xe10040, [], .ro, 0x0, 0x0, 0x0, 0x0⟩,
  ⟨"DMW_FILL_WAIT_HI", 0xe10044, [], .ro, 0x0, 0x0, 0x0, 0x0⟩,
  ⟨"DMW_HBM_REFETCH_LO", 0xe10048, [], .ro, 0x0, 0x0, 0x0, 0x0⟩,
  ⟨"DMW_HBM_REFETCH_HI", 0xe1004c, [], .ro, 0x0, 0x0, 0x0, 0x0⟩,
  ⟨"NAND_CFG", 0xc00000, [(32, 0x10000)], .rwl, 0x0, 0x0, 0x1ffff, 0x0⟩,
  ⟨"NAND_STATUS", 0xc00004, [(32, 0x10000)], .ro, 0x0, 0x0, 0x0, 0x0⟩,
  ⟨"NAND_BAD_BLOCKS", 0xc00008, [(32, 0x10000)], .ro, 0x0, 0x0, 0x0, 0x0⟩,
  ⟨"NAND_ERASE_RANGE", 0xc0000c, [(32, 0x10000)], .ro, 0x0, 0x0, 0x0, 0x0⟩,
  ⟨"NAND_READS_LO", 0xc00010, [(32, 0x10000)], .ro, 0x0, 0x0, 0x0, 0x0⟩,
  ⟨"NAND_READS_HI", 0xc00014, [(32, 0x10000)], .ro, 0x0, 0x0, 0x0, 0x0⟩,
  ⟨"NAND_CORR_BITS_LO", 0xc00018, [(32, 0x10000)], .ro, 0x0, 0x0, 0x0, 0x0⟩,
  ⟨"NAND_CORR_BITS_HI", 0xc0001c, [(32, 0x10000)], .ro, 0x0, 0x0, 0x0, 0x0⟩,
  ⟨"NAND_UNCORR_LO", 0xc00020, [(32, 0x10000)], .ro, 0x0, 0x0, 0x0, 0x0⟩,
  ⟨"NAND_UNCORR_HI", 0xc00024, [(32, 0x10000)], .ro, 0x0, 0x0, 0x0, 0x0⟩,
  ⟨"HBM_STATUS", 0x1c00000, [(12, 0x40000)], .ro, 0x0, 0x0, 0x0, 0x0⟩,
  ⟨"HBM_PC_PRESENT", 0x1c00004, [(12, 0x40000)], .ro, 0x0, 0x0, 0x0, 0x0⟩,
  ⟨"HBM_CAPACITY_GIB", 0x1c00008, [(12, 0x40000)], .ro, 0x0, 0x0, 0x0, 0x0⟩,
  ⟨"HBM_GRANULES_FREE", 0x1c0000c, [(12, 0x40000)], .ro, 0x0, 0x0, 0x0, 0x0⟩,
  ⟨"HBM_SCRUB_H", 0x1c00010, [(12, 0x40000)], .rw, 0xff, 0x0, 0x0, 0x18⟩,
  ⟨"HBM_CE_LO", 0x1c00020, [(12, 0x40000)], .ro, 0x0, 0x0, 0x0, 0x0⟩,
  ⟨"HBM_CE_HI", 0x1c00024, [(12, 0x40000)], .ro, 0x0, 0x0, 0x0, 0x0⟩]

/-- Registers of 09_memory_tiers.md. -/
def regRows09b : List RegRow := [
  ⟨"HBM_UE_LO", 0x1c00028, [(12, 0x40000)], .ro, 0x0, 0x0, 0x0, 0x0⟩,
  ⟨"HBM_UE_HI", 0x1c0002c, [(12, 0x40000)], .ro, 0x0, 0x0, 0x0, 0x0⟩,
  ⟨"HBM_POISON_READS_LO", 0x1c00030, [(12, 0x40000)], .ro, 0x0, 0x0, 0x0, 0x0⟩,
  ⟨"HBM_POISON_READS_HI", 0x1c00034, [(12, 0x40000)], .ro, 0x0, 0x0, 0x0, 0x0⟩,
  ⟨"HBM_MIRROR_FIXES_LO", 0x1c00038, [(12, 0x40000)], .ro, 0x0, 0x0, 0x0, 0x0⟩,
  ⟨"HBM_MIRROR_FIXES_HI", 0x1c0003c, [(12, 0x40000)], .ro, 0x0, 0x0, 0x0, 0x0⟩]

/-- Registers of 10_serving_cells.md. -/
def regRows10 : List RegRow := [
  ⟨"INV_NT_CTRL", 0x401000, [(64, 0x40)], .rw, 0x3f, 0x0, 0x0, 0x0⟩,
  ⟨"INV_NT_OFFSET_NS", 0x401004, [(64, 0x40)], .rw, 0xffffffff, 0x0, 0x0, 0x0⟩,
  ⟨"INV_NT_SYMLATCH", 0x401008, [(64, 0x40)], .rw, 0x1fff, 0x0, 0x0, 0x0⟩,
  ⟨"INV_NT_NOW", 0x40100c, [(64, 0x40)], .ro, 0x0, 0x0, 0x0, 0x0⟩,
  ⟨"INV_NT_TICKS_LO", 0x401010, [(64, 0x40)], .ro, 0x0, 0x0, 0x0, 0x0⟩,
  ⟨"INV_NT_TICKS_HI", 0x401014, [(64, 0x40)], .ro, 0x0, 0x0, 0x0, 0x0⟩,
  ⟨"INV_NT_SKIPPED_LO", 0x401018, [(64, 0x40)], .ro, 0x0, 0x0, 0x0, 0x0⟩,
  ⟨"INV_NT_SKIPPED_HI", 0x40101c, [(64, 0x40)], .ro, 0x0, 0x0, 0x0, 0x0⟩,
  ⟨"CAB_TPL_CFG", 0x270000, [(512, 0x20)], .ro, 0x0, 0x0, 0x0, 0x0⟩,
  ⟨"CAB_TPL_INSTANCE", 0x270004, [(512, 0x20)], .ro, 0x0, 0x0, 0x0, 0x0⟩,
  ⟨"CAB_TPL_SKIPPED_LO", 0x270008, [(512, 0x20)], .ro, 0x0, 0x0, 0x0, 0x0⟩,
  ⟨"CAB_TPL_SKIPPED_HI", 0x27000c, [(512, 0x20)], .ro, 0x0, 0x0, 0x0, 0x0⟩,
  ⟨"CAB_TPL_LAST_TICK_LO", 0x270010, [(512, 0x20)], .ro, 0x0, 0x0, 0x0, 0x0⟩,
  ⟨"CAB_TPL_LAST_TICK_HI", 0x270014, [(512, 0x20)], .ro, 0x0, 0x0, 0x0, 0x0⟩,
  ⟨"BRZ_CTRL", 0x1c10000, [(12, 0x40000), (4, 0x1000)], .rw, 0x7, 0x0, 0x0, 0x0⟩,
  ⟨"BRZ_STATUS", 0x1c10004, [(12, 0x40000), (4, 0x1000)], .ro, 0x0, 0x0, 0x0, 0x0⟩,
  ⟨"BRZ_FAULT", 0x1c10008, [(12, 0x40000), (4, 0x1000)], .rw, 0x0, 0x1, 0x0, 0x0⟩,
  ⟨"BRZ_FAULT_JOB_LO", 0x1c10010, [(12, 0x40000), (4, 0x1000)], .ro, 0x0, 0x0, 0x0, 0x0⟩,
  ⟨"BRZ_FAULT_JOB_HI", 0x1c10014, [(12, 0x40000), (4, 0x1000)], .ro, 0x0, 0x0, 0x0, 0x0⟩,
  ⟨"BRZ_BLOCKS_LO", 0x1c10020, [(12, 0x40000), (4, 0x1000)], .ro, 0x0, 0x0, 0x0, 0x0⟩,
  ⟨"BRZ_BLOCKS_HI", 0x1c10024, [(12, 0x40000), (4, 0x1000)], .ro, 0x0, 0x0, 0x0, 0x0⟩,
  ⟨"BRZ_CRC_FAIL_LO", 0x1c10028, [(12, 0x40000), (4, 0x1000)], .ro, 0x0, 0x0, 0x0, 0x0⟩,
  ⟨"BRZ_CRC_FAIL_HI", 0x1c1002c, [(12, 0x40000), (4, 0x1000)], .ro, 0x0, 0x0, 0x0, 0x0⟩,
  ⟨"BRZ_ITERS_LO", 0x1c10030, [(12, 0x40000), (4, 0x1000)], .ro, 0x0, 0x0, 0x0, 0x0⟩,
  ⟨"BRZ_ITERS_HI", 0x1c10034, [(12, 0x40000), (4, 0x1000)], .ro, 0x0, 0x0, 0x0, 0x0⟩,
  ⟨"BRZ_BUSY_CYC_LO", 0x1c10038, [(12, 0x40000), (4, 0x1000)], .ro, 0x0, 0x0, 0x0, 0x0⟩,
  ⟨"BRZ_BUSY_CYC_HI", 0x1c1003c, [(12, 0x40000), (4, 0x1000)], .ro, 0x0, 0x0, 0x0, 0x0⟩,
  ⟨"BRZ_FLUSH_LO", 0x1c10040, [(12, 0x40000), (4, 0x1000)], .ro, 0x0, 0x0, 0x0, 0x0⟩,
  ⟨"BRZ_FLUSH_HI", 0x1c10044, [(12, 0x40000), (4, 0x1000)], .ro, 0x0, 0x0, 0x0, 0x0⟩]

/-- Registers of 11_ports_traffic_time.md. -/
def regRows11 : List RegRow := [
  ⟨"INV_CTRL", 0x400000, [], .rw, 0x7, 0x0, 0x0, 0x0⟩,
  ⟨"INV_STATUS", 0x400004, [], .ro, 0x0, 0x0, 0x0, 0x0⟩,
  ⟨"INV_NOW_W0", 0x400008, [], .ro, 0x0, 0x0, 0x0, 0x0⟩,
  ⟨"INV_NOW_W1", 0x40000c, [], .ro, 0x0, 0x0, 0x0, 0x0⟩,
  ⟨"INV_NOW_W2", 0x400010, [], .ro, 0x0, 0x0, 0x0, 0x0⟩,
  ⟨"INV_NOW64_LO", 0x400014, [], .ro, 0x0, 0x0, 0x0, 0x0⟩,
  ⟨"INV_NOW64_HI", 0x400018, [], .ro, 0x0, 0x0, 0x0, 0x0⟩,
  ⟨"INV_SET_W0", 0x400020, [], .rw, 0xffffffff, 0x0, 0x0, 0x0⟩,
  ⟨"INV_SET_W1", 0x400024, [], .rw, 0xffffffff, 0x0, 0x0, 0x0⟩,
  ⟨"INV_SET_W2", 0x400028, [], .rw, 0xffffffff, 0x0, 0x0, 0x0⟩,
  ⟨"INV_SET_GO", 0x40002c, [], .wo, 0x0, 0x0, 0x0, 0x0⟩,
  ⟨"INV_STEP_LO", 0x400030, [], .rw, 0xffffffff, 0x0, 0x0, 0x0⟩,
  ⟨"INV_STEP_HI", 0x400034, [], .rw, 0xffffffff, 0x0, 0x0, 0x0⟩,
  ⟨"INV_INCR_FRAC", 0x400038, [], .rw, 0xffffffff, 0x0, 0x0, 0x0⟩,
  ⟨"INV_INCR_INT", 0x40003c, [], .rw, 0xf, 0x0, 0x0, 0x1⟩,
  ⟨"INV_INCR_NOM_FRAC", 0x400040, [], .rw, 0xffffffff, 0x0, 0x0, 0x0⟩,
  ⟨"INV_INCR_NOM_INT", 0x400044, [], .rw, 0xf, 0x0, 0x0, 0x1⟩,
  ⟨"INV_SERVO_OFF_LO", 0x400048, [], .rw, 0xffffffff, 0x0, 0x0, 0x0⟩,
  ⟨"INV_SERVO_OFF_HI", 0x40004c, [], .rw, 0xffff, 0x0, 0x0, 0x0⟩,
  ⟨"INV_SERVO_KP", 0x400050, [], .rw, 0xffffffff, 0x0, 0x0, 0x225c18⟩,
  ⟨"INV_SERVO_KI", 0x400054, [], .rw, 0xffffffff, 0x0, 0x0, 0x225c2⟩,
  ⟨"INV_SERVO_STEP_NS", 0x400058, [], .rw, 0xffffffff, 0x0, 0x0, 0xf4240⟩,
  ⟨"INV_SERVO_HOLD_MS", 0x40005c, [], .rw, 0xffffffff, 0x0, 0x0, 0xbb8⟩,
  ⟨"INV_LOCK_NS", 0x400060, [], .rw, 0xffffffff, 0x0, 0x0, 0x8⟩,
  ⟨"INV_SERVO_I", 0x400064, [], .ro, 0x0, 0x0, 0x0, 0x0⟩,
  ⟨"INV_LAST_OFF_NS", 0x400068, [], .ro, 0x0, 0x0, 0x0, 0x0⟩,
  ⟨"INV_PPS_IN_W0", 0x400070, [], .ro, 0x0, 0x0, 0x0, 0x0⟩,
  ⟨"INV_PPS_IN_W1", 0x400074, [], .ro, 0x0, 0x0, 0x0, 0x0⟩,
  ⟨"INV_PPS_IN_W2", 0x400078, [], .ro, 0x0, 0x0, 0x0, 0x0⟩,
  ⟨"INV_STEPS_LO", 0x400080, [], .ro, 0x0, 0x0, 0x0, 0x0⟩,
  ⟨"INV_STEPS_HI", 0x400084, [], .ro, 0x0, 0x0, 0x0, 0x0⟩,
  ⟨"INV_SAMPLES_LO", 0x400088, [], .ro, 0x0, 0x0, 0x0, 0x0⟩,
  ⟨"INV_SAMPLES_HI", 0x40008c, [], .ro, 0x0, 0x0, 0x0, 0x0⟩,
  ⟨"INV_PPS_EDGES_LO", 0x400090, [], .ro, 0x0, 0x0, 0x0, 0x0⟩,
  ⟨"INV_PPS_EDGES_HI", 0x400094, [], .ro, 0x0, 0x0, 0x0, 0x0⟩,
  ⟨"INV_RCLK0_CFG", 0x400098, [], .rw, 0xff, 0x0, 0x0, 0x0⟩,
  ⟨"INV_RCLK1_CFG", 0x40009c, [], .rw, 0xff, 0x0, 0x0, 0x0⟩,
  ⟨"INV_SIG_DROP_LO", 0x4000a0, [], .ro, 0x0, 0x0, 0x0, 0x0⟩,
  ⟨"INV_SIG_DROP_HI", 0x4000a4, [], .ro, 0x0, 0x0, 0x0, 0x0⟩,
  ⟨"INV_TRG_CTRL", 0x402000, [(16, 0x40)], .rw, 0xf, 0x0, 0x0, 0x0⟩,
  ⟨"INV_TRG_LATCH", 0x402004, [(16, 0x40)], .rw, 0x1fff, 0x0, 0x0, 0x0⟩,
  ⟨"INV_TRG_T_LO", 0x402008, [(16, 0x40)], .rw, 0xffffffff, 0x0, 0x0, 0x0⟩,
  ⟨"INV_TRG_T_HI", 0x40200c, [(16, 0x40)], .rw, 0xffffffff, 0x0, 0x0, 0x0⟩,
  ⟨"INV_TRG_PERIOD_NS", 0x402010, [(16, 0x40)], .rw, 0xffffffff, 0x0, 0x0, 0x0⟩,
  ⟨"INV_TRG_WIDTH_NS", 0x402014, [(16, 0x40)], .rw, 0xffffffff, 0x0, 0x0, 0x186a0⟩,
  ⟨"INV_TRG_STATUS", 0x402018, [(16, 0x40)], .ro, 0x0, 0x0, 0x0, 0x0⟩,
  ⟨"INV_TRG_FIRED_LO", 0x402020, [(16, 0x40)], .ro, 0x0, 0x0, 0x0, 0x0⟩,
  ⟨"INV_TRG_FIRED_HI", 0x402024, [(16, 0x40)], .ro, 0x0, 0x0, 0x0, 0x0⟩,
  ⟨"INV_TRG_SKIPPED_LO", 0x402028, [(16, 0x40)], .ro, 0x0, 0x0, 0x0, 0x0⟩,
  ⟨"INV_TRG_SKIPPED_HI", 0x40202c, [(16, 0x40)], .ro, 0x0, 0x0, 0x0, 0x0⟩,
  ⟨"ETH_CFG", 0x800000, [(8, 0x40000)], .rwl, 0x0, 0x0, 0x7, 0x0⟩,
  ⟨"ETH_CTRL", 0x800004, [(8, 0x40000)], .rw, 0x1, 0x0, 0x0, 0x0⟩,
  ⟨"ETH_STATUS", 0x800008, [(8, 0x40000)], .ro, 0x0, 0x0, 0x0, 0x0⟩,
  ⟨"ETH_LANE_CFG", 0x800010, [(8, 0x40000), (8, 0x4)], .rwl, 0x0, 0x0, 0x7, 0x0⟩,
  ⟨"ETH_MAC_CFG", 0x801000, [(8, 0x40000), (8, 0x400)], .rwl, 0x0, 0x0, 0x3fff, 0x5f2⟩,
  ⟨"ETH_MAC_ADDR_LO", 0x801004, [(8, 0x40000), (8, 0x400)], .rwl, 0x0, 0x0, 0xffffffff, 0x0⟩,
  ⟨"ETH_MAC_ADDR_HI", 0x801008, [(8, 0x40000), (8, 0x400)], .rwl, 0x0, 0x0, 0xffff, 0x0⟩,
  ⟨"ETH_TS_EGRESS_ADJ", 0x80100c, [(8, 0x40000), (8, 0x400)], .rw, 0xffffffff, 0x0, 0x0, 0x0⟩,
  ⟨"ETH_TS_INGRESS_ADJ", 0x801010, [(8, 0x40000), (8, 0x400)], .rw, 0xffffffff, 0x0, 0x0, 0x0⟩,
  ⟨"ETH_TX_FRAMES_LO", 0x801020, [(8, 0x40000), (8, 0x400)], .ro, 0x0, 0x0, 0x0, 0x0⟩]

/-- Registers of 11_ports_traffic_time.md. -/
def regRows11b : List RegRow := [
  ⟨"ETH_TX_FRAMES_HI", 0x801024, [(8, 0x40000), (8, 0x400)], .ro, 0x0, 0x0, 0x0, 0x0⟩,
  ⟨"ETH_RX_FRAMES_LO", 0x801028, [(8, 0x40000), (8, 0x400)], .ro, 0x0, 0x0, 0x0, 0x0⟩,
  ⟨"ETH_RX_FRAMES_HI", 0x80102c, [(8, 0x40000), (8, 0x400)], .ro, 0x0, 0x0, 0x0, 0x0⟩,
  ⟨"ETH_RX_FCS_ERR_LO", 0x801030, [(8, 0x40000), (8, 0x400)], .ro, 0x0, 0x0, 0x0, 0x0⟩,
  ⟨"ETH_RX_FCS_ERR_HI", 0x801034, [(8, 0x40000), (8, 0x400)], .ro, 0x0, 0x0, 0x0, 0x0⟩,
  ⟨"ETH_RX_OVERSIZE_LO", 0x801038, [(8, 0x40000), (8, 0x400)], .ro, 0x0, 0x0, 0x0, 0x0⟩,
  ⟨"ETH_RX_OVERSIZE_HI", 0x80103c, [(8, 0x40000), (8, 0x400)], .ro, 0x0, 0x0, 0x0, 0x0⟩,
  ⟨"ETH_RX_DROP_LO", 0x801040, [(8, 0x40000), (8, 0x400)], .ro, 0x0, 0x0, 0x0, 0x0⟩,
  ⟨"ETH_RX_DROP_HI", 0x801044, [(8, 0x40000), (8, 0x400)], .ro, 0x0, 0x0, 0x0, 0x0⟩,
  ⟨"ETH_RX_UNMATCHED_LO", 0x801048, [(8, 0x40000), (8, 0x400)], .ro, 0x0, 0x0, 0x0, 0x0⟩,
  ⟨"ETH_RX_UNMATCHED_HI", 0x80104c, [(8, 0x40000), (8, 0x400)], .ro, 0x0, 0x0, 0x0, 0x0⟩,
  ⟨"ETH_RX_POLICED_LO", 0x801050, [(8, 0x40000), (8, 0x400)], .ro, 0x0, 0x0, 0x0, 0x0⟩,
  ⟨"ETH_RX_POLICED_HI", 0x801054, [(8, 0x40000), (8, 0x400)], .ro, 0x0, 0x0, 0x0, 0x0⟩,
  ⟨"ETH_FEC_CORR_LO", 0x801058, [(8, 0x40000), (8, 0x400)], .ro, 0x0, 0x0, 0x0, 0x0⟩,
  ⟨"ETH_FEC_CORR_HI", 0x80105c, [(8, 0x40000), (8, 0x400)], .ro, 0x0, 0x0, 0x0, 0x0⟩,
  ⟨"ETH_FEC_UNCORR_LO", 0x801060, [(8, 0x40000), (8, 0x400)], .ro, 0x0, 0x0, 0x0, 0x0⟩,
  ⟨"ETH_FEC_UNCORR_HI", 0x801064, [(8, 0x40000), (8, 0x400)], .ro, 0x0, 0x0, 0x0, 0x0⟩,
  ⟨"HST_CTRL", 0xa00000, [(64, 0x4000)], .rw, 0xf, 0x0, 0x0, 0x0⟩,
  ⟨"HST_OVERHEAD", 0xa00004, [(64, 0x4000)], .rw, 0x7f, 0x0, 0x0, 0x14⟩,
  ⟨"HST_STATUS", 0xa00008, [(64, 0x4000)], .ro, 0x0, 0x0, 0x0, 0x0⟩,
  ⟨"HST_POLSEL", 0xa0000c, [(64, 0x4000)], .rw, 0x7, 0x0, 0x0, 0x0⟩,
  ⟨"HST_GCL_BASE_LO", 0xa00010, [(64, 0x4000)], .rw, 0xffffffff, 0x0, 0x0, 0x0⟩,
  ⟨"HST_GCL_BASE_HI", 0xa00014, [(64, 0x4000)], .rw, 0xffffffff, 0x0, 0x0, 0x0⟩,
  ⟨"HST_GCL_CYCLE_NS", 0xa00018, [(64, 0x4000)], .rw, 0xffffffff, 0x0, 0x0, 0x0⟩,
  ⟨"HST_GCL_LEN", 0xa0001c, [(64, 0x4000)], .rw, 0x7ff, 0x0, 0x0, 0x0⟩,
  ⟨"HST_GCL_CHANGE_LO", 0xa00020, [(64, 0x4000)], .rw, 0xffffffff, 0x0, 0x0, 0x0⟩,
  ⟨"HST_GCL_CHANGE_HI", 0xa00024, [(64, 0x4000)], .rw, 0xffffffff, 0x0, 0x0, 0x0⟩,
  ⟨"HST_GCL_GO", 0xa00028, [(64, 0x4000)], .wo, 0x0, 0x0, 0x0, 0x0⟩,
  ⟨"HST_LATE_TOL_NS", 0xa0002c, [(64, 0x4000)], .rw, 0xffffffff, 0x0, 0x0, 0x2⟩,
  ⟨"HST_PCP_POL", 0xa00040, [(64, 0x4000), (8, 0x4)], .rw, 0x1ffff, 0x0, 0x0, 0x0⟩,
  ⟨"HST_CMAP_PCP", 0xa00060, [(64, 0x4000)], .rw, 0xffffffff, 0x0, 0x0, 0x0⟩,
  ⟨"HST_CMAP_DSCP", 0xa00064, [(64, 0x4000), (4, 0x4)], .rw, 0xffffffff, 0x0, 0x0, 0x0⟩,
  ⟨"HST_DSCP_POL", 0xa00100, [(64, 0x4000), (64, 0x4)], .rw, 0x1ffff, 0x0, 0x0, 0x0⟩,
  ⟨"HST_TX_LATE_LO", 0xa00200, [(64, 0x4000)], .ro, 0x0, 0x0, 0x0, 0x0⟩,
  ⟨"HST_TX_LATE_HI", 0xa00204, [(64, 0x4000)], .ro, 0x0, 0x0, 0x0, 0x0⟩,
  ⟨"HST_DROP_LATE_LO", 0xa00208, [(64, 0x4000)], .ro, 0x0, 0x0, 0x0, 0x0⟩,
  ⟨"HST_DROP_LATE_HI", 0xa0020c, [(64, 0x4000)], .ro, 0x0, 0x0, 0x0, 0x0⟩,
  ⟨"HST_DROP_OVERSIZE_LO", 0xa00210, [(64, 0x4000)], .ro, 0x0, 0x0, 0x0, 0x0⟩,
  ⟨"HST_DROP_OVERSIZE_HI", 0xa00214, [(64, 0x4000)], .ro, 0x0, 0x0, 0x0, 0x0⟩,
  ⟨"HST_STEP_OVERRUN_LO", 0xa00218, [(64, 0x4000)], .ro, 0x0, 0x0, 0x0, 0x0⟩,
  ⟨"HST_STEP_OVERRUN_HI", 0xa0021c, [(64, 0x4000)], .ro, 0x0, 0x0, 0x0, 0x0⟩,
  ⟨"HST_TC_SHAPER", 0xa00400, [(64, 0x4000), (16, 0x40)], .rw, 0x1fffff, 0x0, 0x0, 0x0⟩,
  ⟨"HST_TC_BURST", 0xa00404, [(64, 0x4000), (16, 0x40)], .rw, 0x1ffffff, 0x0, 0x0, 0x10000⟩,
  ⟨"HST_TC_WEIGHT", 0xa00408, [(64, 0x4000), (16, 0x40)], .rw, 0x7ff, 0x0, 0x0, 0x1⟩,
  ⟨"HST_TC_QUANTUM", 0xa0040c, [(64, 0x4000), (16, 0x40)], .rw, 0xffff, 0x0, 0x0, 0x600⟩,
  ⟨"HST_TC_CREDIT", 0xa00410, [(64, 0x4000), (16, 0x40)], .ro, 0x0, 0x0, 0x0, 0x0⟩,
  ⟨"HST_TC_MAXWIN_NS", 0xa00414, [(64, 0x4000), (16, 0x40)], .ro, 0x0, 0x0, 0x0, 0xffffffff⟩,
  ⟨"HST_TC_TX_FRAMES_LO", 0xa00420, [(64, 0x4000), (16, 0x40)], .ro, 0x0, 0x0, 0x0, 0x0⟩,
  ⟨"HST_TC_TX_FRAMES_HI", 0xa00424, [(64, 0x4000), (16, 0x40)], .ro, 0x0, 0x0, 0x0, 0x0⟩,
  ⟨"HST_TC_TX_BYTES_LO", 0xa00428, [(64, 0x4000), (16, 0x40)], .ro, 0x0, 0x0, 0x0, 0x0⟩,
  ⟨"HST_TC_TX_BYTES_HI", 0xa0042c, [(64, 0x4000), (16, 0x40)], .ro, 0x0, 0x0, 0x0, 0x0⟩,
  ⟨"HST_POL_SEL", 0xb00000, [], .rw, 0xffff, 0x0, 0x0, 0x0⟩,
  ⟨"HST_POL_CFG", 0xb00004, [], .rw, 0x3f, 0x0, 0x0, 0x0⟩,
  ⟨"HST_POL_CIR", 0xb00008, [], .rw, 0xfffff, 0x0, 0x0, 0x0⟩,
  ⟨"HST_POL_CBS", 0xb0000c, [], .rw, 0x1ffffff, 0x0, 0x0, 0x0⟩,
  ⟨"HST_POL_PIR", 0xb00010, [], .rw, 0xfffff, 0x0, 0x0, 0x0⟩,
  ⟨"HST_POL_EBS_PBS", 0xb00014, [], .rw, 0x1ffffff, 0x0, 0x0, 0x0⟩,
  ⟨"HST_POL_GREEN_LO", 0xb00020, [], .ro, 0x0, 0x0, 0x0, 0x0⟩,
  ⟨"HST_POL_GREEN_HI", 0xb00024, [], .ro, 0x0, 0x0, 0x0, 0x0⟩,
  ⟨"HST_POL_YELLOW_LO", 0xb00028, [], .ro, 0x0, 0x0, 0x0, 0x0⟩]

/-- Registers of 11_ports_traffic_time.md. -/
def regRows11c : List RegRow := [
  ⟨"HST_POL_YELLOW_HI", 0xb0002c, [], .ro, 0x0, 0x0, 0x0, 0x0⟩,
  ⟨"HST_POL_RED_LO", 0xb00030, [], .ro, 0x0, 0x0, 0x0, 0x0⟩,
  ⟨"HST_POL_RED_HI", 0xb00034, [], .ro, 0x0, 0x0, 0x0, 0x0⟩,
  ⟨"HST_MGMT_RXQ", 0xb00100, [(64, 0x4)], .rw, 0x7ffff, 0x0, 0x0, 0x0⟩,
  ⟨"HST_GCL_GATES", 0xa02000, [(64, 0x4000), (1024, 0x8)], .rw, 0xffff, 0x0, 0x0, 0x0⟩,
  ⟨"HST_GCL_INTERVAL", 0xa02004, [(64, 0x4000), (1024, 0x8)], .rw, 0xffffffff, 0x0, 0x0, 0x0⟩]

/-- Registers of 12_solder_fabric.md. -/
def regRows12 : List RegRow := [
  ⟨"SLD_CTRL", 0x700000, [], .rw, 0x1, 0x0, 0x0, 0x0⟩,
  ⟨"SLD_STATUS", 0x700004, [], .ro, 0x0, 0x0, 0x0, 0x0⟩,
  ⟨"SLD_NODE_ID", 0x700008, [], .rwl, 0x0, 0x0, 0x3fff, 0x0⟩,
  ⟨"SLD_UDP_PORT", 0x70000c, [], .rwl, 0x0, 0x0, 0xffff, 0xc230⟩,
  ⟨"SLD_QOS", 0x700010, [], .rw, 0x3ff, 0x0, 0x0, 0x4⟩,
  ⟨"SLD_RTO_MIN_US", 0x700014, [], .rw, 0xffffffff, 0x0, 0x0, 0x14⟩,
  ⟨"SLD_RTO_MAX_US", 0x700018, [], .rw, 0xffffffff, 0x0, 0x0, 0x2710⟩,
  ⟨"SLD_ECN_THRESH", 0x70001c, [], .rw, 0x1ffff, 0x0, 0x0, 0x1000⟩,
  ⟨"SLD_INCARNATION", 0x700020, [], .ro, 0x0, 0x0, 0x0, 0x0⟩,
  ⟨"SLD_QUORUM_CFG", 0x700024, [], .ro, 0x0, 0x0, 0x0, 0x0⟩,
  ⟨"SLD_QUORUM_SEQ_LO", 0x700028, [], .ro, 0x0, 0x0, 0x0, 0x0⟩,
  ⟨"SLD_QUORUM_SEQ_HI", 0x70002c, [], .ro, 0x0, 0x0, 0x0, 0x0⟩,
  ⟨"SLD_EXPELLED_COUNT", 0x700030, [], .ro, 0x0, 0x0, 0x0, 0x0⟩,
  ⟨"SLD_TX_PKTS_LO", 0x700040, [], .ro, 0x0, 0x0, 0x0, 0x0⟩,
  ⟨"SLD_TX_PKTS_HI", 0x700044, [], .ro, 0x0, 0x0, 0x0, 0x0⟩,
  ⟨"SLD_RX_PKTS_LO", 0x700048, [], .ro, 0x0, 0x0, 0x0, 0x0⟩,
  ⟨"SLD_RX_PKTS_HI", 0x70004c, [], .ro, 0x0, 0x0, 0x0, 0x0⟩,
  ⟨"SLD_RETX_LO", 0x700050, [], .ro, 0x0, 0x0, 0x0, 0x0⟩,
  ⟨"SLD_RETX_HI", 0x700054, [], .ro, 0x0, 0x0, 0x0, 0x0⟩,
  ⟨"SLD_NAK_TX_LO", 0x700058, [], .ro, 0x0, 0x0, 0x0, 0x0⟩,
  ⟨"SLD_NAK_TX_HI", 0x70005c, [], .ro, 0x0, 0x0, 0x0, 0x0⟩,
  ⟨"SLD_DUP_RX_LO", 0x700060, [], .ro, 0x0, 0x0, 0x0, 0x0⟩,
  ⟨"SLD_DUP_RX_HI", 0x700064, [], .ro, 0x0, 0x0, 0x0, 0x0⟩,
  ⟨"SLD_REPLAY_HITS_LO", 0x700068, [], .ro, 0x0, 0x0, 0x0, 0x0⟩,
  ⟨"SLD_REPLAY_HITS_HI", 0x70006c, [], .ro, 0x0, 0x0, 0x0, 0x0⟩,
  ⟨"SLD_RX_OVERFLOW_LO", 0x700070, [], .ro, 0x0, 0x0, 0x0, 0x0⟩,
  ⟨"SLD_RX_OVERFLOW_HI", 0x700074, [], .ro, 0x0, 0x0, 0x0, 0x0⟩,
  ⟨"SLD_EXPELLED_DROP_LO", 0x700078, [], .ro, 0x0, 0x0, 0x0, 0x0⟩,
  ⟨"SLD_EXPELLED_DROP_HI", 0x70007c, [], .ro, 0x0, 0x0, 0x0, 0x0⟩,
  ⟨"SLD_ECN_ECHO_RX_LO", 0x700080, [], .ro, 0x0, 0x0, 0x0, 0x0⟩,
  ⟨"SLD_ECN_ECHO_RX_HI", 0x700084, [], .ro, 0x0, 0x0, 0x0, 0x0⟩,
  ⟨"SLD_QUORUM_REJECT_LO", 0x700088, [], .ro, 0x0, 0x0, 0x0, 0x0⟩,
  ⟨"SLD_QUORUM_REJECT_HI", 0x70008c, [], .ro, 0x0, 0x0, 0x0, 0x0⟩,
  ⟨"SLD_CHECKSUM_DROP_LO", 0x700090, [], .ro, 0x0, 0x0, 0x0, 0x0⟩,
  ⟨"SLD_CHECKSUM_DROP_HI", 0x700094, [], .ro, 0x0, 0x0, 0x0, 0x0⟩,
  ⟨"SLD_PEER_SEL", 0x700100, [], .rw, 0x3fff, 0x0, 0x0, 0x0⟩,
  ⟨"SLD_PEER_STATE", 0x700104, [], .ro, 0x0, 0x0, 0x0, 0x0⟩,
  ⟨"SLD_PEER_UNRETIRED", 0x700108, [], .ro, 0x0, 0x0, 0x0, 0x0⟩,
  ⟨"SLD_PEER_RTO_US", 0x70010c, [], .ro, 0x0, 0x0, 0x0, 0x0⟩,
  ⟨"SLD_PEER_OLDEST_US", 0x700110, [], .ro, 0x0, 0x0, 0x0, 0x0⟩]

/-- Registers of 13_host_queues_and_functions.md. -/
def regRows13 : List RegRow := [
  ⟨"SBD_MBX_DOORBELL", 0x110000, [(4, 0x40)], .wo, 0x0, 0x0, 0x0, 0x0⟩,
  ⟨"SBD_MBX_STATUS", 0x110004, [(4, 0x40)], .ro, 0x0, 0x0, 0x0, 0x0⟩,
  ⟨"SBD_MBX_GEN", 0x110008, [(4, 0x40)], .ro, 0x0, 0x0, 0x0, 0x0⟩,
  ⟨"SBD_MBX_IRQ", 0x11000c, [(4, 0x40)], .rw, 0xfff, 0x0, 0x0, 0x0⟩,
  ⟨"PCI_LINK_STATUS", 0x1000, [], .ro, 0x0, 0x0, 0x0, 0x0⟩,
  ⟨"PCI_PF_GEN", 0x1004, [], .ro, 0x0, 0x0, 0x0, 0x0⟩,
  ⟨"PCI_BAR4_BASE_LO", 0x1008, [], .rw, 0xffffffff, 0x0, 0x0, 0x0⟩,
  ⟨"PCI_BAR4_BASE_HI", 0x100c, [], .rw, 0xffff, 0x0, 0x0, 0x0⟩,
  ⟨"PCI_STALE_DROP_LO", 0x1010, [], .ro, 0x0, 0x0, 0x0, 0x0⟩,
  ⟨"PCI_STALE_DROP_HI", 0x1014, [], .ro, 0x0, 0x0, 0x0, 0x0⟩,
  ⟨"PCI_BAD_DOORBELL_LO", 0x1018, [], .ro, 0x0, 0x0, 0x0, 0x0⟩,
  ⟨"PCI_BAD_DOORBELL_HI", 0x101c, [], .ro, 0x0, 0x0, 0x0, 0x0⟩,
  ⟨"QUE_CFG", 0x2000000, [(262144, 0x40)], .ro, 0x0, 0x0, 0x0, 0x0⟩,
  ⟨"QUE_PAIR", 0x2000004, [(262144, 0x40)], .ro, 0x0, 0x0, 0x0, 0x0⟩,
  ⟨"QUE_BASE_LO", 0x2000008, [(262144, 0x40)], .ro, 0x0, 0x0, 0x0, 0x0⟩,
  ⟨"QUE_BASE_HI", 0x200000c, [(262144, 0x40)], .ro, 0x0, 0x0, 0x0, 0x0⟩,
  ⟨"QUE_WB_LO", 0x2000010, [(262144, 0x40)], .ro, 0x0, 0x0, 0x0, 0x0⟩,
  ⟨"QUE_WB_HI", 0x2000014, [(262144, 0x40)], .ro, 0x0, 0x0, 0x0, 0x0⟩,
  ⟨"QUE_PROD", 0x2000018, [(262144, 0x40)], .ro, 0x0, 0x0, 0x0, 0x0⟩,
  ⟨"QUE_CONS", 0x200001c, [(262144, 0x40)], .ro, 0x0, 0x0, 0x0, 0x0⟩,
  ⟨"QUE_COAL", 0x2000020, [(262144, 0x40)], .ro, 0x0, 0x0, 0x0, 0x0⟩,
  ⟨"QUE_TYPE_CFG", 0x2000024, [(262144, 0x40)], .ro, 0x0, 0x0, 0x0, 0x0⟩,
  ⟨"QUE_STATE", 0x2000028, [(262144, 0x40)], .ro, 0x0, 0x0, 0x0, 0x0⟩,
  ⟨"QUE_DROPS_LO", 0x2000030, [(262144, 0x40)], .ro, 0x0, 0x0, 0x0, 0x0⟩,
  ⟨"QUE_DROPS_HI", 0x2000034, [(262144, 0x40)], .ro, 0x0, 0x0, 0x0, 0x0⟩,
  ⟨"QUE_BAD_DOORBELL_LO", 0x2000038, [(262144, 0x40)], .ro, 0x0, 0x0, 0x0, 0x0⟩,
  ⟨"QUE_BAD_DOORBELL_HI", 0x200003c, [(262144, 0x40)], .ro, 0x0, 0x0, 0x0, 0x0⟩,
  ⟨"VF_STATE", 0x3000000, [(1024, 0x100)], .ro, 0x0, 0x0, 0x0, 0x0⟩,
  ⟨"VF_GEN", 0x3000004, [(1024, 0x100)], .ro, 0x0, 0x0, 0x0, 0x0⟩,
  ⟨"VF_QBASE", 0x3000008, [(1024, 0x100)], .ro, 0x0, 0x0, 0x0, 0x0⟩,
  ⟨"VF_QCOUNT", 0x300000c, [(1024, 0x100)], .ro, 0x0, 0x0, 0x0, 0x0⟩,
  ⟨"VF_VECTORS", 0x3000010, [(1024, 0x100)], .ro, 0x0, 0x0, 0x0, 0x0⟩,
  ⟨"VF_CONTEXTS", 0x3000014, [(1024, 0x100)], .ro, 0x0, 0x0, 0x0, 0x0⟩,
  ⟨"VF_HBM_QUOTA", 0x3000018, [(1024, 0x100)], .ro, 0x0, 0x0, 0x0, 0x0⟩,
  ⟨"VF_HBM_USED", 0x300001c, [(1024, 0x100)], .ro, 0x0, 0x0, 0x0, 0x0⟩,
  ⟨"VF_STALE_DROP_LO", 0x3000020, [(1024, 0x100)], .ro, 0x0, 0x0, 0x0, 0x0⟩,
  ⟨"VF_STALE_DROP_HI", 0x3000024, [(1024, 0x100)], .ro, 0x0, 0x0, 0x0, 0x0⟩,
  ⟨"VF_MBX_CMDS_LO", 0x3000028, [(1024, 0x100)], .ro, 0x0, 0x0, 0x0, 0x0⟩,
  ⟨"VF_MBX_CMDS_HI", 0x300002c, [(1024, 0x100)], .ro, 0x0, 0x0, 0x0, 0x0⟩,
  ⟨"VF_MBX_IGNORED_LO", 0x3000030, [(1024, 0x100)], .ro, 0x0, 0x0, 0x0, 0x0⟩,
  ⟨"VF_MBX_IGNORED_HI", 0x3000034, [(1024, 0x100)], .ro, 0x0, 0x0, 0x0, 0x0⟩]

/-- Registers of 14_reset_boot_configuration.md. -/
def regRows14 : List RegRow := [
  ⟨"RST_CAUSE", 0x500000, [], .w1c, 0x0, 0x3ff, 0x0, 0x1⟩,
  ⟨"RST_STRAP", 0x500004, [], .ro, 0x0, 0x0, 0x0, 0x0⟩,
  ⟨"RST_FULL", 0x500008, [], .wo, 0x0, 0x0, 0x0, 0x0⟩,
  ⟨"RST_SCOPE", 0x50000c, [], .ro, 0x0, 0x0, 0x0, 0x0⟩,
  ⟨"RST_BLK_CLUSTER", 0x500010, [], .ro, 0x0, 0x0, 0x0, 0x0⟩,
  ⟨"RST_BLK_BRONZE_LO", 0x500014, [], .ro, 0x0, 0x0, 0x0, 0x0⟩,
  ⟨"RST_BLK_BRONZE_HI", 0x500018, [], .ro, 0x0, 0x0, 0x0, 0x0⟩,
  ⟨"RST_BLK_NAND", 0x50001c, [], .ro, 0x0, 0x0, 0x0, 0x0⟩,
  ⟨"RST_BLK_MISC", 0x500020, [], .ro, 0x0, 0x0, 0x0, 0x0⟩,
  ⟨"RST_FULL_COUNT_LO", 0x500040, [], .ro, 0x0, 0x0, 0x0, 0x0⟩,
  ⟨"RST_FULL_COUNT_HI", 0x500044, [], .ro, 0x0, 0x0, 0x0, 0x0⟩,
  ⟨"RST_WDT_COUNT_LO", 0x500048, [], .ro, 0x0, 0x0, 0x0, 0x0⟩,
  ⟨"RST_WDT_COUNT_HI", 0x50004c, [], .ro, 0x0, 0x0, 0x0, 0x0⟩,
  ⟨"RET_BACKUP", 0x500100, [(16, 0x4)], .rw, 0xffffffff, 0x0, 0x0, 0x0⟩,
  ⟨"RET_STATUS", 0x500140, [], .ro, 0x0, 0x2, 0x0, 0x1⟩,
  ⟨"RET_UE_COUNT_LO", 0x500148, [], .ro, 0x0, 0x0, 0x0, 0x0⟩,
  ⟨"RET_UE_COUNT_HI", 0x50014c, [], .ro, 0x0, 0x0, 0x0, 0x0⟩]

/-- Registers of 15_worlds_and_attestation.md. -/
def regRows15 : List RegRow := [
  ⟨"SEC_STATUS", 0x600000, [], .ro, 0x0, 0x0, 0x0, 0x0⟩,
  ⟨"SEC_LOG_COUNT", 0x600004, [], .ro, 0x0, 0x0, 0x0, 0x0⟩,
  ⟨"SEC_VIOL_TOTAL_LO", 0x600008, [], .ro, 0x0, 0x0, 0x0, 0x0⟩,
  ⟨"SEC_VIOL_TOTAL_HI", 0x60000c, [], .ro, 0x0, 0x0, 0x0, 0x0⟩,
  ⟨"SEC_VIOL_LAST", 0x600010, [], .ro, 0x0, 0x0, 0x0, 0x0⟩,
  ⟨"SEC_VIOL_ADDR_LO", 0x600018, [], .ro, 0x0, 0x0, 0x0, 0x0⟩,
  ⟨"SEC_VIOL_ADDR_HI", 0x60001c, [], .ro, 0x0, 0x0, 0x0, 0x0⟩,
  ⟨"SEC_RF_CFG", 0x601000, [(64, 0x20)], .ro, 0x0, 0x0, 0x0, 0x0⟩,
  ⟨"SEC_RF_BASE_LO", 0x601008, [(64, 0x20)], .ro, 0x0, 0x0, 0x0, 0x0⟩,
  ⟨"SEC_RF_BASE_HI", 0x60100c, [(64, 0x20)], .ro, 0x0, 0x0, 0x0, 0x0⟩,
  ⟨"SEC_RF_LIMIT_LO", 0x601010, [(64, 0x20)], .ro, 0x0, 0x0, 0x0, 0x0⟩,
  ⟨"SEC_RF_LIMIT_HI", 0x601014, [(64, 0x20)], .ro, 0x0, 0x0, 0x0, 0x0⟩,
  ⟨"SEC_RF_VIOL_LO", 0x601018, [(64, 0x20)], .ro, 0x0, 0x0, 0x0, 0x0⟩,
  ⟨"SEC_RF_VIOL_HI", 0x60101c, [(64, 0x20)], .ro, 0x0, 0x0, 0x0, 0x0⟩]

/-- Registers of 16_faults_and_service.md. -/
def regRows16 : List RegRow := [
  ⟨"SBD_SVC_CTRL", 0x120000, [], .rw, 0x1, 0x0, 0x0, 0x1⟩,
  ⟨"SBD_WDT_PERIOD_MS", 0x120004, [], .ro, 0x0, 0x0, 0x0, 0x3e8⟩,
  ⟨"SBD_FW_STATE", 0x120008, [], .ro, 0x0, 0x0, 0x0, 0x0⟩,
  ⟨"SBD_FW_RESTARTS_LO", 0x120010, [], .ro, 0x0, 0x0, 0x0, 0x0⟩,
  ⟨"SBD_FW_RESTARTS_HI", 0x120014, [], .ro, 0x0, 0x0, 0x0, 0x0⟩,
  ⟨"SBD_AUTO_FENCES_LO", 0x120018, [], .ro, 0x0, 0x0, 0x0, 0x0⟩,
  ⟨"SBD_AUTO_FENCES_HI", 0x12001c, [], .ro, 0x0, 0x0, 0x0, 0x0⟩,
  ⟨"SBD_SVC_CLUSTER", 0x120100, [(24, 0x4)], .ro, 0x0, 0x0, 0x0, 0x0⟩,
  ⟨"SBD_SVC_BRONZE", 0x120200, [(48, 0x4)], .ro, 0x0, 0x0, 0x0, 0x0⟩,
  ⟨"SBD_SVC_REGION", 0x120300, [(12, 0x4)], .ro, 0x0, 0x0, 0x0, 0x0⟩,
  ⟨"SBD_SVC_PORT", 0x120340, [(8, 0x4)], .ro, 0x0, 0x0, 0x0, 0x0⟩,
  ⟨"SBD_SVC_NAND", 0x120380, [(32, 0x4)], .ro, 0x0, 0x0, 0x0, 0x0⟩,
  ⟨"SBD_SVC_PC", 0x120400, [(384, 0x4)], .ro, 0x0, 0x0, 0x0, 0x0⟩]

/-- Registers of 17_balls_and_electrical.md. -/
def regRows17 : List RegRow := [
  ⟨"BIM_I3C_ID", 0x1000000000000, [], .ro, 0x0, 0x0, 0x0, 0x1f6b9612⟩,
  ⟨"BIM_I3C_TEMP", 0x1000000000004, [], .ro, 0x0, 0x0, 0x0, 0x0⟩,
  ⟨"BIM_I3C_POWER_W", 0x1000000000008, [], .ro, 0x0, 0x0, 0x0, 0x0⟩,
  ⟨"BIM_I3C_LIMIT_W", 0x100000000000c, [], .ro, 0x0, 0x0, 0x0, 0x5dc⟩,
  ⟨"BIM_I3C_CAP_W", 0x1000000000010, [], .rw, 0x7ff, 0x0, 0x0, 0x5dc⟩,
  ⟨"BIM_I3C_RST_CAUSE", 0x1000000000014, [], .ro, 0x0, 0x0, 0x0, 0x1⟩]

/-- Every register of the spec's tables. -/
def regRows : List RegRow :=
  regRows01 ++ regRows02 ++ regRows04 ++ regRows05 ++ regRows06 ++ regRows07 ++ regRows08 ++ regRows09 ++ regRows09b ++ regRows10 ++ regRows11 ++ regRows11b ++ regRows11c ++ regRows12 ++ regRows13 ++ regRows14 ++ regRows15 ++ regRows16 ++ regRows17

/-- Whether an offset from a row's base is that of one of its instances. -/
def inDims : Nat → List (Nat × Nat) → Bool
  | o, [] => o == 0
  | o, (n, st) :: t => decide (o / st < n) && inDims (o % st) t

/-- Whether a row describes the register at an address. -/
def RegRow.covers (r : RegRow) (a : Nat) : Bool := decide (r.base ≤ a) && inDims (a - r.base) r.dims

/-- The row of the register at an address; `none` where the map is reserved. -/
def regRow (a : Nat) : Option RegRow := regRows.find? (·.covers a)

/-- The rows whose reset value is not zero. -/
def regResetRows : List RegRow := [
  ⟨"CAB_CLASS_WEIGHT_A", 0x200008, [], .rw, 0xffffffff, 0x0, 0x0, 0x10101040⟩,
  ⟨"CAB_CLASS_WEIGHT_B", 0x20000c, [], .rw, 0xffffff, 0x0, 0x0, 0x101010⟩,
  ⟨"CAB_RES_IDLE_US", 0x220004, [(24, 0x100)], .rw, 0xffffffff, 0x0, 0x0, 0xa⟩,
  ⟨"CAB_RES_ALLBLK_US", 0x220008, [(24, 0x100)], .rw, 0xffffffff, 0x0, 0x0, 0x64⟩,
  ⟨"CAB_SLK_THRESH_NS", 0x230004, [(256, 0x20)], .rw, 0xffffffff, 0x0, 0x0, 0x4e20⟩,
  ⟨"BIM_PKG_LIMIT_W", 0x300004, [], .rw, 0x7ff, 0x0, 0x0, 0x5dc⟩,
  ⟨"BIM_BASE_LOAD", 0x300008, [], .rw, 0xffffff, 0x0, 0x0, 0x12c0⟩,
  ⟨"BIM_LAMBDA", 0x300014, [], .ro, 0x0, 0x0, 0x0, 0x100⟩,
  ⟨"BIM_STEP_DOWN_US", 0x30001c, [], .rw, 0xffffffff, 0x0, 0x0, 0x32⟩,
  ⟨"BIM_STEP_UP_US", 0x300020, [], .rw, 0xffffffff, 0x0, 0x0, 0xc8⟩,
  ⟨"BIM_REG_WEIGHT", 0x301000, [(12, 0x100)], .rw, 0xff, 0x0, 0x0, 0x1⟩,
  ⟨"BIM_REG_FLOOR", 0x301004, [(12, 0x100)], .rw, 0x3, 0x0, 0x0, 0x3⟩,
  ⟨"BIM_REG_CAP", 0x301018, [(12, 0x100)], .rw, 0xffffff, 0x0, 0x0, 0x4000⟩,
  ⟨"TRS_CHK_CTRL", 0x1010100, [(24, 0x80000)], .rw, 0x3, 0x0, 0x0, 0x2⟩,
  ⟨"TRS_CHK_TOL", 0x1010104, [(24, 0x80000)], .rw, 0xffffffff, 0x0, 0x0, 0x39800000⟩,
  ⟨"BUR_RD_LIMIT", 0xe00008, [], .rw, 0xffffffff, 0x0, 0x0, 0x30d40⟩,
  ⟨"BUR_PATROL_H", 0xe0000c, [], .rw, 0xffffffff, 0x0, 0x0, 0xa8⟩,
  ⟨"BUR_REFRESH_BITS", 0xe00010, [], .rw, 0xff, 0x0, 0x0, 0x40⟩,
  ⟨"BUR_MAINT_PCT", 0xe00014, [], .rw, 0x7f, 0x0, 0x0, 0xa⟩,
  ⟨"BUR_REBUILD_PCT", 0xe00018, [], .rw, 0x7f, 0x0, 0x0, 0x19⟩,
  ⟨"BUR_WEAR_SPREAD", 0xe0001c, [], .rw, 0xffff, 0x0, 0x0, 0xc8⟩,
  ⟨"BUR_STAGE_MIB", 0xe00024, [], .rwl, 0x0, 0x0, 0xffff, 0x400⟩,
  ⟨"HBM_SCRUB_H", 0x1c00010, [(12, 0x40000)], .rw, 0xff, 0x0, 0x0, 0x18⟩,
  ⟨"INV_INCR_INT", 0x40003c, [], .rw, 0xf, 0x0, 0x0, 0x1⟩,
  ⟨"INV_INCR_NOM_INT", 0x400044, [], .rw, 0xf, 0x0, 0x0, 0x1⟩,
  ⟨"INV_SERVO_KP", 0x400050, [], .rw, 0xffffffff, 0x0, 0x0, 0x225c18⟩,
  ⟨"INV_SERVO_KI", 0x400054, [], .rw, 0xffffffff, 0x0, 0x0, 0x225c2⟩,
  ⟨"INV_SERVO_STEP_NS", 0x400058, [], .rw, 0xffffffff, 0x0, 0x0, 0xf4240⟩,
  ⟨"INV_SERVO_HOLD_MS", 0x40005c, [], .rw, 0xffffffff, 0x0, 0x0, 0xbb8⟩,
  ⟨"INV_LOCK_NS", 0x400060, [], .rw, 0xffffffff, 0x0, 0x0, 0x8⟩,
  ⟨"INV_TRG_WIDTH_NS", 0x402014, [(16, 0x40)], .rw, 0xffffffff, 0x0, 0x0, 0x186a0⟩,
  ⟨"ETH_MAC_CFG", 0x801000, [(8, 0x40000), (8, 0x400)], .rwl, 0x0, 0x0, 0x3fff, 0x5f2⟩,
  ⟨"HST_OVERHEAD", 0xa00004, [(64, 0x4000)], .rw, 0x7f, 0x0, 0x0, 0x14⟩,
  ⟨"HST_LATE_TOL_NS", 0xa0002c, [(64, 0x4000)], .rw, 0xffffffff, 0x0, 0x0, 0x2⟩,
  ⟨"HST_TC_BURST", 0xa00404, [(64, 0x4000), (16, 0x40)], .rw, 0x1ffffff, 0x0, 0x0, 0x10000⟩,
  ⟨"HST_TC_WEIGHT", 0xa00408, [(64, 0x4000), (16, 0x40)], .rw, 0x7ff, 0x0, 0x0, 0x1⟩,
  ⟨"HST_TC_QUANTUM", 0xa0040c, [(64, 0x4000), (16, 0x40)], .rw, 0xffff, 0x0, 0x0, 0x600⟩,
  ⟨"HST_TC_MAXWIN_NS", 0xa00414, [(64, 0x4000), (16, 0x40)], .ro, 0x0, 0x0, 0x0, 0xffffffff⟩,
  ⟨"SLD_UDP_PORT", 0x70000c, [], .rwl, 0x0, 0x0, 0xffff, 0xc230⟩,
  ⟨"SLD_QOS", 0x700010, [], .rw, 0x3ff, 0x0, 0x0, 0x4⟩,
  ⟨"SLD_RTO_MIN_US", 0x700014, [], .rw, 0xffffffff, 0x0, 0x0, 0x14⟩,
  ⟨"SLD_RTO_MAX_US", 0x700018, [], .rw, 0xffffffff, 0x0, 0x0, 0x2710⟩,
  ⟨"SLD_ECN_THRESH", 0x70001c, [], .rw, 0x1ffff, 0x0, 0x0, 0x1000⟩,
  ⟨"RST_CAUSE", 0x500000, [], .w1c, 0x0, 0x3ff, 0x0, 0x1⟩,
  ⟨"RET_STATUS", 0x500140, [], .ro, 0x0, 0x2, 0x0, 0x1⟩,
  ⟨"SBD_SVC_CTRL", 0x120000, [], .rw, 0x1, 0x0, 0x0, 0x1⟩,
  ⟨"SBD_WDT_PERIOD_MS", 0x120004, [], .ro, 0x0, 0x0, 0x0, 0x3e8⟩,
  ⟨"BIM_I3C_ID", 0x1000000000000, [], .ro, 0x0, 0x0, 0x0, 0x1f6b9612⟩,
  ⟨"BIM_I3C_LIMIT_W", 0x100000000000c, [], .ro, 0x0, 0x0, 0x0, 0x5dc⟩,
  ⟨"BIM_I3C_CAP_W", 0x1000000000010, [], .rw, 0x7ff, 0x0, 0x0, 0x5dc⟩,
  ⟨"BIM_I3C_RST_CAUSE", 0x1000000000014, [], .ro, 0x0, 0x0, 0x0, 0x1⟩]

/-- The value of a register after reset: the value of its table row, zero for every register whose row says zero. -/
def regReset (a : Nat) : W32 :=
  match regResetRows.find? (·.covers a) with
  | some r => BitVec.ofNat 32 r.reset
  | none => 0


/-- Low words of the 64-bit values of R8, part 1. -/
def regPairs1 : List (Nat × List (Nat × Nat)) := [
  (0x110, []),
  (0x1010020, [(24, 0x80000)]),
  (0x1010028, [(24, 0x80000)]),
  (0x1010030, [(24, 0x80000)]),
  (0x1010038, [(24, 0x80000)]),
  (0x1010040, [(24, 0x80000)]),
  (0x1010048, [(24, 0x80000)]),
  (0x1010050, [(24, 0x80000)]),
  (0x1020020, [(24, 0x80000), (4, 0x1000)]),
  (0x1020028, [(24, 0x80000), (4, 0x1000)]),
  (0x1020030, [(24, 0x80000), (4, 0x1000)]),
  (0x1020038, [(24, 0x80000), (4, 0x1000)]),
  (0x1020040, [(24, 0x80000), (4, 0x1000)]),
  (0x10304c0, [(24, 0x80000)]),
  (0x10304c8, [(24, 0x80000)]),
  (0x10304d0, [(24, 0x80000)]),
  (0x1040010, [(24, 0x80000), (8, 0x1000)]),
  (0x1040018, [(24, 0x80000), (8, 0x1000)]),
  (0x1040080, [(24, 0x80000), (8, 0x1000)]),
  (0x1040088, [(24, 0x80000), (8, 0x1000)]),
  (0x1040090, [(24, 0x80000), (8, 0x1000)]),
  (0x1040098, [(24, 0x80000), (8, 0x1000)]),
  (0x10400a0, [(24, 0x80000), (8, 0x1000)]),
  (0x200020, []),
  (0x200028, []),
  (0x200030, []),
  (0x200038, []),
  (0x200040, []),
  (0x200048, []),
  (0x200050, []),
  (0x280038, [(4096, 0x80)]),
  (0x280040, [(4096, 0x80)]),
  (0x280048, [(4096, 0x80)]),
  (0x280050, [(4096, 0x80)]),
  (0x220058, [(24, 0x100)]),
  (0x220060, [(24, 0x100)]),
  (0x230010, [(256, 0x20)]),
  (0x230018, [(256, 0x20)]),
  (0x300040, []),
  (0x300048, []),
  (0x300050, []),
  (0x240008, [(4096, 0x20)]),
  (0x240018, [(4096, 0x20)]),
  (0x260010, []),
  (0x260018, []),
  (0x260020, []),
  (0x260028, []),
  (0x260030, []),
  (0x1010110, [(24, 0x80000)]),
  (0x1010118, [(24, 0x80000)]),
  (0x1010120, [(24, 0x80000)]),
  (0x1010128, [(24, 0x80000)]),
  (0x1010130, [(24, 0x80000)]),
  (0xe00040, []),
  (0xe00048, []),
  (0xe00050, []),
  (0xe00058, []),
  (0xe00060, []),
  (0xe00068, []),
  (0xe00070, [])]

/-- Low words of the 64-bit values of R8, part 2. -/
def regPairs2 : List (Nat × List (Nat × Nat)) := [
  (0xe00078, []),
  (0xe10020, []),
  (0xe10028, []),
  (0xe10030, []),
  (0xe10038, []),
  (0xe10040, []),
  (0xe10048, []),
  (0xc00010, [(32, 0x10000)]),
  (0xc00018, [(32, 0x10000)]),
  (0xc00020, [(32, 0x10000)]),
  (0x1c00020, [(12, 0x40000)]),
  (0x1c00028, [(12, 0x40000)]),
  (0x1c00030, [(12, 0x40000)]),
  (0x1c00038, [(12, 0x40000)]),
  (0x401010, [(64, 0x40)]),
  (0x401018, [(64, 0x40)]),
  (0x270008, [(512, 0x20)]),
  (0x270010, [(512, 0x20)]),
  (0x1c10010, [(12, 0x40000), (4, 0x1000)]),
  (0x1c10020, [(12, 0x40000), (4, 0x1000)]),
  (0x1c10028, [(12, 0x40000), (4, 0x1000)]),
  (0x1c10030, [(12, 0x40000), (4, 0x1000)]),
  (0x1c10038, [(12, 0x40000), (4, 0x1000)]),
  (0x1c10040, [(12, 0x40000), (4, 0x1000)]),
  (0x400014, []),
  (0x400030, []),
  (0x400048, []),
  (0x400080, []),
  (0x400088, []),
  (0x400090, []),
  (0x4000a0, []),
  (0x402008, [(16, 0x40)]),
  (0x402020, [(16, 0x40)]),
  (0x402028, [(16, 0x40)]),
  (0x801020, [(8, 0x40000), (8, 0x400)]),
  (0x801028, [(8, 0x40000), (8, 0x400)]),
  (0x801030, [(8, 0x40000), (8, 0x400)]),
  (0x801038, [(8, 0x40000), (8, 0x400)]),
  (0x801040, [(8, 0x40000), (8, 0x400)]),
  (0x801048, [(8, 0x40000), (8, 0x400)]),
  (0x801050, [(8, 0x40000), (8, 0x400)]),
  (0x801058, [(8, 0x40000), (8, 0x400)]),
  (0x801060, [(8, 0x40000), (8, 0x400)]),
  (0xa00010, [(64, 0x4000)]),
  (0xa00020, [(64, 0x4000)]),
  (0xa00200, [(64, 0x4000)]),
  (0xa00208, [(64, 0x4000)]),
  (0xa00210, [(64, 0x4000)]),
  (0xa00218, [(64, 0x4000)]),
  (0xa00420, [(64, 0x4000), (16, 0x40)]),
  (0xa00428, [(64, 0x4000), (16, 0x40)]),
  (0xb00020, []),
  (0xb00028, []),
  (0xb00030, []),
  (0x700028, []),
  (0x700040, []),
  (0x700048, []),
  (0x700050, []),
  (0x700058, [])]

/-- Low words of the 64-bit values of R8, part 3. -/
def regPairs3 : List (Nat × List (Nat × Nat)) := [
  (0x700060, []),
  (0x700068, []),
  (0x700070, []),
  (0x700078, []),
  (0x700080, []),
  (0x700088, []),
  (0x700090, []),
  (0x1008, []),
  (0x1010, []),
  (0x1018, []),
  (0x2000008, [(262144, 0x40)]),
  (0x2000010, [(262144, 0x40)]),
  (0x2000030, [(262144, 0x40)]),
  (0x2000038, [(262144, 0x40)]),
  (0x3000020, [(1024, 0x100)]),
  (0x3000028, [(1024, 0x100)]),
  (0x3000030, [(1024, 0x100)]),
  (0x500014, []),
  (0x500040, []),
  (0x500048, []),
  (0x500148, []),
  (0x600008, []),
  (0x600018, []),
  (0x601008, [(64, 0x20)]),
  (0x601010, [(64, 0x20)]),
  (0x601018, [(64, 0x20)]),
  (0x120010, []),
  (0x120018, [])]

/-- The low words of every 64-bit value of R8 (a MAC address of 48 bits is two registers of their own: log 11). -/
def regPairs : List (Nat × List (Nat × Nat)) := regPairs1 ++ regPairs2 ++ regPairs3

/-- Whether an address is the low word of a 64-bit value. -/
def isLowWord (a : Nat) : Bool := regPairs.any fun p => decide (p.1 ≤ a) && inDims (a - p.1) p.2

/-- Whether an address is the high word of a 64-bit value. -/
def isHighWord (a : Nat) : Bool := decide (4 ≤ a) && isLowWord (a - 4)

end Sys2Proof.Machine
end

