-- ==== Sys2Proof/Machine/StateBoot.lean ====
section
/-! DEFINITION. State of reset, boot, firmware, service and attestation (14_reset_boot_configuration.md,
15_worlds_and_attestation.md, 16_faults_and_service.md) beside the registers. -/

namespace Sys2Proof.Machine

/-- Who serves the mailboxes (R418, R429, R470). -/
inductive FwPhase where
  /-- in reset or in the release sequence: nothing serves them -/
  | held
  /-- the mask ROM serves mailbox 0 (R436) -/
  | rom
  | running
  /-- the Sideboard restarts (R470) -/
  | restarting
  /-- the mask ROM serves mailbox 0 while the data path runs on (R473) -/
  | awaiting
  deriving DecidableEq, Repr

/-- A bundle being staged (R438): TOTAL, the overlay numbers for choice 0 and the bytes written; others are zero. -/
structure Stage where
  total : Nat
  names : List Nat
  data : Mem := []
  deriving DecidableEq, Repr

/-- A bundle that has passed its checks: its bytes, the overlays applied and the items that result (R442, R443). -/
structure Bundle where
  bytes : List Byte
  overlays : List Nat
  items : List (Nat × Nat)
  deriving DecidableEq, Repr

/-- An entry of the measurement log (R458). -/
structure LogEntry where
  index : Nat
  cause : Nat
  data : Nat
  digest : List Byte
  deriving DecidableEq, Repr

/-- A restart of firmware in progress (R470, R473): E4 of FW_RESTARTED, the command that it answers, and the bundle that it
starts instead of the current image. -/
structure Restart where
  cause : Nat
  issuer : Option Issuer := none
  bundle : Option Bundle := none
  deriving DecidableEq, Repr

/-- The SPDM responder (R459): transcripts of the version, capability and algorithm messages, of digests and certificates, and of
measurements, how far the negotiation has come, and the responses given through Data Object Exchange, in order. -/
structure Spdm where
  /-- 0 nothing, 1 version, 2 capabilities, 3 algorithms answered (PRESUMED, log 31) -/
  step : Nat := 0
  vca : List Byte := []
  certs : List Byte := []
  meas : List Byte := []
  out : List (List Byte) := []
  deriving DecidableEq, Repr

/-- Reset, boot, firmware and attestation. -/
structure Boot where
  phase : FwPhase := .held
  /-- a thermal trip holds the package: THERMTRIP_N is low (R428) -/
  trip : Bool := false
  /-- HBM stacks and die-to-die links that failed (R15, R429) -/
  badStacks : List Nat := []
  badDies : List Nat := []
  stage : Option Stage := none
  /-- a bundle held for a later start (R441) -/
  held : Option Bundle := none
  /-- the bundle whose image runs and whose configuration is in force -/
  bundle : Option Bundle := none
  /-- both copies of the image in the firmware reserve are lost (R472) -/
  imageLost : Bool := false
  restart : Option Restart := none
  /-- ticks of the watchdog expiries and of the restarts of the last 600 s -/
  expiries : List Nat := []
  restarts : List Nat := []
  log : List LogEntry := []
  /-- the chain value over every entry appended (R458) -/
  chain : List Byte := List.replicate 64 0
  /-- the IEEE 1687 network has been used since power-on (R455) -/
  debug : Bool := false
  /-- the certificate chain of slot 0 -/
  cert : List Byte := []
  spdm : Spdm := {}
  /-- clusters that have passed a test since their spare column was mapped (R466) -/
  tested : List Nat := []
  /-- automatic fences that firmware has still to make (R464): KIND, NUMBER, REASON -/
  fences : List (Nat × Nat × Nat) := []
  /-- clusters whose spare column mapping is RETIRED (R465) -/
  colRetired : List Nat := []
  /-- stacks whose granules are moving (R468) -/
  moving : List Nat := []
  /-- uncorrectable errors of pseudo-channels in the last 24 h: unit number and tick (R462) -/
  pcErrors : List (Nat × Nat) := []
  deriving DecidableEq, Repr

end Sys2Proof.Machine
end

