-- ==== Sys2Proof/Machine/Formats.lean ====
section
/-! DEFINITION. Number formats and roundings of 03_number_formats.md (R69 to R91): exact values of the stored elements,
and one rounding function for every binary float format. Values are exact: a finite number is sign × m × 2^e. -/

namespace Sys2Proof.Machine

/-- An exact value of a float element. Zero keeps its sign. -/
inductive FNum where
  | nan
  | inf (neg : Bool)
  | num (neg : Bool) (m : Nat) (e : Int)
  deriving DecidableEq, Repr

/-- Which codes of a format are special (R70, R73). -/
inductive Specials where
  /-- infinities and NaNs at the top exponent -/
  | ieee
  /-- S.1111.111 is NaN and there is no infinity (FP8 E4M3) -/
  | topNan
  /-- every code is a finite number (FP4, FP6) -/
  | none
  deriving DecidableEq, Repr

/-- A binary float layout: exponent bits, fraction bits, special codes. The bias is 2^(eb-1) - 1 in every format of R70
and R73. -/
structure FFmt where
  eb : Nat
  mb : Nat
  sp : Specials
  deriving DecidableEq, Repr

def fp64 : FFmt := ⟨11, 52, .ieee⟩
def fp32 : FFmt := ⟨8, 23, .ieee⟩
def fp16 : FFmt := ⟨5, 10, .ieee⟩
def bf16 : FFmt := ⟨8, 7, .ieee⟩
def e5m2 : FFmt := ⟨5, 2, .ieee⟩
def e4m3 : FFmt := ⟨4, 3, .topNan⟩
def e3m2 : FFmt := ⟨3, 2, .none⟩
def e2m3 : FFmt := ⟨2, 3, .none⟩
def e2m1 : FFmt := ⟨2, 1, .none⟩

/-- Bits of an element. -/
def FFmt.width (f : FFmt) : Nat := 1 + f.eb + f.mb
/-- The exponent of the last place of a subnormal. -/
def FFmt.minExp (f : FFmt) : Int := 2 - Int.ofNat (2 ^ (f.eb - 1)) - Int.ofNat f.mb
/-- The code of the largest finite magnitude. -/
def FFmt.maxCode (f : FFmt) : Nat :=
  match f.sp with
  | .ieee => (2 ^ f.eb - 1) * 2 ^ f.mb - 1
  | .topNan => 2 ^ (f.eb + f.mb) - 2
  | .none => 2 ^ (f.eb + f.mb) - 1
/-- The canonical NaN of a format that has NaNs (R73). -/
def FFmt.nanCode (f : FFmt) : Nat :=
  match f.sp with
  | .ieee => (2 ^ f.eb - 1) * 2 ^ f.mb + 2 ^ (f.mb - 1)
  | _ => 2 ^ (f.eb + f.mb) - 1
/-- The code of infinity in an IEEE format. -/
def FFmt.infCode (f : FFmt) : Nat := (2 ^ f.eb - 1) * 2 ^ f.mb

/-- The exact value of a code (R70, R73). -/
def decodeF (f : FFmt) (code : Nat) : FNum :=
  let neg := bit code (f.eb + f.mb)
  let e := (code >>> f.mb) % 2 ^ f.eb
  let m := code % 2 ^ f.mb
  let fin : FNum :=
    if e = 0 then .num neg m f.minExp
    else .num neg (2 ^ f.mb + m) (f.minExp + Int.ofNat e - 1)
  match f.sp with
  | .none => fin
  | .topNan => if e = 2 ^ f.eb - 1 ∧ m = 2 ^ f.mb - 1 then .nan else fin
  | .ieee => if e = 2 ^ f.eb - 1 then (if m = 0 then .inf neg else .nan) else fin

/-- The roundings: those of R85 (`rne`, `stoch`) and the RISC-V modes of the Tin base profile. -/
inductive Round where
  | rne
  /-- stochastic with a 32-bit random word (R85) -/
  | stoch (u : Nat)
  | rtz
  | rdn
  | rup
  | rmm
  deriving DecidableEq, Repr

/-- Whether a magnitude with quotient `q`, remainder `rem` of `2^sh` is rounded away from zero. -/
def roundAway (r : Round) (neg : Bool) (q rem sh : Nat) : Bool :=
  match r with
  | .rne => decide (2 ^ sh < 2 * rem) || (decide (2 * rem = 2 ^ sh) && q % 2 == 1)
  | .stoch u => decide (u < rem * 2 ^ 32 / 2 ^ sh)
  | .rtz => false
  | .rdn => neg && decide (0 < rem)
  | .rup => !neg && decide (0 < rem)
  | .rmm => decide (2 ^ sh ≤ 2 * rem) && decide (0 < rem)

/-- The magnitude code of m × 2^e in format `f`, with the exponent range above the largest finite value unbounded (R85),
and whether rounding was inexact. -/
def roundMag (f : FFmt) (r : Round) (neg : Bool) (m : Nat) (e : Int) : Nat × Bool :=
  if m = 0 then (0, false)
  else
    let q : Int := max (Int.ofNat m.log2 + e - Int.ofNat f.mb) f.minExp
    let nx : Nat × Bool :=
      if q ≤ e then (m * 2 ^ (e - q).toNat, false)
      else
        let sh := (q - e).toNat
        let n := m / 2 ^ sh
        let rem := m % 2 ^ sh
        (if roundAway r neg n rem sh then n + 1 else n, decide (0 < rem))
    (if nx.1 < 2 ^ f.mb then nx.1 else ((q - f.minExp).toNat + 1) * 2 ^ f.mb + (nx.1 - 2 ^ f.mb), nx.2)

/-- The sign bit of a format. -/
def FFmt.signBit (f : FFmt) (neg : Bool) : Nat := if neg then 2 ^ (f.eb + f.mb) else 0

/-- Rounds an exact value into an IEEE format; a result above the largest finite value becomes infinity, or the largest
finite value in the directed modes that round towards it. -/
def encodeF (f : FFmt) (r : Round) : FNum → Nat
  | .nan => f.nanCode
  | .inf neg => f.signBit neg + f.infCode
  | .num neg m e =>
    let c := (roundMag f r neg m e).1
    if f.maxCode < c then
      let down := match r with
        | .rtz => true
        | .rdn => !neg
        | .rup => neg
        | _ => false
      f.signBit neg + (if down then f.maxCode else f.infCode)
    else f.signBit neg + c

/-- The signed integer a finite magnitude stands for at exponent `e0 ≤ e`. -/
def scaled (neg : Bool) (m : Nat) (e e0 : Int) : Int :=
  let v : Int := Int.ofNat (m * 2 ^ (e - e0).toNat)
  if neg then -v else v

/-- A finite value from a signed integer; zero is positive. -/
def numOfInt (v : Int) (e : Int) : FNum := .num (decide (v < 0)) v.natAbs e

/-- The exact sum of two values with the special values of R81. A zero sum is +0 unless both addends are −0. -/
def addF : FNum → FNum → FNum
  | .nan, _ => .nan
  | _, .nan => .nan
  | .inf a, .inf b => if a = b then .inf a else .nan
  | .inf a, _ => .inf a
  | _, .inf b => .inf b
  | .num na ma ea, .num nb mb eb =>
    let e0 := min ea eb
    let v := scaled na ma ea e0 + scaled nb mb eb e0
    if v = 0 then .num (na && nb) 0 e0 else numOfInt v e0

/-- The exact product, infinity × 0 being NaN (R81). -/
def mulF : FNum → FNum → FNum
  | .nan, _ => .nan
  | _, .nan => .nan
  | .inf a, .inf b => .inf (a != b)
  | .inf a, .num nb mb _ => if mb = 0 then .nan else .inf (a != nb)
  | .num na ma _, .inf b => if ma = 0 then .nan else .inf (na != b)
  | .num na ma ea, .num nb mb eb => .num (na != nb) (ma * mb) (ea + eb)

/-- Negation. -/
def negF : FNum → FNum
  | .nan => .nan
  | .inf a => .inf (!a)
  | .num n m e => .num (!n) m e

/-- Magnitude. -/
def absF : FNum → FNum
  | .nan => .nan
  | .inf _ => .inf false
  | .num _ m e => .num false m e

/-- Multiplication by 2^s. -/
def scaleF (s : Int) : FNum → FNum
  | .num n m e => .num n m (e + s)
  | x => x

/-- On every Trestle input negative zero behaves as +0 (R70, R83). -/
def noNegZero : FNum → FNum
  | .num _ 0 e => .num false 0 e
  | x => x

/-- RNE_FP32 of the sum of an FP32 code and an exact value: one rounding of R79 or R41. -/
def addRne32 (acc : W32) (p : FNum) : W32 :=
  BitVec.ofNat 32 (encodeF fp32 .rne (addF (decodeF fp32 acc.toNat) p))

/-! ### Storage of elements -/

/-- Operand and output formats by the codes of R56. -/
inductive Fmt where
  | fp4 | fp6e2m3 | fp6e3m2 | fp8e4m3 | fp8e5m2 | int4 | int8 | bf | hp | cbf | ci16 | sp | int32 | csp | cint32
  deriving DecidableEq, Repr

/-- R56: code 0xF is reserved. -/
def Fmt.ofCode : Nat → Option Fmt
  | 0 => some .fp4 | 1 => some .fp6e2m3 | 2 => some .fp6e3m2 | 3 => some .fp8e4m3 | 4 => some .fp8e5m2
  | 5 => some .int4 | 6 => some .int8 | 7 => some .bf | 8 => some .hp | 9 => some .cbf | 10 => some .ci16
  | 11 => some .sp | 12 => some .int32 | 13 => some .csp | 14 => some .cint32 | _ => none

/-- The float layout of one part of a format, `none` for the integer formats. -/
def Fmt.float : Fmt → Option FFmt
  | .fp4 => some e2m1 | .fp6e2m3 => some e2m3 | .fp6e3m2 => some e3m2 | .fp8e4m3 => some e4m3 | .fp8e5m2 => some e5m2
  | .bf => some bf16 | .cbf => some bf16 | .hp => some fp16 | .sp => some fp32 | .csp => some fp32
  | .int4 | .int8 | .ci16 | .int32 | .cint32 => none

/-- Bits of one part of an element (R69, R75). -/
def Fmt.partBits : Fmt → Nat
  | .fp4 | .int4 => 4 | .fp6e2m3 | .fp6e3m2 => 6 | .fp8e4m3 | .fp8e5m2 | .int8 => 8
  | .bf | .hp | .cbf | .ci16 => 16 | .sp | .int32 | .csp | .cint32 => 32

/-- Complex formats store a real part below an imaginary part (R75). -/
def Fmt.complex : Fmt → Bool
  | .cbf | .ci16 | .csp | .cint32 => true
  | _ => false

/-- MX formats travel with E8M0 scales (R70). -/
def Fmt.mx : Fmt → Bool
  | .fp4 | .fp6e2m3 | .fp6e3m2 | .fp8e4m3 | .fp8e5m2 => true
  | _ => false

/-- Formats allowed for A and B (R56). -/
def Fmt.operand : Fmt → Bool
  | .sp | .int32 | .csp | .cint32 => false
  | _ => true

/-- Bits of a whole element. -/
def Fmt.elemBits (f : Fmt) : Nat := if f.complex then 2 * f.partBits else f.partBits

/-- Bytes of `n` elements, padded to a whole packing unit: a byte for 4-bit elements, three bytes for FP6 (R69). -/
def Fmt.bytes (f : Fmt) (n : Nat) : Nat :=
  if f.partBits = 4 then ceilDiv n 2
  else if f.partBits = 6 then 3 * ceilDiv n 4
  else n * (f.elemBits / 8)

/-- e_max of an MX element format (R70). -/
def Fmt.eMax : Fmt → Int
  | .fp4 => 2 | .fp6e2m3 => 2 | .fp6e3m2 => 4 | .fp8e4m3 => 8 | .fp8e5m2 => 15 | _ => 0

/-- V of R31: K values held in one cell. -/
def Fmt.v : Fmt → Nat
  | .fp4 | .int4 => 4
  | .fp6e2m3 | .fp6e3m2 | .fp8e4m3 | .fp8e5m2 | .int8 => 2
  | _ => 1

/-- The accumulator kinds of R32. -/
inductive AccKind where
  | f32 | i32 | cf32 | ci32
  deriving DecidableEq, Repr

def AccKind.isFloat : AccKind → Bool
  | .f32 | .cf32 => true
  | _ => false
def AccKind.isComplex : AccKind → Bool
  | .cf32 | .ci32 => true
  | _ => false

/-- The accumulator kind an element format matches (R32, R56). -/
def Fmt.kind : Fmt → AccKind
  | .fp4 | .fp6e2m3 | .fp6e3m2 | .fp8e4m3 | .fp8e5m2 | .bf | .hp | .sp => .f32
  | .int4 | .int8 | .int32 => .i32
  | .cbf | .csp => .cf32
  | .ci16 | .cint32 => .ci32

/-- R32: the operand pairs a CONFIG may name. -/
def Fmt.pairOk (a b : Fmt) : Bool :=
  a.operand && b.operand &&
    (a == b || (a.mx && b.mx) || (a == .int4 && b == .int8) || (a == .int8 && b == .int4))

/-- V of a pair: the rate of the wider format (R32). -/
def Fmt.pairV (a b : Fmt) : Nat := min a.v b.v

/-- Element part i of a packed byte string (R69): parts are numbered in storage order, two per complex element. -/
def partCode (f : Fmt) (bs : List Byte) (i : Nat) : Nat :=
  match f.partBits with
  | 4 => bits ((nth 0 bs (i / 2)).toNat) (if i % 2 = 0 then 3 else 7) (if i % 2 = 0 then 0 else 4)
  | 6 => (fromLE ((bs.drop (3 * (i / 4))).take 3) >>> (6 * (i % 4))) % 64
  | 8 => (nth 0 bs i).toNat
  | 16 => fromLE ((bs.drop (2 * i)).take 2)
  | _ => fromLE ((bs.drop (4 * i)).take 4)

/-- An element part as an exact input value: integers and floats alike, −0 as +0 (R70, R74, R79). -/
def partVal (f : Fmt) (code : Nat) : FNum :=
  match f.float with
  | some ff => noNegZero (decodeF ff code)
  | none => numOfInt (sext f.partBits code) 0

/-- R71: the exponent of an E8M0 scale, `none` for the NaN code 0xFF. -/
def scaleExp (b : Byte) : Option Int :=
  if b = 0xFF then none else some (Int.ofNat b.toNat - 127)

/-- An element under its scale: a 0xFF scale makes it NaN whatever its code (R71). -/
def underScale (s : Option Int) (x : FNum) : FNum :=
  match s with
  | none => .nan
  | some k => scaleF k x

/-! ### Packing of output elements -/

/-- Packs element part codes of `pb` bits in storage order (R69). -/
def packParts (f : Fmt) (codes : List Nat) : List Byte :=
  let pb := f.partBits
  let total := codes.foldr (fun c acc => c % 2 ^ pb + 2 ^ pb * acc) 0
  let n := codes.length
  let nb := if pb = 4 then ceilDiv n 2 else if pb = 6 then 3 * ceilDiv n 4 else n * (pb / 8)
  toLE nb total

/-- R88: the scale exponent of an MX output block with largest magnitude `x`. -/
def mxScaleExp (f : Fmt) (x : Nat × Int) : Int :=
  if x.1 = 0 then -127
  else
    let k := Int.ofNat x.1.log2 + x.2 - f.eMax
    if k < -127 then -127 else if 127 < k then 127 else k

/-- R85, R90: an MX element of a finite scaled value; above the largest finite value it saturates, or in E4M3 becomes NaN
with the element's sign when `nanOvf`. -/
def mxElem (ff : FFmt) (r : Round) (nanOvf neg : Bool) (m : Nat) (e : Int) : Nat :=
  let c := (roundMag ff r neg m e).1
  if ff.maxCode < c then
    ff.signBit neg + (if nanOvf && ff.sp == .topNan then ff.nanCode else ff.maxCode)
  else ff.signBit neg + c

/-- The larger of two nonnegative magnitudes m × 2^e. -/
def maxMag (a b : Nat × Int) : Nat × Int :=
  let e0 := min a.2 b.2
  if a.1 * 2 ^ (a.2 - e0).toNat < b.1 * 2 ^ (b.2 - e0).toNat then b else a

/-- One MX output block (R88 to R90): the scale code and the element codes. `rnd` gives element j its rounding. -/
def mxBlock (f : Fmt) (ff : FFmt) (nanOvf : Bool) (rnd : Nat → Round) (j0 : Nat) (xs : List FNum) : Nat × List Nat :=
  let bad := xs.any fun x => match x with
    | .num _ _ _ => false
    | _ => true
  if bad then (0xFF, xs.map fun _ => 0)
  else
    let x := xs.foldl (fun a y => match y with
      | .num _ m e => maxMag a (m, e)
      | _ => a) (0, 0)
    let k := mxScaleExp f x
    let rec go (j : Nat) : List FNum → List Nat
      | [] => []
      | .num n m e :: t => mxElem ff (rnd j) nanOvf n m (e - k) :: go (j + 1) t
      | _ :: t => 0 :: go (j + 1) t
    ((k + 127).toNat, go j0 xs)

/-- The blocks of 32 of an MX output row. -/
def mxRow (f : Fmt) (ff : FFmt) (nanOvf : Bool) (rnd : Nat → Round) : Nat → Nat → List FNum → List Nat × List Nat
  | 0, _, _ => ([], [])
  | _ + 1, _, [] => ([], [])
  | fuel + 1, j0, xs =>
    let b := mxBlock f ff nanOvf rnd j0 (xs.take 32)
    let t := mxRow f ff nanOvf rnd fuel (j0 + 32) (xs.drop 32)
    (b.1 :: t.1, b.2 ++ t.2)

/-- Conversion of one accumulator word to a non-MX output part (R84, R85, R91). -/
def convPart (f : Fmt) (r : Round) (w : W32) : Nat :=
  match f with
  | .sp | .csp | .int32 | .cint32 => w.toNat
  | .bf | .cbf => encodeF bf16 r (decodeF fp32 w.toNat)
  | .hp => encodeF fp16 r (decodeF fp32 w.toNat)
  | .int8 => wrap 8 (satS 8 (sext 32 w.toNat))
  | .int4 => wrap 4 (satS 4 (sext 32 w.toNat))
  | .ci16 => wrap 16 (satS 16 (sext 32 w.toNat))
  | _ => 0

/-- R83: a C element part as an accumulator word. -/
def cInit (f : Fmt) (s : Option Int) (code : Nat) : W32 :=
  match f.float with
  | some ff => BitVec.ofNat 32 (encodeF fp32 .rne (underScale s (noNegZero (decodeF ff code))))
  | none => BitVec.ofNat 32 (wrap 32 (sext f.partBits code))

end Sys2Proof.Machine
end

