-- ==== Sys2Proof/Machine/StateEngines.lean ====
section
/-! DEFINITION. State of the engines of a cluster: Trestle (02_trestle_dataflow.md), Pewter units (04_pewter_lanes.md), Tin
cores and latches (05_tin_cores_and_latches.md) and the DMA engine (R168). Plain data. What a register of the map holds has
its home in the register file; what stands here is the state the spec names beside the registers. -/

namespace Sys2Proof.Machine

/-- What every dispatch and every push carries (R99, R150, R180): context, class, task and epoch. `thread` marks work that a
Tin thread pushed, which reports to no one at its end (R110, R150). -/
structure TaskId where
  ctx : Nat := 0
  cls : Nat := 0
  handle : Nat := 0
  taskId : Nat := 0
  epoch : Nat := 0
  digest : Bool := false
  thread : Bool := false
  deriving DecidableEq, Repr

/-! ### Trestle -/

/-- The fields of a LOAD (W1 to W4). -/
structure TrsLoad where
  bAddr : Nat
  bScale : Nat
  bStride : Nat
  nCols : Nat
  k : Nat
  deriving DecidableEq, Repr

/-- The fields of a STREAM (W1 to W9). -/
structure TrsStream where
  aAddr : Nat
  aScale : Nat
  aStride : Nat
  m : Nat
  k : Nat
  chk : Bool
  accRow : Nat
  init : Nat
  cAddr : Nat
  cStride : Nat
  cFmt : Nat
  cScale : Nat
  deriving DecidableEq, Repr

/-- The fields of a DRAIN (W1 to W6). -/
structure TrsDrain where
  dAddr : Nat
  dStride : Nat
  dScale : Nat
  accRow : Nat
  m : Nat
  nCols : Nat
  dFmt : Nat
  rnd : Nat
  nanOvf : Bool
  digest : Bool
  rng : Nat
  deriving DecidableEq, Repr

/-- One decoded tile-op record (R55). -/
inductive TileOp where
  | nop
  | config (w1 : Nat)
  | load (p : Nat) (l : TrsLoad)
  | stream (p : Nat) (t : TrsStream)
  | drain (p : Nat) (d : TrsDrain)
  | wait (latch n : Nat)
  | signal (latch n : Nat)
  | fin
  | illegal (opc : Nat)
  /-- the record lies outside the share: an ADDR fault -/
  | unread
  /-- PROB nonzero in an op that has no problem (R55): a RANGE fault -/
  | badProb (opc : Nat)
  deriving DecidableEq, Repr

/-- A program or a staged push in a Trestle queue, with the offset of its next record. -/
structure TrsItem where
  task : TaskId
  pc : Nat := 0
  /-- the cause of the fault that ended the program; it is reported once its earlier ops have completed (R62) -/
  fault : Option Nat := none
  /-- records staged by a TRPUSH (R150); empty for a program that Cabinet dispatched -/
  recs : List (List Byte) := []
  staged : Bool := false
  deriving DecidableEq, Repr

/-- A stationary block as it was read at its LOAD (R58): for each accumulator column of its group the exact values of its K
positions (none where the column is padded), and per block of the layout the checksum column of R246. Complex weights stand as
the real quads of R67. -/
structure TrsBlock where
  q : Nat
  p : Nat
  task : TaskId
  load : TrsLoad
  kind : AccKind
  v : Nat
  /-- accumulator columns of one block: the group's width, or S in block-diagonal layout (R65) -/
  bw : Nat
  /-- physical column of the group's first column, and its width -/
  col0 : Nat
  width : Nat
  /-- the group reaches the tail (R64) -/
  last : Bool
  cols : List (List FNum)
  chk : List (List FNum)
  deriving DecidableEq, Repr

/-- One bank of one segment and half (R35, R36): the block it holds, its in-flight counter and the T-cycles its load still
takes. -/
structure TrsBank where
  blk : Nat := 0
  inflight : Nat := 0
  loading : Nat := 0
  /-- the problem that filled it: 16 q + p + 1, 0 when empty -/
  owner : Nat := 0
  /-- a row of the block has been streamed (R48) -/
  streamed : Bool := false
  deriving DecidableEq, Repr

/-- A row in the array (R33): what it carries, its entry cycle and where its sums go. -/
structure TrsRow where
  q : Nat
  p : Nat
  /-- T-cycle of its entry -/
  t : Nat := 0
  /-- the banks it selects, as bank keys -/
  banks : List Nat
  blk : Nat
  accRow : Nat
  init : Nat
  c : List W32
  /-- its K values per block of the layout -/
  a : List (List FNum)
  /-- the extra row of a checked tile (R60) -/
  extra : Bool := false
  /-- the checked tile it belongs to, 0 for none -/
  tile : Nat
  rerun : Bool := false
  seq : Nat
  deriving DecidableEq, Repr

/-- A STREAM that has begun. -/
structure TrsAct where
  p : Nat
  op : TrsStream
  task : TaskId
  seq : Nat
  blk : Nat
  banks : List Nat
  next : Nat := 0
  /-- feeder cycles since its start or its last boundary -/
  tileCyc : Nat := 0
  /-- it stands at a tile boundary -/
  edge : Bool := false
  /-- it is checked (R60) -/
  chk : Bool := false
  /-- the checked tile being streamed, 0 for none -/
  tile : Nat := 0
  /-- R246: the sums of the tile's rows for the extra row -/
  extra : List (List FNum) := []
  tag : Nat := 0
  deriving DecidableEq, Repr

/-- A LOAD that waits for its bank (R36) or is being written. -/
structure TrsPend where
  p : Nat
  blk : Nat
  banks : List Nat
  load : TrsLoad
  task : TaskId
  seq : Nat
  reload : Bool
  begun : Bool := false
  deriving DecidableEq, Repr

/-- A DRAIN in progress (R43). -/
structure TrsConv where
  p : Nat
  op : TrsDrain
  task : TaskId
  seq : Nat
  next : Nat := 0
  deriving DecidableEq, Repr

/-- A checked tile until its checks are judged (R246 to R249). -/
structure TrsTile where
  id : Nat
  q : Nat
  p : Nat
  task : TaskId
  tag : Nat
  seq : Nat
  blk : Nat
  /-- the rows of the tile, data rows in entry order and the extra row last, for a re-run -/
  rows : List TrsRow
  passes : List (List W32) := []
  tails : List W32 := []
  extra : List W32 := []
  extraIn : Bool := false
  extraLanded : Bool := false
  /-- 0 first run, 1 mismatched and waiting for its re-run, 2 re-running -/
  phase : Nat := 0
  suspect : Option Nat := none
  useSpare : Bool := false
  /-- pass sums of the suspect column itself and of the spare in the re-run -/
  suspectSums : List W32 := []
  spareSums : List W32 := []
  deriving DecidableEq, Repr

/-- One of the two command queues of a Trestle (R44). -/
structure TrsQueue where
  items : List TrsItem := []
  layout : Nat := 0
  ksplit : Bool := false
  fmtA : Nat := 7
  fmtB : Nat := 7
  bdLog : Nat := 0
  /-- R35: the bank of each problem's latest block; its segments always move together -/
  latest : Tab Nat := []
  /-- each problem's latest block -/
  blkOf : Tab Nat := []
  /-- R247: problems that ran a checked STREAM since the last CONFIG -/
  checked : List Nat := []
  acts : Tab TrsAct := []
  loads : List TrsPend := []
  convs : List TrsConv := []
  deriving DecidableEq, Repr

/-- A Trestle (R30 to R68, R246 to R250). -/
structure Trestle where
  rq : TrsQueue := {}
  tq : TrsQueue := {}
  banks : Tab TrsBank := []
  blocks : Tab TrsBlock := []
  flight : List TrsRow := []
  /-- accumulator rows, key (8q + p) × 2048 + row -/
  acc : Tab (List W32) := []
  /-- twins of R247 -/
  twin : Tab (List W32) := []
  tiles : List TrsTile := []
  /-- rows of a re-run still to enter (R52) -/
  rerun : List TrsRow := []
  serving : Nat := 0
  /-- T-cycles left of a queue change (R47) -/
  change : Nat := 0
  nextId : Nat := 1
  seq : Nat := 0
  /-- T-cycles since the epoch began (the model's own count) -/
  cyc : Nat := 0
  /-- push pointer of R151: 0 Cabinet, 1 + m Tin core m -/
  pushRr : Nat := 0
  /-- the feeder stands at a tile boundary -/
  boundary : Bool := true
  deriving DecidableEq, Repr

/-! ### Pewter -/

/-- An issue record (R99). -/
structure PwtRec where
  task : TaskId
  kaddr : Nat
  p0 : W32
  p1 : W32
  p2 : W32
  p3 : W32
  deriving DecidableEq, Repr

/-- A push waiting to enter a queue: its source under R100 (0 Cabinet, 1 the lower Tin core, 2 the higher), its queue. -/
structure PwtOffer where
  src : Nat
  q : Nat
  issue : PwtRec
  deriving DecidableEq, Repr

/-- An address generator (R113). -/
structure PwtAg where
  mode : Nat := 0
  base : Nat := 0
  s : W32 := 0
  modl : W32 := 0
  p : W32 := 0
  deriving DecidableEq, Repr

/-- The state of one of a Pewter unit's two queues (R96, R99, R101). -/
structure PwtQueue where
  recs : List PwtRec := []
  /-- the kernel of the head record has started -/
  run : Bool := false
  pc : Nat := 0
  /-- vector registers, key 32 r + lane -/
  v : Tab W32 := []
  /-- accumulators, key 2 (32 a + lane) + part -/
  a : Tab W48 := []
  sreg : Tab W32 := []
  ag : Tab PwtAg := []
  preset : W48 := 0
  vl : Nat := 32
  /-- 64-byte lines in the instruction buffer, newest first (R102) -/
  lines : List Nat := []
  /-- the line a branch waits for -/
  fetch : Option Nat := none
  /-- an instruction has issued since the last tile boundary -/
  inTile : Bool := false
  deriving DecidableEq, Repr

/-- A Pewter unit. -/
structure PwtUnit where
  rq : PwtQueue := {}
  tq : PwtQueue := {}
  serving : Nat := 0
  offers : List PwtOffer := []
  deriving DecidableEq, Repr

/-! ### Tin -/

/-- The states of TIN_THREAD_STATE. -/
inductive TinSt where
  | free | ready | parkedExt | parkedLatch | parkedQueue | parkedFence
  deriving DecidableEq, Repr

def TinSt.code : TinSt → Nat
  | .free => 0 | .ready => 1 | .parkedExt => 2 | .parkedLatch => 3 | .parkedQueue => 4 | .parkedFence => 5

/-- Where the data of an access goes. -/
inductive TinDest where
  /-- an integer register, sign-extended when `sx` -/
  | xreg (rd bytes : Nat) (sx : Bool)
  /-- a float register, NaN-boxed when 4 bytes -/
  | freg (rd bytes : Nat)
  /-- vector register bytes, by byte key 64 r + i, in access order -/
  | vreg (keys : List Nat)
  /-- the context's share (XLD) -/
  | share (off : Nat)
  /-- the instruction cache -/
  | fetch
  deriving DecidableEq, Repr

/-- The atomic operations of R134, R149 and R361. -/
inductive AmoOp where
  | add | swap | xor | and | or | min | max | minu | maxu | cas (expected : W64) | fadd
  /-- LR reads and reserves, SC stores -/
  | lr | sc
  deriving DecidableEq, Repr

/-- An engine push that has not entered its queue yet (R147, R150). -/
inductive TinPush where
  | lsig (latch n : Nat)
  | trpush (recs : List (List Byte))
  | dmaq (desc : List Byte) (latch n : Nat)
  | pwissue (kaddr : Nat) (p0 p1 p2 p3 : W32)
  deriving DecidableEq, Repr

/-- What a parked thread waits for (R140). -/
inductive TinWait where
  | none
  /-- the data of a load or a fetch from these (address, bytes) pieces -/
  | load (pieces : List (Nat × Nat)) (dest : TinDest)
  /-- the result of an atomic that its home HBM controller has performed, for register `rd` -/
  | result (rd : Nat) (val : W64) (aq : Bool)
  /-- the response to a read of a poisoned line (R286) -/
  | poison (line : Nat)
  /-- the answer to a Solder atomic -/
  | solder (opc bytes rd : Nat) (aq sx : Bool)
  /-- the outbound buffer accepting a store -/
  | accept (pieces : List (Nat × List Byte))
  /-- a latch (LWAIT) -/
  | latch
  /-- earlier stores being performed, then the push -/
  | order (push : TinPush)
  /-- room in an engine queue -/
  | room (push : TinPush)
  /-- every earlier access of the thread (FENCE) -/
  | fence
  /-- an atomic that waits for the FENCE of its rl bit -/
  | fenceAmo (op : AmoOp) (addr bytes : Nat) (val : W64) (rd : Nat) (aq sx : Bool)
  /-- the end of the task (R148, R161) -/
  | ending
  deriving DecidableEq, Repr

/-- An access of a thread that its home has not answered: path (0, 1, 3 for the spaces, 4 + node for Solder), whether it is
a store, its age stamp. -/
structure TinOut where
  path : Nat
  store : Bool
  since : Nat
  addr : Nat
  bytes : Nat
  /-- performed at its home: the Solder fence that followed it has been answered (R146) -/
  done : Bool := false
  deriving DecidableEq, Repr

/-- A hardware thread (R135, R136). -/
structure TinThread where
  task : Option TaskId := none
  st : TinSt := .free
  /-- the entry task assigned by Cabinet that has not started yet: ENTRY and a0 to a3 -/
  entry : Option (Nat × List W64) := none
  pc : W64 := 0
  x : Tab W64 := []
  f : Tab W64 := []
  v : Tab Byte := []
  fcsr : Nat := 0
  vstart : Nat := 0
  vxsat : Nat := 0
  vxrm : Nat := 0
  vl : Nat := 0
  vtype : W64 := BitVec.ofNat 64 (2 ^ 63)
  wait : TinWait := .none
  outs : List TinOut := []
  resv : Option Nat := none
  /-- status and cause with which the task will end -/
  ending : Option (Nat × Nat) := none
  /-- the first non-OK status of pushed work (R150) -/
  pushStat : Option (Nat × Nat) := none
  yielded : Bool := false
  parkedAt : Nat := 0
  /-- bytes of the instruction that issued last -/
  len : Nat := 4
  /-- its condition has cleared while TIN_CTRL.HALT keeps it parked -/
  woken : Bool := false
  /-- a fault of a posted store that its next issue raises (R362): cause, address and PC -/
  late : Option (Nat × Nat × Nat) := none
  /-- the instret counter -/
  instret : Nat := 0
  deriving DecidableEq, Repr

/-- A cache line: the context it is tagged with, its 64-byte line number and its bytes (R142). -/
structure TinLine where
  ctx : Nat
  line : Nat
  data : List Byte
  deriving DecidableEq, Repr

/-- A Tin core. -/
structure TinCore where
  threads : Tab TinThread := []
  /-- the thread whose instruction issues (R138) -/
  cur : Option Nat := none
  /-- the instruction that issues, 16 or 32 bits -/
  word : Nat := 0
  icache : List TinLine := []
  dcache : List TinLine := []
  /-- accesses of threads that have been freed, whose responses will be discarded (R141) -/
  stray : Nat := 0
  deriving DecidableEq, Repr

/-! ### Latches and DMA -/

/-- Latch signals that have arrived and waiters, by waiter index (R156 to R158). -/
structure Latches where
  arrived : List (Nat × Nat) := []
  waits : Tab (Nat × Nat) := []
  deriving DecidableEq, Repr

/-- The DMA operand descriptor of R167. -/
structure DmaDesc where
  src : Nat
  srcShare : Bool
  dst : Nat
  dstShare : Bool
  rowBytes : Nat
  rows : Nat
  digest : Bool
  srcStride : Int
  dstStride : Int
  /-- a reserved bit is set -/
  resv : Bool
  deriving DecidableEq, Repr

/-- What a DMA transfer is for. -/
inductive DmaUse where
  /-- a Cabinet task -/
  | task
  /-- a DMAQ push that signals a latch at its end -/
  | push (latch n : Nat)
  /-- the save copy of a residency release (R203), by residency slot -/
  | save (slot : Nat)
  /-- the restore copy of a residency grant (R205), by residency slot -/
  | restore (slot : Nat)
  deriving DecidableEq, Repr

/-- A transfer in a DMA queue: the next row, and rows written but not acknowledged. -/
structure DmaXfer where
  task : TaskId
  use : DmaUse
  desc : DmaDesc
  next : Nat := 0
  unacked : Nat := 0
  /-- the tests made before its first row have been passed -/
  started : Bool := false
  /-- the Solder loads of the next row have been issued -/
  asked : Bool := false
  /-- lines counted under R499 -/
  bad : Nat := 0
  /-- status and cause with which it will end once the rows written are acknowledged -/
  err : Option (Nat × Nat) := none
  /-- a share copy has ended -/
  fin : Bool := false
  deriving DecidableEq, Repr

/-- A cluster's DMA engine: its radio queue and its tenant queue (R168). -/
structure DmaEngine where
  rq : List DmaXfer := []
  tq : List DmaXfer := []
  deriving DecidableEq, Repr

end Sys2Proof.Machine
end

