-- ==== Sys2Proof/Machine/StateCabinet.lean ====
section
/-! DEFINITION. State of Cabinet (06_task_graphs.md), of residency, slack and Bimetal (07_radio_first_sharing.md), of clusters
and regions (01_device_anatomy.md) and of Sterling contexts (08_sterling_and_checked_results.md), beside the registers. -/

namespace Sys2Proof.Machine

/-! ### Tasks -/

/-- The operand area of a task descriptor (R166), by type. -/
inductive TaskOp where
  | trestle (cluster prog : Nat)
  | pewter (cluster unit : Nat) (any : Bool) (kaddr : Nat) (p0 p1 p2 p3 : W32)
  | tin (cluster entry : Nat) (args : List W64)
  | dma (cluster : Nat) (desc : DmaDesc)
  | bronze (region unit : Nat) (any : Bool) (job : Nat)
  | arrive (barrier phase : Nat)
  | join
  deriving DecidableEq, Repr

/-- A decoded task descriptor (R166). `resv` tells that some reserved bit is set, `typ` the raw TYPE. -/
structure TaskDesc where
  typ : Nat
  cls : Nat
  nd : Bool
  digest : Bool
  cqEn : Bool
  runOnFault : Bool
  nonreplay : Bool
  fgen : Nat
  handle : Nat
  ctx : Nat
  npred : Nat
  cq : Nat
  taskId : Nat
  deadline : Nat
  energy : Nat
  step : Nat
  cookie : Nat
  preds : List Nat
  op : TaskOp
  resv : Bool
  deriving DecidableEq, Repr

/-- Where an accepted task stands. -/
inductive TaskSt where
  /-- uncommitted or waiting on predecessors -/
  | waiting
  | ready
  /-- its end is decided without an engine: a JOIN, or a task that is not run -/
  | ending
  | dispatched
  /-- an ARRIVE counted or held early at its barrier -/
  | atBarrier
  /-- the engine is done and the digest is still to be appended (R234, R239) -/
  | digesting
  /-- the completion is recorded and the completion record still waits (R186) -/
  | recording
  deriving DecidableEq, Repr

/-- An accepted task (R169 to R185). -/
structure Task where
  desc : TaskDesc
  fn : Nat
  /-- submission queue and descriptor position, for the commit counter (R173) -/
  sq : Nat
  pos : Nat
  committed : Bool := false
  /-- predecessors in list order with the status they ended with, once known (R171, R183) -/
  preds : List (Nat × Option Nat) := []
  st : TaskSt := .waiting
  /-- order of commit and of becoming ready (R178) -/
  commitNo : Nat := 0
  readyNo : Nat := 0
  /-- cluster or unit number that runs it (R185 PLACE) -/
  place : Nat := 0xFF
  /-- status and cause once ended -/
  fin : Option (Nat × Nat) := none
  finTime : Nat := 0
  /-- digest and its byte count once read back -/
  dig : Option (Nat × Nat) := none
  /-- worst-case figure in ns (R211) -/
  worst : Nat := 0
  /-- slack group and instance of a slot template's task -/
  inst : Option (Nat × Nat) := none
  /-- DEADLINE_MISS has been posted -/
  missed : Bool := false
  deriving DecidableEq, Repr

/-- A task slot (R169): its generation, whether it is busy and the status its last task ended with. -/
structure Slot where
  gen : Nat := 0
  busy : Bool := false
  last : Nat := 0
  /-- class of its last task (R171) -/
  lastCls : Nat := 0
  task : Option Task := none
  deriving DecidableEq, Repr

/-- A unit of work that has ended in an engine and that Cabinet has not recorded yet. -/
structure Done where
  task : TaskId
  status : Nat
  cause : Nat
  place : Nat
  deriving DecidableEq, Repr

/-- The Sterling states of a context (R222) and start forms (R241). -/
inductive StlSt where
  | off | held | armed | running
  deriving DecidableEq, Repr
def StlSt.code : StlSt → Nat
  | .off => 0 | .held => 1 | .armed => 2 | .running => 3
inductive StlForm where
  | loc | chain | instant (t : Nat)
  deriving DecidableEq, Repr
def StlForm.code : StlForm → Nat
  | .loc => 0 | .chain => 1 | .instant _ => 2

/-- The Sterling side of a context (R221, R237, R241). -/
structure Stl where
  st : StlSt := .off
  form : StlForm := .loc
  late : Bool := false
  /-- the CHAIN pulse has arrived or the INSTANT time has been reached (R243) -/
  pulsed : Bool := false
  ring : Nat := 0
  entries : Nat := 0
  prod : Nat := 0
  cons : Nat := 0
  startT : Nat := 0
  /-- slots whose entry waits for room in the ring, oldest first (R239) -/
  stalled : List Nat := []
  deriving DecidableEq, Repr

/-- A context (R163 to R165, R195). -/
structure Ctx where
  valid : Bool := false
  fn : Nat := 0
  slotBase : Nat := 0
  slotCount : Nat := 0
  floor : Nat := 0
  weight : Nat := 1
  evq : Nat := 0
  window : Nat := 0
  seed : Nat := 0
  stl : Stl := {}
  /-- teardown in progress (R191): tasks aborted and threads freed so far -/
  tearing : Bool := false
  aborted : Nat := 0
  freed : Nat := 0
  lastDone : Nat := 0
  /-- EXT_ALARM has been posted for the present rise (R194) -/
  alarmed : Bool := false
  /-- created by firmware itself for L1 firmware, with register rights (R143) -/
  l1 : Bool := false
  /-- the context is of the secure world (R447) -/
  secure : Bool := false
  deriving DecidableEq, Repr

/-- A barrier (R187 to R190). -/
structure Barrier where
  valid : Bool := false
  fn : Nat := 0
  p : Nat := 0
  count : Nat := 0
  phase : Nat := 0
  /-- handles of the ARRIVEs counted in this phase, and of early ones -/
  arrived : List Nat := []
  early : List Nat := []
  since : Nat := 0
  deriving DecidableEq, Repr

/-- Cabinet's scheduler state (R176, R178). -/
structure Sched where
  /-- deficits of classes 1 to 7 -/
  deficit : Tab Int := []
  /-- per class: context at the pointer and dispatches it has had there -/
  ptr : Tab (Nat × Nat) := []
  fetchRr : Nat := 0
  commitNo : Nat := 0
  readyNo : Nat := 0
  /-- groups whose low slack set CLASS_SUSP, with the instance (R212) -/
  susp : List (Nat × Nat) := []
  deriving DecidableEq, Repr

/-- A slack tracker (R211): the instance it follows and instances that wait behind it. -/
structure Slack where
  inst : Nat := 0
  active : Bool := false
  remain : Nat := 0
  deadline : Nat := 0
  /-- instances that wait: instance, REMAIN, DEADLINE -/
  next : List (Nat × Nat × Nat) := []
  /-- SLACK as last computed, in ns -/
  slackNs : Int := 0
  /-- causes reported for the present instance: low, negative -/
  low : Bool := false
  neg : Bool := false
  deriving DecidableEq, Repr

/-! ### Clusters, residency and regions -/

/-- Power state of a cluster (R26, R27). -/
inductive Power where
  | on
  /-- entering gating, before the retention point -/
  | entering
  /-- past the retention point -/
  | gated
  /-- waking; the wake request came while entering when `late` -/
  | waking
  deriving DecidableEq, Repr

/-- States of a residency slot (R205). -/
inductive ResSt where
  | absent | pending | restoring | resident | orphaned | releasing
  deriving DecidableEq, Repr
def ResSt.code : ResSt → Nat
  | .absent => 0 | .pending => 1 | .restoring => 2 | .resident => 3 | .orphaned => 4 | .releasing => 5

/-- A residency slot (R200): its context, its physical granules in share order and its latch granules. -/
structure ResSlot where
  st : ResSt := .absent
  ctx : Nat := 0
  fn : Nat := 0
  grans : List Nat := []
  lats : List Nat := []
  /-- context torn down while RESTORING (R205) -/
  orphan : Bool := false
  /-- lines written zero by the restore, lines written poisoned by the save (R499) -/
  zeroed : Nat := 0
  poisoned : Nat := 0
  /-- the save copy is still to run or running -/
  saving : Bool := false
  deriving DecidableEq, Repr

/-- A pending residency request (R201, R202). -/
structure ResReq where
  ctx : Nat
  fn : Nat
  grans : Nat
  lats : Nat
  restore : Nat
  deriving DecidableEq, Repr

/-- A cluster beside its registers and engines. -/
structure Cluster where
  power : Power := .on
  slots : Tab ResSlot := []
  pend : List ResReq := []
  /-- ALL_BLOCKED has been posted for the present condition (R207), and the tick since which the condition holds -/
  allBlk : Bool := false
  blkSince : Option Nat := none
  deriving DecidableEq, Repr

/-- A region beside its registers (R21 to R27, R216). -/
structure Region where
  /-- the step being moved to, while CHANGING -/
  target : Option Nat := none
  /-- the idle PLL path is retuned and the engines are stopping (R23) -/
  retuned : Bool := false
  pllStopped : Bool := false
  /-- it was stepped down for heat and is not back at step 0 (R493) -/
  heat : Bool := false
  /-- recent refills, newest first: some tenant task waited on credit (R216) -/
  waited : List Bool := []
  deriving DecidableEq, Repr

/-- A VDD_CORE rail (R485, R487): the voltage commanded and the one before it in mV, whether its VRM has still to report it
within range, and the tick of the write. -/
structure Rail where
  mv : Nat := 850
  prev : Nat := 850
  changing : Bool := false
  since : Nat := 0
  deriving DecidableEq, Repr

/-- The chain side of start barriers (R244). -/
structure Chain where
  /-- pulses emitted on SYNC_OUT: start and calibration -/
  starts : Nat := 0
  cals : Nat := 0
  /-- the master awaits its calibration pulse -/
  calOut : Bool := false
  deriving DecidableEq, Repr

/-- The digest side of a task (R233 to R235): merged marked ranges as (first key, bytes), rising. -/
structure Marks where
  ranges : List (Nat × Nat) := []
  overflow : Bool := false
  taken : Bool := false
  deriving DecidableEq, Repr

end Sys2Proof.Machine
end

