-- ==== Sys2Proof/Machine/StateHost.lean ====
section
/-! DEFINITION. State of the host attachment (13_host_queues_and_functions.md): queues, functions, mailboxes, records on
their way to the host, beside the registers. -/

namespace Sys2Proof.Machine

/-- A queue of the pool (R392 to R402). -/
structure Queue where
  en : Bool := false
  typ : Nat := 0
  persist : Bool := false
  kind : Nat := 0
  fn : Nat := 0
  logSize : Nat := 6
  failed : Bool := false
  pair : Nat := 0
  vector : Nat := 0
  base : Nat := 0
  wb : Nat := 0
  prod : Nat := 0
  cons : Nat := 0
  commit : Nat := 0
  coalCount : Nat := 0
  coalUs : Nat := 0
  typeCfg : Nat := 0
  armed : Bool := false
  /-- records posted since it was armed (R399) -/
  since : Nat := 0
  /-- stopped behind a record that waits for room at its completion queue (R397) -/
  blocked : Bool := false
  /-- transmit queue: late policy DROP (R346) -/
  dropLate : Bool := false
  deriving DecidableEq, Repr

/-- States of a virtual function (R409). -/
inductive VfSt where
  | absent | active | resetting | removing
  deriving DecidableEq, Repr
def VfSt.code : VfSt → Nat
  | .absent => 0 | .active => 1 | .resetting => 2 | .removing => 3

/-- A function: its generation and its grants (R408, R410). Function 0 is the physical function. -/
structure Func where
  st : VfSt := .absent
  enabled : Bool := false
  gen : Nat := 0
  qbase : Nat := 0
  qcount : Nat := 0
  vec0 : Nat := 0
  vectors : Nat := 0
  contexts : Nat := 0
  shareGran : Nat := 0
  latchGran : Nat := 0
  hbm : Nat := 0
  /-- cache allowance in granules; none while no limit has been set (R265) -/
  cacheAllow : Option Nat := none
  objects : Nat := 0
  bronzeJobs : Nat := 0
  macMask : Nat := 0
  txRate : Nat := 0
  rxFilters : Nat := 0
  /-- Solder domain (R357) -/
  domain : Nat := 0
  /-- credit of the TX_RATE bucket in bits (R341, R408) -/
  txCredit : Int := 0
  txAt : Nat := 0
  deriving DecidableEq, Repr

/-- A mailbox: the header of the command taken and the status block (R414 to R416). -/
structure Mbox where
  busy : Bool := false
  status : Nat := 0
  last : Nat := 0
  version : Nat := 2
  command : Nat := 0
  seq : Nat := 0
  detail : Nat := 0
  /-- the header of a command that waits for firmware (R418) -/
  header : Option MbxHeader := none
  /-- words of the latest reply body -/
  reply : List Nat := []
  /-- the interrupt register of a virtual function's mailbox (a mailbox of the physical function has SBD_MBX_IRQ) -/
  irq : W32 := 0
  /-- a reset has taken the function meanwhile: the command completes with its effect and no reply (R411) -/
  mute : Bool := false
  deriving DecidableEq, Repr

/-- What a record tells the device when it has been posted or discarded. -/
inductive RecFor where
  /-- an event: dropped when its queue is full (R194) -/
  | event
  /-- the completion record of the task in a slot (R186) -/
  | task (slot : Nat)
  /-- the record of a refused descriptor (R182) -/
  | refusal
  /-- a record of a host-produced queue, which waits behind it (R397) -/
  | source (queue : Nat)
  /-- a receive record: dropped when full (R397) -/
  | rx (queue : Nat)
  deriving DecidableEq, Repr

/-- A record waiting to be posted (R396, R410). -/
structure PostRec where
  queue : Nat
  fn : Nat
  gen : Nat
  use : RecFor
  bytes : List Byte
  deriving DecidableEq, Repr

/-- A mailbox queue entry in progress (R406): its queue, buffer address and cookie. -/
structure MbxqEntry where
  queue : Nat
  /-- the function of the queue and its paired completion queue -/
  fn : Nat
  pair : Nat
  buf : Nat
  cookie : Nat
  gen : Nat
  deriving DecidableEq, Repr

/-- What the last BAR4 read completed with (R268, R286). -/
inductive Bar4 where
  | none
  | data (bytes : List Byte)
  | unsupported
  | poisoned
  deriving DecidableEq, Repr

/-- The host side of the device. -/
structure HostIf where
  queues : Tab Queue := []
  funcs : Tab Func := []
  /-- key 4 fn + m -/
  mboxes : Tab Mbox := []
  outbox : List PostRec := []
  mbxq : Option MbxqEntry := none
  /-- blocks of 16 pool queues that the physical function has taken beyond its first 2,048 (R401) -/
  pfBlocks : List Nat := []
  /-- MSI-X table words, key fn × 2^13 + word -/
  msix : Tab W32 := []
  /-- pending bits, fn × 2^11 + vector -/
  pba : List Nat := []
  /-- messages sent, fn × 2^11 + vector -/
  fired : Tab Nat := []
  /-- the aperture size of BAR4 as a power of two, set through Resizable BAR -/
  bar4Log : Nat := 30
  bar4 : Bar4 := .none
  deriving DecidableEq, Repr

end Sys2Proof.Machine
end

