-- ==== Sys2Proof/Machine/StateMemory.lean ====
section
/-! DEFINITION. State of the memory tiers (09_memory_tiers.md): objects, shelves, fills, staged pages, installs, flash blocks
and lines, beside the registers. -/

namespace Sys2Proof.Machine

/-- Object policies (R262). -/
inductive Policy where
  | pinned | cached | stream
  deriving DecidableEq, Repr
def Policy.code : Policy → Nat
  | .pinned => 0 | .cached => 1 | .stream => 2

/-- Object states (R258). -/
inductive ObjSt where
  | none | created | installing | ready | destroying
  deriving DecidableEq, Repr
def ObjSt.code : ObjSt → Nat
  | .none => 0 | .created => 0 | .installing => 1 | .ready => 2 | .destroying => 3

/-- An object table entry (R260). A number that holds no object keeps its OGEN (R261). -/
structure Obj where
  st : ObjSt := .none
  ogen : Nat := 0
  fn : Nat := 0
  base : Nat := 0
  size : Nat := 0
  policy : Policy := .pinned
  spread : Bool := false
  stack : Nat := 0
  mirror : Bool := false
  partner : Nat := 0
  class0 : Bool := false
  ahead : Nat := 0
  degraded : Bool := false
  /-- the stacks present at create, ascending (R263) -/
  stackNos : List Nat := []
  /-- residency copies that read or write it (R267) -/
  copies : Nat := 0
  deriving DecidableEq, Repr

/-- Shelf states (R269). -/
inductive ShelfSt where
  | absent | filling | present | evicting | poisoned
  deriving DecidableEq, Repr

/-- A shelf of a CACHED object, or a POISONED range of a STREAM object. -/
structure Shelf where
  st : ShelfSt := .absent
  /-- readers that hold a reference, with the address each reads (R270) -/
  readers : List (Reader × Nat) := []
  holds : Nat := 0
  /-- last use in 1 ms ticks -/
  lastUse : Nat := 0
  /-- codewords of the running fill that are in HBM (R270) -/
  words : List Nat := []
  /-- granules are held for it (R273) -/
  granted : Bool := false
  /-- its fill has been counted in DMW_FILL_WAIT -/
  waited : Bool := false
  /-- the codeword whose page a fill reads first (R272) -/
  first : Nat := 0
  /-- flash pages of the shelf that are unrecoverable (R281) -/
  lost : Nat := 0
  deriving DecidableEq, Repr

/-- A fill that waits for granules (R272). -/
structure Fill where
  shelf : Nat
  demand : Bool
  fn : Nat
  deriving DecidableEq, Repr

/-- A staged page of a STREAM object (R276), oldest first in the staging area. -/
structure Staged where
  page : Nat
  /-- false while it is staged again after an HBM error -/
  ready : Bool
  readers : List (Reader × Nat)
  deriving DecidableEq, Repr

/-- An install or reinstall in progress, with the source list it reads (R266, R282, R407). -/
structure Install where
  obj : Nat
  re : Bool
  first : Nat
  count : Nat
  src : List (Nat × Nat)
  /-- the command was of the secure world (R447) -/
  secure : Bool
  deriving DecidableEq, Repr

/-- Where a flash page read stands on the ladder of R280. -/
inductive Ladder where
  | levels | soft | rebuild
  deriving DecidableEq, Repr

/-- A programmed flash block: channel × 2^20 + block is its key. -/
structure Block where
  reads : Nat := 0
  erases : Nat := 0
  bad : Bool := false
  /-- queued for relocation (R279) -/
  reloc : Bool := false
  /-- the tick of its last unrecoverable read -/
  unrecAt : Option Nat := none
  deriving DecidableEq, Repr

/-- The memory tiers beside their contents. -/
structure Tiers where
  objs : Tab Obj := []
  /-- object table entries in the reserved zone of the NAND that wait for Bureau after a full reset (R431) -/
  saved : Tab Obj := []
  shelves : Tab Shelf := []
  fills : List Fill := []
  /-- the function whose promotion fills were served last (R272) -/
  fillRr : Nat := 0
  staged : List Staged := []
  /-- readers whose page is not staged yet -/
  stageWait : List (Reader × Nat) := []
  installs : List Install := []
  /-- poisoned 64-byte lines by line number (R286), with whether POISON_LINE has been posted -/
  poison : Tab Bool := []
  /-- flash page reads on the ladder, by page number -/
  ladder : Tab Ladder := []
  blocks : Tab Block := []
  /-- failed dies, channel × 64 + die, and whether the rebuild is complete (R284) -/
  failed : Tab Bool := []
  /-- granules held on each stack -/
  used : Tab Nat := []
  /-- mirror copies in progress: object and new partner (R288) -/
  mcopy : List (Nat × Nat) := []
  /-- the bank that each stack refreshes next (R226) -/
  refBank : Tab Nat := []
  deriving DecidableEq, Repr

end Sys2Proof.Machine
end

