-- ==== Sys2Proof/Machine/StateNet.lean ====
section
/-! DEFINITION. State of Invar, the Ethernet ports and Hallstand (11_ports_traffic_time.md), beside the registers. -/

namespace Sys2Proof.Machine

/-- Invar beside its time (R323, R326 to R328). -/
structure Invar where
  /-- the integral I of the servo, in 2^-32 ns per tick -/
  i : Int := 0
  /-- latest samples in a row within the lock bound, up to 16 -/
  good : Nat := 0
  /-- the PLL is locked to REF_IN -/
  onRef : Bool := false
  /-- one-shot triggers that have fired, and triggers enabled with their instant already reached -/
  spent : List Nat := []
  late : List Nat := []
  /-- the instant at which the pulse on PPS_OUT ends -/
  pulse : Option Nat := none
  /-- pulses given on PPS_OUT -/
  pulses : Nat := 0
  deriving DecidableEq, Repr

/-- A decoded NIC transmit descriptor (R334). -/
structure TxDesc where
  buf : Nat
  len : Nat
  tc : Nat
  ltEn : Bool
  ts : Nat
  cmpl : Bool
  ptpOff : Nat
  csumOff : Nat
  launch : Nat
  cookie : Nat
  resv : Bool
  deriving DecidableEq, Repr

/-- The head frame of a transmit queue. -/
structure TxHead where
  desc : TxDesc
  gen : Nat
  bytes : List Byte
  /-- its launch was past when it became head (R346); none while its MAC is down -/
  past : Option Bool
  deriving DecidableEq, Repr

/-- The frame on a MAC's line. -/
structure TxLine where
  queue : Nat
  desc : TxDesc
  gen : Nat
  status : Nat
  stamp : List Nat
  bytes : List Byte
  counted : Nat
  /-- the close of its gate, and whether time has stepped meanwhile (R345) -/
  close : Option Nat
  stepped : Bool := false
  deriving DecidableEq, Repr

/-- A gate control list (R342). -/
structure GateList where
  base : Nat
  cycle : Nat
  entries : List (Nat × Nat)
  deriving DecidableEq, Repr

/-- A token bucket in units of 1/8000 byte, with the tick of its last refill (R341). -/
structure Bucket where
  credit : Int := 0
  at_ : Nat := 0
  deriving DecidableEq, Repr

/-- A class of a MAC: the queue after which its round robin goes on, its shaper, the tag of its previous frame, the base of the tag
of its head (R339) and its deficit (R340). -/
structure TxClass where
  ptr : Nat := 0
  shaper : Bucket := {}
  tag : Nat := 0
  base : Option Nat := none
  deficit : Nat := 0
  deriving DecidableEq, Repr

/-- A logical MAC of Hallstand. -/
structure MacTx where
  up : Bool := false
  line : Option TxLine := none
  v : Nat := 0
  classes : Tab TxClass := []
  /-- the class that deficit round robin visits, and whether its visit is open -/
  visit : Nat := 4
  visiting : Bool := false
  oper : Option GateList := none
  /-- the pending list and the instant at which it becomes oper -/
  next : Option (GateList × Nat) := none
  deriving DecidableEq, Repr

/-- A policer (R350). -/
structure Policer where
  cfg : Nat := 0
  cir : Nat := 0
  cbs : Nat := 0
  pir : Nat := 0
  ebs : Nat := 0
  c : Bucket := {}
  e : Bucket := {}
  green : Nat := 0
  yellow : Nat := 0
  red : Nat := 0
  deriving DecidableEq, Repr

/-- A receive filter (R404): `vid` is none for untagged frames only. -/
structure RxFilter where
  mac : Nat
  addr : Nat
  vid : Option Nat
  fn : Nat
  base : Nat
  count : Nat
  deriving DecidableEq, Repr

/-- The network side. -/
structure Net where
  heads : Tab TxHead := []
  macs : Tab MacTx := []
  policers : Tab Policer := []
  filters : Tab RxFilter := []
  /-- the physical function's default receive queue -/
  dflt : Option Nat := none
  /-- frames that have left the device, with their MAC -/
  out : List (Nat × List Byte) := []
  /-- PTP and slow-protocol frames given to firmware, with their MAC and stamp -/
  toFw : List (Nat × List Nat × List Byte) := []
  deriving DecidableEq, Repr

end Sys2Proof.Machine
end

