-- ==== Sys2Proof/Machine/StateServing.lean ====
section
/-! DEFINITION. State of the serving side (10_serving_cells.md): slot templates, numerology timers, Bronze units, the fronthaul
classifier and FAPI, beside the registers. -/

namespace Sys2Proof.Machine

/-! ### Slot templates (R299 to R303) -/

/-- An entry of a template: the 32 words of its descriptor and the 8 words of its control record (R300). -/
structure TplEntry where
  desc : List Nat
  ctl : List Nat
  deriving DecidableEq, Repr

/-- A registered template (R299, R301). -/
structure Template where
  group : Nat
  timer : Nat
  depth : Nat
  ctx : Nat
  slotBase : Nat
  cq : Nat
  tidHi : Nat
  clusters : Nat
  mask : Nat
  entries : List TplEntry
  retiring : Bool := false
  deriving DecidableEq, Repr

/-- A numerology timer (R296 to R298): the settings in force, the settings that wait for a frame boundary of their own with that
frame's number, and the number of the last boundary fired of each kind, counted from G + Δ. -/
structure NtTimer where
  mu : Nat := 0
  delta : Int := 0
  next : Option (Nat × Int × Int) := none
  frame : Int := 0
  slot : Int := 0
  symbol : Int := 0
  deriving DecidableEq, Repr

/-! ### Bronze (R305 to R310) -/

/-- A job in a Bronze queue. -/
structure BrzJob where
  task : TaskId
  job : Nat
  deriving DecidableEq, Repr

/-- Where a started job stands (R307). -/
inductive BrzStage where
  /-- the descriptor and input are being fetched -/
  | fetching
  /-- it holds the decoder or encoder -/
  | computing
  /-- outputs, soft buffers and status record are written and not yet acknowledged -/
  | writing
  deriving DecidableEq, Repr

/-- A started job: its descriptor words and its staged input. -/
structure BrzRun where
  job : BrzJob
  stage : BrzStage := .fetching
  words : List Nat := []
  input : List Byte := []
  deriving DecidableEq, Repr

/-- A Bronze unit: its queues and the job each has started. -/
structure BrzUnit where
  rq : List BrzJob := []
  tq : List BrzJob := []
  rrun : Option BrzRun := none
  trun : Option BrzRun := none
  serving : Nat := 0
  deriving DecidableEq, Repr

/-! ### Fronthaul and FAPI -/

/-- The state of a cell's PHY. PRESUMED from SCF 222 (log 61). -/
inductive PhySt where
  | idle | configured | running
  deriving DecidableEq, Repr

/-- A cell of the FAPI interface: its timer, its DL lead in ns, and the slots (SFN, slot) for which only the signals configured at
P5 are sent (R313). -/
structure FapiCell where
  st : PhySt := .idle
  timer : Nat := 0
  lead : Nat := 250000
  only : List (Nat × Nat) := []
  deriving DecidableEq, Repr

/-- Messages from L1 firmware to L2 (R311, R313). -/
inductive FapiMsg where
  | paramResponse
  | configResponse
  | stopIndication
  | slotIndication (sfn slot : Nat)
  /-- ERROR.indication with MSG_INVALID_STATE or MSG_INVALID_SFN -/
  | invalidState
  | invalidSfn
  deriving DecidableEq, Repr

/-- Requests of L2 that L1 firmware has accepted for a slot. -/
inductive FapiReq where
  | dlTti | ulTti | ulDci | txData
  deriving DecidableEq, Repr

/-- An accepted request: the cell, its kind, its slot and the bytes of its message. -/
structure FapiWork where
  phy : Nat
  kind : FapiReq
  sfn : Nat
  slot : Nat
  body : List Byte
  deriving DecidableEq, Repr

/-- A classifier entry (R294). -/
structure FhEntry where
  mac : Nat
  tagged : Bool
  vid : Nat
  proto : Nat
  plane : Nat
  eaxc : Nat
  mask : Nat
  queue : Nat
  deriving DecidableEq, Repr

end Sys2Proof.Machine
end

