-- ==== Sys2Proof/Machine/StateSolder.lean ====
section
/-! DEFINITION. State of the Solder fabric (12_solder_fabric.md): peers, exports, the requester's and the responder's side of
sessions, and the quorum, beside the registers. -/

namespace Sys2Proof.Machine

/-- Who issued a Solder operation (R361): a Tin thread, a DMA queue or a host Solder queue with the entry's number. -/
inductive SldWho where
  | tin (core thread : Nat)
  | dma (cluster queue : Nat)
  | host (queue entry : Nat)
  /-- its context has been torn down: the response will be discarded (R373) -/
  | gone
  deriving DecidableEq, Repr

/-- A peer table entry (R356). -/
structure SldPeer where
  mac : Nat
  v6 : Bool
  valid : Bool
  tagged : Bool
  vid : Nat
  pcp : Nat
  hop : Nat
  ip : Nat
  deriving DecidableEq, Repr

/-- An export (R358). -/
structure SldExport where
  base : Nat
  shelves : Nat
  obj : Nat
  ogen : Nat
  domain : Nat
  rd : Bool
  wr : Bool
  at_ : Bool
  objShelf : Nat
  deriving DecidableEq, Repr

/-- An operation at its requester (R360, R365). `ctx` is the issuing context, if any, and `pc` the PC of a posted store (R362). -/
structure SldOp where
  who : SldWho
  ctx : Option Nat
  node : Nat
  opc : Nat
  len : Nat
  off : Nat
  domain : Nat
  source : Nat
  data : List Byte
  pc : Nat
  tag : Nat := 0
  /-- the tick of its issue -/
  since : Nat := 0
  deriving DecidableEq, Repr

/-- An unretired packet: DESIGN CHOICE one operation each (log 16). -/
structure SldPkt where
  seq : Nat
  op : SldOp
  /-- the tick of its last transmission -/
  sent : Nat
  deriving DecidableEq, Repr

/-- The requester's side towards one node (R369 to R376). -/
structure SldDest where
  /-- operations that wait to be sent -/
  held : List SldOp := []
  pkts : List SldPkt := []
  seq : Nat := 0
  tag : Nat := 0
  atomSeq : Nat := 0
  /-- the peer's incarnation as last seen, 0 for none -/
  peerInc : Nat := 0
  lost : Bool := false
  w : Nat := 64
  rto : Nat := 0
  echoAt : Option Nat := none
  deriving DecidableEq, Repr

/-- An operation that the responder has accepted and not performed. -/
structure SldAcc where
  src : Nat
  seq : Nat
  idx : Nat
  opc : Nat
  len : Nat
  off : Nat
  domain : Nat
  source : Nat
  tag : Nat
  data : List Byte
  echo : Bool
  /-- the source's incarnation at acceptance -/
  inc : Nat
  /-- it came by the local responder (R355) -/
  loc : Bool
  deriving DecidableEq, Repr

/-- A replay table entry (R374). -/
structure SldReplay where
  tag : Nat
  status : Nat
  old : Nat
  deriving DecidableEq, Repr

/-- The responder's side of one source node (R370, R374). -/
structure SldSrc where
  inc : Nat := 0
  expected : Nat := 0
  replay : Tab SldReplay := []
  /-- the tick of the last NAK GAP -/
  nakAt : Option Nat := none
  deriving DecidableEq, Repr

/-- An answer on its way from the response to its requester. -/
structure SldAns where
  op : SldOp
  status : Nat
  data : List Byte
  deriving DecidableEq, Repr

/-- Where a quorum command came from (R379): a mailbox, or the node and the address and port that a CONTROL packet names. -/
inductive QuorumFrom where
  | mailbox (fn m : Nat)
  | packet (node : Nat) (v6 : Bool) (ip port : Nat)
  deriving DecidableEq, Repr

/-- An entry of a host Solder queue that has been taken and not completed (R405). -/
structure SldEntry where
  queue : Nat
  /-- the function of the queue and its paired completion queue -/
  fn : Nat
  pair : Nat
  id : Nat
  opc : Nat
  len : Nat
  dst : Nat
  cookie : Nat
  gen : Nat
  deriving DecidableEq, Repr

/-- A frame of Solder handed to Hallstand (R363): the carrying MAC, its headers and its UDP payload. -/
structure SldFrame where
  mac : Nat
  vlan : Option (Nat × Nat)
  hop : Nat
  v6 : Bool
  src : Nat
  dst : Nat
  sport : Nat
  dport : Nat
  dscp : Nat
  ecn : Nat
  ttl : Nat
  tc : Nat
  payload : List Byte
  deriving DecidableEq, Repr

/-- The Solder fabric. -/
structure Solder where
  /-- source addresses by MAC: IPv4 word or IPv6 -/
  locals : Tab Nat := []
  peers : Tab SldPeer := []
  exports : Tab SldExport := []
  dests : Tab SldDest := []
  srcs : Tab SldSrc := []
  acc : List SldAcc := []
  ans : List SldAns := []
  /-- host entries in progress, in entry order, and the number of the next -/
  entries : List SldEntry := []
  nextEntry : Nat := 0
  /-- frames handed to Hallstand: the fabric's output -/
  tx : List SldFrame := []
  expelled : List Nat := []
  selfFenced : Bool := false
  keys : List (List Byte) := []
  threshold : Nat := 0
  /-- the last quorum command accepted -/
  lastCmd : List Byte := []
  quorum : List (QuorumFrom × List Byte) := []
  deriving DecidableEq, Repr

end Sys2Proof.Machine
end

