-- ==== Sys2Proof/Machine/State.lean ====
section
/-! DEFINITION. The state of the device, its faults and refusals, and the state after reset. -/

namespace Sys2Proof.Machine

/-- Why the block stops. No command of the table stops it: the spec gives every command an effect. -/
inductive Fault where
  /-- raised by no meaning of this model; safe -/
  | unstated (what : String)
  deriving DecidableEq, Repr

/-- Why a command has no meaning. -/
inductive Refusal where
  /-- the command is not modelled yet, by mnemonic: raised by its arm of exec; safe -/
  | notModelled (mnemonic : String)
  deriving DecidableEq, Repr

/-- The state of the device. -/
structure State where
  /-- commands that wait, first in, first out -/
  pending : List Instr := []
  /-- the register file: a register that is not listed holds its reset value -/
  regs : Tab W32 := []
  /-- R8: shadows of high words, key function × 2^50 + address of the high word -/
  shadows : Tab W32 := []
  /-- R9: held low words, key function, with the address and the word -/
  held : Tab (Nat × W32) := []
  /-- the value the last register read returned -/
  lastRead : W32 := 0
  /-- I-clock ticks since reset (the model's own count) -/
  clk : Nat := 0
  /-- the model's counter of free values -/
  nonce : Nat := 0
  /-- Trestles by cluster -/
  trs : Tab Trestle := []
  /-- Pewter units by number -/
  pwt : Tab PwtUnit := []
  /-- Tin cores by number -/
  tin : Tab TinCore := []
  /-- latches, key 256 c + i -/
  lat : Tab Latches := []
  /-- DMA engines by cluster -/
  dma : Tab DmaEngine := []
  cl : Tab Cluster := []
  rg : Tab Region := []
  /-- VDD_CORE rails by die -/
  rails : Tab Rail := []
  /-- scratchpads, key c × 2^25 + byte -/
  spad : Mem := []
  /-- 64-byte scratchpad lines with an uncorrectable error, by line of the scratchpad key (R462, R499) -/
  spadBad : List Nat := []
  /-- the tier range, HBM and flash contents alike -/
  tier : Mem := []
  /-- what the device wrote to host memory, key function × 2^48 + window offset -/
  hostOut : Mem := []
  ctxs : Tab Ctx := []
  slots : Tab Slot := []
  bars : Tab Barrier := []
  sched : Sched := {}
  slack : Tab Slack := []
  done : List Done := []
  /-- digest marks by slot -/
  marks : Tab Marks := []
  chain : Chain := {}
  tiers : Tiers := {}
  sld : Solder := {}
  host : HostIf := {}
  boot : Boot := {}
  /-- the template store, by template index -/
  tpls : Tab Template := []
  timers : Tab NtTimer := []
  /-- Bronze units by number -/
  brz : Tab BrzUnit := []
  /-- the fronthaul classifier -/
  fh : List FhEntry := []
  /-- FAPI cells by PHY identifier, requests accepted and messages to L2 -/
  fapi : Tab FapiCell := []
  fapiWork : List FapiWork := []
  fapiOut : List (Nat × FapiMsg) := []
  inv : Invar := {}
  net : Net := {}
  /-- Invar time in units of 2^-32 ns since the PTP epoch, below 2^48 s (R318, R320) -/
  time : Nat := 0
  deriving DecidableEq, Repr

/-- The machine right after reset. The physical function is function 0, ACTIVE at generation 0 (R410). -/
def State.reset : State := { host := { funcs := [(0, { st := .active, enabled := true })] } }

end Sys2Proof.Machine
end

