-- ==== Sys2Proof/Machine/Ops.lean ====
section
/-! DEFINITION. The named operations over the state that every family of commands uses: registers and counters, the typed
tables, time, events and records, the scratchpad and its shares, the tier range with its objects, worlds and poison, and host
memory. -/

namespace Sys2Proof.Machine

/-! ### Registers and counters -/

/-- The value a register holds: its reset value until something writes it. -/
def State.reg (s : State) (a : Nat) : Nat := ((s.regs.look a).getD (regReset a)).toNat

/-- Sets a register, whatever its access type: what hardware and firmware do. -/
def State.setReg (s : State) (a v : Nat) : State := { s with regs := s.regs.put a (BitVec.ofNat 32 v) }

/-- Field [hi:lo] of a register. -/
def State.field (s : State) (a hi lo : Nat) : Nat := bits (s.reg a) hi lo

/-- Sets field [hi:lo] of a register. -/
def State.setField (s : State) (a hi lo v : Nat) : State := s.setReg a (setBits (s.reg a) hi lo v)

/-- Bit i of a register. -/
def State.flag (s : State) (a i : Nat) : Bool := (s.reg a).testBit i

/-- A 64-bit value, low word at `a` (R8). -/
def State.reg64 (s : State) (a : Nat) : Nat := s.reg a + 2 ^ 32 * s.reg (a + 4)

/-- Sets a 64-bit value. -/
def State.setReg64 (s : State) (a v : Nat) : State := (s.setReg a v).setReg (a + 4) (v / 2 ^ 32)

/-- Adds to a statistics counter, which wraps at 64 bits (R10). -/
def State.bump (s : State) (a n : Nat) : State := s.setReg64 a (s.reg64 a + n)

/-- Applies `f` when `b` holds. -/
def State.when (s : State) (b : Bool) (f : State → State) : State := if b then f s else s

/-- A fresh argument for a free value. -/
def State.tickNonce (s : State) : State := { s with nonce := s.nonce + 1 }

/-! ### Typed tables -/

def State.ctx (s : State) (x : Nat) : Ctx := s.ctxs.get {} x
def State.setCtx (s : State) (x : Nat) (c : Ctx) : State := { s with ctxs := s.ctxs.put x c }
def State.slot (s : State) (i : Nat) : Slot := s.slots.get {} i
def State.setSlot (s : State) (i : Nat) (v : Slot) : State := { s with slots := s.slots.put i v }
def State.trestle (s : State) (c : Nat) : Trestle := s.trs.get {} c
def State.setTrestle (s : State) (c : Nat) (v : Trestle) : State := { s with trs := s.trs.put c v }
def State.pewter (s : State) (u : Nat) : PwtUnit := s.pwt.get {} u
def State.setPewter (s : State) (u : Nat) (v : PwtUnit) : State := { s with pwt := s.pwt.put u v }
def State.core (s : State) (m : Nat) : TinCore := s.tin.get {} m
def State.setCore (s : State) (m : Nat) (v : TinCore) : State := { s with tin := s.tin.put m v }
def State.dmaEng (s : State) (c : Nat) : DmaEngine := s.dma.get {} c
def State.setDma (s : State) (c : Nat) (v : DmaEngine) : State := { s with dma := s.dma.put c v }
def State.cluster (s : State) (c : Nat) : Cluster := s.cl.get {} c
def State.setCluster (s : State) (c : Nat) (v : Cluster) : State := { s with cl := s.cl.put c v }
def State.region (s : State) (r : Nat) : Region := s.rg.get {} r
def State.setRegion (s : State) (r : Nat) (v : Region) : State := { s with rg := s.rg.put r v }
def State.latch (s : State) (c l : Nat) : Latches := s.lat.get {} (256 * c + l)
def State.setLatch (s : State) (c l : Nat) (v : Latches) : State := { s with lat := s.lat.put (256 * c + l) v }
def State.queue (s : State) (q : Nat) : Queue := s.host.queues.get {} q
def State.setQueue (s : State) (q : Nat) (v : Queue) : State := { s with host := { s.host with queues := s.host.queues.put q v } }
def State.func (s : State) (n : Nat) : Func := s.host.funcs.get {} n
def State.setFunc (s : State) (n : Nat) (v : Func) : State := { s with host := { s.host with funcs := s.host.funcs.put n v } }
def State.obj (s : State) (o : Nat) : Obj := s.tiers.objs.get {} o
def State.setObj (s : State) (o : Nat) (v : Obj) : State := { s with tiers := { s.tiers with objs := s.tiers.objs.put o v } }
def State.shelf (s : State) (i : Nat) : Shelf := s.tiers.shelves.get {} i
def State.setShelf (s : State) (i : Nat) (v : Shelf) : State :=
  { s with tiers := { s.tiers with shelves := s.tiers.shelves.put i v } }
def State.bronze (s : State) (u : Nat) : BrzUnit := s.brz.get {} u
def State.setBronze (s : State) (u : Nat) (v : BrzUnit) : State := { s with brz := s.brz.put u v }
def State.bar (s : State) (b : Nat) : Barrier := s.bars.get {} b
def State.setBar (s : State) (b : Nat) (v : Barrier) : State := { s with bars := s.bars.put b v }

/-! ### Presence (R4) -/

/-- Whether firmware has published the size table since the last reset (R18, R19). -/
def State.published (s : State) : Bool := s.reg Reg.SBD_SIZE_SEQ != 0

/-- Cluster c is present. DEDUCED: before the table is first published nothing is marked absent (log 4). -/
def State.clusterPresent (s : State) (c : Nat) : Bool := decide (c < 24) && (!s.published || s.flag Reg.SBD_SIZE_CLUSTERS c)
/-- Region r and its stack are present. -/
def State.regionPresent (s : State) (r : Nat) : Bool := decide (r < 12) && (!s.published || s.flag Reg.SBD_SIZE_REGIONS r)
/-- Stack t is present: some of its pseudo-channels are (R290). -/
def State.stackPresent (s : State) (t : Nat) : Bool := decide (t < 12) && s.reg (Reg.HBM_PC_PRESENT t) != 0
/-- Bronze unit b is present. -/
def State.bronzePresent (s : State) (b : Nat) : Bool :=
  decide (b < 48) && (!s.published || (s.reg64 Reg.SBD_SIZE_BRONZE).testBit b)
/-- NAND channel n is present. -/
def State.nandPresent (s : State) (n : Nat) : Bool := decide (n < 32) && (!s.published || s.flag Reg.SBD_SIZE_NAND n)
/-- Port p is present. -/
def State.portPresent (s : State) (p : Nat) : Bool := decide (p < 8) && (!s.published || s.flag Reg.SBD_SIZE_PORTS p)

/-- R19: publishes new values in the size table. The counter, which the host sees odd meanwhile, moves to the next even value,
never to 0. -/
def State.publishTable (s : State) (ws : List (Nat × Nat)) : State :=
  let n := (s.reg Reg.SBD_SIZE_SEQ + 2) % 2 ^ 32
  (ws.foldl (fun s w => s.setReg w.1 w.2) s).setReg Reg.SBD_SIZE_SEQ (if n = 0 then 2 else n)

/-! ### Time -/

/-- SEC of Invar time (R318). -/
def State.sec (s : State) : Nat := s.time / (2 ^ 32 * 1000000000)
/-- NS of Invar time. -/
def State.ns (s : State) : Nat := s.time / 2 ^ 32 % 1000000000
/-- The 64-bit ns form of a time in units of 2^-32 ns (R319). -/
def ns64 (t : Nat) : Nat := (t / 2 ^ 32 + 2 ^ 64 * 315964819 - 315964819 * 1000000000) % 2 ^ 64
/-- Invar time in the 64-bit ns form (R319). -/
def State.now (s : State) : Nat := ns64 s.time
/-- The stored form of a time: NS, SEC[31:0], SEC[47:32] with FRAC (R318). -/
def storedForm (t : Nat) : List Nat :=
  [t / 2 ^ 32 % 1000000000, t / (2 ^ 32 * 1000000000) % 2 ^ 32,
   t / (2 ^ 32 * 1000000000) / 2 ^ 32 % 2 ^ 16 + 2 ^ 16 * (t % 2 ^ 32 / 2 ^ 16)]
/-- R321: instant T is reached when (N − T) mod 2^64 is below 2^63. -/
def reached (n t : Nat) : Bool := decide ((n + 2 ^ 64 - t % 2 ^ 64) % 2 ^ 64 < 2 ^ 63)
/-- Microseconds since a tick of the model's own I-clock count, holding at 2^32 − 1. -/
def State.usSince (s : State) (t0 : Nat) : Nat := min (2 ^ 32 - 1) ((s.clk - t0) / 1000)

/-! ### Queue numbers -/

/-- The pool queue of a function's local index; the physical function names pool numbers (R391, R401). -/
def State.poolQueue (s : State) (fn i : Nat) : Option Nat :=
  if fn = 0 then some i else if i < (s.func fn).qcount then some ((s.func fn).qbase + i) else none

/-! ### Events and records -/

/-- The bytes of a record of 32-bit words. -/
def words (ws : List Nat) : List Byte := ws.flatMap (toLE 4)

/-- R398: a function's first event queue, its enabled event queue with the lowest pool number other than `but`. -/
def State.firstEvq (s : State) (fn : Nat) (but : Option Nat) : Option Nat :=
  (s.host.queues.find? fun (q, v) => v.en && v.typ == 2 && v.fn == fn && some q != but).map (·.1)

/-- Hands a record to the queue interface with its origin generation (R410). -/
def State.sendRec (s : State) (q fn gen : Nat) (u : RecFor) (bs : List Byte) : State :=
  { s with host := { s.host with outbox := s.host.outbox ++ [⟨q, fn, gen, u, bs⟩] } }

/-- An event record of R193. Its TIME is filled in when firmware posts it (R325). -/
def eventWords (gen kind ctx e4 e5 e6 e7 : Nat) : List Nat :=
  [kind + 2 ^ 16 * (gen % 2 ^ 16), ctx, 0, 0, e4, e5, e6, e7]

/-- Posts an event to queue `q`; where there is none it is dropped and counted (R194, R398). -/
def State.eventTo (s : State) (q : Option Nat) (fn kind ctx e4 e5 e6 e7 : Nat) : State :=
  match q with
  | some q => s.sendRec q fn (s.func fn).gen .event (words (eventWords (s.func fn).gen kind ctx e4 e5 e6 e7))
  | none => s.bump Reg.CAB_EVENT_DROP 1

/-- Posts an event that concerns a context to the event queue given at its creation (R193). -/
def State.ctxEvent (s : State) (x kind e4 e5 e6 e7 : Nat) : State :=
  s.eventTo (some (s.ctx x).evq) (s.ctx x).fn kind x e4 e5 e6 e7

/-- Posts an event to a function's event queue. -/
def State.fnEvent (s : State) (fn kind ctx e4 e5 e6 e7 : Nat) : State :=
  s.eventTo (s.firstEvq fn none) fn kind ctx e4 e5 e6 e7

/-- Posts an event of no single context to the physical function's event queue (R193). -/
def State.pfEvent (s : State) (kind e4 e5 e6 e7 : Nat) : State := s.fnEvent 0 kind 0xFFF e4 e5 e6 e7

/-- Publishes the size table and posts SIZE_CHANGED (R19, R475). -/
def State.publish (s : State) (ws : List (Nat × Nat)) : State :=
  let s := s.publishTable ws
  s.pfEvent 0x011E (s.reg Reg.SBD_SIZE_SEQ) 0 0 0

/-- A record of an older generation is discarded and counted (R410). -/
def State.staleDrop (s : State) (fn : Nat) : State := s.bump (if fn = 0 then Reg.PCI_STALE_DROP else Reg.VF_STALE_DROP fn) 1

/-! ### Memories -/

/-- One byte; an address that is not listed reads as zero. -/
def Mem.byte (m : Mem) (a : Nat) : Byte := Tab.get 0 m a
/-- `n` bytes from `a`. -/
def Mem.read (m : Mem) (a : Nat) : Nat → List Byte
  | 0 => []
  | n + 1 => Mem.byte m a :: Mem.read m (a + 1) n
/-- Writes bytes from `a`, keeping the canonical form. -/
def Mem.write (m : Mem) (a : Nat) : List Byte → Mem
  | [] => m
  | b :: bs => Mem.write (Tab.set 0 m a b) (a + 1) bs
/-- The canonical form: addresses strictly rising, no entry equal to what an unlisted address reads as. -/
def Mem.wf (m : Mem) : Bool := Tab.wf 0 m

/-! ### Reservations of LR (R134) -/

/-- The 64-byte granules that `n` bytes from `a` touch. -/
def granulesOf (a n : Nat) : List Nat := if n = 0 then [] else (List.range ((a + n - 1) / 64 - a / 64 + 1)).map (· + a / 64)

/-- A thread without its reservation when it lies in one of the granules. -/
def TinThread.lose (gs : List Nat) (t : TinThread) : TinThread :=
  match t.resv with
  | some g => if gs.contains g then { t with resv := none } else t
  | none => t

/-- Ends the reservations on granules that a store writes. Scratchpad granules are numbered from 2^50. -/
def State.loseResv (s : State) (gs : List Nat) : State :=
  { s with tin := s.tin.map fun (m, c) => (m, { c with threads := c.threads.map fun (i, t) => (i, t.lose gs) }) }

/-! ### The scratchpad and shares (R200) -/

/-- Bytes of a share granule. -/
def shareGran : Nat := 2 ^ 18
/-- The key of physical byte `p` of cluster c's scratchpad. -/
def spadKey (c p : Nat) : Nat := c * 2 ^ 25 + p

/-- The residency slot of a context on a cluster. -/
def State.resSlot (s : State) (c x : Nat) : Option (Nat × ResSlot) :=
  (s.cluster c).slots.find? fun (_, r) => r.st != .absent && r.st != .pending && r.st != .orphaned && r.ctx == x

/-- The bytes of a share. -/
def ResSlot.size (r : ResSlot) : Nat := r.grans.length * shareGran

/-- The scratchpad key of share offset `o` (R200: the granule map). -/
def ResSlot.key (r : ResSlot) (c o : Nat) : Nat := spadKey c (nth 0 r.grans (o / shareGran) * shareGran + o % shareGran)

/-- Reads `n` bytes of a share from offset `o`. -/
def State.slotRead (s : State) (c : Nat) (r : ResSlot) (o n : Nat) : List Byte :=
  (List.range n).map fun i => Mem.byte s.spad (r.key c (o + i))

/-- Writes bytes of a share from offset `o`. -/
def State.slotWrite (s : State) (c : Nat) (r : ResSlot) (o : Nat) : List Byte → State
  | [] => s
  | b :: bs =>
    State.slotWrite { s with spad := Tab.set 0 s.spad (r.key c o) b } c r (o + 1) bs

/-- The share size of a context on a cluster, 0 where it is not resident. -/
def State.shareSize (s : State) (c x : Nat) : Nat :=
  match s.resSlot c x with
  | some (_, r) => r.size
  | none => 0

/-- Reads a context's share; `none` where a byte lies beyond it (R200: ADDR). -/
def State.shareRead (s : State) (c x o n : Nat) : Option (List Byte) :=
  match s.resSlot c x with
  | some (_, r) => if o + n ≤ r.size then some (s.slotRead c r o n) else none
  | none => none

/-- Writes a context's share, ending reservations on the granules written; `none` where a byte lies beyond the share. -/
def State.shareWrite (s : State) (c x o : Nat) (bs : List Byte) : Option State :=
  match s.resSlot c x with
  | some (_, r) =>
    if o + bs.length ≤ r.size then
      some ((s.slotWrite c r o bs).loseResv ((granulesOf o bs.length).map fun g => 2 ^ 50 + r.key c (g * 64) / 64))
    else none
  | none => none

/-! ### Objects of the tier range (R253 to R265) -/

/-- Shelves of an object. -/
def Obj.shelves (o : Obj) : Nat := ceilDiv o.size (2 ^ 21)
/-- The object covers bytes a to a + n − 1. -/
def Obj.covers (o : Obj) (a n : Nat) : Bool :=
  o.st != .none && decide (o.base ≤ a) && decide (a + n ≤ o.base + o.shelves * 2 ^ 21)
/-- The object that covers `n` bytes from a tier-range address (R256). -/
def State.objAt (s : State) (a n : Nat) : Option (Nat × Obj) := s.tiers.objs.find? fun (_, o) => o.covers a n

/-- The stack that holds a byte of an object (R263). -/
def Obj.stackOf (o : Obj) (a : Nat) : Nat :=
  if o.spread then
    nth 0 o.stackNos (((a - o.base) / 2 ^ 21 + (a - o.base) % 2 ^ 21 / 4096) % max 1 o.stackNos.length)
  else o.stack

/-- The blocks of `size` bytes that the n bytes from a touch, at least one. -/
def blocksOf (size a n : Nat) : List Nat := (List.range ((a + n - 1) / size - a / size + 1)).map (· + a / size)

/-- R259: what a context's access to the tier range may do. Objects cover whole shelves (R256), so each shelf that the access touches
is looked at. -/
def State.tierRight (s : State) (x cls a n : Nat) (write : Bool) : Bool :=
  (blocksOf (2 ^ 21) a n).all fun sh =>
    match s.objAt (sh * 2 ^ 21) 1 with
    | some (_, o) =>
      o.st == .ready && o.fn == (s.ctx x).fn &&
        (if write then o.policy == .pinned else o.policy == .pinned || decide (2 ≤ cls))
    | none => false

/-- The object at `a` is a PINNED, READY object of the function that covers `n` bytes. -/
def State.pinnedRange (s : State) (fn a n : Nat) : Bool :=
  match s.objAt a n with
  | some (_, o) => o.st == .ready && o.policy == .pinned && o.fn == fn
  | none => false

/-- Whether the byte at `b` can be read now (R262): PINNED data always, a CACHED shelf when it is mapped or the codeword is in
HBM, a STREAM page when it is staged. -/
def State.byteReady (s : State) (b : Nat) : Bool :=
  match s.objAt b 1 with
  | some (_, o) =>
    match o.policy with
    | .pinned => true
    | .cached =>
      let sh := s.shelf (b / 2 ^ 21)
      match sh.st with
      | .present => true
      | .evicting => true
      | .filling => sh.words.contains (b % 2 ^ 21 / 4096)
      | _ => false
    | .stream => s.tiers.staged.any (fun p => p.page == b / 2 ^ 14 && p.ready) && (s.shelf (b / 2 ^ 21)).st != .poisoned
  | none => false

/-- Whether the n bytes at `a` can be read now: every codeword that they touch can be. -/
def State.dataReady (s : State) (a n : Nat) : Bool := (blocksOf 4096 a n).all fun k => s.byteReady (k * 4096)

/-! ### Worlds (R447 to R450) -/

/-- Region filters that forbid a non-secure access to bytes a to a + n − 1. -/
def State.filtersOn (s : State) (a n : Nat) (write : Bool) : List Nat :=
  (List.range 64).filter fun f =>
    s.flag (Reg.SEC_RF_CFG f) 0 && s.flag (Reg.SEC_RF_CFG f) 1 &&
    decide (s.reg64 (Reg.SEC_RF_BASE f) < a + n) && decide (a ≤ s.reg64 (Reg.SEC_RF_LIMIT f)) &&
    (write || !s.flag (Reg.SEC_RF_CFG f) 2)

/-- R449: counts a violation. `who` is the requester code of SEC_VIOL_LAST, `addr` the device address. -/
def State.violation (s : State) (who fn ctx : Nat) (write : Bool) (addr : Nat) (fs : List Nat) : State :=
  let s := fs.foldl (fun s f => s.bump (Reg.SEC_RF_VIOL f) 1) (s.bump Reg.SEC_VIOL_TOTAL 1)
  (s.setReg Reg.SEC_VIOL_LAST (who + 8 * fn + 2 ^ 13 * ctx + 2 ^ 25 * b2n write)).setReg64 Reg.SEC_VIOL_ADDR addr

/-! ### Poison (R286) -/

/-- The first poisoned 64-byte line among bytes a to a + n − 1 of the tier range. -/
def State.poisonIn (s : State) (a n : Nat) : Option Nat := (granulesOf a n).find? fun l => (s.tiers.poison.look l).isSome

/-- A read of a poisoned line: counted, and POISON_LINE is posted for the first such read of the line. -/
def State.poisonRead (s : State) (l : Nat) : State :=
  let a := l * 64
  match s.objAt a 64 with
  | some (k, o) =>
    let s := s.bump (Reg.HBM_POISON_READS (o.stackOf a)) 1
    if s.tiers.poison.get false l then s
    else
      ({ s with tiers := { s.tiers with poison := s.tiers.poison.put l true } }).fnEvent o.fn 0x010F 0xFFF k o.ogen
        (a % 2 ^ 32) (a / 2 ^ 32)
  | none => s

/-- The stack named by CAUSE of a POISON completion (R287). -/
def State.poisonCause (s : State) (l : Nat) : Nat :=
  match s.objAt (l * 64) 64 with
  | some (_, o) => o.stackOf (l * 64)
  | none => 0xFF

/-- Lines that a write of n bytes from a covers whole become clean. -/
def State.cleanLines (s : State) (a n : Nat) : State :=
  { s with tiers := { s.tiers with poison := s.tiers.poison.filter fun (l, _) => !(decide (a ≤ l * 64) && decide (l * 64 + 64 ≤ a + n)) } }

/-- Writes bytes of the tier range: contents, clean lines, reservations. -/
def State.tierWrite (s : State) (a : Nat) (bs : List Byte) : State :=
  let s := s.cleanLines a bs.length
  ({ s with tier := Mem.write s.tier a bs }).loseResv (granulesOf a bs.length)

/-- Reads bytes of the tier range. -/
def State.tierRead (s : State) (a n : Nat) : List Byte := Mem.read s.tier a n

/-! ### Host memory and device addresses -/

/-- Writes host memory through the function that owns the requester (R389). -/
def State.hostWrite (s : State) (fn off : Nat) (bs : List Byte) : State :=
  { s with hostOut := Mem.write s.hostOut (fn * 2 ^ 48 + off % 2 ^ 48) bs }

/-- The space of a device address (R253): 0 to 255, or 256 for Solder. -/
def spaceOf (a : Nat) : Nat := if a.testBit 56 then 256 else bits a 55 48
/-- The offset of a device address in its space. -/
def offOf (a : Nat) : Nat := a % 2 ^ 48

/-- Writes at a device address in space 0x01 or in the tier range, as rings, write-backs and buffers are written. -/
def State.devWrite (s : State) (fn a : Nat) (bs : List Byte) : State :=
  if spaceOf a == 1 then s.hostWrite fn (offOf a) bs else s.tierWrite (offOf a) bs

/-- Whether n bytes at a device address lie in space 0x01 or in a PINNED object of the function (R393, R403). -/
def State.hostOrPinned (s : State) (fn a n : Nat) : Bool :=
  if spaceOf a == 1 then decide (offOf a + n ≤ 2 ^ 48) else spaceOf a == 0 && s.pinnedRange fn (offOf a) n

/-! ### Digest marks (R233 to R235) -/

/-- Inserts a range and merges it with those it overlaps or adjoins. -/
def addRange (lo n : Nat) : List (Nat × Nat) → List (Nat × Nat)
  | [] => [(lo, n)]
  | (a, m) :: t =>
    if a + m < lo then (a, m) :: addRange lo n t
    else if lo + n < a then (lo, n) :: (a, m) :: t
    else addRange (min lo a) (max (lo + n) (a + m) - min lo a) t

/-- Marks bytes by key for the digest of a task, if its DIGEST bit is set; a late mark is counted. -/
def State.mark (s : State) (t : TaskId) (key n : Nat) : State :=
  if !t.digest || n == 0 then s
  else
    let i := t.handle % 2 ^ 17
    let m := s.marks.get {} i
    let task := (s.slot i).task
    if m.taken || (task.map (·.desc.handle)) != some t.handle then s.bump Reg.CAB_STL_LATE_MARK 1
    else
      let r := addRange key n m.ranges
      { s with marks := s.marks.put i { m with ranges := r, overflow := decide (4096 < r.length) } }

/-- Key of a share byte (R234). -/
def shareMark (o : Nat) : Nat := 2 ^ 63 + o

/-! ### Ends of engine work -/

/-- Reports an end to Cabinet. -/
def State.pushDone (s : State) (d : Done) : State := { s with done := s.done ++ [d] }

/-- The engine has met its completion rule for a unit of work. Work that a thread pushed reports to no one (R110, R150): a
status other than OK is kept with the pushing thread's task, the first such status counting. -/
def State.finish (s : State) (t : TaskId) (status cause place : Nat) : State :=
  if t.thread then
    if status = 0 then s
    else
      { s with tin := s.tin.map fun (m, c) => (m, { c with threads := c.threads.map fun (i, th) => (i,
          if th.task.map (·.handle) == some t.handle && th.task.map (·.ctx) == some t.ctx && th.pushStat == none
          then { th with pushStat := some (status, cause) } else th) }) }
  else s.pushDone ⟨t, status, cause, place⟩

/-! ### Clocks and power of a cluster -/

/-- The cluster runs: it is not gated (R26), nor held by RST_BLOCK (R445). -/
def State.clusterOn (s : State) (c : Nat) : Bool := s.clusterPresent c && (s.cluster c).power == .on && !s.flag Reg.RST_BLK_CLUSTER c

/-- R23: engines of the region stop at their next boundary and start nothing new until the switch. -/
def State.holding (s : State) (c : Nat) : Bool := (s.region (c / 2)).retuned

/-! ### Faults that fence a unit (R462, R464) -/

/-- A fault of a unit calls for an automatic fence: KIND, NUMBER and REASON. With AUTO_FENCE clear, clusters and pseudo-channels are not
fenced. -/
def State.needFence (s : State) (kind n reason : Nat) : State :=
  if (kind == 0 || kind == 3) && !s.flag Reg.SBD_SVC_CTRL 0 then s
  else { s with boot := { s.boot with fences := s.boot.fences ++ [(kind, n, reason)] } }

/-! ### Resets of virtual functions (R409 to R412) -/

/-- Orphaned residency slots of a function that is being reset or removed are released without saving (R411). -/
def State.vfRelease (s : State) (n : Nat) : State :=
  let free (r : ResSlot) : ResSlot := if r.st == .orphaned && r.fn == n then { r with st := .releasing, orphan := true, saving := false } else r
  let one (c : Cluster) : Cluster := { c with slots := c.slots.map fun e => (e.1, free e.2) }
  { s with cl := s.cl.map fun e => (e.1, one e.2) }

/-- Work of a reset or removal is left: contexts, residencies or objects being destroyed. -/
def State.vfBusy (s : State) (n : Nat) : Bool :=
  s.ctxs.any (fun (_, c) => c.valid && c.fn == n) ||
    s.cl.any (fun (_, c) => c.slots.any fun (_, r) => r.st != .absent && r.st != .pending && r.fn == n) ||
    s.tiers.objs.any (fun (_, o) => o.st == .destroying && o.fn == n)

/-- A reset or removal of function n ends once nothing of it is left: ACTIVE again, or ABSENT with its grants returned and its
generation kept (R411, R412). -/
def State.vfEnd (s : State) (n : Nat) : State :=
  let f := s.func n
  let s := s.vfRelease n
  if s.vfBusy n then s
  else if f.st == .removing then s.setFunc n { gen := f.gen } else s.setFunc n { f with st := .active }

/-- Ends every reset and removal that can end. -/
def State.vfSettle (s : State) : State :=
  s.host.funcs.foldl (fun s (n, f) => if f.st == .resetting || f.st == .removing then s.vfEnd n else s) s

end Sys2Proof.Machine
end

