-- ==== Sys2Proof/Machine/Measure.lean ====
section
/-! DEFINITION. Bundles and configuration (R437, R442, R443) and the measurement log (R457, R458). -/

namespace Sys2Proof.Machine

/-! ### Bundles -/

/-- Byte range [a, a + n) of a list. -/
def slice (bs : List Byte) (a n : Nat) : List Byte := (bs.drop a).take n

/-- The 32-bit little-endian word at a byte offset. -/
def leAt (bs : List Byte) (a : Nat) : Nat := fromLE (slice bs a 4)

/-- A section entry (R437): TYPE, OFFSET, LENGTH. -/
def bundleEntry (bs : List Byte) (i : Nat) : Nat × Nat × Nat := (leAt bs (64 + 16 * i), leAt bs (68 + 16 * i), leAt bs (72 + 16 * i))

/-- The section entries. -/
def bundleEntries (bs : List Byte) : List (Nat × Nat × Nat) := (List.range (nth 0 bs 2).toNat).map (bundleEntry bs)

/-- The bytes of the sections of a type, in entry order. -/
def bundleSections (bs : List Byte) (t : Nat) : List (List Byte) :=
  ((bundleEntries bs).filter (·.1 == t)).map fun e => slice bs e.2.1 e.2.2

/-- The one section of a type. -/
def Bundle.section_ (b : Bundle) (t : Nat) : List Byte := (bundleSections b.bytes t).headD []
/-- The firmware version and the root key index of a bundle. -/
def Bundle.version (b : Bundle) : Nat := leAt b.bytes 4
def Bundle.key (b : Bundle) : Nat := (nth 0 b.bytes 1).toNat

/-- The items of a base configuration section (R442). -/
def itemsOf (bs : List Byte) : List (Nat × Nat) := (List.range (bs.length / 8)).map fun i => (leAt bs (8 * i), leAt bs (8 * i + 4))

/-- The bytes of items in ascending ITEM order (R457, index 5). -/
def itemBytes (is : List (Nat × Nat)) : List Byte := is.flatMap fun e => toLE 4 e.1 ++ toLE 4 e.2

/-- The measurement of a resulting configuration. -/
def Bundle.config (b : Bundle) : List Byte := shake256 (itemBytes b.items) 64

/-- The VALUE of an item in the configuration in force. -/
def State.item (s : State) (k : Nat) : Option Nat := s.boot.bundle.bind fun b => Tab.look b.items k

/-! ### The measurement log -/

/-- The 72 bytes of an entry (R458). -/
def LogEntry.bytes (e : LogEntry) : List Byte := toLE 1 e.index ++ toLE 1 e.cause ++ [0, 0] ++ toLE 4 e.data ++ e.digest

/-- Appends an entry: it extends the chain, and is stored while fewer than 256 are. -/
def State.measure (s : State) (index cause data : Nat) (digest : List Byte) : State :=
  let e : LogEntry := ⟨index, cause, data, digest⟩
  let s : State := { s with boot := { s.boot with chain := shake256 (s.boot.chain ++ e.bytes) 64 } }
  if 256 ≤ s.boot.log.length then s.setField Reg.SEC_STATUS 3 3 1
  else ({ s with boot := { s.boot with log := s.boot.log ++ [e] } }).setReg Reg.SEC_LOG_COUNT (s.boot.log.length + 1)

/-- The current value of an index: the digest of its latest entry. -/
def State.measured (s : State) (index : Nat) : List Byte :=
  match s.boot.log.reverse.find? fun e => e.index == index with
  | some e => e.digest
  | none => List.replicate 64 0

/-- The entries of a bundle that starts: 7, 2, 3, 4, 6 and 5. -/
def State.measureBundle (s : State) (cause : Nat) (b : Bundle) : State :=
  let dig (bs : List Byte) : List Byte := shake256 bs 64
  let s := s.measure 7 cause b.version (dig (b.bytes.take 64))
  let s := s.measure 2 cause 0 (dig (b.section_ 1))
  let s := s.measure 3 cause 0 (dig (b.section_ 2))
  let s := s.measure 4 cause 0 (dig (b.section_ 3))
  let s := s.measure 6 cause 0 (dig (b.section_ 5))
  s.measure 5 cause (fromLE ((b.overlays ++ List.replicate 4 0xFF).take 4 |>.map (BitVec.ofNat 8))) b.config

end Sys2Proof.Machine
end

