-- ==== Sys2Proof/Machine/Mailbox.lean ====
section
/-! DEFINITION. Mailboxes and their commands (R406, R414 to R421), and the interrupt vectors (R400). Every mailbox command of the
table runs through State.command: firmware takes it from the mailbox or the mailbox queue entry that holds it. -/

namespace Sys2Proof.Machine

/-! ### Vectors -/

/-- Vectors of a function's table (R400). -/
def State.vectorCount (s : State) (fn : Nat) : Nat := if fn = 0 then 2048 else (s.func fn).vectors

/-- A vector fires: its message is sent, or it stays pending while its table entry masks it. PRESUMED from PCIe (log 54): an entry that
was never written is masked. -/
def State.fire (s : State) (fn v : Nat) : State :=
  if s.vectorCount fn ≤ v then s
  else
    let key := fn * 2 ^ 11 + v
    if (s.host.msix.get 1 (fn * 2 ^ 13 + 4 * v + 3)).toNat.testBit 0 then
      if s.host.pba.contains key then s else { s with host := { s.host with pba := s.host.pba ++ [key] } }
    else { s with host := { s.host with fired := s.host.fired.put key (s.host.fired.get 0 key + 1) } }

/-! ### Boxes -/

/-- The key of an issuer's box: mailbox 4 fn + m, or a mailbox queue. -/
def issuerKey : Issuer → Nat
  | .mbox fn m => 4 * fn + m
  | .queue q => 2 ^ 20 + q
  | .firmware => 2 ^ 21

def State.box (s : State) (i : Issuer) : Mbox := s.host.mboxes.get {} (issuerKey i)
def State.setBox (s : State) (i : Issuer) (b : Mbox) : State := { s with host := { s.host with mboxes := s.host.mboxes.put (issuerKey i) b } }

/-- The function an issuer speaks for. -/
def State.issuerFn (s : State) : Issuer → Nat
  | .mbox fn _ => fn
  | .queue q => match s.host.mbxq with
    | some e => e.fn
    | none => (s.queue q).fn
  | .firmware => 0

/-- A mailbox exists: 0 to 3 of the physical function, 0 of a virtual one (R414). -/
def State.mboxExists (s : State) : Issuer → Bool
  | .mbox fn m => if fn = 0 then decide (m < 4) else decide (m = 0) && decide (fn < 1024) && (s.func fn).st == .active
  | .queue q => match s.host.mbxq with
    | some e => e.queue == q
    | none => false
  | .firmware => false

/-! ### Statuses (R419) -/

def stOk : Nat := 0
def stVersion : Nat := 1
def stCommand : Nat := 2
def stLength : Nat := 3
def stSeq : Nat := 4
def stPermission : Nat := 5
def stArgument : Nat := 6
def stResource : Nat := 7
def stBusy : Nat := 8
def stStale : Nat := 9
def stAuth : Nat := 10
def stRetry : Nat := 11
def stNotReady : Nat := 12

/-! ### The command list (R420) -/

/-- Who may issue a command. -/
inductive CmdBy where
  | any | pf | pf0 | pfSecure
  deriving DecidableEq, Repr

/-- The commands of R420: code, issuer and the version 1 mark. -/
def cmdInfo (code : Nat) : Option (CmdBy × Bool) :=
  match code with
  | 0x0001 | 0x0002 | 0x0101 | 0x0102 => some (.any, true)
  | 0x0103 => some (.any, false)
  | 0x0110 | 0x0111 | 0x0112 => some (.pf, false)
  | 0x0201 | 0x0202 | 0x0203 => some (.any, true)
  | 0x0204 | 0x0205 | 0x0206 | 0x0207 | 0x0208 | 0x0209 | 0x020A => some (.any, false)
  | 0x0210 | 0x0211 => some (.pf, true)
  | 0x0301 | 0x0302 | 0x0303 | 0x0304 | 0x0305 | 0x0310 | 0x0311 | 0x0312 => some (.any, false)
  | 0x0313 => some (.pf, false)
  | 0x0401 | 0x0402 => some (.pf, true)
  | 0x0410 => some (.any, true)
  | 0x0411 | 0x0412 => some (.any, false)
  | 0x0501 | 0x0502 | 0x0503 | 0x0504 => some (.pf, false)
  | 0x0505 | 0x0506 => some (.any, false)
  | 0x0507 | 0x0508 => some (.pf, false)
  | 0x0601 | 0x0602 | 0x0603 => some (.pf0, true)
  | 0x0610 => some (.pf, true)
  | 0x0611 => some (.pf, false)
  | 0x0701 => some (.any, false)
  | 0x0702 => some (.pfSecure, false)
  | 0x0801 | 0x0802 | 0x0803 | 0x0804 | 0x0805 => some (.pf, false)
  | _ => none

/-- The body length of the commands whose body the spec lays out. -/
def cmdLength (code : Nat) : Option Nat :=
  match code with
  | 0x0001 => some 0
  | 0x0601 => some 16
  | 0x0702 => some 24
  | 0x0701 => some 68
  | 0x0801 | 0x0802 | 0x0803 | 0x0804 => some 8
  | 0x0805 => some 4
  | _ => none

/-- R416: the length fits the command; where the spec gives no body layout the answer is a free value. -/
def lengthFits (code n : Nat) : Bool :=
  decide (n ≤ 4080) && match cmdLength code with
    | some m => n == m
    | none => if code = 0x0602 then decide (32 ≤ n) else Config.lengthOk code n

/-- R420: the issuer may give the command. -/
def allowedBy (b : CmdBy) (fn : Nat) (i : Issuer) : Bool :=
  match b with
  | .any => true
  | .pf => fn == 0
  | .pf0 => i == .mbox 0 0
  | .pfSecure => i == .mbox 0 0

/-- The commands that the mask ROM accepts (R436). -/
def romCommand (code : Nat) : Bool := [0x0001, 0x0002, 0x0601, 0x0602, 0x0603, 0x0610].contains code

/-! ### Taking and answering -/

/-- The ROM serves mailbox 0 of the physical function. -/
def State.romServes (s : State) (i : Issuer) : Bool := (s.boot.phase == .rom || s.boot.phase == .awaiting) && i == .mbox 0 0

/-- Something serves the issuer's mailbox now (R418, R436, R471). -/
def State.served (s : State) (i : Issuer) : Bool := s.boot.phase == .running || s.romServes i

/-- R421: under version 1 the codes above 0x08 become BUSY with the code in DETAIL. -/
def v1Status (version status detail : Nat) : Nat × Nat :=
  if version = 1 ∧ stBusy < status then (stBusy, status) else (status, detail)

/-- Raises an updated status: the mailbox's vector fires when its interrupt is enabled (R414). -/
def State.raiseBox (s : State) (i : Issuer) : State :=
  match i with
  | .mbox fn m =>
    let irq := if fn = 0 then s.reg (Reg.SBD_MBX_IRQ m) else (s.box i).irq.toNat
    if bit irq 11 then s.fire fn (bits irq 10 0) else s
  | _ => s

/-- The record of a mailbox queue entry (R406). -/
def mbxqRecord (command status gen cookie : Nat) : List Byte :=
  words [command + 2 ^ 16 * status, gen, cookie % 2 ^ 32, cookie / 2 ^ 32, 0, 0, 0, 0]

/-- Bytes of a reply body. The report of ATT_REPORT ends two bytes before its last word does (R460). -/
def bodyBytes (code : Nat) (body : List Nat) : Nat := 4 * body.length - (if code = 0x0701 then min 2 body.length else 0)

/-- The words of a reply as it stands in the buffer (R415): COMMAND and SEQ are kept. -/
def replyWords (b : Mbox) (gen st dt : Nat) (body : List Nat) : List Nat :=
  [b.version + 2 ^ 16 * b.command, b.seq + 2 ^ 16 * bodyBytes b.command body, if b.version = 1 then 0 else gen, st + 2 ^ 16 * (dt % 2 ^ 16)] ++ body

/-- The mailbox queue entry in progress is over. -/
def State.freeBox (s : State) (i : Issuer) : State :=
  match i with
  | .queue _ => { s with host := { s.host with mbxq := none } }
  | _ => s

/-- Writes the reply, then the status, which clears BUSY (R416); a mailbox queue entry posts its record (R406). A command whose
function was reset meanwhile gives no reply (R411). -/
def State.answer (s : State) (i : Issuer) (status detail : Nat) (body : List Nat) : State :=
  let b := s.box i
  let (st, dt) := v1Status b.version status detail
  if b.mute then (s.setBox i { irq := b.irq }).freeBox i
  else
    let s := s.setBox i { b with busy := false, status := st, last := b.seq, detail := dt, reply := body }
    match i with
    | .queue _ =>
      match s.host.mbxq with
      | some e =>
        let gen := (s.func e.fn).gen
        let s := if s.hostOrPinned e.fn e.buf 4096 then s.devWrite e.fn e.buf (words (replyWords b gen st dt body)) else s
        ({ s with host := { s.host with mbxq := none } }).sendRec e.pair e.fn e.gen (.source e.queue) (mbxqRecord b.command st gen e.cookie)
      | none => s
    | _ => s.raiseBox i

/-- A refusal: DETAIL names the body offset of the argument refused, which the spec's body layouts would fix. -/
def State.refuse (s : State) (i : Issuer) (status : Nat) : State :=
  let code := (s.box i).command
  s.answer i status (if status = stArgument then Config.detail code status else 0) []

/-- R416: the checks of a taken command, in order; 0 where none fails. -/
def State.takenStatus (s : State) (i : Issuer) (h : MbxHeader) : Nat :=
  let version := bits h.h0.toNat 7 0
  let code := bits h.h0.toNat 31 16
  let len := bits h.h1.toNat 31 16
  let fn := s.issuerFn i
  if version ≠ 1 ∧ version ≠ 2 then stVersion
  else if version = 2 ∧ bits h.h2.toNat 15 0 ≠ (s.func fn).gen then stStale
  else if s.romServes i && !romCommand code then stNotReady
  else
    match cmdInfo code with
    | none => stCommand
    | some (b, v1) =>
      if version = 1 ∧ v1 = false then stCommand
      else if !lengthFits code len then stLength
      else if !allowedBy b fn i then stPermission
      else stOk

/-- Takes a command into a box: BUSY until its own row of the table has run, or answered at once where a check fails.
It waits in the box while nothing serves the mailbox (R418, R471). -/
def State.takeCommand (s : State) (i : Issuer) (h : MbxHeader) (seq : Nat) : State :=
  let b := s.box i
  if s.served i then
    let s := s.setBox i
      { b with busy := true, version := bits h.h0.toNat 7 0, command := bits h.h0.toNat 31 16, seq := seq, header := none }
    let s := s.bump (Reg.VF_MBX_CMDS (s.issuerFn i)) 1
    let st := s.takenStatus i h
    if st = stOk then s else s.answer i st 0 []
  else s.setBox i { b with busy := true, command := 0, seq := seq, header := some h }

/-- Firmware takes the commands that waited for it (R417: in the order of the boxes). -/
def State.takeWaiting (s : State) : State :=
  s.host.mboxes.foldl (fun s (k, b) =>
    match b.header with
    | some h => s.takeCommand (if k < 2 ^ 20 then .mbox (k / 4) (k % 4) else .queue (k - 2 ^ 20)) h b.seq
    | none => s) s

/-- MBX_DOORBELL (R416): a write of SEQ to the doorbell of mailbox m of a function, with the header that its buffer holds. -/
def execMbxDoorbell (fn m seq : Nat) (h : MbxHeader) (s : State) : Host.Outcome State Fault Refusal :=
  .next (
    let i := Issuer.mbox fn m
    let seq := seq % 2 ^ 16
    let b := s.box i
    if !s.mboxExists i then s
    else if b.busy then s.bump (Reg.VF_MBX_IGNORED fn) 1
    else if seq = b.last then s.raiseBox i
    else if seq = (b.last + 1) % 2 ^ 16 ∧ bits h.h1.toNat 15 0 = seq then s.takeCommand i h seq
    else (s.setBox i { b with status := stSeq }).raiseBox i)

/-- The answer of a command: a status other than OK, or OK with the words of its reply body. -/
abbrev CmdRes := Except Nat (State × List Nat)

/-- Firmware carries out the command of an issuer, if its box holds command `code` and something serves it. `f` is given the
function and the protocol version. A command that is refused changes nothing but its box. -/
def State.command (s : State) (i : Issuer) (code : Nat) (f : Nat → Nat → CmdRes) : State :=
  let b := s.box i
  if b.busy && b.command == code && s.served i then
    match f (s.issuerFn i) b.version with
    | .error st => s.refuse i st
    | .ok (s', body) => s'.answer i stOk 0 body
  else s

/-- MBX_NOP (R420). -/
def execMbxNop (i : Issuer) (s : State) : Host.Outcome State Fault Refusal :=
  .next (s.command i 0x0001 fun _ _ => .ok (s, []))

end Sys2Proof.Machine
end

