-- ==== Sys2Proof/Machine/Dumbwaiter.lean ====
section
/-! DEFINITION. Granules of HBM, shelves of CACHED objects and the Dumbwaiter (R263 to R265, R269 to R275), staging of STREAM
objects (R276). -/

namespace Sys2Proof.Machine

/-! ### Granules (R263) -/

/-- Granules that one shelf of an object takes on each stack. -/
def Obj.cost (o : Obj) : List (Nat × Nat) :=
  if o.spread then o.stackNos.map fun t => (t, ceilDiv 512 (max 1 o.stackNos.length)) else [(o.stack, 512)]

/-- Granules that an object takes for `n` shelves, with the second copy of a MIRROR object (R264); one whose PARTNER is its home stack
has none (log 102). -/
def Obj.takes (o : Obj) (n : Nat) : List (Nat × Nat) :=
  (o.cost.map fun (t, g) => (t, g * n)) ++ (if o.mirror && o.partner != o.stack then [(o.partner, 512 * n)] else [])

/-- The stacks present. -/
def State.stackNos (s : State) : List Nat := (List.range 12).filter s.stackPresent

/-- Granules of the staging area on one stack. DESIGN CHOICE: the area is spread evenly over the stacks present (log 17). -/
def State.stageGrans (s : State) : Nat := ceilDiv (s.field Reg.BUR_STAGE_MIB 15 0 * 256) (max 1 s.stackNos.length)

/-- Free granules of a stack (R290, HBM_GRANULES_FREE). -/
def State.stackFree (s : State) (t : Nat) : Nat :=
  s.field (Reg.HBM_CAPACITY_GIB t) 6 0 * 2 ^ 18 - s.stageGrans - s.tiers.used.get 0 t

/-- Whether granules are free on their stacks. -/
def State.gransFit (s : State) (gs : List (Nat × Nat)) : Bool := gs.all fun (t, n) => decide (n ≤ s.stackFree t)

/-- Takes granules. -/
def State.takeGrans (s : State) (gs : List (Nat × Nat)) : State :=
  { s with tiers := { s.tiers with used := gs.foldl (fun u g => u.put g.1 (u.get 0 g.1 + g.2)) s.tiers.used } }

/-- Frees granules. -/
def State.dropGrans (s : State) (gs : List (Nat × Nat)) : State :=
  { s with tiers := { s.tiers with used := gs.foldl (fun u g => u.put g.1 (u.get 0 g.1 - g.2)) s.tiers.used } }

/-- The object of a shelf number. -/
def State.shelfObj (s : State) (sh : Nat) : Option (Nat × Obj) := s.objAt (sh * 2 ^ 21) 1

/-- Granules of a shelf. -/
def State.shelfCost (s : State) (sh : Nat) : List (Nat × Nat) :=
  match s.shelfObj sh with
  | some (_, o) => o.cost
  | none => []

/-- Granules that the CACHED shelves of a function hold (R265). -/
def State.cacheHeld (s : State) (fn : Nat) : Nat :=
  (s.tiers.shelves.map fun (sh, v) => match s.shelfObj sh with
    | some (_, o) => if v.granted && o.fn == fn then (o.cost.map (·.2)).sum else 0
    | none => 0).sum

/-- Milliseconds of the model's own count: the tick of a last use (R273). -/
def State.msTick (s : State) : Nat := s.clk / 1000000

/-! ### Mappings and fills -/

/-- The mapping of a shelf is dropped and its granules are freed: ABSENT (R269). -/
def State.dropMapping (s : State) (sh : Nat) : State :=
  let s := s.dropGrans (s.shelfCost sh)
  ({ s with tiers := { s.tiers with shelves := s.tiers.shelves.del sh } }).bump Reg.DMW_EVICTS 1

/-- R273: the PRESENT shelf with no references and the oldest last use, the lower number among equals, of one function or of
all. -/
def State.victim (s : State) (fn : Option Nat) : Option Nat :=
  let ok (sh : Nat) (v : Shelf) : Bool :=
    v.st == .present && v.readers.isEmpty && v.holds == 0 && match s.shelfObj sh with
      | some (_, o) => fn.all (· == o.fn)
      | none => false
  (s.tiers.shelves.foldl (fun (b : Option (Nat × Nat)) (sh, v) =>
    if ok sh v then match b with
      | some (_, u) => if v.lastUse < u then some (sh, v.lastUse) else b
      | none => some (sh, v.lastUse)
    else b) none).map (·.1)

/-- The function is at its cache allowance for `n` more granules. -/
def State.atAllowance (s : State) (fn n : Nat) : Bool :=
  match (s.func fn).cacheAllow with
  | some a => decide (a < s.cacheHeld fn + n)
  | none => false

/-- Makes room for a fill by reclaiming shelves (R273); none where no shelf qualifies. -/
def State.makeRoom (s : State) (fn : Nat) (cost : List (Nat × Nat)) : Nat → Option State
  | 0 => none
  | n + 1 =>
    if s.atAllowance fn (cost.map (·.2)).sum then
      match s.victim (some fn) with
      | some v => (s.dropMapping v).makeRoom fn cost n
      | none => none
    else if s.gransFit cost then some s
    else
      match s.victim none with
      | some v => (s.dropMapping v).makeRoom fn cost n
      | none => none

/-- Gives a queued fill its granules; a fill that must wait is counted once in DMW_FILL_WAIT. -/
def State.grantFill (s : State) (f : Fill) : State :=
  let v := s.shelf f.shelf
  match s.makeRoom f.fn (s.shelfCost f.shelf) (s.tiers.shelves.length + 1) with
  | some s' =>
    let s' := s'.takeGrans (s'.shelfCost f.shelf)
    let s' := s'.setShelf f.shelf { v with granted := true }
    { s' with tiers := { s'.tiers with
      fills := s'.tiers.fills.filter (·.shelf != f.shelf), fillRr := if f.demand then s'.tiers.fillRr else f.fn + 1 } }
  | none => (s.setShelf f.shelf { v with waited := true }).when (!v.waited) (·.bump Reg.DMW_FILL_WAIT 1)

/-- R272: the next fill among those given: demand fills first, then promotions by function in turn, in command order within
one. -/
def nextFill (rr : Nat) (fs : List Fill) : Option Fill :=
  match fs.find? (·.demand) with
  | some f => some f
  | none =>
    let fns := fs.map (·.fn)
    let after := fns.filter fun n => decide (rr ≤ n)
    let pick (xs : List Nat) : Option Nat := xs.foldl (fun b n => match b with
      | some m => some (min m n)
      | none => some n) none
    match (pick after).orElse fun _ => pick fns with
    | some n => fs.find? (·.fn == n)
    | none => none

/-- Offers granules to every queued fill in turn. -/
def State.pumpFills (s : State) (fs : List Fill) : Nat → State
  | 0 => s
  | n + 1 =>
    match nextFill s.tiers.fillRr fs with
    | some f => (s.grantFill f).pumpFills (fs.filter (·.shelf != f.shelf)) n
    | none => s

/-- The Dumbwaiter runs its queue while it is enabled. -/
def State.runFills (s : State) : State :=
  if s.flag Reg.DMW_CTRL 0 then s.pumpFills s.tiers.fills s.tiers.fills.length else s

/-- An ABSENT shelf becomes FILLING and its fill is queued. -/
def State.queueFill (s : State) (sh fn first : Nat) (demand : Bool) : State :=
  let v := s.shelf sh
  let s := s.setShelf sh { v with st := .filling, words := [], granted := false, waited := false, first := first, lastUse := s.msTick }
  { s with tiers := { s.tiers with fills := s.tiers.fills ++ [⟨sh, demand, fn⟩] } }

/-- A promotion of one shelf (R269, R274). -/
def State.promoteShelf (s : State) (fn sh : Nat) : State :=
  let v := s.shelf sh
  match v.st with
  | .absent => s.queueFill sh fn 0 false
  | .filling => s
  | .present => s.setShelf sh { v with lastUse := s.msTick }
  | .evicting => (s.setShelf sh { v with st := .present, lastUse := s.msTick }).bump Reg.DMW_CANCELS 1
  | .poisoned => s.bump Reg.DMW_IGNORED 1

/-- Promotions of the shelves behind a demand miss, as far as AHEAD and the object reach (R272). -/
def State.promoteAhead (s : State) (o : Obj) (sh : Nat) : State :=
  ((List.range o.ahead).map (sh + 1 + ·)).foldl (fun s k =>
    if k < o.base / 2 ^ 21 + o.shelves && (s.shelf k).st == .absent then s.queueFill k o.fn 0 false else s) s

/-- A reader's reference is added once. -/
def addReader (r : Reader × Nat) (rs : List (Reader × Nat)) : List (Reader × Nat) := if rs.contains r then rs else rs ++ [r]

/-- DEMAND_READ (R269 to R272): a reader's request to a byte of a CACHED shelf takes a reference; it is served, starts a fill or
waits. -/
def execDemandRead (who : Reader) (a : Nat) (s : State) : Host.Outcome State Fault Refusal :=
  .next (
    match s.objAt a 1 with
    | some (_, o) =>
      let sh := a / 2 ^ 21
      let v := s.shelf sh
      if o.st != .ready || o.policy != .cached then s
      else
        let v := { v with readers := addReader (who, a) v.readers, lastUse := s.msTick }
        match v.st with
        | .absent => (((s.setShelf sh v).queueFill sh o.fn (a % 2 ^ 21 / 4096) true).promoteAhead o sh).runFills
        | .evicting => (s.setShelf sh { v with st := .present }).bump Reg.DMW_CANCELS 1
        | .filling =>
          let first := if v.words.isEmpty then a % 2 ^ 21 / 4096 else v.first
          let s := s.setShelf sh { v with first := first }
          let up (f : Fill) : Fill := if f.shelf = sh then { f with demand := true } else f
          { s with tiers := { s.tiers with fills := s.tiers.fills.map up } }
        | _ => s.setShelf sh v
    | none => s)

/-- A flash page read of a block (R279): it is counted, and the block is queued for relocation at the read-disturb limit. -/
def State.flashRead (s : State) (blk bits : Nat) : State :=
  let n := blk / 2 ^ 20
  let b := s.tiers.blocks.get {} blk
  let r := b.reads + 1
  let s := (s.bump (Reg.NAND_READS n) 1).bump (Reg.NAND_CORR_BITS n) bits
  { s with tiers := { s.tiers with
    blocks := s.tiers.blocks.put blk { b with reads := r, reloc := b.reloc || decide (s.reg Reg.BUR_RD_LIMIT ≤ r) } } }

/-- Bureau is enabled. -/
def State.burOn (s : State) : Bool := s.flag Reg.BUR_CTRL 0

/-- CODEWORD_WRITTEN (R270, R278): codeword k of a filling shelf has been read from block `blk` with `bits` bits corrected and
written to HBM. The page of the demanded codeword comes first (R272), and a page on the ladder gives none. -/
def execCodewordWritten (sh k blk bits : Nat) (s : State) : Host.Outcome State Fault Refusal :=
  .next (
    let v := s.shelf sh
    let page := sh * 128 + k / 4
    if v.st != .filling || !v.granted || 512 ≤ k || v.words.contains k || !s.burOn || (s.tiers.ladder.look page).isSome ||
        (v.words.isEmpty && k / 4 != v.first / 4) then s
    else
      let fresh := !v.words.any fun j => j / 4 == k / 4
      let s := if fresh then s.flashRead blk bits else s.bump (Reg.NAND_CORR_BITS (blk / 2 ^ 20)) bits
      s.setShelf sh { v with words := v.words ++ [k] })

/-- FILL_COMPLETE (R269): all 512 codewords are in HBM. -/
def execFillComplete (sh : Nat) (s : State) : Host.Outcome State Fault Refusal :=
  .next (
    let v := s.shelf sh
    if v.st == .filling && v.granted && v.words.length == 512 then
      (s.setShelf sh { v with st := .present, words := [] }).bump Reg.DMW_FILLS 1
    else s)

/-- REFERENCE_DROP (R269, R270, R276): a reader's data has been delivered. An EVICTING shelf without references loses its
mapping. -/
def execReferenceDrop (who : Reader) (a : Nat) (s : State) : Host.Outcome State Fault Refusal :=
  .next (
    if !s.dataReady a 1 then s
    else
      let sh := a / 2 ^ 21
      let v := s.shelf sh
      let pages := s.tiers.staged.map fun p => { p with readers := p.readers.erase (who, a) }
      let s := { s with tiers := { s.tiers with staged := pages } }
      if !v.readers.contains (who, a) then s
      else
        let v := { v with readers := v.readers.erase (who, a) }
        let s := s.setShelf sh v
        if v.st == .evicting && v.readers.isEmpty then (s.dropMapping sh).runFills else s)

/-- Drops every reference that a reader holds (R283, R358): its requests are cancelled. -/
def State.dropReader (s : State) (r : Reader) : State :=
  let one (v : Shelf) : Shelf := { v with readers := v.readers.filter (·.1 != r) }
  let page (p : Staged) : Staged := { p with readers := p.readers.filter (·.1 != r) }
  let held := (s.tiers.shelves.filter fun (_, v) => v.st == .evicting && v.readers.any (·.1 == r)).map (·.1)
  let s := { s with tiers := { s.tiers with
    shelves := s.tiers.shelves.map fun e => (e.1, one e.2), staged := s.tiers.staged.map page
    stageWait := s.tiers.stageWait.filter (·.1 != r) } }
  held.foldl (fun s sh => if (s.shelf sh).readers.isEmpty then (s.dropMapping sh).runFills else s) s

/-! ### STREAM staging (R276) -/

/-- Pages that the staging area holds. -/
def State.stageCap (s : State) : Nat := s.field Reg.BUR_STAGE_MIB 15 0 * 64

/-- STREAM_READ (R276): a reader's request to a byte of a STREAM object. The page that covers it is read from block `blk` into the
staging area, where the oldest page without references makes room; a reader of a POISONED range stalls. -/
def execStreamRead (who : Reader) (a blk bits : Nat) (s : State) : Host.Outcome State Fault Refusal :=
  .next (
    match s.objAt a 1 with
    | some (_, o) =>
      let page := a / 2 ^ 14
      let sh := a / 2 ^ 21
      let v := s.shelf sh
      let t := s.tiers
      if o.st != .ready || o.policy != .stream then s
      else if v.st == .poisoned then s.setShelf sh { v with readers := addReader (who, a) v.readers }
      else if t.staged.any (fun p => p.page == page && p.ready) then
        { s with tiers := { t with
          stageWait := t.stageWait.erase (who, a)
          staged := t.staged.map fun p => if p.page = page then { p with readers := addReader (who, a) p.readers } else p } }
      else if (t.ladder.look page).isSome || !s.burOn then { s with tiers := { t with stageWait := addReader (who, a) t.stageWait } }
      else
        let rest := t.staged.filter (·.page != page)
        let old := (t.staged.filter (·.page == page)).flatMap (·.readers)
        let room := if rest.length < s.stageCap then some rest
          else (rest.find? (·.readers.isEmpty)).map fun p => rest.filter (·.page != p.page)
        match room with
        | none => { s with tiers := { t with stageWait := addReader (who, a) t.stageWait } }
        | some ps =>
          let fresh : Staged := ⟨page, true, addReader (who, a) old⟩
          ({ s with tiers := { t with
            stageWait := t.stageWait.erase (who, a), staged := ps ++ [fresh] } }).flashRead blk bits
    | none => s)

end Sys2Proof.Machine
end

