-- ==== Sys2Proof/Machine/Objects.lean ====
section
/-! DEFINITION. Objects of the tier range: create, query, install, reinstall, destroy (R256 to R268, R282, R407, R495) and the
Dumbwaiter's commands (R265, R274), mirrors (R264, R288) and BAR4 (R268, R388). -/

namespace Sys2Proof.Machine

/-! ### Naming an object -/

/-- The object that a command names (R261, R495). -/
def State.objFor (s : State) (fn k ogen : Nat) : Except Nat Obj :=
  let o := s.obj k
  if 2 ^ 20 ≤ k || o.st == .none || (fn != 0 && o.fn != fn) then .error stArgument
  else if seqNewer 16 ogen o.ogen then .error stArgument
  else if seqStale 16 ogen o.ogen then .error stStale
  else .ok o

/-- POISONED shelves of an object. -/
def State.poisonedShelves (s : State) (o : Obj) : Nat :=
  s.tiers.shelves.countP fun (sh, v) => v.st == .poisoned && decide (o.base / 2 ^ 21 ≤ sh) && decide (sh < o.base / 2 ^ 21 + o.shelves)

/-- The object table entry of R260. -/
def State.objWords (s : State) (k : Nat) : List Nat :=
  let o := s.obj k
  [k, o.ogen + 2 ^ 16 * o.fn, o.base % 2 ^ 32, o.base / 2 ^ 32, o.size % 2 ^ 32, o.size / 2 ^ 32,
   o.policy.code + 4 * b2n o.spread + 16 * o.stack + 256 * b2n o.mirror + 512 * o.partner + 2 ^ 13 * b2n o.class0 + 2 ^ 14 * o.ahead +
     2 ^ 18 * o.st.code + 2 ^ 20 * b2n o.degraded, s.poisonedShelves o]

/-! ### Create (R257) -/

/-- R264: the partner of a home stack, the first present one of the three candidates other than those excluded. -/
def State.partnerOf (s : State) (t : Nat) (but : Option Nat) : Option Nat :=
  [(t + 3) % 12, (t + 6) % 12, (t + 9) % 12].find? fun p => s.stackPresent p && some p != but

/-- Flash pages that an object's data takes (R278). -/
def Obj.pages (o : Obj) : Nat := ceilDiv o.size (2 ^ 14)

/-- User flash pages held by objects. -/
def State.flashHeld (s : State) : Nat :=
  (s.tiers.objs.map fun (_, o) => if o.st != .none && o.policy != .pinned then o.pages else 0).sum

/-- User flash capacity in pages. -/
def State.flashCap (s : State) : Nat := s.reg Reg.SBD_SIZE_FLASH_GIB * 2 ^ 16

/-- Granules that the PINNED objects of a function hold (R265). -/
def State.pinnedHeld (s : State) (fn : Nat) : Nat :=
  (s.tiers.objs.map fun (_, o) =>
    if o.st != .none && o.policy == .pinned && o.fn == fn then ((o.takes o.shelves).map (·.2)).sum else 0).sum

/-- Objects of a function. -/
def State.objCount (s : State) (fn : Nat) : Nat := s.tiers.objs.countP fun (_, o) => o.st != .none && o.fn == fn

/-- Removes the bytes of a range: they read as zero. -/
def State.zeroTier (s : State) (a n : Nat) : State :=
  { s with tier := s.tier.filter fun (k, _) => !(decide (a ≤ k) && decide (k < a + n)) }

/-- The policy of a code. -/
def Policy.ofCode : Nat → Option Policy
  | 0 => some .pinned
  | 1 => some .cached
  | 2 => some .stream
  | _ => none

/-- BUR_OBJ_CREATE (R257, R258, R260). The reply holds the object number and its generation. -/
def execBurObjCreate (i : Issuer) (owner base size policy : Nat) (spread : Bool) (stack : Nat) (mirror class0 : Bool) (ahead : Nat) (s : State) : Host.Outcome State Fault Refusal :=
  .next (s.command i 0x0301 fun fn _ =>
    if fn ≠ 0 ∧ (owner ≠ fn ∨ class0) then .error stPermission
    else
      match Policy.ofCode policy with
      | none => .error stArgument
      | some p =>
        let home := if spread then 0 else stack
        let o : Obj :=
          { st := if p == .pinned then .ready else .created, fn := owner, base := base, size := size, policy := p, spread := spread
            stack := home, mirror := mirror, partner := if mirror then (s.partnerOf home none).getD 0 else 0, class0 := class0, ahead := ahead
            stackNos := s.stackNos }
        let overlap := s.tiers.objs.any fun (_, q) =>
          q.st != .none && decide (q.base < base + o.shelves * 2 ^ 21) && decide (base < q.base + q.shelves * 2 ^ 21)
        if base % 2 ^ 21 ≠ 0 || size = 0 || 2 ^ 44 < size || 2 ^ 48 < base + o.shelves * 2 ^ 21 || overlap || 15 < ahead ||
            1024 ≤ owner || ((s.func owner).st == .absent) || (class0 && (p != .pinned || spread)) || (mirror && (p != .pinned || spread)) ||
            (!spread && !s.stackPresent stack) then .error stArgument
        else
          let cost := o.takes o.shelves
          let f := s.func owner
          let quota := owner != 0 &&
            (decide (f.objects ≤ s.objCount owner) ||
              (p == .pinned && decide (f.hbm < s.pinnedHeld owner + (cost.map (·.2)).sum)))
          let full := if p == .pinned then !s.gransFit cost || (mirror && (s.partnerOf home none).isNone)
            else decide (s.flashCap < s.flashHeld + o.pages)
          match lowestFree20 s with
          | none => .error stResource
          | some k =>
            if quota || full then .error stResource
            else
              let o := { o with ogen := ((s.obj k).ogen + 1) % 2 ^ 16 }
              let s := s.zeroTier base (o.shelves * 2 ^ 21)
              let s := (if p == .pinned then s.takeGrans cost else s).setObj k o
              .ok (s, [k, o.ogen]))
where
  /-- the lowest free object number -/
  lowestFree20 (s : State) : Option Nat :=
    let used := s.tiers.objs.filter (·.2.st != .none)
    let k := used.foldl (fun k e => if e.1 = k then k + 1 else k) 0
    if k < 2 ^ 20 then some k else none

/-- BUR_OBJ_QUERY (R260). -/
def execBurObjQuery (i : Issuer) (k ogen : Nat) (s : State) : Host.Outcome State Fault Refusal :=
  .next (s.command i 0x0302 fun fn _ =>
    match s.objFor fn k ogen with
    | .error e => .error e
    | .ok _ => .ok (s, s.objWords k))

/-! ### Install (R266, R407) -/

/-- A host source list: 1 to 65,536 entries of window offset and length, every length but the last a multiple of 4,096, with the
total that is due. -/
def srcListOk (src : List (Nat × Nat)) (total : Nat) : Bool :=
  !src.isEmpty && decide (src.length ≤ 65536) && src.all (fun e => e.1 % 4096 == 0 && decide (e.1 < 2 ^ 48)) &&
    src.dropLast.all (fun e => e.2 % 4096 == 0) && (src.map (·.2)).sum == total

/-- BUR_OBJ_INSTALL (R266): an object in CREATED state and the entries of a host source list. -/
def execBurObjInstall (i : Issuer) (k ogen : Nat) (src : List (Nat × Nat)) (s : State) : Host.Outcome State Fault Refusal :=
  .next (s.command i 0x0303 fun fn _ =>
    match s.objFor fn k ogen with
    | .error e => .error e
    | .ok o =>
      if o.policy == .pinned || !srcListOk src o.size then .error stArgument
      else if o.st != .created then .error stBusy
      else if s.flashCap < s.flashHeld then .error stResource
      else
        let s := s.setObj k { o with st := .installing }
        .ok ({ s with tiers := { s.tiers with installs := s.tiers.installs ++ [⟨k, false, 0, o.shelves, src, i == .mbox 0 0⟩] } }, []))

/-- The install or reinstall in progress of an object. -/
def State.installOf (s : State) (k : Nat) (re : Bool) : Option Install := s.tiers.installs.find? fun x => x.obj == k && x.re == re

/-- The install or reinstall that can go on: installs wait while firmware does not run (R471). -/
def State.fwInstall (s : State) (k : Nat) (re : Bool) : Option Install := if s.boot.phase == .running then s.installOf k re else none

/-- Ends an install or reinstall. -/
def State.endInstall (s : State) (x : Install) : State := { s with tiers := { s.tiers with installs := s.tiers.installs.filter (· != x) } }

/-- Stores installed data in pages of 4 KiB, in the world of the command (R447). Pages that the world map forbids are discarded and
counted (R449). -/
def State.storeData (s : State) (secure : Bool) (a : Nat) (bs : List Byte) : Nat → State
  | 0 => s
  | n + 1 =>
    if bs.isEmpty then s
    else
      let m := 4096 - a % 4096
      let page := bs.take m
      let fs := if secure then [] else s.filtersOn a page.length true
      let s := if fs.isEmpty then { s with tier := Mem.write s.tier a page }
        else fs.foldl (fun s f => s.bump (Reg.SEC_RF_VIOL f) 1) (s.bump Reg.SEC_VIOL_TOTAL 1)
      s.storeData secure (a + m) (bs.drop m) n

/-- INSTALL_COMPLETE (R266): the data of the source list, as host reads gave it, is stored; or a host read failed. -/
def execInstallComplete (k : Nat) (data : ExtData) (s : State) : Host.Outcome State Fault Refusal :=
  .next (
    let o := s.obj k
    match s.fwInstall k false with
    | none => s
    | some x =>
      match data with
      | .error => ((s.endInstall x).setObj k { o with st := .created }).fnEvent o.fn 0x0114 0xFFF k o.ogen 1 0
      | .data bs =>
        if bs.length ≠ o.size || !s.burOn then s
        else
          let s := ((s.endInstall x).storeData x.secure o.base bs bs.length).setObj k { o with st := .ready }
          (s.bump Reg.BUR_INSTALL_BYTES o.size).fnEvent o.fn 0x0114 0xFFF k o.ogen 0 0)

/-- The bytes of the shelves that a reinstall names, cut at the object's end (R407). -/
def reinstallBytes (o : Obj) (first count : Nat) : Nat := min ((first + count) * 2 ^ 21) o.size - first * 2 ^ 21

/-- BUR_OBJ_REINSTALL (R282): every named shelf must be POISONED. -/
def execBurObjReinstall (i : Issuer) (k ogen first count : Nat) (src : List (Nat × Nat)) (s : State) : Host.Outcome State Fault Refusal :=
  .next (s.command i 0x0304 fun fn _ =>
    match s.objFor fn k ogen with
    | .error e => .error e
    | .ok o =>
      if o.policy == .pinned || count = 0 || o.shelves < first + count || !srcListOk src (reinstallBytes o first count) then .error stArgument
      else if o.st != .ready || (s.installOf k true).isSome ||
          ((List.range count).any fun j => (s.shelf (o.base / 2 ^ 21 + first + j)).st != .poisoned) then .error stBusy
      else .ok ({ s with tiers := { s.tiers with installs := s.tiers.installs ++ [⟨k, true, first, count, src, i == .mbox 0 0⟩] } }, []))

/-- A reinstalled shelf leaves POISONED: a CACHED shelf fills, a STREAM range returns its readers to staging (R282). -/
def State.restoreShelf (s : State) (o : Obj) (sh : Nat) : State :=
  let v := s.shelf sh
  if o.policy == .cached then (s.setShelf sh { v with lost := 0 }).queueFill sh o.fn ((v.readers.map fun r => r.2 % 2 ^ 21 / 4096).headD 0) (!v.readers.isEmpty)
  else
    { s with tiers := { s.tiers with shelves := s.tiers.shelves.del sh, stageWait := s.tiers.stageWait ++ v.readers } }

/-- REINSTALL_STORED (R282): the new stripes are written. DEDUCED: a host read that fails ends the reinstall and leaves the
shelves POISONED (log 18). -/
def execReinstallStored (k : Nat) (data : ExtData) (s : State) : Host.Outcome State Fault Refusal :=
  .next (
    let o := s.obj k
    match s.fwInstall k true with
    | none => s
    | some x =>
      match data with
      | .error => s.endInstall x
      | .data bs =>
        let n := reinstallBytes o x.first x.count
        if bs.length ≠ n || !s.burOn then s
        else
          let s := (s.endInstall x).storeData x.secure (o.base + x.first * 2 ^ 21) bs bs.length
          let s := s.bump Reg.BUR_INSTALL_BYTES n
          let s := (List.range x.count).foldl (fun s j => s.restoreShelf o (o.base / 2 ^ 21 + x.first + j)) s
          s.runFills.fnEvent o.fn 0x0111 0xFFF k o.ogen x.first x.count)

/-! ### Mirrors (R288) -/

/-- Firmware starts copying a degraded object to a new partner other than `but`, where one is present with room; until then its PARTNER
names its home stack (log 102). -/
def State.seekPartner (s : State) (k : Nat) (but : Option Nat) : State :=
  let o := s.obj k
  match s.partnerOf o.stack but with
  | some p =>
    if s.gransFit [(p, 512 * o.shelves)] then
      let s := s.takeGrans [(p, 512 * o.shelves)]
      ({ s with tiers := { s.tiers with mcopy := s.tiers.mcopy ++ [(k, p)] } }).setObj k { o with degraded := true, partner := p }
    else s.setObj k { o with degraded := true, partner := o.stack }
  | none => s.setObj k { o with degraded := true, partner := o.stack }

/-- MIRROR objects that have found no partner try again. -/
def State.retryCopies (s : State) : State :=
  s.tiers.objs.foldl (fun s (k, o) => if o.st == .ready && o.mirror && o.degraded && o.partner == o.stack then s.seekPartner k none else s) s

/-- The partner stack of a MIRROR object is lost: it degrades, MIRROR_DEGRADED is posted and a new partner is sought (R288). -/
def State.losePartner (s : State) (k : Nat) : State :=
  let o := s.obj k
  let lost := o.partner
  let s := (s.dropGrans [(lost, 512 * o.shelves)]).setObj k { o with degraded := true }
  (s.pfEvent 0x0112 k lost 0 0).seekPartner k (some lost)

/-- MIRROR_PARTNER_LOST (R288). Firmware acts on it. -/
def execMirrorPartnerLost (k : Nat) (s : State) : Host.Outcome State Fault Refusal :=
  .next (
    let o := s.obj k
    if s.boot.phase != .running || o.st != .ready || !o.mirror || o.degraded then s else s.losePartner k)

/-- MIRROR_COPY_DONE (R288). -/
def execMirrorCopyDone (k : Nat) (s : State) : Host.Outcome State Fault Refusal :=
  .next (
    let o := s.obj k
    match (if s.boot.phase == .running then s.tiers.mcopy.find? (·.1 == k) else none) with
    | none => s
    | some (_, p) =>
      let s := { s with tiers := { s.tiers with mcopy := s.tiers.mcopy.filter (·.1 != k) } }
      (s.setObj k { o with degraded := false, partner := p }).pfEvent 0x0113 k p 0 0)

/-! ### Destroy (R267) -/

/-- The shelves of an object that are listed. -/
def State.objShelves (s : State) (o : Obj) : List (Nat × Shelf) :=
  s.tiers.shelves.filter fun (sh, _) => decide (o.base / 2 ^ 21 ≤ sh) && decide (sh < o.base / 2 ^ 21 + o.shelves)

/-- The object cannot be destroyed yet (R267, R358). -/
def State.objBusy (s : State) (k : Nat) (o : Obj) : Bool :=
  (s.objShelves o).any (fun (_, v) => !v.readers.isEmpty || v.holds != 0) ||
    s.tiers.staged.any (fun p => decide (o.base ≤ p.page * 2 ^ 14) && decide (p.page * 2 ^ 14 < o.base + o.shelves * 2 ^ 21) && !p.readers.isEmpty) ||
    (s.installOf k true).isSome || o.copies != 0 || s.sld.exports.any (fun (_, e) => e.obj == k)

/-- BUR_OBJ_DESTROY (R267). -/
def execBurObjDestroy (i : Issuer) (k ogen : Nat) (s : State) : Host.Outcome State Fault Refusal :=
  .next (s.command i 0x0305 fun fn _ =>
    match s.objFor fn k ogen with
    | .error e => .error e
    | .ok o => if s.objBusy k o || o.st == .destroying then .error stBusy else .ok (s.setObj k { o with st := .destroying }, []))

/-- Frees everything an object holds; its number keeps its generation (R261, R267). -/
def State.freeObj (s : State) (k : Nat) : State :=
  let o := s.obj k
  let lo := o.base / 2 ^ 21
  let here (sh : Nat) : Bool := decide (lo ≤ sh) && decide (sh < lo + o.shelves)
  let s := (s.objShelves o).foldl (fun s (_, v) => if v.granted then s.dropGrans o.cost else s) s
  let s := if o.policy == .pinned then s.dropGrans (o.takes o.shelves) else s
  let t := s.tiers
  let s := { s with tiers := { t with
    shelves := t.shelves.filter fun e => !here e.1
    fills := t.fills.filter fun f => !here f.shelf
    staged := t.staged.filter fun p => !here (p.page / 128)
    stageWait := t.stageWait.filter fun r => !here (r.2 / 2 ^ 21)
    ladder := t.ladder.filter fun e => !here (e.1 / 128)
    poison := t.poison.filter fun e => !here (e.1 / 2 ^ 15)
    installs := t.installs.filter (·.obj != k)
    mcopy := t.mcopy.filter (·.1 != k) } }
  (s.zeroTier o.base (o.shelves * 2 ^ 21)).setObj k { ogen := o.ogen }

/-- DESTROY_DONE (R267): the granules are scrubbed and freed and the number becomes free. -/
def execDestroyDone (k : Nat) (s : State) : Host.Outcome State Fault Refusal :=
  .next (
    let o := s.obj k
    if o.st == .destroying && !s.objBusy k o then (s.freeObj k).retryCopies.runFills.vfSettle else s)

/-! ### The Dumbwaiter's commands (R274, R265) -/

/-- A range of a Dumbwaiter command: object, OGEN, first shelf index and count. -/
abbrev ShelfRange := Nat × Nat × Nat × Nat

/-- Checks the ranges of a Dumbwaiter command and lists the shelves they name with their objects. -/
def State.namedShelves (s : State) (fn : Nat) (rs : List (Nat × Nat × Nat × Nat)) : Except Nat (List (Obj × Nat)) :=
  if rs.isEmpty || 255 < rs.length then .error stArgument
  else
    rs.foldl (fun acc r =>
      match acc, s.objFor fn r.1 r.2.1 with
      | .error e, _ => .error e
      | _, .error e => .error e
      | .ok l, .ok o =>
        if o.policy != .cached || o.shelves < r.2.2.1 + r.2.2.2 then .error stArgument
        else if o.st != .ready then .error stBusy
        else .ok (l ++ (List.range r.2.2.2).map fun j => (o, o.base / 2 ^ 21 + r.2.2.1 + j))) (.ok [])

/-- DMW_PROMOTE (R274). -/
def execDmwPromote (i : Issuer) (rs : List (Nat × Nat × Nat × Nat)) (hold : Bool) (s : State) : Host.Outcome State Fault Refusal :=
  .next (s.command i 0x0310 fun fn _ =>
    match s.namedShelves fn rs with
    | .error e => .error e
    | .ok shs =>
      let s := shs.foldl (fun s (o, sh) =>
        let s := s.promoteShelf o.fn sh
        if hold then s.setShelf sh { s.shelf sh with holds := (s.shelf sh).holds + 1 } else s) s
      .ok (s.runFills, []))

/-- An eviction request for one shelf (R269, R274). -/
def State.evictShelf (s : State) (sh : Nat) : State :=
  let v := s.shelf sh
  match v.st with
  | .present =>
    if v.holds != 0 then s.bump Reg.DMW_IGNORED 1
    else if v.readers.isEmpty then s.dropMapping sh
    else s.setShelf sh { v with st := .evicting }
  | .filling => s.bump Reg.DMW_IGNORED 1
  | .poisoned => s.bump Reg.DMW_IGNORED 1
  | _ => s

/-- DMW_EVICT (R274). -/
def execDmwEvict (i : Issuer) (rs : List (Nat × Nat × Nat × Nat)) (s : State) : Host.Outcome State Fault Refusal :=
  .next (s.command i 0x0311 fun fn _ =>
    match s.namedShelves fn rs with
    | .error e => .error e
    | .ok shs => .ok ((shs.foldl (fun s e => s.evictShelf e.2) s).runFills, []))

/-- DMW_UNHOLD (R274). -/
def execDmwUnhold (i : Issuer) (rs : List (Nat × Nat × Nat × Nat)) (s : State) : Host.Outcome State Fault Refusal :=
  .next (s.command i 0x0312 fun fn _ =>
    match s.namedShelves fn rs with
    | .error e => .error e
    | .ok shs => .ok (shs.foldl (fun s e =>
        let v := s.shelf e.2
        if v.holds = 0 then s else s.setShelf e.2 { v with holds := v.holds - 1 }) s, []))

/-- DMW_ALLOWANCE (R265): the cache allowance of a function, in granules. -/
def execDmwAllowance (i : Issuer) (fn' allow : Nat) (s : State) : Host.Outcome State Fault Refusal :=
  .next (s.command i 0x0313 fun _ _ =>
    if 1024 ≤ fn' || (s.func fn').st == .absent then .error stArgument
    else .ok ((s.setFunc fn' { s.func fn' with cacheAllow := some allow }).runFills, []))

/-! ### BAR4 (R268, R388) -/

/-- The tier-range address of a BAR4 offset. -/
def State.bar4Addr (s : State) (off : Nat) : Nat := s.reg64 Reg.PCI_BAR4_BASE + off % 2 ^ s.host.bar4Log

/-- Completes a BAR4 read. -/
def State.bar4Reply (s : State) (r : Bar4) : State := { s with host := { s.host with bar4 := r } }

/-- BAR4_READ (R268, R286, R448): the host reads n bytes. PINNED and PRESENT data is returned; any other state, and a STREAM object,
completes with Unsupported Request; a non-secure read that the world map forbids reads as zero. -/
def execBar4Read (off n : Nat) (s : State) : Host.Outcome State Fault Refusal :=
  .next (
    let a := s.bar4Addr off
    let zero := Bar4.data (List.replicate n 0)
    match s.objAt a n with
    | none => (s.bump Reg.BUR_UNMAPPED 1).bar4Reply zero
    | some (_, o) =>
      if o.st != .ready then (s.bump Reg.BUR_UNMAPPED 1).bar4Reply zero
      else
        let ok := match o.policy with
          | .pinned => true
          | .cached => (s.shelf (a / 2 ^ 21)).st == .present && (s.shelf ((a + n - 1) / 2 ^ 21)).st == .present
          | .stream => false
        let fs := s.filtersOn a n false
        if !ok then s.bar4Reply .unsupported
        else if !fs.isEmpty then (s.violation 3 0 0xFFF false a fs).bar4Reply zero
        else
          match s.poisonIn a n with
          | some l => (s.poisonRead l).bar4Reply .poisoned
          | none => s.bar4Reply (.data (s.tierRead a n)))

/-- BAR4_WRITE (R255, R268): a write to a PINNED object is performed; any other is dropped and counted. -/
def execBar4Write (off : Nat) (bs : List Byte) (s : State) : Host.Outcome State Fault Refusal :=
  .next (
    let a := s.bar4Addr off
    match s.objAt a bs.length with
    | none => s.bump Reg.BUR_UNMAPPED 1
    | some (_, o) =>
      let fs := s.filtersOn a bs.length true
      if o.st != .ready || o.policy != .pinned then s.bump Reg.BUR_UNMAPPED 1
      else if !fs.isEmpty then s.violation 3 0 0xFFF true a fs
      else s.tierWrite a bs)

end Sys2Proof.Machine
end

