-- ==== Sys2Proof/Machine/Energy.lean ====
section
/-! DEFINITION. Bimetal: energy charges, credits and the 1 µs refill, the 1 ms telemetry (R214 to R216, R219). -/

namespace Sys2Proof.Machine

/-- The region runs the Sterling profile. -/
def State.regSterling (s : State) (r : Nat) : Bool := s.flag (Reg.BIM_REG_STEP r) 2

/-- κ of R215. -/
def State.kappa (s : State) (r : Nat) : Nat :=
  if s.regSterling r then 210
  else match s.field (Reg.BIM_REG_STEP r) 1 0 with
    | 0 => 256
    | 1 => 230
    | 2 => 210
    | _ => 169

/-- The charge of a task in a region (R215). -/
def State.chargeOf (s : State) (r energy : Nat) : Nat := ceilDiv (energy * s.kappa r) 256

/-- A tenant task may be dispatched on energy: CREDIT_EN is clear or the region's credit covers its charge. -/
def State.creditOk (s : State) (r energy : Nat) : Bool :=
  !s.flag Reg.BIM_CTRL 0 || decide (s.chargeOf r energy ≤ s.field (Reg.BIM_REG_CREDIT r) 23 0)

/-- Charges a dispatch (R215). DEDUCED: BIM_C0_OVERDRAW counts a charge that crosses zero, and nothing is subtracted from the
credit while CREDIT_EN is clear (log 39). -/
def State.charge (s : State) (r cls energy : Nat) : State :=
  let n := s.chargeOf r energy
  if cls = 0 then
    let b := sext 32 (s.reg (Reg.BIM_REG_C0_BUCKET r))
    let b' := b - Int.ofNat n
    (s.setReg (Reg.BIM_REG_C0_BUCKET r) (wrap 32 b')).when (decide (0 ≤ b) && decide (b' < 0)) (·.bump Reg.BIM_C0_OVERDRAW 1)
  else if s.flag Reg.BIM_CTRL 0 then s.setReg (Reg.BIM_REG_CREDIT r) (s.field (Reg.BIM_REG_CREDIT r) 23 0 - n)
  else s

/-- The effective limit L: the lower of BIM_PKG_LIMIT_W and BIM_I3C_CAP_W (R493). -/
def State.pkgLimit (s : State) : Nat := min (s.field Reg.BIM_I3C_CAP_W 10 0) (s.field Reg.BIM_PKG_LIMIT_W 10 0)

/-! ### Steps and rails (R23, R485) -/

/-- The VDD_CORE voltage of a clock step, in mV. -/
def stepMv : Nat → Nat
  | 0 => 850
  | 1 => 800
  | 2 => 750
  | _ => 680

/-- The highest step that a region holds or is being raised to. -/
def State.heldStep (s : State) (r : Nat) : Nat :=
  let cur := s.field (Reg.BIM_REG_STEP r) 1 0
  match (s.region r).target with
  | some t => min t cur
  | none => cur

def State.rail (s : State) (d : Nat) : Rail := s.rails.get {} d

/-- The voltage that die d needs: that of the highest step held by one of its regions. -/
def State.dieMv (s : State) (d : Nat) : Nat :=
  (((List.range 3).map (3 * d + ·)).filter s.regionPresent).foldl (fun m r => max m (stepMv (s.heldStep r))) 680

/-- Bimetal writes the voltage of die d over AVSBus. -/
def State.writeRail (s : State) (d : Nat) : State :=
  { s with rails := s.rails.put d { mv := s.dieMv d, prev := (s.rail d).mv, changing := true, since := s.clk } }

/-- Raises the rail of a die where its regions need more than is commanded: one write for all of them. -/
def State.raiseRail (s : State) (d : Nat) : State := if (s.rail d).mv < s.dieMv d then s.writeRail d else s

/-- Lowers the rail of a die after a switch where its regions need less. -/
def State.lowerRail (s : State) (d : Nat) : State := if s.dieMv d < (s.rail d).mv then s.writeRail d else s

/-- The retune of a region's idle PLL path towards a step starts; the caller raises the rail. -/
def State.startStep (s : State) (r target : Nat) : State :=
  (s.setField (Reg.BIM_REG_STEP r) 3 3 1).setRegion r { s.region r with target := some target, retuned := false }

/-- The rail of a region carries a step: it is commanded that high, and reported within range unless it was that high before the
last write. -/
def State.railCarries (s : State) (r step : Nat) : Bool :=
  let v := s.rail (r / 3)
  decide (stepMv step ≤ v.mv) && (!v.changing || decide (stepMv step ≤ v.prev))

end Sys2Proof.Machine
end

