-- ==== Sys2Proof/Machine/Slack.lean ====
section
/-! DEFINITION. The slot slack trackers (R211 to R213). -/

namespace Sys2Proof.Machine

def State.slk (s : State) (g : Nat) : Slack := s.slack.get {} g
def State.setSlk (s : State) (g : Nat) (v : Slack) : State := { s with slack := s.slack.put g v }

/-- The tasks of an instance of a group that have not completed and are of class 0, in slot order. -/
def State.instTasks (s : State) (g k : Nat) : List Task :=
  (s.slots.filterMap fun (_, v) => v.task).filter fun t => t.inst == some (g, k) && t.desc.cls == 0 && t.st != .recording

/-- The handle of a group's oldest incomplete class 0 task (R213). -/
def State.oldestHandle (s : State) (g : Nat) : Nat :=
  let ts := (s.slots.filterMap fun (_, v) => v.task).filter fun t =>
    (t.inst.map (·.1)) == some g && t.desc.cls == 0 && t.st != .recording
  match ts.foldl (fun (b : Option Task) t => match b with
    | none => some t
    | some u => if t.commitNo < u.commitNo then some t else b) none with
  | some t => t.desc.handle
  | none => 0

/-- SLACK = DEADLINE − now − REMAIN, saturating (R211). -/
def slackOf (deadline now remain : Nat) : Int :=
  let x := sext 64 ((deadline + 2 ^ 64 - now % 2 ^ 64) % 2 ^ 64) - Int.ofNat remain
  max (-(2 ^ 31 - 1)) (min (2 ^ 31 - 1) x)

/-- R211, R212, R213: recomputes a tracker and acts when SLACK falls below the threshold or becomes negative. -/
def State.slackCheck (s : State) (g : Nat) : State :=
  let v := s.slk g
  if !s.flag (Reg.CAB_SLK_CTRL g) 0 || !v.active then s
  else
    let x := slackOf v.deadline s.now v.remain
    let low := decide (x < Int.ofNat (s.reg (Reg.CAB_SLK_THRESH_NS g)))
    let neg := decide (x < 0)
    let s1 := s.setSlk g { v with slackNs := x, low := low, neg := neg }
    let s2 :=
      if low && !v.low then
        let sch := s1.sched
        let susp := if sch.susp.contains (g, v.inst) then sch.susp else sch.susp ++ [(g, v.inst)]
        (({ s1 with sched := { sch with susp := susp } }).bump (Reg.CAB_SLK_LOW g) 1).pfEvent 0x0105 g 0 0 0
      else s1
    if neg && !v.neg then s2.pfEvent 0x0106 (s.oldestHandle g) 2 0 0 else s2

/-- The tracker takes up the next instance that waits once its own has no incomplete class 0 task; CLASS_SUSP forgets it. -/
def State.slackSettle (s : State) (g : Nat) : State :=
  let v := s.slk g
  if v.active && (s.instTasks g v.inst).isEmpty then
    let s := { s with sched := { s.sched with susp := s.sched.susp.filter (· != (g, v.inst)) } }
    match v.next with
    | [] => s.setSlk g { v with active := false, remain := 0, low := false, neg := false }
    | (k, r, d) :: t =>
      (s.setSlk g { v with inst := k, remain := r, deadline := d, next := t, low := false, neg := false }).slackCheck g
  else s

/-- R211: a class 0 task of an instance has completed: REMAIN falls by its figure. -/
def State.slackDone (s : State) (t : Task) : State :=
  match t.inst with
  | none => s
  | some (g, k) =>
    if t.desc.cls ≠ 0 then s
    else
      let v := s.slk g
      let v :=
        if v.active && v.inst == k then { v with remain := v.remain - t.worst }
        else { v with next := v.next.map fun (i, r, d) => if i = k then (i, r - t.worst, d) else (i, r, d) }
      ((s.setSlk g v).slackCheck g).slackSettle g

/-- R213: a slot tick that finds the group's previous instance with incomplete class 0 tasks posts SLOT_OVERRUN, cause 3. -/
def State.slackOverrun (s : State) (g : Nat) : State :=
  if (s.slk g).active then s.pfEvent 0x0106 (s.oldestHandle g) 3 0 0 else s

/-- R211, R213: a slot tick gives a group the instance `k`; it waits behind an older one. -/
def State.slackStart (s : State) (g k remain deadline : Nat) : State :=
  let v := s.slk g
  if v.active then s.setSlk g { v with next := v.next ++ [(k, remain, deadline)] }
  else s.setSlk g { v with inst := k, active := true, remain := remain, deadline := deadline, low := false, neg := false }

/-- SLACK_UPDATE (R211): the 1 µs computation of every enabled tracker. -/
def execSlackUpdate (s : State) : Host.Outcome State Fault Refusal :=
  .next (s.slack.foldl (fun s (g, _) => s.slackCheck g) s)

end Sys2Proof.Machine
end

