-- ==== Sys2Proof/Machine/Operands.lean ====
section
/-! DEFINITION. Operand forms: the tile-op records of R54 to R61 and the DMA operand descriptor of R167. -/

namespace Sys2Proof.Machine

/-- Field [hi:lo] of word i of a record. -/
def fld (bs : List Byte) (i hi lo : Nat) : Nat := bits (word32At bs i) hi lo

/-- OPC of a tile-op record (R55). -/
def recOpc (bs : List Byte) : Nat := fld bs 0 3 0
/-- PROB of a tile-op record. -/
def recProb (bs : List Byte) : Nat := fld bs 0 6 4
/-- TAG of a tile-op record. -/
def recTag (bs : List Byte) : Nat := fld bs 0 31 16

/-- R58: the fields of a LOAD. -/
def decodeLoad (bs : List Byte) : TrsLoad :=
  ⟨fld bs 1 24 0, fld bs 2 24 0, fld bs 3 24 0, fld bs 4 7 0, fld bs 4 17 8⟩

/-- R60: the fields of a STREAM. -/
def decodeStream (bs : List Byte) : TrsStream :=
  { aAddr := fld bs 1 24 0, aScale := fld bs 2 24 0, aStride := fld bs 3 24 0, m := fld bs 4 15 0, k := fld bs 4 25 16,
    chk := fld bs 4 26 26 == 1, accRow := fld bs 5 10 0, init := fld bs 5 12 11, cAddr := fld bs 6 24 0,
    cStride := fld bs 7 24 0, cFmt := fld bs 8 3 0, cScale := fld bs 9 24 0 }

/-- R84: the fields of a DRAIN. -/
def decodeDrain (bs : List Byte) : TrsDrain :=
  { dAddr := fld bs 1 24 0, dStride := fld bs 2 24 0, dScale := fld bs 3 24 0, accRow := fld bs 4 10 0, m := fld bs 4 22 11,
    nCols := fld bs 5 7 0, dFmt := fld bs 5 11 8, rnd := fld bs 5 13 12, nanOvf := fld bs 5 14 14 == 1,
    digest := fld bs 5 15 15 == 1, rng := fld bs 6 15 0 }

/-- R55: the op a 64-byte record holds. -/
def decodeTileOp (bs : List Byte) : TileOp :=
  let opc := recOpc bs
  let p := recProb bs
  let plain (o : TileOp) : TileOp := if p = 0 then o else .badProb opc
  match opc with
  | 0 => plain .nop
  | 1 => plain (.config (word32At bs 1))
  | 2 => .load p (decodeLoad bs)
  | 3 => .stream p (decodeStream bs)
  | 4 => .drain p (decodeDrain bs)
  | 5 => plain (.wait (fld bs 1 7 0) (word32At bs 2))
  | 6 => plain (.signal (fld bs 1 7 0) (word32At bs 2))
  | 7 => plain .fin
  | n => .illegal n

/-- R167: the DMA operand descriptor D0 to D7. -/
def decodeDma (bs : List Byte) : DmaDesc :=
  let d0 := word64At bs 0
  let d2 := word64At bs 8
  let d4 := word32At bs 4
  let d5 := word32At bs 5
  { src := bits d0 56 0, srcShare := bit d0 63, dst := bits d2 56 0, dstShare := bit d2 63,
    rowBytes := bits d4 16 0, rows := bits d5 15 0, digest := bit d5 16,
    srcStride := sext 32 (word32At bs 6), dstStride := sext 32 (word32At bs 7),
    resv := bits d0 62 57 != 0 || bits d2 62 57 != 0 || bits d4 31 17 != 0 || bits d5 31 17 != 0 }

end Sys2Proof.Machine
end

