-- ==== Sys2Proof/Machine/TaskDesc.lean ====
section
/-! DEFINITION. The task descriptor of R166: its fields and its reserved bits. -/

namespace Sys2Proof.Machine

/-- The bits of each header word that a table of R166 names. The class fixes DEADLINE and NPRED the predecessor entries. -/
def headerMasks (cls npred : Nat) : List Nat :=
  let all := 2 ^ 32 - 1
  let dl := if cls = 0 then all else 0
  let pred (i : Nat) : Nat := if i < npred then all else 0
  [0xFFFF0FFF, all, 0x00070FFF, 0x0003FFFF, all, all, dl, dl, 0x00FFFFFF, all, all, all, pred 0, pred 1, pred 2, pred 3]

/-- The bits of each operand word W16 to W31 that the type names. -/
def operandMasks (typ : Nat) : List Nat :=
  let all := 2 ^ 32 - 1
  let hi := 0x01FFFFFF
  match typ with
  | 0 => [0x1F, hi]
  | 1 => [0x71F, hi, all, all, all, all]
  | 2 => [0x1F, 0, all, hi, all, all, all, all, all, all, all, all]
  | 3 => [0x1F, 0, 0, 0, 0, 0, 0, 0, all, 0x81FFFFFF, all, 0x81FFFFFF, 0x1FFFF, 0x1FFFF, all, all]
  | 4 => [0x70F, 0, all, hi]
  | 5 => [0xFFF, 0xFFFF]
  | _ => []

/-- Some bit outside the masks is set; words past the list's end are reserved. -/
def maskedOut : List Nat → List Nat → Bool
  | [], _ => false
  | w :: ws, [] => w != 0 || maskedOut ws []
  | w :: ws, m :: ms => w &&& (m ^^^ (2 ^ 32 - 1)) != 0 || maskedOut ws ms

/-- Word i of a list of words. -/
def wd (ws : List Nat) (i : Nat) : Nat := nth 0 ws i
/-- The 64-bit field of words i and i + 1. -/
def wd64 (ws : List Nat) (i : Nat) : Nat := wd ws i + 2 ^ 32 * wd ws (i + 1)

/-- The operand area by type (R166). -/
def decodeTaskOp (ws : List Nat) : TaskOp :=
  let w16 := wd ws 16
  match bits (wd ws 0) 3 0 with
  | 0 => .trestle (bits w16 4 0) (bits (wd ws 17) 24 0)
  | 1 => .pewter (bits w16 4 0) (bits w16 9 8) (bit w16 10) (bits (wd ws 17) 24 0) (BitVec.ofNat 32 (wd ws 18))
      (BitVec.ofNat 32 (wd ws 19)) (BitVec.ofNat 32 (wd ws 20)) (BitVec.ofNat 32 (wd ws 21))
  | 2 => .tin (bits w16 4 0) (bits (wd64 ws 18) 56 0) ([20, 22, 24, 26].map fun i => BitVec.ofNat 64 (wd64 ws i))
  | 3 => .dma (bits w16 4 0) (decodeDma (words (ws.drop 24)))
  | 4 => .bronze (bits w16 3 0) (bits w16 9 8) (bit w16 10) (bits (wd64 ws 18) 56 0)
  | 5 => .arrive (bits w16 11 0) (bits (wd ws 17) 15 0)
  | _ => .join

/-- R166: the descriptor that 32 words hold. -/
def decodeTask (ws : List Nat) : TaskDesc :=
  let w0 := wd ws 0
  let w2 := wd ws 2
  let npred := bits w2 18 16
  { typ := bits w0 3 0, cls := bits w0 6 4, nd := bit w0 7, digest := bit w0 8, cqEn := bit w0 9, runOnFault := bit w0 10
    nonreplay := bit w0 11, fgen := bits w0 31 16, handle := wd ws 1, ctx := bits w2 11 0, npred := npred
    cq := bits (wd ws 3) 17 0, taskId := wd64 ws 4, deadline := wd64 ws 6, energy := bits (wd ws 8) 23 0, step := wd ws 9
    cookie := wd64 ws 10, preds := (List.range (min 4 npred)).map fun i => wd ws (12 + i), op := decodeTaskOp ws
    resv := decide (4 < npred) || maskedOut (ws.take 16) (headerMasks (bits w0 6 4) npred) ||
      maskedOut (ws.drop 16) (operandMasks (bits w0 3 0)) }

/-- The words of a record's bytes. -/
def wordsOf (n : Nat) (bs : List Byte) : List Nat := (List.range n).map (word32At bs)

/-- The cluster a task targets (R166). -/
def TaskOp.cluster : TaskOp → Option Nat
  | .trestle c _ => some c
  | .pewter c _ _ _ _ _ _ _ => some c
  | .tin c _ _ => some c
  | .dma c _ => some c
  | _ => none

/-- The region a task is charged in (R215). -/
def TaskOp.region : TaskOp → Option Nat
  | .bronze r _ _ _ => some r
  | op => op.cluster.map (· / 2)

/-- The slot and the generation of a handle (R169). -/
def slotOf (h : Nat) : Nat := h % 2 ^ 17
def genOf (h : Nat) : Nat := h / 2 ^ 17 % 2 ^ 15

end Sys2Proof.Machine
end

