-- ==== Sys2Proof/Machine/Cabinet.lean ====
section
/-! DEFINITION. Cabinet: contexts (R163 to R165), acceptance and commit (R169 to R176), completion (R181 to R186), barriers
(R187 to R190). -/

namespace Sys2Proof.Machine

/-! ### Contexts -/

/-- The context a command names: it exists, and the function may name it (log 10). -/
def State.ctxFor (s : State) (fn x : Nat) : Except Nat Ctx :=
  let c := s.ctx x
  if !c.valid then .error stArgument else if fn ≠ 0 ∧ c.fn ≠ fn then .error stPermission else .ok c

/-- Contexts that exist, in ascending number. -/
def State.liveCtxs (s : State) : List (Nat × Ctx) := s.ctxs.filter (·.2.valid)

/-- The lowest run of `n` free slots (R163). -/
def State.freeRun (s : State) (n : Nat) : Option Nat :=
  let cs := s.liveCtxs.map (·.2)
  let ok (b : Nat) : Bool := decide (b + n ≤ 131072) && cs.all fun c => decide (b + n ≤ c.slotBase) || decide (c.slotBase + c.slotCount ≤ b)
  let starts := (0 :: cs.map fun c => c.slotBase + c.slotCount).filter ok
  starts.foldl (fun m b => match m with
    | none => some b
    | some a => some (min a b)) none

/-- The lowest number below `n` that `used` does not hold. -/
def lowestFree (n : Nat) (used : Nat → Bool) : Option Nat := (List.range n).find? fun i => !used i

/-- Contexts a function holds. -/
def State.ctxCount (s : State) (fn : Nat) : Nat := (s.liveCtxs.filter (·.2.fn == fn)).length

/-- Its context quota: 256 at most (R164), a virtual function its grant (R408). -/
def State.ctxQuota (s : State) (fn : Nat) : Nat := if fn = 0 then 256 else min 256 (s.func fn).contexts

/-- The counters of a context block are cleared when its number is created (R195). -/
def State.clearCtxCounters (s : State) (x : Nat) : State :=
  [Reg.CAB_CTX_DISPATCHED x, Reg.CAB_CTX_COMPLETED x, Reg.CAB_CTX_FAULTED x, Reg.CAB_CTX_REFUSED x].foldl (fun s a => s.setReg64 a 0) s

/-- Creates a context (R163, R164), with the reply of the command. -/
def State.createCtx (s : State) (i : Issuer) (fn owner slots floor weight evq : Nat) : CmdRes :=
  if fn ≠ 0 ∧ (owner ≠ fn ∨ floor < 2) then .error stPermission
  else if slots < 64 ∨ slots % 64 ≠ 0 ∨ 7 < floor ∨ weight = 0 ∨ 255 < weight ∨ 1024 ≤ owner then .error stArgument
  else
    match s.poolQueue owner evq with
    | none => .error stArgument
    | some q =>
      let v := s.queue q
      if !v.en || v.typ != 2 || v.fn != owner then .error stArgument
      else
        match lowestFree 4096 (fun x => (s.ctx x).valid), s.freeRun slots with
        | some x, some b =>
          if s.ctxQuota owner ≤ s.ctxCount owner then .error stResource
          else
            match lowestFree 256 (fun w => s.liveCtxs.any fun c => c.2.fn == owner && c.2.window == w) with
            | none => .error stResource
            | some w =>
              let c : Ctx :=
                { valid := true, fn := owner, slotBase := b, slotCount := slots, floor := floor, weight := weight
                  evq := q, window := w, l1 := i == .firmware, secure := floor == 0 && i == .mbox 0 0 }
              let s := (s.setCtx x c).clearCtxCounters x
              let s := { s with slots := s.slots.filter fun (k, _) => decide (k < b) || decide (b + slots ≤ k) }
              .ok (s, [x, b, w])
        | _, _ => .error stResource

/-- CAB_CTX_CREATE (R163, R164): the owning function, a slot count, a class floor, a weight and a local event queue. The reply
holds the context number, the first slot and the window index. Firmware itself creates the contexts of L1 firmware, of class
floor 0 (R164, R143). -/
def execCabCtxCreate (i : Issuer) (owner slots floor weight evq : Nat) (s : State) : Host.Outcome State Fault Refusal :=
  .next (
    if i = .firmware then
      if s.boot.phase == .running && floor == 0 then
        match s.createCtx i 0 owner slots floor weight evq with
        | .ok (s', _) => s'
        | .error _ => s
      else s
    else s.command i 0x0201 fun fn _ => s.createCtx i fn owner slots floor weight evq)

/-- CAB_CTX_SET_WEIGHT (R165). -/
def execCabCtxSetWeight (i : Issuer) (x weight : Nat) (s : State) : Host.Outcome State Fault Refusal :=
  .next (s.command i 0x0202 fun fn _ =>
    match s.ctxFor fn x with
    | .error e => .error e
    | .ok c => if weight = 0 ∨ 255 < weight then .error stArgument else .ok (s.setCtx x { c with weight := weight }, []))

/-! ### Completion records -/

/-- A completion record (R185). FGEN is filled in when it is posted. -/
def completionWords (handle status cause gen cookie time ctx typ place step : Nat) (late : Bool) : List Nat :=
  [handle, status + 64 * b2n late + 256 * cause + 2 ^ 16 * gen, cookie % 2 ^ 32, cookie / 2 ^ 32, time % 2 ^ 32, time / 2 ^ 32,
   ctx + 2 ^ 12 * typ + 2 ^ 16 * place, step]

/-- A template that has not been freed holds the slot (R301). -/
def State.tplSlot (s : State) (i : Nat) : Bool :=
  s.tpls.any fun (_, t) => decide (t.slotBase ≤ i) && decide (i < t.slotBase + t.depth * t.entries.length)

/-- The class of a slot's last accepted task. -/
def Slot.cls (v : Slot) : Nat := match v.task with
  | some t => t.desc.cls
  | none => v.lastCls

/-- R302: a RETIRING template is freed once no task of its instances is incomplete. -/
def State.tplReap (s : State) : State :=
  let busy (t : Template) : Bool :=
    s.slots.any fun (i, v) => v.busy && decide (t.slotBase ≤ i) && decide (i < t.slotBase + t.depth * t.entries.length)
  { s with tpls := s.tpls.filter fun (_, t) => !t.retiring || busy t }

/-- The slot becomes free (R169). -/
def State.freeSlot (s : State) (i : Nat) : State :=
  let v := s.slot i
  (s.setSlot i { v with busy := false, lastCls := v.cls, task := none }).tplReap

/-- The status of a predecessor's end is made known to every task that waits for it. -/
def Task.learn (j status : Nat) (t : Task) : Task :=
  { t with preds := t.preds.map fun (i, r) => if i = j ∧ r = none then (i, some status) else (i, r) }

/-- Applies `f` to every task. -/
def State.mapTasks (s : State) (f : Task → Task) : State :=
  let one (v : Slot) : Slot := { v with task := v.task.map f }
  { s with slots := s.slots.map fun e => (e.1, one e.2) }

/-- The first status other than OK among the predecessors, in list order (R182, R183). -/
def Task.predFault (t : Task) : Option Nat := (t.preds.filterMap (·.2)).find? (· != 0)

/-- A task handle as engine work carries it. -/
def Task.id (t : Task) (epoch : Nat) : TaskId :=
  { ctx := t.desc.ctx, cls := t.desc.cls, handle := t.desc.handle, taskId := t.desc.taskId, epoch := epoch, digest := t.desc.digest }

/-- A task whose last dependence is satisfied (R183): it becomes ready, or ends with PRED_FAULT. A JOIN that is ready, and a task
that is not run, end at the next TASK_COMPLETE. An ARRIVE that is not run still goes to its barrier. -/
def State.settleTask (s : State) (i : Nat) : State :=
  let v := s.slot i
  match v.task with
  | none => s
  | some t =>
    if t.st == .waiting && t.committed && t.preds.all (·.2.isSome) then
      let t := { t with st := .ready, readyNo := s.sched.readyNo }
      let ends (status cause : Nat) : State :=
        (s.setSlot i { v with task := some { t with st := .ending } }).pushDone ⟨t.id 0, status, cause, 0xFF⟩
      match t.predFault, t.desc.runOnFault || t.desc.typ == 5 with
      | some st, false => ends 3 st
      | _, _ => if t.desc.typ == 6 then ends 0 0 else s.setSlot i { v with task := some t }
    else s

/-- Settles every task of a list of slots; tasks that become ready together share one place in R178's order. -/
def State.settleAll (s : State) (is : List Nat) : State :=
  let s := is.foldl (fun s i => s.settleTask i) s
  { s with sched := { s.sched with readyNo := s.sched.readyNo + 1 } }

/-- The slots whose task waits for slot j. -/
def State.successors (s : State) (j : Nat) : List Nat :=
  (s.slots.filter fun (_, v) => match v.task with
    | some t => t.preds.contains (j, none)
    | none => false).map (·.1)

/-- Resolves the successors of slot j, whose task ended with `status` (R179, R183). -/
def State.resolve (s : State) (j status : Nat) : State :=
  let is := s.successors j
  let s := s.mapTasks fun t => t.learn j status
  s.settleAll is

/-- R185, R186: records the completion of the task in slot i: counters, successors, the slack tracker, and the completion record
when one is due. `rec` is false for tasks that teardown ends without a record (R191). -/
def State.recordTask (s : State) (i : Nat) (record : Bool) : State :=
  let v := s.slot i
  match v.task with
  | none => s
  | some t =>
    let (status, cause) := t.fin.getD (0, 0)
    let x := t.desc.ctx
    let late := t.desc.cls == 0 && seqNewer 64 s.now t.desc.deadline
    let s := s.bump Reg.CAB_COMPLETED 1
    let s := if status = 0 then s.bump (Reg.CAB_CTX_COMPLETED x) 1 else s.bump (Reg.CAB_CTX_FAULTED x) 1
    let s := s.setCtx x { s.ctx x with lastDone := t.desc.handle }
    let s := s.setSlot i { v with last := status, task := some { t with st := .recording, finTime := s.now } }
    let s := (s.resolve i status).slackDone t
    if record && (t.desc.cqEn || status != 0) then
      let ws := completionWords t.desc.handle status cause 0 t.desc.cookie s.now x t.desc.typ t.place t.desc.step late
      s.sendRec t.desc.cq t.fn t.desc.fgen (.task i) (words ws)
    else s.freeSlot i

/-- The context has a digest ring: it is in Sterling mode (R221). -/
def State.hasRing (s : State) (x : Nat) : Bool := (s.ctx x).stl.st != .off

/-- The task in slot i has ended. With DIGEST set, in a context that has a ring, its entry is appended before the completion is
recorded (R235, R239); refusals and ABORTED completions append nothing. -/
def State.endTask (s : State) (i status cause place : Nat) : State :=
  let v := s.slot i
  match v.task with
  | none => s
  | some t =>
    let dig := t.desc.digest && status != 4 && s.hasRing t.desc.ctx
    let t := { t with fin := some (status, cause), place := place, st := if dig then .digesting else t.st }
    let s := s.setSlot i { v with task := some t }
    if dig then s else ({ s with marks := s.marks.del i }).recordTask i true

/-- TASK_COMPLETE (R181): Cabinet records the end of the unit of work that an engine reported first. The end of a task that has
already ended is discarded and counted (R184). -/
def execTaskComplete (s : State) : Host.Outcome State Fault Refusal :=
  .next (match s.done with
    | [] => s
    | d :: rest =>
      let s := { s with done := rest }
      let i := slotOf d.task.handle
      match (s.slot i).task with
      | some t =>
        if t.desc.handle = d.task.handle ∧ t.desc.ctx = d.task.ctx ∧ t.fin = none then s.endTask i d.status d.cause d.place
        else s.bump Reg.CAB_LATE_DROP 1
      | none => s.bump Reg.CAB_LATE_DROP 1)

/-! ### Acceptance -/

/-- R171: the cause for which a predecessor handle refuses a descriptor, 0 for none. -/
def State.predCause (s : State) (fn : Nat) (d : TaskDesc) (h : Nat) : Nat :=
  let i := slotOf h
  let v := s.slot i
  if !(s.liveCtxs.any fun c => c.2.fn == fn && decide (c.2.slotBase ≤ i) && decide (i < c.2.slotBase + c.2.slotCount)) then 8
  else if h = d.handle then 10
  else if seqNewer 15 (genOf h) v.gen then 8
  else if seqStale 15 (genOf h) v.gen then 9
  else if d.cls = 0 ∧ 2 ≤ v.cls then 11
  else 0

/-- R166, R167, R182, R215: the fields that must name something present or lie in a range. -/
def State.targetBad (s : State) (d : TaskDesc) : Bool :=
  let base := match d.op with
    | .bronze r k any _ =>
      decide (12 ≤ r) || (any && k != 0) ||
        (if any then !((List.range 4).any fun j => s.bronzePresent (4 * r + j)) else !s.bronzePresent (4 * r + k))
    | .pewter c k any _ _ _ _ _ => !s.clusterPresent c || (any && k != 0)
    | .dma c x => !s.clusterPresent c || decide (65536 < x.rowBytes)
    | .trestle c _ => !s.clusterPresent c
    | .tin c _ _ => !s.clusterPresent c
    | _ => false
  base || match d.op.region with
    | some r => d.cls != 0 && decide (s.field (Reg.BIM_REG_CAP r) 23 0 < d.energy)
    | none => false

/-- The completion queue a descriptor names: an enabled task completion queue of the function. -/
def State.cqOf (s : State) (fn cq : Nat) : Option Nat :=
  match s.poolQueue fn cq with
  | some q => if (s.queue q).en && (s.queue q).typ == 1 && (s.queue q).kind == 0 && (s.queue q).fn == fn then some q else none
  | none => none

/-- The refusal cause of a descriptor, 0 for none. DESIGN CHOICE: where several apply, the lowest code (log 13). `tpl` marks an
instance of a slot template, whose slots the template itself holds. -/
def State.refusal (s : State) (fn : Nat) (d : TaskDesc) (tpl : Bool) : Nat :=
  let c := s.ctx d.ctx
  let i := slotOf d.handle
  let v := s.slot i
  let pred := (d.preds.map (s.predCause fn d)).find? (· != 0)
  if 6 < d.typ then 1
  else if d.resv then 2
  else if !c.valid || c.fn != fn || c.tearing then 3
  else if d.cls < c.floor then 4
  else if i < c.slotBase ∨ c.slotBase + c.slotCount ≤ i then 5
  else if v.busy || (!tpl && s.tplSlot i) then 6
  else if genOf d.handle ≠ (v.gen + 1) % 2 ^ 15 then 7
  else match pred with
    | some p => p
    | none =>
      if s.targetBad d then 12
      else if (s.cqOf fn d.cq).isNone then 13
      else if d.nd && c.stl.st != .off then 14
      else match d.op with
        | .arrive b _ => if !(s.bar b).valid || (s.bar b).fn != fn then 15 else 0
        | _ => 0

/-- R182, R186: refuses a descriptor with a record, or with REFUSED_NO_CQ where its CQ is invalid. The context it names counts the refusal
where the function owns it. -/
def State.refuseDesc (s : State) (fn : Nat) (d : TaskDesc) (cause : Nat) : State :=
  let own := (s.ctx d.ctx).valid && (s.ctx d.ctx).fn == fn
  let s := (s.bump Reg.CAB_REFUSED 1).when own (·.bump (Reg.CAB_CTX_REFUSED d.ctx) 1)
  let s := s.when (cause == 14) (·.bump Reg.CAB_STL_ND_REFUSED 1)
  match s.cqOf fn d.cq with
  | some q =>
    s.sendRec q fn d.fgen .refusal
      (words (completionWords d.handle 6 cause 0 d.cookie s.now d.ctx d.typ 0xFF d.step false))
  | none => s.fnEvent fn 0x0101 d.ctx d.handle cause 0 0

/-- A predecessor as it resolves at acceptance (R171). -/
def State.resolvePred (s : State) (h : Nat) : Nat × Option Nat :=
  let i := slotOf h
  match (s.slot i).task with
  | some t => (i, if t.st == .recording then t.fin.map (·.1) else none)
  | none => (i, some (s.slot i).last)

/-- Accepts a descriptor into its slot (R169, R170) and settles it. -/
def State.acceptTask (s : State) (fn q pos : Nat) (d : TaskDesc) (committed : Bool) (worst : Nat) (inst : Option (Nat × Nat)) : State :=
  let i := slotOf d.handle
  let v := s.slot i
  let d := { d with cq := (s.cqOf fn d.cq).getD d.cq }
  let t : Task :=
    { desc := d, fn := fn, sq := q, pos := pos, committed := committed, preds := d.preds.map s.resolvePred
      commitNo := s.sched.commitNo, worst := worst, inst := inst }
  let s := s.setSlot i { v with gen := genOf d.handle, busy := true, task := some t }
  let s := { s with marks := s.marks.del i, sched := { s.sched with commitNo := s.sched.commitNo + 1 } }
  s.settleAll [i]

/-- R176: the submission queues that Cabinet may fetch from, those of functions with a class floor 0 context first; among them
the next in round-robin order. -/
def State.nextSubmission (s : State) : Option Nat :=
  let rung := (s.host.queues.filter fun (_, v) => v.en && v.typ == 0 && !v.failed && v.prod != v.cons).map (·.1)
  let first := rung.filter fun q => s.liveCtxs.any fun c => c.2.fn == (s.queue q).fn && c.2.floor == 0
  let pool := if first.isEmpty then rung else first
  match pool.find? fun q => decide (s.sched.fetchRr ≤ q) with
  | some q => some q
  | none => pool.head?

/-- R397: a host-produced queue whose fetch failed is marked FAILED and QUEUE_FAILED is posted (R398). -/
def State.failQueue (s : State) (q cause : Nat) : State :=
  let v := s.queue q
  if v.failed then s
  else
    (s.setQueue q { v with failed := true }).eventTo (s.firstEvq v.fn (some q)) v.fn 0x0123 0xFFF q v.typ cause 0

/-- The bytes of the entry at slot k mod size of a queue's ring: read from the ring's PINNED object, or carried by the command
from host memory. -/
def State.ringEntry (s : State) (q k len : Nat) (data : ExtData) : Option (List Byte) :=
  let v := s.queue q
  let a := v.base + (k % 2 ^ v.logSize) * len
  if spaceOf a == 1 then
    match data with
    | .data bs => if bs.length = len then some bs else none
    | .error => none
  else if s.pinnedRange v.fn (offOf a) len && (s.poisonIn (offOf a) len).isNone then some (s.tierRead (offOf a) len) else none

/-- Cabinet advances C of a submission queue past one descriptor. -/
def State.consume (s : State) (q : Nat) : State :=
  let v := s.queue q
  s.setQueue q { v with cons := (v.cons + 1) % 2 ^ 32 }

/-- DESCRIPTOR_ACCEPT (R173 to R176): Cabinet fetches the next descriptor, tests FGEN and checks it, and accepts or refuses
it. -/
def execDescriptorAccept (data : ExtData) (s : State) : Host.Outcome State Fault Refusal :=
  .next (
    if !s.flag Reg.CAB_CTRL 0 then s
    else
      match s.nextSubmission with
      | none => s
      | some q =>
        let v := s.queue q
        let s := { s with sched := { s.sched with fetchRr := q + 1 } }
        match s.ringEntry q v.cons 128 data with
        | none => s.failQueue q 0
        | some bs =>
          let d := decodeTask (wordsOf 32 bs)
          let s := s.consume q
          if d.fgen ≠ (s.func v.fn).gen then s.bump Reg.CAB_STALE_FGEN_DROP 1
          else
            let cause := s.refusal v.fn d false
            if cause ≠ 0 then s.refuseDesc v.fn d cause
            else s.acceptTask v.fn q v.cons d (seqNewer 32 v.commit v.cons) 0 none)

/-- COMMIT (R173, R174): a write of the commit counter of a submission queue. A stale value is ignored; one beyond the producer
counter commits up to it. -/
def execCommit (q value : Nat) (s : State) : Host.Outcome State Fault Refusal :=
  .next (
    let v := s.queue q
    let value := value % 2 ^ 32
    if !v.en || v.typ != 0 || !seqNewer 32 value v.commit then s
    else
      let upto := if seqNewer 32 value v.prod then v.prod else value
      let s := s.setQueue q { v with commit := upto }
      let hit (t : Task) : Bool := t.sq == q && t.fn == v.fn && !t.committed && t.inst.isNone && seqNewer 32 upto t.pos
      let is := (s.slots.filter fun (_, x) => match x.task with
        | some t => hit t
        | none => false).map (·.1)
      let n := s.sched.commitNo
      let mark (t : Task) : Task := if hit t then { t with committed := true, commitNo := n } else t
      let s := s.mapTasks mark
      let s := { s with sched := { s.sched with commitNo := n + 1 } }
      s.settleAll is)

/-! ### Barriers -/

/-- A handle names an ARRIVE that still stands at its barrier. -/
def State.atBarrier (s : State) (h : Nat) : Bool :=
  match (s.slot (slotOf h)).task with
  | some t => t.desc.handle == h && t.st == .atBarrier
  | none => false

/-- CAB_BAR_ALLOC (R187): allocates a barrier with P participants; the reply holds its number. -/
def execCabBarAlloc (i : Issuer) (p : Nat) (s : State) : Host.Outcome State Fault Refusal :=
  .next (s.command i 0x0204 fun fn _ =>
    if p = 0 ∨ 65535 < p then .error stArgument
    else
      match lowestFree 4096 (fun b => (s.bar b).valid) with
      | none => .error stResource
      | some b => .ok (s.setBar b { valid := true, fn := fn, p := p }, [b]))

/-- CAB_BAR_FREE (R190): every waiting and early ARRIVE ends ABORTED and BARRIER_FREED tells how many. -/
def execCabBarFree (i : Issuer) (b : Nat) (s : State) : Host.Outcome State Fault Refusal :=
  .next (s.command i 0x0205 fun fn _ =>
    let v := s.bar b
    if !v.valid then .error stArgument
    else if fn ≠ 0 ∧ v.fn ≠ fn then .error stPermission
    else
      let hs := (v.arrived ++ v.early).filter s.atBarrier
      let s := s.setBar b {}
      let s := hs.foldl (fun s h => s.endTask (slotOf h) 4 0 0xFF) s
      .ok (s.fnEvent v.fn 0x0107 0xFFF b hs.length 0 0, []))

/-- The slots of ready ARRIVEs that name a barrier, in ascending order (R190). -/
def State.readyArrives (s : State) (b : Nat) : List Nat :=
  (s.slots.filter fun (_, v) => match v.task with
    | some t => t.st == .ready && t.fin.isNone && (match t.desc.op with
      | .arrive b' _ => b' == b
      | _ => false)
    | none => false).map (·.1)

/-- An ARRIVE completes at its barrier's release: OK, or PRED_FAULT when it was not run (R183). -/
def State.releaseOne (s : State) (h : Nat) : State :=
  if !s.atBarrier h then s
  else
    match (s.slot (slotOf h)).task with
    | none => s
    | some t =>
      match t.predFault, t.desc.runOnFault with
      | some st, false => s.endTask (slotOf h) 3 st 0xFF
      | _, _ => s.endTask (slotOf h) 0 0 0xFF

/-- R188, R189: a barrier whose count has reached P releases; early arrivals are counted in the next phase. -/
def State.releaseBar (s : State) (b : Nat) : State :=
  let v := s.bar b
  if !v.valid || decide (v.count < v.p) then s
  else
    let s := s.setBar b
      { v with count := v.early.length, phase := (v.phase + 1) % 2 ^ 16, arrived := v.early, early := [], since := s.clk }
    v.arrived.foldl (fun s h => s.releaseOne h) s

/-- One ARRIVE at its barrier (R188, R189). DEDUCED: an early arrival beyond P is stale, and one at a freed barrier ends ABORTED
(log 38). -/
def State.arriveOne (s : State) (b i : Nat) : State :=
  let v := s.bar b
  let sl := s.slot i
  match sl.task with
  | none => s
  | some t =>
    match t.desc.op with
    | .arrive _ ph =>
      if !v.valid then s.endTask i 4 0 0xFF
      else
        let at_ : State := s.setSlot i { sl with task := some { t with st := .atBarrier } }
        if ph = v.phase then
          (at_.setBar b { v with count := v.count + 1, arrived := v.arrived ++ [t.desc.handle], since := if v.count = 0 then s.clk else v.since }).releaseBar b
        else if ph = (v.phase + 1) % 2 ^ 16 ∧ v.early.length < v.p then at_.setBar b { v with early := v.early ++ [t.desc.handle] }
        else s.endTask i 1 1 0xFF
    | _ => s

/-- ARRIVE (R188 to R190): the ready ARRIVEs of a barrier reach it in one hub N-cycle, in ascending slot order. A next phase that
its early arrivals fill releases at the next ARRIVE command of the barrier. -/
def execArrive (b : Nat) (s : State) : Host.Outcome State Fault Refusal :=
  .next ((s.readyArrives b).foldl (fun s i => s.arriveOne b i) (s.releaseBar b))

/-- DEADLINE_MISS (R193): Invar time has reached the DEADLINE of class 0 tasks that have not completed. -/
def execDeadlineMiss (s : State) : Host.Outcome State Fault Refusal :=
  .next (s.slots.foldl (fun s (i, v) =>
    match v.task with
    | some t =>
      if t.desc.cls == 0 && t.st != .recording && !t.missed && reached s.now t.desc.deadline then
        ((s.setSlot i { s.slot i with task := some { t with missed := true } }).bump Reg.CAB_DEADLINE_MISS 1).fnEvent 0 0x0103
          t.desc.ctx t.desc.handle (t.desc.taskId % 2 ^ 32) 0 0
      else s
    | none => s) s)

end Sys2Proof.Machine
end

