-- ==== Sys2Proof/Machine/Gates.lean ====
section
/-! DEFINITION. Gate control lists and token buckets (R341 to R344). -/

namespace Sys2Proof.Machine

/-! ### Gate control lists -/

/-- The entries of a cycle as (GATES, length): entries of length 0 are skipped, the last runs to the end of the cycle and all are cut
there (R342). -/
def gateSegs : List (Nat × Nat) → Nat → List (Nat × Nat)
  | [], _ => []
  | [(g, _)], left => if left = 0 then [] else [(g, left)]
  | (g, i) :: t, left => if left = 0 then [] else if left ≤ i then [(g, left)] else (g, i) :: gateSegs t (left - i)

/-- The segments of a list's cycle. -/
def GateList.segs (l : GateList) : List (Nat × Nat) := gateSegs (l.entries.filter (·.2 != 0)) l.cycle

/-- Walks to position `pos` of the segments: the entry's index, its gates and the ns left to its end. -/
def segAt : List (Nat × Nat) → Nat → Nat → Nat × Nat × Nat
  | [], k, _ => (k, 0, 1)
  | (g, n) :: t, k, pos => if pos < n then (k, g, n - pos) else segAt t (k + 1) (pos - n)

/-- The position of an instant in its cycle. -/
def GateList.pos (l : GateList) (t : Nat) : Nat :=
  (sext 64 (wrap 64 (Int.ofNat t - Int.ofNat l.base)) % Int.ofNat (max 1 l.cycle)).toNat

/-- The entry in force at an instant: cycles start at BASE + n × CYCLE for every integer n (R342). -/
def GateList.at_ (l : GateList) (t : Nat) : Nat × Nat × Nat :=
  segAt l.segs 0 (l.pos t)

/-- R321 as a comparison of instants. -/
def instantReached (n t : Nat) : Bool := decide ((n + 2 ^ 64 - t % 2 ^ 64) % 2 ^ 64 < 2 ^ 63)

/-- The list in force at an instant, the pending one from its change on. -/
def MacTx.listAt (m : MacTx) (t : Nat) : Option GateList :=
  match m.next with
  | some (l, c) => if instantReached t c then some l else m.oper
  | none => m.oper

/-- The gate of a class is open at an instant. -/
def MacTx.isOpen (m : MacTx) (c t : Nat) : Bool :=
  match m.listAt t with
  | some l => bit (l.at_ t).2.1 c
  | none => true

/-- The close of the window that is open at an instant (R342, R343): the next instant at which the class's bit is 0; none where the
gate never closes. -/
def MacTx.closeOf (m : MacTx) (c : Nat) : Nat → Nat → Option Nat
  | 0, _ => none
  | n + 1, t =>
    if !m.isOpen c t then some t
    else
      let change := match m.next with
        | some (_, c) => if instantReached t c then none else some ((c + 2 ^ 64 - t) % 2 ^ 64)
        | none => none
      let edge := (m.listAt t).map fun l => (l.at_ t).2.2
      match edge, change with
      | some a, some b => m.closeOf c n ((t + min a b) % 2 ^ 64)
      | some a, none => m.closeOf c n ((t + a) % 2 ^ 64)
      | none, some b => m.closeOf c n ((t + b) % 2 ^ 64)
      | none, none => none

/-- Steps after which a search has met every entry of both lists twice. -/
def MacTx.fuel (m : MacTx) : Nat :=
  let n (l : Option GateList) : Nat := match l with
    | some l => 2 * l.entries.length + 4
    | none => 2
  n m.oper + n (m.next.map (·.1))

/-- The close seen from an instant. -/
def MacTx.close (m : MacTx) (c t : Nat) : Option Nat := m.closeOf c m.fuel t

/-- The longest run of segments that open a class: the longest so far and the present run. -/
def longestRun (c : Nat) : List (Nat × Nat) → Nat → Nat → Nat
  | [], best, run => max best run
  | (g, n) :: t, best, run => if bit g c then longestRun c t best (run + n) else longestRun c t (max best run) 0

/-- The longest window of a class in a list (R344); none where the gate never closes. -/
def GateList.maxWindow (l : GateList) (c : Nat) : Option Nat :=
  if l.segs.all fun s => bit s.1 c then (if l.segs.isEmpty then some 0 else none) else some (longestRun c (l.segs ++ l.segs) 0 0)

/-- The first cycle start of a list at or after an instant (R345). -/
def GateList.cycleStart (l : GateList) (t : Nat) : Nat :=
  (t + (sext 64 (wrap 64 (Int.ofNat l.base - Int.ofNat t)) % Int.ofNat (max 1 l.cycle)).toNat) % 2 ^ 64

/-! ### Token buckets (R341) -/

/-- Refills a bucket of `burst` bytes at `rate` Mb/s to tick `now`. -/
def Bucket.refill (b : Bucket) (rate burst now : Nat) : Bucket :=
  { credit := min (Int.ofNat (burst * 8000)) (b.credit + Int.ofNat (rate * (now - b.at_))), at_ := now }

/-- Takes bytes; the credit may go negative. -/
def Bucket.take (b : Bucket) (n : Nat) : Bucket := { b with credit := b.credit - Int.ofNat (n * 8000) }

end Sys2Proof.Machine
end

