-- ==== Sys2Proof/Machine/Latches.lean ====
section
/-! DEFINITION. Latches: counts, signals, waiters and their evaluation (R153 to R160). -/

namespace Sys2Proof.Machine

/-- R153: the latch is granted to the context. -/
def State.latchOwned (s : State) (c l x : Nat) : Bool :=
  decide (l < 256) && s.flag (Reg.LAT_OWNER c (l / 8)) 12 && s.field (Reg.LAT_OWNER c (l / 8)) 11 0 == x

/-- A SIGNAL(n) reaches a latch; it is applied at the latch's next evaluation (R158). -/
def State.signal (s : State) (c l n : Nat) : State :=
  let v := s.latch c l
  s.setLatch c l { v with arrived := v.arrived ++ [(0, n)] }

/-- A waiter's WAIT(n) arrives. WAIT(0) completes at once and never becomes a waiter (R154). -/
def State.waitOn (s : State) (c l idx n : Nat) : State :=
  if n = 0 then s.bump (Reg.LAT_WAITS c) 1
  else
    let v := s.latch c l
    s.setLatch c l { v with waits := v.waits.put idx (l, n) }

/-- Whether a waiter of a cluster waits on one of its latches. -/
def State.waiting (s : State) (c idx : Nat) : Bool :=
  s.lat.any fun (k, v) => k / 256 == c && (v.waits.look idx).isSome

/-- Removes a waiter whose work is discarded. -/
def State.unwait (s : State) (c idx : Nat) : State :=
  { s with lat := s.lat.map fun (k, v) => (k, if k / 256 = c then { v with waits := v.waits.del idx } else v) }

/-- Waiter index of thread t of Tin core m (R156). -/
def tinWaiter (m t : Nat) : Nat := 10 + 16 * (m % 8) + t

/-- TIN_CTRL.HALT of core m (R162): parked threads stay parked. -/
def State.tinHalted (s : State) (m : Nat) : Bool := s.flag (Reg.TIN_CTRL (m / 8) (m % 8)) 2

/-- A parked thread's condition has cleared: it becomes READY, under HALT once HALT is cleared. -/
def TinThread.wake (th : TinThread) (halt : Bool) : TinThread :=
  if halt then { th with wait := .none, woken := true } else { th with wait := .none, woken := false, st := .ready }

/-- HALT of core m is cleared: the threads it kept parked resume. -/
def State.tinResume (s : State) (m : Nat) : State :=
  let core := s.core m
  if (s.tin.look m).isNone || s.tinHalted m then s
  else s.setCore m { core with threads := core.threads.map fun e => (e.1, if e.2.woken then { e.2 with woken := false, st := .ready } else e.2) }

/-- A released waiter resumes: a Tin thread becomes READY; the queues of Trestle and Pewter go on by themselves. -/
def State.released (s : State) (c idx : Nat) : State :=
  if idx < 10 then s
  else
    let m := 8 * c + (idx - 10) / 16
    let t := (idx - 10) % 16
    let core := s.core m
    let th := core.threads.get {} t
    if th.wait == .latch then s.setCore m { core with threads := core.threads.put t (th.wake (s.tinHalted m)) } else s

/-- R154, R155: applies SIGNAL(n) to the count. The event is posted when the overflow bit goes from 0 to 1. -/
def State.applySignal (s : State) (c l n : Nat) : State :=
  let s := s.bump (Reg.LAT_SIGNALS c) 1
  let sum := s.reg (Reg.LAT_COUNT c l) + n
  if sum < 2 ^ 32 then s.setReg (Reg.LAT_COUNT c l) sum
  else
    let was := s.flag (Reg.LAT_OVERFLOW c (l / 32)) (l % 32)
    let s := (s.setReg (Reg.LAT_COUNT c l) (2 ^ 32 - 1)).setField (Reg.LAT_OVERFLOW c (l / 32)) (l % 32) (l % 32) 1
    if was then s
    else s.fnEvent 0 0x0122 (s.field (Reg.LAT_OWNER c (l / 8)) 11 0) c l n 0

/-- R158 steps 2 to 4: tests the waiters in ascending index. `left` tells that one before was not satisfied. -/
def State.testWaits (s : State) (c l : Nat) : List (Nat × Nat × Nat) → Bool → State
  | [], _ => s
  | (idx, _, n) :: t, left =>
    let count := s.reg (Reg.LAT_COUNT c l)
    if n ≤ count then
      let v := s.latch c l
      let s := (s.setReg (Reg.LAT_COUNT c l) (count - n)).setLatch c l { v with waits := v.waits.del idx }
      let s := (s.bump (Reg.LAT_WAITS c) 1).when left (·.bump (Reg.LAT_PASSES c) 1)
      State.testWaits (s.released c idx) c l t left
    else State.testWaits s c l t true

/-- R158: one evaluation of latch l of cluster c. -/
def State.evalLatch (s : State) (c l : Nat) : State :=
  let sigs := (s.latch c l).arrived
  let s := s.setLatch c l { s.latch c l with arrived := [] }
  let s := sigs.foldl (fun s g => s.applySignal c l g.2) s
  s.testWaits c l (s.latch c l).waits false

/-- LATCH_EVALUATION (R158): once per N-cycle the latch applies arriving signals and tests pending WAITs. -/
def execLatchEvaluation (c l : Nat) (s : State) : Host.Outcome State Fault Refusal :=
  .next (if s.clusterOn c && decide (l < 256) then s.evalLatch c l else s)

/-- R324: a signal from Invar reaches a latch only where the cluster is present, in service, awake and the granule granted;
otherwise it is counted in INV_SIG_DROP. -/
def State.invarSignal (s : State) (c l : Nat) : State :=
  if s.clusterOn c && decide (l < 256) && s.flag (Reg.LAT_OWNER c (l / 8)) 12 then s.signal c l 1
  else s.bump Reg.INV_SIG_DROP 1

end Sys2Proof.Machine
end

