-- ==== Sys2Proof/Machine/Invar.lean ====
section
/-! DEFINITION. The Invar time base: steps, the servo, references and general triggers (R318 to R330). -/

namespace Sys2Proof.Machine

/-- Units of 2^-32 ns after which SEC wraps. -/
def timeWrap : Int := 2 ^ 48 * 1000000000 * 2 ^ 32

/-- Posts TIME_STEP and counts the step (R322, R353); every frame on a line sees it. -/
def State.stepTime (s : State) (new : Int) (source : Nat) : State :=
  let ns := (new - Int.ofNat s.time) / 2 ^ 32
  let one (m : MacTx) : MacTx := { m with line := m.line.map fun l => { l with stepped := true } }
  let s : State := { s with time := (new % timeWrap).toNat, net := { s.net with macs := s.net.macs.map fun e => (e.1, one e.2) } }
  (s.bump Reg.INV_STEPS 1).pfEvent 0x0119 (wrap 32 ns) (wrap 32 (ns / 2 ^ 32)) source 0

/-- The time that three words in the stored form spell, in units of 2^-32 ns (R318). -/
def fromStored (w0 w1 w2 : Nat) : Nat := ((w1 + 2 ^ 32 * bits w2 15 0) * 1000000000 + w0) * 2 ^ 32 + bits w2 31 16 * 2 ^ 16

/-- A write of INV_SET_GO. -/
def State.invSet (s : State) (v : W32) : State :=
  if v.toNat.testBit 0 then
    s.stepTime (Int.ofNat (fromStored (s.reg Reg.INV_SET_W0) (s.reg Reg.INV_SET_W1) (s.reg Reg.INV_SET_W2))) 0
  else s

/-- INV_SET (R322, R354): a write of INV_SET_GO loads INV_SET_W0 to INV_SET_W2. -/
def execInvSet (v : W32) (s : State) : Host.Outcome State Fault Refusal :=
  .next (s.invSet v)

/-- A write of the pair INV_STEP. -/
def State.invStep (s : State) (lo hi : W32) : State :=
  let v := lo.toNat + 2 ^ 32 * hi.toNat
  (s.setReg64 Reg.INV_STEP v).stepTime (Int.ofNat s.time + sext 64 v * 2 ^ 16) 1

/-- INV_STEP (R322): a write of INV_STEP_HI applies the signed pair, in 2^-16 ns. -/
def execInvStep (lo hi : W32) (s : State) : Host.Outcome State Fault Refusal :=
  .next (s.invStep lo hi)

/-! ### The servo (R327, R328) -/

def State.servoOn (s : State) : Bool := s.flag Reg.INV_CTRL 0
/-- The state of the servo: 0 TRACKING, 1 LOCKED, 2 HOLDOVER. -/
def State.servoSt (s : State) : Nat := s.field Reg.INV_STATUS 2 1

/-- Sets the servo's state and posts SERVO_STATE where it changes. -/
def State.setServo (s : State) (v : Nat) : State :=
  if s.servoSt = v then s else (s.setField Reg.INV_STATUS 2 1 v).pfEvent 0x011A v 0 0 0

/-- INCR_NOM. -/
def State.incrNom (s : State) : Int := Int.ofNat (s.reg Reg.INV_INCR_NOM_FRAC + 2 ^ 32 * s.field Reg.INV_INCR_NOM_INT 3 0)
/-- INCR, as a number of 2^-32 ns (R320). -/
def State.incr (s : State) : Nat := s.reg Reg.INV_INCR_FRAC + 2 ^ 32 * s.field Reg.INV_INCR_INT 3 0

/-- Sets INCR. -/
def State.setIncr (s : State) (v : Int) : State :=
  let n := wrap 36 v
  (s.setReg Reg.INV_INCR_FRAC n).setReg Reg.INV_INCR_INT (n / 2 ^ 32)

/-- Sets the integral. -/
def State.setServoI (s : State) (i : Int) : State := ({ s with inv := { s.inv with i := i } }).setReg Reg.INV_SERVO_I (wrap 32 i)

/-- P and the growth of I for a sample (R327). -/
def servoP (kp : Nat) (theta : Int) : Int := Int.ofNat kp * theta / 2 ^ 32

/-- One sample. -/
def State.servoSample (s : State) (theta : Int) : State :=
  let s := (s.bump Reg.INV_SAMPLES 1).setReg Reg.INV_LAST_OFF_NS (wrap 32 (theta / 2 ^ 16))
  let good := if theta.natAbs ≤ s.reg Reg.INV_LOCK_NS * 2 ^ 16 then min 16 (s.inv.good + 1) else 0
  let s := { s with inv := { s.inv with good := good } }
  let s :=
    if s.reg Reg.INV_SERVO_STEP_NS * 2 ^ 16 ≤ theta.natAbs then s.stepTime (Int.ofNat s.time - theta * 2 ^ 16) 2
    else
      let s := s.setServoI (s.inv.i + servoP (s.reg Reg.INV_SERVO_KI) theta)
      let d := servoP (s.reg Reg.INV_SERVO_KP) theta + s.inv.i
      s.setIncr (s.incrNom - max (-2147484) (min 2147484 d))
  s.setServo (if good = 16 then 1 else 0)

/-- A write of the pair INV_SERVO_OFF. -/
def State.servoOffer (s : State) (lo hi : W32) : State :=
  let v := lo.toNat + 2 ^ 32 * (hi.toNat % 2 ^ 16)
  let s := s.setReg64 Reg.INV_SERVO_OFF v
  if s.servoOn then s.servoSample (sext 48 v) else s

/-- SERVO_SAMPLE (R327): a write of INV_SERVO_OFF_HI submits the pair as a sample; with SERVO_EN = 0 it is ignored. -/
def execServoSample (lo hi : W32) (s : State) : Host.Outcome State Fault Refusal :=
  .next (s.servoOffer lo hi)

/-- SERVO_HOLDOVER (R328): no sample has arrived for INV_SERVO_HOLD_MS; the proportional term is dropped. -/
def execServoHoldover (s : State) : Host.Outcome State Fault Refusal :=
  .next (if s.servoOn && s.servoSt != 2 then (s.setIncr (s.incrNom - s.inv.i)).setServo 2 else s)

/-! ### References (R326, R330) -/

/-- REF_IN_LOSS (R326): the PLL changes to REFCLK_25. -/
def execRefInLoss (s : State) : Host.Outcome State Fault Refusal :=
  .next (
    if s.flag Reg.INV_CTRL 1 && s.inv.onRef then
      (({ s with inv := { s.inv with onRef := false } }).setField Reg.INV_CTRL 1 1 0).setField Reg.INV_STATUS 3 3 1
    else s)

/-- REF_IN_RESTORE (R326): REF_IN has been present for 1 ms while REF_SEL is set, and the PLL changes to it. -/
def execRefInRestore (s : State) : Host.Outcome State Fault Refusal :=
  .next (
    if s.flag Reg.INV_CTRL 1 && !s.inv.onRef then ({ s with inv := { s.inv with onRef := true } }).setField Reg.INV_STATUS 3 3 0
    else s)

/-- A write of INV_CTRL (R326): selecting REFCLK_25 takes the PLL off REF_IN. -/
def State.invCtrlWritten (s : State) : State :=
  if s.flag Reg.INV_CTRL 1 then s else { s with inv := { s.inv with onRef := false } }

/-- Sets three registers to a time in the stored form. -/
def State.putStored (s : State) (a : Nat) (t : Nat) : State :=
  match storedForm t with
  | [w0, w1, w2] => ((s.setReg a w0).setReg (a + 4) w1).setReg (a + 8) w2
  | _ => s

/-- PPS_IN_EDGE (R330): a rising edge is stamped, `skew` being the accuracy of ±2 ns and the board's delay, in 2^-16 ns. -/
def execPpsInEdge (skew : Int) (s : State) : Host.Outcome State Fault Refusal :=
  .next ((s.putStored Reg.INV_PPS_IN_W0 ((Int.ofNat s.time + skew * 2 ^ 16) % timeWrap).toNat).bump Reg.INV_PPS_EDGES 1)

/-! ### General triggers (R321 to R324) -/

/-- A write of a trigger's control or instant: a one-shot may fire again, and a trigger enabled with T reached will be late. -/
def State.trgWritten (old s : State) (g : Nat) : State :=
  let on := s.flag (Reg.INV_TRG_CTRL g) 0
  let rise := on && !old.flag (Reg.INV_TRG_CTRL g) 0
  let moved := s.reg64 (Reg.INV_TRG_T g) != old.reg64 (Reg.INV_TRG_T g)
  let v := s.inv
  let v := if rise || moved then { v with spent := v.spent.erase g } else v
  let v := if rise then
      { v with late := if reached s.now (s.reg64 (Reg.INV_TRG_T g)) then v.late.erase g ++ [g] else v.late.erase g }
    else v
  let v := if g = 0 ∧ ¬ on then { v with pulse := none } else v
  { s with inv := v }

/-- What a firing trigger does. -/
def State.trgAct (s : State) (g : Nat) (late : Bool) : State :=
  let ctl := s.reg (Reg.INV_TRG_CTRL g)
  let la := s.reg (Reg.INV_TRG_LATCH g)
  let s := s.when (bit ctl 1) (·.invarSignal (bits la 12 8) (bits la 7 0))
  let s := s.when (bit ctl 2) (·.pfEvent 0x0118 g (b2n late) 0 0)
  s.when (bit ctl 3 && g == 0) fun s =>
    { s with inv := { s.inv with pulse := some ((s.now + s.reg (Reg.INV_TRG_WIDTH_NS 0)) % 2 ^ 64), pulses := s.inv.pulses + 1 } }

/-- GENERAL_TRIGGER_FIRE (R321 to R323): trigger g fires at a tick at which T is reached. A periodic trigger that a forward step
carries past k of its instants fires once and counts k − 1 as skipped. -/
def execGeneralTriggerFire (g : Nat) (s : State) : Host.Outcome State Fault Refusal :=
  .next (
    let t := s.reg64 (Reg.INV_TRG_T g)
    let p := s.reg (Reg.INV_TRG_PERIOD_NS g)
    if 16 ≤ g || !s.flag (Reg.INV_TRG_CTRL g) 0 || !reached s.now t || s.inv.spent.contains g then s
    else
      let late := s.inv.late.contains g
      let k := if late || p == 0 then 1 else (s.now + 2 ^ 64 - t) % 2 ^ 64 / p + 1
      let t' := (t + k * p) % 2 ^ 64
      let s := (s.setReg64 (Reg.INV_TRG_T g) t').setReg (Reg.INV_TRG_STATUS g) (b2n late)
      let s := (s.bump (Reg.INV_TRG_FIRED g) 1).bump (Reg.INV_TRG_SKIPPED g) (k - 1)
      let v := s.inv
      let s := { s with inv := { v with
        spent := if p = 0 then v.spent ++ [g] else v.spent
        late := if late && p != 0 && reached s.now t' then v.late else v.late.erase g } }
      s.trgAct g late)

end Sys2Proof.Machine
end

