-- ==== Sys2Proof/Machine/Hallstand.lean ====
section
/-! DEFINITION. Ports and Hallstand transmit (R331 to R348, R353). DEDUCED: a frame's class is the TC of its descriptor (log 44). -/

namespace Sys2Proof.Machine

/-! ### MACs (R331, R332) -/

/-- Lanes of MAC 8p + k in a mode, 0 where it is absent. -/
def macLanes (mode k : Nat) : Nat :=
  match mode with
  | 0 => if k = 0 then 8 else 0
  | 1 => if k % 4 = 0 then 4 else 0
  | 2 => if k % 2 = 0 then 2 else 0
  | 3 => 1
  | _ => 0

/-- The lanes of a logical MAC. -/
def State.macLanes (s : State) (m : Nat) : Nat :=
  if s.portPresent (m / 8) then Machine.macLanes (s.field (Reg.ETH_CFG (m / 8)) 2 0) (m % 8) else 0
/-- A logical MAC is present. -/
def State.macPresent (s : State) (m : Nat) : Bool := decide (m < 64) && s.macLanes m != 0
/-- Its port is enabled. -/
def State.portOn (s : State) (m : Nat) : Bool := s.macPresent m && s.flag (Reg.ETH_CTRL (m / 8)) 0 && !s.flag Reg.RST_BLK_MISC (m / 8)

/-- The rate of a MAC in Mb/s. -/
def State.macRate (s : State) (m : Nat) : Nat :=
  match s.field (Reg.ETH_CFG (m / 8)) 2 0 with
  | 0 => 800000
  | 1 => 400000
  | 2 => 200000
  | _ => match s.field (Reg.ETH_LANE_CFG (m / 8) (m % 8)) 1 0 with
    | 0 => 100000
    | 1 => 50000
    | 2 => 25000
    | _ => 10000

def State.mtu (s : State) (m : Nat) : Nat := s.field (Reg.ETH_MAC_CFG (m / 8) (m % 8)) 13 0
def State.mac (s : State) (m : Nat) : MacTx := s.net.macs.get {} m
def State.setMac (s : State) (m : Nat) (v : MacTx) : State := { s with net := { s.net with macs := s.net.macs.put m v } }
def MacTx.cls (m : MacTx) (c : Nat) : TxClass := m.classes.get {} c
def MacTx.setCls (m : MacTx) (c : Nat) (v : TxClass) : MacTx := { m with classes := m.classes.put c v }

/-- OVERHEAD of a MAC (R333). -/
def State.overhead (s : State) (m : Nat) : Int := max (-32) (sext 7 (s.field (Reg.HST_OVERHEAD m) 6 0))
/-- The counted length of a frame of `n` bytes from the destination address through the FCS (R333). -/
def State.counted (s : State) (m n : Nat) : Nat := (Int.ofNat n + s.overhead m).toNat
/-- The counted length of a transmitted frame: padded to 60, with the FCS. -/
def State.countedTx (s : State) (m len : Nat) : Nat := s.counted m (max 60 len + 4)
/-- tx(L) in ns (R333). -/
def State.txTime (s : State) (m l : Nat) : Nat := ceilDiv (l * 8000) (s.macRate m)

/-! ### Descriptors (R334, R335) -/

/-- Decodes X0 to X7. -/
def decodeTx (bs : List Byte) : TxDesc :=
  let x2 := word32At bs 2
  let x3 := word32At bs 3
  { buf := word64At bs 0 % 2 ^ 57, len := bits x2 13 0, tc := bits x2 17 14, ltEn := bit x2 18, ts := bits x2 20 19, cmpl := bit x2 21
    ptpOff := bits x3 13 0, csumOff := bits x3 27 14, launch := word64At bs 16, cookie := word64At bs 24
    resv := bits (word64At bs 0) 63 57 != 0 || bits x2 31 22 != 0 || bits x3 31 28 != 0 }

/-- Completion statuses (R336). -/
def txSent : Nat := 0
def txSentLate : Nat := 1
def txDropLate : Nat := 2
def txDropOversize : Nat := 3
def txFaultAddr : Nat := 4
def txFaultField : Nat := 5
def txFlushed : Nat := 6
def txPoison : Nat := 7

/-- The MAC of a transmit or receive queue. -/
def Queue.mac (v : Queue) : Nat := bits v.typeCfg 5 0
/-- A management queue of the physical function. -/
def Queue.mgmt (v : Queue) : Bool := bit v.typeCfg 10 && v.fn == 0

/-- The descriptor of a queue has a bad field. A frame above MTU is not counted here: it completes DROP_OVERSIZE (R344; log 105). -/
def Queue.txBad (v : Queue) (d : TxDesc) : Bool :=
  d.resv || decide (d.len < 14) || d.ts == 3 || (d.ts != 0 && decide (d.len < d.ptpOff + 44)) ||
    (v.fn != 0 && decide (d.tc < 4)) || (d.ts == 2 && !v.mgmt)

/-- Posts a transmit completion (R336): SENT only when CMPL_EN asks for it. -/
def State.txDone (s : State) (q : Nat) (d : TxDesc) (gen status : Nat) (stamp : List Nat) : State :=
  let v := s.queue q
  let m := v.mac
  let s := if status = txSentLate then s.bump (Reg.HST_TX_LATE m) 1
    else if status = txDropLate then s.bump (Reg.HST_DROP_LATE m) 1
    else if status = txDropOversize then s.bump (Reg.HST_DROP_OVERSIZE m) 1 else s
  if status = txSent && !d.cmpl then s
  else
    let st := if d.ts = 2 ∧ status ≤ 1 then stamp else [0, 0, 0]
    s.sendRec v.pair v.fn gen (.source q) (words ([status + 2 ^ 16 * gen, 0, d.cookie % 2 ^ 32, d.cookie / 2 ^ 32] ++ st ++ [0]))

/-- Late tolerance passed at an instant (R346). -/
def State.late (s : State) (m : Nat) (d : TxDesc) : Bool :=
  d.ltEn && seqNewer 64 s.now (d.launch + s.reg (Reg.HST_LATE_TOL_NS m))

def State.dropHead (s : State) (q : Nat) : State := { s with net := { s.net with heads := s.net.heads.del q } }

/-- A head frame completes without being sent. -/
def State.killHead (s : State) (q status : Nat) : State :=
  match s.net.heads.look q with
  | none => s
  | some h => (s.dropHead q).txDone q h.desc h.gen status []

/-- The frame's transmit time, or that of L_max under GUARD_FIXED (R343). -/
def State.guardTime (s : State) (m : Nat) (d : TxDesc) : Nat :=
  s.txTime m (if s.flag (Reg.HST_CTRL m) 3 then s.counted m (s.mtu m) else s.countedTx m d.len)

/-- R344, R346: a head frame that can never be sent, or whose launch is past under policy DROP, completes at once. -/
def State.testHead (s : State) (q : Nat) : State :=
  match s.net.heads.look q with
  | none => s
  | some h =>
    let v := s.queue q
    let m := v.mac
    if !(s.mac m).up then s
    else
      let past := h.past.getD (s.late m h.desc)
      let s := { s with net := { s.net with heads := s.net.heads.put q { h with past := some past } } }
      if past && v.dropLate then s.killHead q txDropLate
      else if s.flag (Reg.HST_CTRL m) 2 && s.reg (Reg.HST_TC_MAXWIN_NS m h.desc.tc) != 0xFFFFFFFF &&
          decide (s.reg (Reg.HST_TC_MAXWIN_NS m h.desc.tc) < s.guardTime m h.desc) then s.killHead q txDropOversize
      else s

/-- Queues with a head frame of a class of a MAC, in the round robin's order (R338). -/
def State.clsQueues (s : State) (m c : Nat) : List (Nat × TxHead) :=
  let qs := s.net.heads.filter fun (q, h) => (s.queue q).mac == m && h.desc.tc == c
  let p := ((s.mac m).cls c).ptr
  (qs.filter fun e => decide (p ≤ e.1)) ++ (qs.filter fun e => decide (e.1 < p))

/-- R339: a frame that becomes the head of its class receives the base of its tag, max(F_c, V). -/
def State.baseTag (s : State) (m c : Nat) : State :=
  let v := s.mac m
  let k := v.cls c
  if k.base.isSome || (s.clsQueues m c).isEmpty then s
  else s.setMac m (v.setCls c { k with base := some (if seqNewer 48 k.tag v.v then k.tag else v.v) })

/-- The bytes of a frame buffer: from PINNED memory, or carried by the command from host memory; or the status that ends it. -/
def State.txBytes (s : State) (fn : Nat) (d : TxDesc) (frame : ExtData) : Except (State × Nat) (List Byte) :=
  if !s.hostOrPinned fn d.buf d.len then .error (s, txFaultAddr)
  else if spaceOf d.buf == 1 then
    match frame with
    | .data bs => .ok (bs.take d.len ++ List.replicate (d.len - bs.length) 0)
    | .error => .error (s, txFaultAddr)
  else
    match s.poisonIn (offOf d.buf) d.len with
    | some l => .error (s.poisonRead l, txPoison)
    | none => .ok (s.tierRead (offOf d.buf) d.len)

/-- TX_DESCRIPTOR_FETCH (R334, R346): Hallstand takes the next descriptor of a transmit queue whose head is gone. `entry` and
`frame` are what the host memory it reads holds. A frame fetched while its port is disabled is flushed. -/
def execTxDescriptorFetch (q : Nat) (entry frame : ExtData) (s : State) : Host.Outcome State Fault Refusal :=
  .next (
    let v := s.queue q
    if !v.en || v.typ != 3 || v.failed || v.blocked || v.prod == v.cons || (s.net.heads.look q).isSome then s
    else
      match s.ringEntry q v.cons 32 entry with
      | none => s.failQueue q 0
      | some bs =>
        let d := decodeTx bs
        let gen := (s.func v.fn).gen
        let s := s.consume q
        if v.txBad d then s.txDone q d gen txFaultField []
        else if s.mtu v.mac < d.len + 4 then s.txDone q d gen txDropOversize []
        else
          match s.txBytes v.fn d frame with
          | .error (s, st) => s.txDone q d gen st []
          | .ok bytes =>
            if !s.portOn v.mac then s.txDone q d gen txFlushed []
            else
              let h : TxHead := { desc := d, gen := gen, bytes := bytes, past := none }
              let s := ({ s with net := { s.net with heads := s.net.heads.put q h } }).testHead q
              s.baseTag v.mac d.tc)

/-! ### Selection (R337 to R340) -/

/-- The shaper of a class, refilled to now. -/
def State.shaper (s : State) (m c : Nat) : Bucket :=
  ((s.mac m).cls c).shaper.refill (s.field (Reg.HST_TC_SHAPER m c) 19 0) (s.field (Reg.HST_TC_BURST m c) 24 0) s.clk

/-- The function-wide bucket of TX_RATE, with BURST 1 MiB (R408). -/
def State.fnBucket (s : State) (fn : Nat) : Bucket :=
  let f := s.func fn
  ({ credit := f.txCredit, at_ := f.txAt } : Bucket).refill f.txRate (2 ^ 20) s.clk

/-- The gate test of R343. -/
def State.gatePass (s : State) (m : Nat) (d : TxDesc) : Bool :=
  if !s.flag (Reg.HST_CTRL m) 2 then true
  else
    let v := s.mac m
    v.isOpen d.tc s.now && match v.close d.tc s.now with
      | none => true
      | some c => decide (s.guardTime m d ≤ (c + 2 ^ 64 - s.now) % 2 ^ 64)

/-- R337. -/
def State.txEligible (s : State) (m q : Nat) (h : TxHead) : Bool :=
  let v := s.mac m
  let fn := (s.queue q).fn
  v.up && v.line.isNone && s.flag (Reg.HST_CTRL m) 0 && (!h.desc.ltEn || reached s.now h.desc.launch) && s.gatePass m h.desc &&
    (!s.flag (Reg.HST_TC_SHAPER m h.desc.tc) 20 || decide (0 ≤ (s.shaper m h.desc.tc).credit)) &&
    ((s.func fn).txRate == 0 || decide (0 ≤ (s.fnBucket fn).credit))

/-- The frame a class would send now. -/
def State.clsHead (s : State) (m c : Nat) : Option (Nat × TxHead) := (s.clsQueues m c).find? fun (q, h) => s.txEligible m q h

/-- The weight of a class (R339). -/
def State.txWeight (s : State) (m c : Nat) : Nat := min 1024 (max 1 (s.field (Reg.HST_TC_WEIGHT m c) 10 0))

/-- The tag of a class's head (R339). -/
def State.tagOf (s : State) (m c : Nat) (h : TxHead) : Nat :=
  (((s.mac m).cls c).base.getD 0 + s.countedTx m h.desc.len * 65536 / s.txWeight m c) % 2 ^ 48

/-- Self-clocked fair queueing: the eligible head with the smallest tag, the lower class on a tie. -/
def State.pickFair (s : State) (m : Nat) : Option (Nat × Nat × TxHead) :=
  ((List.range 12).map (· + 4)).foldl (fun b c =>
    match s.clsHead m c with
    | none => b
    | some (q, h) => match b with
      | none => some (c, q, h)
      | some (c', q', h') => if seqNewer 48 (s.tagOf m c' h') (s.tagOf m c h) then some (c, q, h) else some (c', q', h')) none

/-- The quantum of a class (R340). -/
def State.quantum (s : State) (m c : Nat) : Nat := max 64 (s.field (Reg.HST_TC_QUANTUM m c) 15 0)

/-- Deficit round robin: goes on with the open visit or opens the next; answers the pick and the MAC's state. -/
def State.pickDrr (s : State) (m : Nat) : Nat → MacTx → Option (Nat × Nat × TxHead × MacTx)
  | 0, _ => none
  | n + 1, v =>
    let c := v.visit
    let next (v : MacTx) : MacTx := { v with visit := if c = 15 then 4 else c + 1, visiting := false }
    match s.clsHead m c with
    | none => s.pickDrr m n (next (if (s.clsQueues m c).isEmpty then v.setCls c { v.cls c with deficit := 0 } else v))
    | some (q, h) =>
      let v := if v.visiting then v else { v.setCls c { v.cls c with deficit := (v.cls c).deficit + s.quantum m c } with visiting := true }
      let l := s.countedTx m h.desc.len
      if l ≤ (v.cls c).deficit then some (c, q, h, v.setCls c { v.cls c with deficit := (v.cls c).deficit - l }) else s.pickDrr m n (next v)

/-- The pick of R338 with the MAC's state after it. -/
def State.pickFrame (s : State) (m : Nat) : Option (Nat × Nat × TxHead × MacTx) :=
  let v := s.mac m
  match [0, 1, 2, 3].findSome? fun c => (s.clsHead m c).map fun e => (c, e) with
  | some (c, q, h) => some (c, q, h, v)
  | none =>
    if s.flag (Reg.HST_CTRL m) 1 then
      if ((List.range 12).map (· + 4)).any fun c => (s.clsHead m c).isSome then s.pickDrr m 2048 v else none
    else (s.pickFair m).map fun (c, q, h) => (c, q, h, v)

/-! ### Timestamps (R347, R348) -/

/-- A stamp with a signed adjustment in 2^-16 ns. -/
def State.stampAt (s : State) (adj : Nat) : Nat := ((Int.ofNat s.time + sext 32 adj * 2 ^ 16) % timeWrap).toNat

/-- Bytes with those from `o` on replaced. -/
def patch (bs : List Byte) (o : Nat) (new : List Byte) : List Byte :=
  if o + new.length ≤ bs.length then bs.take o ++ new ++ bs.drop (o + new.length) else bs

/-- The ones'-complement sum of bytes at offset `o` as the 16-bit words of a checksum at offset `c` see them. -/
def csumPart (c : Nat) : Nat → List Byte → Nat
  | _, [] => 0
  | o, b :: t => (if o % 2 = c % 2 then 256 else 1) * b.toNat + csumPart c (o + 1) t

/-- One-step: originTimestamp, correctionField and the UDP checksum (R348). -/
def oneStep (bs : List Byte) (d : TxDesc) (t : Nat) : List Byte :=
  let sec := t / (2 ^ 32 * 1000000000)
  let ns := t / 2 ^ 32 % 1000000000
  let frac := t % 2 ^ 32 / 2 ^ 16
  let cf := fromBE ((bs.drop (d.ptpOff + 8)).take 8)
  let new := patch (patch bs (d.ptpOff + 34) (toBE 6 sec ++ toBE 4 ns)) (d.ptpOff + 8) (toBE 8 (cf + frac))
  let old := fromBE ((bs.drop d.csumOff).take 2)
  if d.csumOff = 0 ∨ old = 0 then new
  else
    let range (b : List Byte) : Nat := csumPart d.csumOff d.ptpOff ((b.drop d.ptpOff).take 44)
    let x := (65535 - Int.ofNat old + Int.ofNat (range new) - Int.ofNat (range bs)) % 65535
    patch new d.csumOff (toBE 2 (65535 - x.toNat))

/-- Starts a frame on the line (R333, R341). -/
def State.startFrame (s : State) (m c q : Nat) (h : TxHead) (v : MacTx) : State :=
  let d := h.desc
  let l := s.countedTx m d.len
  let t := s.stampAt (s.reg (Reg.ETH_TS_EGRESS_ADJ (m / 8) (m % 8)))
  let bytes := if d.ts = 1 then oneStep h.bytes d t else h.bytes
  let line : TxLine :=
    { queue := q, desc := d, gen := h.gen, status := if s.late m d then txSentLate else txSent, stamp := storedForm t
      bytes := bytes ++ List.replicate (60 - bytes.length) 0, counted := l
      close := if s.flag (Reg.HST_CTRL m) 2 then v.close c s.now else none }
  let tag := s.tagOf m c h
  let k : TxClass := { v.cls c with ptr := q + 1, shaper := (s.shaper m c).take l }
  let k := if c < 4 then k else { k with tag := tag, base := none }
  let v := { v.setCls c k with line := some line, v := if c < 4 then v.v else tag }
  let fn := (s.queue q).fn
  let b := (s.fnBucket fn).take l
  let s := if (s.func fn).txRate = 0 then s else s.setFunc fn { s.func fn with txCredit := b.credit, txAt := b.at_ }
  ((s.setMac m v).dropHead q).baseTag m c

/-- FRAME_SELECT (R337 to R340): the line is idle and Hallstand starts one eligible frame. -/
def execFrameSelect (m : Nat) (s : State) : Host.Outcome State Fault Refusal :=
  .next (
    let s := s.net.heads.foldl (fun s e => if (s.queue e.1).mac = m then s.testHead e.1 else s) s
    match s.pickFrame m with
    | none => s
    | some (c, q, h, v) => s.startFrame m c q h v)

/-- FRAME_SENT (R336, R345): the frame on the line has left it and its completion is posted. -/
def execFrameSent (m : Nat) (s : State) : Host.Outcome State Fault Refusal :=
  .next (
    let v := s.mac m
    match v.line with
    | none => s
    | some l =>
      let s := s.setMac m { v with line := none }
      let s : State := { s with net := { s.net with out := s.net.out ++ [(m, l.bytes)] } }
      let s := ((s.bump (Reg.ETH_TX_FRAMES (m / 8) (m % 8)) 1).bump (Reg.HST_TC_TX_FRAMES m l.desc.tc) 1).bump
        (Reg.HST_TC_TX_BYTES m l.desc.tc) l.counted
      let overflow := l.stepped && match l.close with
        | some c => seqNewer 64 s.now c
        | none => false
      (s.when overflow (·.bump (Reg.HST_STEP_OVERRUN m) 1)).txDone l.queue l.desc l.gen l.status l.stamp)

/-! ### Gate lists (R345) -/

/-- The admin list of a MAC. -/
def State.adminList (s : State) (m : Nat) : GateList :=
  { base := s.reg64 (Reg.HST_GCL_BASE m), cycle := s.reg (Reg.HST_GCL_CYCLE_NS m)
    entries := (List.range (min 1024 (s.field (Reg.HST_GCL_LEN m) 10 0))).map fun e =>
      (s.field (Reg.HST_GCL_GATES m e) 15 0, s.reg (Reg.HST_GCL_INTERVAL m e)) }

/-- A write of HST_GCL_GO. -/
def State.gclGo (s : State) (m : Nat) (w : W32) : State :=
  if !w.toNat.testBit 0 || 64 ≤ m then s
  else
    let l := s.adminList m
    if l.entries.isEmpty || l.cycle == 0 then s.setField (Reg.HST_STATUS m) 12 12 1
    else
      let change := s.reg64 (Reg.HST_GCL_CHANGE m)
      let t := l.cycleStart (if reached s.now change then s.now else change)
      (s.setMac m { s.mac m with next := some (l, t) }).setField (Reg.HST_STATUS m) 1 1 1

/-- GCL_GO (R345): a write of HST_GCL_GO makes the admin list pending. -/
def execGclGo (m : Nat) (w : W32) (s : State) : Host.Outcome State Fault Refusal :=
  .next (s.gclGo m w)

/-- GCL_CHANGE (R344, R345): the pending list becomes oper at its instant. -/
def execGclChange (m : Nat) (s : State) : Host.Outcome State Fault Refusal :=
  .next (
    let v := s.mac m
    match v.next with
    | none => s
    | some (l, t) =>
      if !reached s.now t then s
      else
        let s := (s.setMac m { v with oper := some l, next := none }).setField (Reg.HST_STATUS m) 1 0 1
        (List.range 16).foldl (fun s c => s.setReg (Reg.HST_TC_MAXWIN_NS m c) ((l.maxWindow c).getD 0xFFFFFFFF)) s)

/-- HST_TXQ_SET (R346, R421): the late policy of a transmit queue. -/
def execHstTxqSet (i : Issuer) (q : Nat) (drop : Bool) (s : State) : Host.Outcome State Fault Refusal :=
  .next (s.command i 0x0410 fun fn version =>
    match s.poolQueue fn q with
    | none => .error stArgument
    | some k =>
      let v := s.queue k
      if !v.en || v.typ != 3 || v.fn != fn || (version == 1 && drop) then .error stArgument
      else .ok (s.setQueue k { v with dropLate := drop }, []))

/-! ### Links (R331, R346, R353) -/

/-- Shows a MAC up or down in ETH_STATUS, with the lock of its lanes, and posts LINK_CHANGE. -/
def State.setLink (s : State) (m : Nat) (up : Bool) : State :=
  if (s.mac m).up == up then s
  else
    let p := m / 8
    let k := m % 8
    let n := s.macLanes m
    let s := s.setMac m { s.mac m with up := up }
    let s := s.setField (Reg.ETH_STATUS p) (8 + k) (8 + k) (b2n up)
    let s := if n = 0 then s else s.setField (Reg.ETH_STATUS p) (k + n - 1) k (if up then 2 ^ n - 1 else 0)
    s.pfEvent 0x011B m (b2n up) 0 0

/-- LINK_CHANGE (R346, R353): a MAC goes up or down. Frames that were head while it was down are tested for lateness. -/
def execLinkChange (m : Nat) (up : Bool) (s : State) : Host.Outcome State Fault Refusal :=
  .next (
    if up && !s.portOn m then s
    else
      let s := s.setLink m up
      if up then s.net.heads.foldl (fun s e => if (s.queue e.1).mac = m then s.testHead e.1 else s) s else s)

/-- Flushes the head frames of a MAC. -/
def State.flushMac (s : State) (m : Nat) : State :=
  s.net.heads.foldl (fun s e => if (s.queue e.1).mac = m then s.killHead e.1 txFlushed else s) s

/-- Takes a port out of use: its MACs go down and their queued frames are flushed. -/
def State.portOff (s : State) (p : Nat) : State :=
  let s := s.setField (Reg.ETH_CTRL p) 0 0 0
  ((List.range 8).map (8 * p + ·)).foldl (fun s m => ((s.setLink m false).flushMac m)) s

/-- PORT_DISABLE (R346): clearing ETH_CTRL.EN flushes the port's queued frames; a frame that has started is completed. -/
def execPortDisable (p : Nat) (s : State) : Host.Outcome State Fault Refusal :=
  .next (if s.portPresent p then s.portOff p else s)

end Sys2Proof.Machine
end

