-- ==== Sys2Proof/Machine/Solder.lean ====
section
/-! DEFINITION. The Solder wire format (R363 to R366), the requester (R369 to R373, R376) and what it takes from the network. -/

namespace Sys2Proof.Machine

/-! ### The wire format -/

/-- The 24-byte transport header (R364). -/
def sldHeader (kind flags ops reason src dst seq inc peer : Nat) : List Byte :=
  [2 ^ 28 + kind * 2 ^ 24 + flags * 2 ^ 16 + ops * 2 ^ 8 + reason, src * 2 ^ 14 + dst, seq % 2 ^ 24 * 2 ^ 8, inc, peer, 0].flatMap (toBE 4)

/-- Word i of a payload. -/
def beWord (bs : List Byte) (i : Nat) : Nat := fromBE ((bs.drop (4 * i)).take 4)

/-- A decoded transport header. -/
structure SldHdr where
  version : Nat
  kind : Nat
  isOpen : Bool
  echo : Bool
  ops : Nat
  reason : Nat
  src : Nat
  dst : Nat
  seq : Nat
  inc : Nat
  peer : Nat
  deriving DecidableEq, Repr

/-- Reads the transport header. -/
def decodeSldHdr (bs : List Byte) : SldHdr :=
  let t0 := beWord bs 0
  { version := bits t0 31 28, kind := bits t0 27 24, isOpen := bit t0 16, echo := bit t0 18, ops := bits t0 15 8, reason := bits t0 7 0
    src := bits (beWord bs 1) 27 14, dst := bits (beWord bs 1) 13 0, seq := bits (beWord bs 2) 31 8, inc := beWord bs 3
    peer := beWord bs 4 }

/-- Bytes of the operand that an operation sends (R360). -/
def sldSends (opc len : Nat) : Nat :=
  match opc with
  | 0 => 0
  | 1 => len
  | 4 => 16
  | 11 => 4
  | 12 => 0
  | n => if n < 11 then 8 else 0

/-- Rounded up to a multiple of 8. -/
def pad8 (n : Nat) : Nat := (n + 7) / 8 * 8

/-- Values of `w` bytes turned between memory order and network order. -/
def swapEach (w : Nat) : Nat → List Byte → List Byte
  | 0, _ => []
  | n + 1, bs => (bs.take w).reverse ++ swapEach w n (bs.drop w)

/-- An operand between memory order and the wire. DEDUCED: the values of atomics are fields and big-endian, the bytes of a LOAD
or STORE stand in address order (log 41). -/
def sldSwap (opc : Nat) (bs : List Byte) : List Byte :=
  if opc < 2 then bs else if opc = 11 then swapEach 4 1 bs else swapEach 8 (bs.length / 8) bs

/-- An operation record of a REQUEST (R365). -/
def sldOpBytes (o : SldOp) : List Byte :=
  let lenq := if o.opc < 2 then o.len / 8 - 1 else 0
  let d := sldSwap o.opc o.data
  toBE 4 (o.opc + lenq * 2 ^ 4 + o.tag * 2 ^ 16) ++ toBE 4 (o.domain + o.source * 2 ^ 16) ++ toBE 4 (o.off / 2 ^ 32) ++
    toBE 4 (o.off % 2 ^ 32) ++ d ++ List.replicate (pad8 d.length - d.length) 0

/-- A decoded operation record. -/
structure SldRec where
  opc : Nat
  len : Nat
  tag : Nat
  domain : Nat
  source : Nat
  off : Nat
  data : List Byte
  deriving DecidableEq, Repr

/-- Bytes an operation reads or writes (R360). -/
def sldLen (opc lenq : Nat) : Nat := if opc < 2 then 8 * (lenq + 1) else if opc = 11 then 4 else if opc = 12 then 0 else 8

/-- Reads `n` operation records; none where they run past the payload. DEDUCED: Q2 holds the high word of OFFSET (log 42). -/
def decodeSldOps : Nat → List Byte → Option (List SldRec)
  | 0, _ => some []
  | n + 1, bs =>
    let q0 := beWord bs 0
    let opc := bits q0 3 0
    let len := sldLen opc (bits q0 8 4)
    let k := sldSends opc len
    if bs.length < 16 + pad8 k then none
    else
      let r : SldRec :=
        { opc := opc, len := len, tag := bits q0 31 16, domain := bits (beWord bs 1) 15 0, source := bits (beWord bs 1) 31 16
          off := bits (beWord bs 2) 9 0 * 2 ^ 32 + beWord bs 3, data := sldSwap opc ((bs.drop 16).take k) }
      (decodeSldOps n (bs.drop (16 + pad8 k))).map (r :: ·)

/-- A record of a RESPONSE with its returned data (R366). -/
def sldAnsBytes (opc status tag seq idx : Nat) (data : List Byte) : List Byte :=
  toBE 4 (opc + status * 2 ^ 4 + tag * 2 ^ 16) ++ toBE 4 (seq % 2 ^ 24 + idx * 2 ^ 24) ++ sldSwap opc data ++
    List.replicate (pad8 data.length - data.length) 0

/-- A decoded response record. -/
structure SldRsp where
  opc : Nat
  status : Nat
  tag : Nat
  seq : Nat
  idx : Nat
  /-- the payload from its returned data on -/
  rest : List Byte
  deriving DecidableEq, Repr

/-- Reads one response record. -/
def decodeSldRsp (bs : List Byte) : SldRsp :=
  let s0 := beWord bs 0
  let s1 := beWord bs 1
  ⟨bits s0 3 0, bits s0 7 4, bits s0 31 16, bits s1 23 0, bits s1 27 24, bs.drop 8⟩

/-- Bytes that an operation returns when it is performed (R360). -/
def sldReturns (opc len status : Nat) : Nat :=
  if status ≠ 0 then 0 else if opc = 0 then len else if 2 ≤ opc ∧ opc < 12 then 8 else 0

/-- An atomic of R374: FENCE excluded. -/
def sldAtomic (opc : Nat) : Bool := decide (2 ≤ opc) && decide (opc < 12)

/-! ### Access to the state -/

def State.sldOn (s : State) : Bool := s.flag Reg.SLD_CTRL 0 && !s.flag Reg.RST_BLK_MISC 8
/-- The device's own node number (R355). -/
def State.ownNode (s : State) : Nat := s.field Reg.SLD_NODE_ID 13 0
/-- The device's incarnation (R372). -/
def State.ownInc (s : State) : Nat := s.reg Reg.SLD_INCARNATION
def State.dest (s : State) (n : Nat) : SldDest := s.sld.dests.get {} n
def State.setDest (s : State) (n : Nat) (d : SldDest) : State := { s with sld := { s.sld with dests := s.sld.dests.put n d } }
def State.src (s : State) (n : Nat) : SldSrc := s.sld.srcs.get {} n
def State.setSrc (s : State) (n : Nat) (v : SldSrc) : State := { s with sld := { s.sld with srcs := s.sld.srcs.put n v } }
def State.expelled (s : State) (n : Nat) : Bool := s.sld.expelled.contains n

/-- The peer's entry is VALID. -/
def State.peerValid (s : State) (n : Nat) : Bool := match s.sld.peers.look n with
  | some p => p.valid
  | none => false

/-- Hands a payload for a node to Hallstand with the headers of R363. -/
def State.sldSend (s : State) (n : Nat) (payload : List Byte) : State :=
  match s.sld.peers.look n with
  | none => s
  | some p =>
    let f : SldFrame :=
      { mac := p.mac, vlan := if p.tagged then some (p.vid, p.pcp) else none, hop := p.hop, v6 := p.v6
        src := s.sld.locals.get 0 p.mac, dst := p.ip, sport := 49152 + n, dport := s.field Reg.SLD_UDP_PORT 15 0
        dscp := s.field Reg.SLD_QOS 9 4, ecn := 2, ttl := 64, tc := max 4 (s.field Reg.SLD_QOS 3 0), payload := payload }
    ({ s with sld := { s.sld with tx := s.sld.tx ++ [f] } }).bump Reg.SLD_TX_PKTS 1

/-! ### The requester -/

/-- The bytes of a REQUEST packet; OPEN is set while no incarnation of the peer is known. -/
def State.sldRequest (s : State) (n : Nat) (p : SldPkt) (retx : Bool) : List Byte :=
  let inc := (s.dest n).peerInc
  sldHeader 0 (b2n (inc == 0) + 2 * b2n retx) 1 0 s.ownNode n p.seq s.ownInc inc ++ sldOpBytes p.op

/-- The current timeout of a destination in µs: SLD_RTO_MIN_US until something changes it (R371). -/
def State.rtoOf (s : State) (d : SldDest) : Nat := if d.rto = 0 then s.reg Reg.SLD_RTO_MIN_US else d.rto

/-- Operations may go out to a node now. -/
def State.sldClear (s : State) (n : Nat) : Bool :=
  s.sldOn && !s.sld.selfFenced && !s.expelled n && !(s.dest n).lost && (n == s.ownNode || s.peerValid n)

/-- Unacknowledged stores of a source, to every node (R376). -/
def State.sldUnacked (s : State) (source : Nat) : Nat :=
  (s.sld.dests.map fun e => e.2.pkts.countP fun p => p.op.opc == 1 && p.op.source == source).sum

/-- R374, R376: a held operation is within its limits and none of its source waits before it; `unacked` counts the stores of a
source. -/
def sldMay (unacked : Nat → Nat) (d : SldDest) (before : List SldOp) (o : SldOp) : Bool :=
  (before.all fun b => b.source != o.source) &&
    (!sldAtomic o.opc || decide (d.pkts.countP (fun p => sldAtomic p.op.opc) < 64)) &&
    (o.opc != 1 || decide (unacked o.source < 16))

/-- The first held operation that may be sent, with those before and after it. -/
def sldNext (unacked : Nat → Nat) (d : SldDest) : List SldOp → List SldOp → Option (List SldOp × SldOp × List SldOp)
  | _, [] => none
  | before, o :: t => if sldMay unacked d before o then some (before, o, t) else sldNext unacked d (before ++ [o]) t

/-- Sends held operations to a node in issue order while its window has room (R367, R369). The node's own responder takes an
operation of its own node directly (R355). DESIGN CHOICE: until the first packet, which carries OPEN, is answered, no other is
sent (log 22). -/
def State.sldPump (s : State) (n : Nat) : Nat → State
  | 0 => s
  | k + 1 =>
    let d := s.dest n
    if !s.sldClear n || decide (d.w ≤ d.pkts.length) || (d.peerInc == 0 && !d.pkts.isEmpty && n != s.ownNode) then s
    else
      match sldNext s.sldUnacked d [] d.held with
      | none => s
      | some (before, o, after) =>
        let atom := sldAtomic o.opc
        let o := { o with tag := if atom then d.atomSeq else d.tag }
        let p : SldPkt := ⟨d.seq, o, s.clk⟩
        let d := { d with
          held := before ++ after, pkts := d.pkts ++ [p], seq := (d.seq + 1) % 2 ^ 24
          tag := if atom then d.tag else (d.tag + 1) % 2 ^ 16, atomSeq := if atom then (d.atomSeq + 1) % 2 ^ 16 else d.atomSeq }
        let s := s.setDest n d
        if n = s.ownNode then
          let a : SldAcc :=
            { src := n, seq := p.seq, idx := 0, opc := o.opc, len := o.len, off := o.off, domain := o.domain, source := o.source
              tag := o.tag, data := o.data, echo := false, inc := s.ownInc, loc := true }
          ({ s with sld := { s.sld with acc := s.sld.acc ++ [a] } }).sldPump n k
        else (s.sldSend n (s.sldRequest n p false)).sldPump n k

/-- Sends what a node's state allows. -/
def State.sldRun (s : State) (n : Nat) : State := s.sldPump n (s.dest n).held.length

/-- Sends what the states of all nodes allow: an answer may let a store of its source to another node go (R376). -/
def State.sldRunAll (s : State) : State := s.sld.dests.foldl (fun s e => s.sldRun e.1) s

/-- Issues an operation (R360, R361). -/
def State.sldIssue (s : State) (o : SldOp) : State :=
  let o := { o with since := s.clk }
  let d := s.dest o.node
  (s.setDest o.node { d with held := d.held ++ [o] }).sldRun o.node

/-- An operation is answered: its packet retires and the answer goes to its requester, or is discarded where the context is gone
(R373). -/
def State.sldAnswer (s : State) (n : Nat) (seq tag opc status : Nat) (data : List Byte) : State :=
  let d := s.dest n
  match d.pkts.find? fun p => p.seq == seq && p.op.tag == tag && p.op.opc == opc with
  | none => s
  | some p =>
    let s := s.setDest n { d with pkts := d.pkts.filter (·.seq != seq) }
    if p.op.who == .gone then
      if p.op.source < 3072 then s.bump (Reg.TIN_LATE_DROP (p.op.source / 16 / 8) (p.op.source / 16 % 8)) 1 else s
    else { s with sld := { s.sld with ans := s.sld.ans ++ [⟨p.op, status, data⟩] } }

/-- The records of a RESPONSE, each answering one operation. -/
def State.sldAnswers (s : State) (n : Nat) (bs : List Byte) : Nat → State
  | 0 => s
  | k + 1 =>
    if bs.length < 8 then s
    else
      let r := decodeSldRsp bs
      let len := match (s.dest n).pkts.find? (fun p => p.seq == r.seq) with
        | some p => sldReturns r.opc p.op.len r.status
        | none => sldReturns r.opc 0 r.status
      let s := if r.idx = 0 then s.sldAnswer n r.seq r.tag r.opc r.status (sldSwap r.opc (r.rest.take len)) else s
      s.sldAnswers n (r.rest.drop (pad8 len)) k

/-- The answer to a host entry, if it has come. -/
def State.hostAns (s : State) (e : SldEntry) : Option SldAns := s.sld.ans.find? fun a => a.op.who == .host e.queue e.id

/-- Completes the first answered entry of those that no earlier entry of their queue holds back (R405). -/
def State.hostComplete (s : State) : List SldEntry → List Nat → Option State
  | [], _ => none
  | e :: t, held =>
    if held.contains e.queue then s.hostComplete t held
    else
      match s.hostAns e with
      | none => s.hostComplete t (e.queue :: held)
      | some a =>
        let s : State := { s with sld := { s.sld with ans := s.sld.ans.erase a, entries := s.sld.entries.erase e } }
        let s := if e.opc = 0 ∧ a.status = 0 then s.devWrite e.fn e.dst a.data else s
        let old := if sldAtomic e.opc && a.status == 0 then fromLE a.data else 0
        some (s.sendRec e.pair e.fn e.gen (.source e.queue) (words [e.opc + 16 * a.status + 2 ^ 16 * e.gen, 0, e.cookie % 2 ^ 32, e.cookie / 2 ^ 32,
          old % 2 ^ 32, old / 2 ^ 32, 0, 0]))

/-- Completes host entries in entry order. -/
def State.hostRun (s : State) : Nat → State
  | 0 => s
  | n + 1 => match s.hostComplete s.sld.entries [] with
    | some s' => s'.hostRun n
    | none => s

/-- Completes every host entry that can complete. -/
def State.hostDone (s : State) : State := s.hostRun s.sld.entries.length

/-- A frame of the Solder port is taken (R363, R364, R382): Solder is enabled, the checksum and the version hold, it is addressed
to this node and of this kind. SLD_EXPELLED_DROP counts the requests that R370 drops. -/
def State.sldTake (s : State) (bs : List Byte) (kind : Nat) (sumOk : Bool) : State × Option SldHdr :=
  if !s.sldOn then (s, none)
  else if !sumOk then (s.bump Reg.SLD_CHECKSUM_DROP 1, none)
  else
    let h := decodeSldHdr bs
    let s := s.bump Reg.SLD_RX_PKTS 1
    if bs.length < 24 ∨ h.version ≠ 1 ∨ h.kind ≠ kind ∨ h.dst ≠ s.ownNode then (s, none)
    else if kind ≠ 3 && (s.sld.selfFenced || s.expelled h.src) then (s.when (kind == 0) (·.bump Reg.SLD_EXPELLED_DROP 1), none)
    else (s, some h)

/-- R376: an echo halves W, at most once per 20 µs. -/
def State.sldEcho (s : State) (n : Nat) : State :=
  let s := s.bump Reg.SLD_ECN_ECHO_RX 1
  let d := s.dest n
  let again := match d.echoAt with
    | some t => decide (20 ≤ s.usSince t)
    | none => true
  if again then s.setDest n { d with w := max 1 (d.w / 2), echoAt := some s.clk } else s

/-- SOLDER_RESPONSE_RECEIVE (R366, R371, R376). DEDUCED: a response that names another incarnation of either side answers nothing
(log 43). -/
def execSolderResponseReceive (bs : List Byte) (sumOk : Bool) (s : State) : Host.Outcome State Fault Refusal :=
  .next (match s.sldTake bs 1 sumOk with
    | (s, none) => s
    | (s, some h) =>
      let n := h.src
      let d := s.dest n
      if h.peer ≠ s.ownInc ∨ (d.peerInc ≠ 0 ∧ d.peerInc ≠ h.inc) ∨ d.lost then s
      else
        let s := s.setDest n { d with peerInc := h.inc, rto := 0 }
        let s := s.when h.echo (·.sldEcho n)
        (s.sldAnswers n (bs.drop 24) h.ops).sldRunAll.hostDone)

/-- Sends packets again with RETX set. -/
def State.sldResend (s : State) (n : Nat) (ps : List SldPkt) : State :=
  let s := ps.foldl (fun s p => (s.sldSend n (s.sldRequest n p true)).bump Reg.SLD_RETX 1) s
  let d := s.dest n
  let mark (p : SldPkt) : SldPkt := if ps.contains p then { p with sent := s.clk } else p
  s.setDest n { d with pkts := d.pkts.map mark }

/-- SOLDER_NAK_RECEIVE (R370 to R372): GAP retransmits from the SEQ it carries; NO_SESSION reopens, or marks the peer LOST while
operations are unretired. -/
def execSolderNakReceive (bs : List Byte) (sumOk : Bool) (s : State) : Host.Outcome State Fault Refusal :=
  .next (match s.sldTake bs 2 sumOk with
    | (s, none) => s
    | (s, some h) =>
      let n := h.src
      let d := s.dest n
      if h.peer ≠ s.ownInc ∨ d.lost then s
      else if h.reason = 1 then s.sldResend n ((d.pkts.filter fun p => !seqStale 24 p.seq h.seq).take d.w)
      else if h.reason = 2 then
        if d.pkts.isEmpty then (s.setDest n { d with peerInc := 0 }).sldRun n
        else (s.setDest n { d with lost := true }).pfEvent 0x011C n d.pkts.length 0 0
      else s)

/-- RETRANSMIT_TIMEOUT (R371): the oldest unretired packet of a destination has waited a full timeout. -/
def execRetransmitTimeout (n : Nat) (s : State) : Host.Outcome State Fault Refusal :=
  .next (
    let d := s.dest n
    if d.pkts.isEmpty || !s.sldClear n || n == s.ownNode then s
    else
      let s := s.sldResend n (d.pkts.take d.w)
      s.setDest n { s.dest n with w := 1, rto := min (2 * s.rtoOf d) (s.reg Reg.SLD_RTO_MAX_US) })

/-- WINDOW_INCREASE (R376): 20 µs without an echo raise W by 1. -/
def execWindowIncrease (n : Nat) (s : State) : Host.Outcome State Fault Refusal :=
  .next (
    let d := s.dest n
    (s.setDest n { d with w := min 1024 (d.w + 1) }).sldRun n)

/-! ### Enabling, peers and domains -/

/-- A write of SLD_CTRL. -/
def State.sldCtrl (s : State) (v : W32) : State :=
  let on := v.toNat.testBit 0
  let was := s.sldOn
  let s := s.setReg Reg.SLD_CTRL (v.toNat % 2)
  if on && !was then
    let s := (s.setReg Reg.SLD_INCARNATION (Config.freeValue s.nonce % (2 ^ 32 - 1) + 1)).tickNonce
    let s := s.setField Reg.SLD_STATUS 0 0 1
    s.sldRunAll
  else if !on && was then
    let s := s.setField Reg.SLD_STATUS 0 0 0
    let close (d : SldDest) : SldDest := { d with peerInc := 0, lost := d.lost || !d.pkts.isEmpty }
    { s with sld := { s.sld with srcs := [], dests := s.sld.dests.map fun e => (e.1, close e.2) } }
  else s

/-- SLD_CTRL_EN (R372, R385): a write of SLD_CTRL. Enabling draws a new incarnation; disabling drops all sessions. DESIGN CHOICE:
a peer with unretired operations is then LOST, since no session of theirs is left (log 21). -/
def execSldCtrlEn (v : W32) (s : State) : Host.Outcome State Fault Refusal :=
  .next (s.sldCtrl v)

/-- A state of the peer window (R385). -/
def SldDest.code (d : SldDest) : Nat := if d.lost then 2 else if d.peerInc = 0 then 0 else 1

/-- A write of SLD_PEER_SEL. -/
def State.sldPeerSel (s : State) (v : W32) : State :=
  let n := v.toNat % 2 ^ 14
  let d := s.dest n
  let s := s.setReg Reg.SLD_PEER_SEL n
  let s := s.setReg Reg.SLD_PEER_STATE (d.code + 4 * b2n (s.expelled n) + 8 * d.w)
  let s := s.setReg Reg.SLD_PEER_UNRETIRED d.pkts.length
  let s := s.setReg Reg.SLD_PEER_RTO_US (s.rtoOf d)
  s.setReg Reg.SLD_PEER_OLDEST_US ((d.pkts.map fun p => s.usSince p.op.since).foldl max 0)

/-- SLD_PEER_SEL (R385): a write selects a peer and loads its state into the window. -/
def execSldPeerSel (v : W32) (s : State) : Host.Outcome State Fault Refusal :=
  .next (s.sldPeerSel v)

/-- SLD_LOCAL_SET (R356, R383): the source address of a logical MAC. -/
def execSldLocalSet (i : Issuer) (mac ip : Nat) (s : State) : Host.Outcome State Fault Refusal :=
  .next (s.command i 0x0501 fun _ _ =>
    if 64 ≤ mac then .error stArgument else .ok ({ s with sld := { s.sld with locals := s.sld.locals.put mac (ip % 2 ^ 128) } }, []))

/-- SLD_PEER_SET (R356): the words P0 to P7 of a node's entry. -/
def execSldPeerSet (i : Issuer) (n : Nat) (ps : List W32) (s : State) : Host.Outcome State Fault Refusal :=
  .next (s.command i 0x0502 fun _ _ =>
    let p (k : Nat) : Nat := (nth 0 ps k).toNat
    let v6 := bit (p 0) 6
    if 2 ^ 14 ≤ n ∨ ps.length ≠ 8 ∨ bits (p 0) 31 24 ≠ 0 ∨ bits (p 2) 31 16 ≠ 0 ∨ p 3 ≠ 0 ∨
        (!v6 && (p 5 != 0 || p 6 != 0 || p 7 != 0)) then .error stArgument
    else
      let e : SldPeer :=
        { mac := bits (p 0) 5 0, v6 := v6, valid := bit (p 0) 7, tagged := bit (p 0) 8, vid := bits (p 0) 20 9, pcp := bits (p 0) 23 21
          hop := p 1 + 2 ^ 32 * bits (p 2) 15 0, ip := p 4 + 2 ^ 32 * p 5 + 2 ^ 64 * p 6 + 2 ^ 96 * p 7 }
      .ok (({ s with sld := { s.sld with peers := s.sld.peers.put n e } }).sldRun n, []))

/-- SLD_PEER_REOPEN (R372): ends LOST, once no unretired operation belongs to a context that still exists. -/
def execSldPeerReopen (i : Issuer) (n : Nat) (s : State) : Host.Outcome State Fault Refusal :=
  .next (s.command i 0x0503 fun _ _ =>
    let d := s.dest n
    if 2 ^ 14 ≤ n then .error stArgument
    else if d.pkts.any (fun p => p.op.ctx.isSome) then .error stBusy
    else if d.lost then .ok ((s.setDest n { d with lost := false, peerInc := 0, pkts := [] }).sldRunAll, [])
    else .ok (s, []))

/-- SLD_FUNC_DOMAIN (R357): a function's domain. -/
def execSldFuncDomain (i : Issuer) (fn domain : Nat) (s : State) : Host.Outcome State Fault Refusal :=
  .next (s.command i 0x0504 fun _ _ =>
    if 1024 ≤ fn ∨ 2 ^ 16 ≤ domain then .error stArgument else .ok (s.setFunc fn { s.func fn with domain := domain }, []))

end Sys2Proof.Machine
end

