-- ==== Sys2Proof/Machine/Ingress.lean ====
section
/-! DEFINITION. Ingress (R293 to R295, R349 to R351), policers (R350) and receive steering (R403, R404). -/

namespace Sys2Proof.Machine

/-! ### Frame fields -/

/-- Byte i of a frame. -/
def fb (bs : List Byte) (i : Nat) : Nat := (nth 0 bs i).toNat
/-- Two bytes of a frame, in network order. -/
def fw (bs : List Byte) (i : Nat) : Nat := fb bs i * 256 + fb bs (i + 1)

/-- The frame carries an 802.1Q tag. -/
def isTagged (bs : List Byte) : Bool := fw bs 12 == 0x8100
/-- The offset of its ethertype behind one tag. -/
def typeOff (bs : List Byte) : Nat := if isTagged bs then 16 else 12
/-- Its ethertype. -/
def etherType (bs : List Byte) : Nat := fw bs (typeOff bs)
/-- The offset of its payload. -/
def payOff (bs : List Byte) : Nat := typeOff bs + 2
/-- The tag control word. -/
def tci (bs : List Byte) : Nat := if isTagged bs then fw bs 14 else 0
def isV4 (bs : List Byte) : Bool := etherType bs == 0x0800
def isV6 (bs : List Byte) : Bool := etherType bs == 0x86DD
/-- The IP protocol of its payload, and where that begins. -/
def ipProto (bs : List Byte) : Option (Nat × Nat) :=
  let p := payOff bs
  if isV4 bs then some (fb bs (p + 9), p + fb bs p % 16 * 4) else if isV6 bs then some (fb bs (p + 6), p + 40) else none
/-- The destination port of a UDP frame. -/
def udpPort (bs : List Byte) : Option Nat :=
  match ipProto bs with
  | some (17, o) => some (fw bs (o + 2))
  | _ => none
/-- DSCP of an IP frame. -/
def dscpOf (bs : List Byte) : Option Nat :=
  let p := payOff bs
  if isV4 bs then some (fb bs (p + 1) / 4) else if isV6 bs then some (fw bs p / 16 % 256 / 4) else none

/-- CRC-32C of bytes (R404). PRESUMED: reflected, with all ones before and after (log 24). -/
def crc32c (bs : List Byte) : Nat :=
  let step (c : Nat) : Nat := if c % 2 = 1 then (c / 2) ^^^ 0x82F63B78 else c / 2
  let byte (c : Nat) (b : Byte) : Nat := (List.range 8).foldl (fun c _ => step c) (c ^^^ b.toNat)
  bs.foldl byte 0xFFFFFFFF ^^^ 0xFFFFFFFF

/-- The steering hash h of R404. -/
def flowHash (bs : List Byte) : Nat :=
  let p := payOff bs
  match ipProto bs with
  | some (k, o) =>
    if k = 6 ∨ k = 17 then
      let ips := if isV4 bs then (bs.drop (p + 12)).take 8 else (bs.drop (p + 8)).take 32
      crc32c (ips ++ (bs.drop o).take 4)
    else 0
  | none => 0

/-! ### Fronthaul (R293 to R295) -/

/-- What the classifier sees of a fronthaul frame: PROTO, PLANE and eAxC; none for an unsupported option. PRESUMED from IEEE 1914.3:
subtype 128 carries U-plane and subtype 0 C-plane, with the flow identifier as eAxC (log 25). -/
def fronthaul (bs : List Byte) : Option (Nat × Nat × Nat) :=
  let p := payOff bs
  if etherType bs = 0xAEFE then
    if fb bs p / 16 ≠ 1 then none
    else
      match fb bs (p + 1) with
      | 0 => some (0, 0, fw bs (p + 4))
      | 2 => if [1, 3, 5, 6].contains (fb bs (p + 13)) then some (0, 1, fw bs (p + 4)) else none
      | 5 => some (0, 2, 0)
      | _ => none
  else
    match fb bs p with
    | 128 => some (1, 0, fb bs (p + 1))
    | 0 => some (1, 1, fb bs (p + 1))
    | _ => none

/-- A fronthaul frame behind two VLAN tags, which R293 does not support. -/
def twoTags (bs : List Byte) : Bool := isTagged bs && fw bs 16 == 0x8100 && (fw bs 20 == 0xAEFE || fw bs 20 == 0xFC3D)

/-- The classifier entry that a frame of a MAC matches (R294). -/
def FhEntry.hits (e : FhEntry) (m : Nat) (bs : List Byte) (f : Nat × Nat × Nat) : Bool :=
  e.mac == m && e.tagged == isTagged bs && (!e.tagged || e.vid == tci bs % 4096) && e.proto == f.1 && e.plane == f.2.1 &&
    (f.2.2 &&& e.mask) == (e.eaxc &&& e.mask)

/-! ### Policers (R350) -/

def State.policer (s : State) (k : Nat) : Policer := s.net.policers.get {} k
def State.setPolicer (s : State) (k : Nat) (p : Policer) : State := { s with net := { s.net with policers := s.net.policers.put k p } }

/-- Tokens accrue to tick `now`: two-rate buckets on their own, the excess of a single-rate CBS into EBS. -/
def Policer.accrue (p : Policer) (now : Nat) : Policer :=
  if bit p.cfg 1 then { p with c := p.c.refill p.cir p.cbs now, e := p.e.refill p.pir p.ebs now }
  else
    let c := p.c.refill p.cir p.cbs now
    let overflow := (p.c.credit + Int.ofNat (p.cir * (now - p.c.at_))) - c.credit
    { p with c := c, e := { credit := min (Int.ofNat (p.ebs * 8000)) (p.e.credit + max 0 overflow), at_ := now } }

/-- Meters `n` bytes of a frame of arrival colour `a`, as RFC 2697 or RFC 2698: 0 green, 1 yellow, 2 red. -/
def Policer.meter (p : Policer) (a n : Nat) : Policer × Nat :=
  let need : Int := Int.ofNat (n * 8000)
  if bit p.cfg 1 then
    if a = 2 ∨ p.e.credit < need then (p, 2)
    else if a = 1 ∨ p.c.credit < need then ({ p with e := p.e.take n }, 1)
    else ({ p with c := p.c.take n, e := p.e.take n }, 0)
  else if a = 0 ∧ need ≤ p.c.credit then ({ p with c := p.c.take n }, 0)
  else if a ≤ 1 ∧ need ≤ p.e.credit then ({ p with e := p.e.take n }, 1)
  else (p, 2)

/-- Counts a colour. -/
def Policer.tally (p : Policer) (c : Nat) : Policer :=
  match c with
  | 0 => { p with green := p.green + 1 }
  | 1 => { p with yellow := p.yellow + 1 }
  | _ => { p with red := p.red + 1 }

/-- The policer that a MAC chooses for a frame, if any. -/
def State.policerOf (s : State) (m : Nat) (bs : List Byte) : Option Nat :=
  let r := match s.field (Reg.HST_POLSEL m) 1 0 with
    | 1 => s.reg (Reg.HST_PCP_POL m (tci bs / 2 ^ 13))
    | 2 => s.reg (Reg.HST_DSCP_POL m ((dscpOf bs).getD 0))
    | _ => 0
  if bit r 16 then some (r % 2 ^ 16) else none

/-- The colour map of a MAC (R350): 3 acts as red. -/
def State.arrivalColour (s : State) (m : Nat) (bs : List Byte) : Nat :=
  let d := (dscpOf bs).getD 0
  let c := if s.flag (Reg.HST_POLSEL m) 2 then bits (s.reg (Reg.HST_CMAP_DSCP m (d / 16))) (2 * (d % 16) + 1) (2 * (d % 16))
    else
      let i := 2 * (tci bs / 2 ^ 13) + tci bs / 2 ^ 12 % 2
      bits (s.reg (Reg.HST_CMAP_PCP m)) (2 * i + 1) (2 * i)
  min 2 c

/-- Sets DEI in the outer tag, where there is one. -/
def setDei (bs : List Byte) : List Byte :=
  if isTagged bs && (tci bs / 2 ^ 12) % 2 == 0 then setNth bs 14 (BitVec.ofNat 8 (fb bs 14 + 16)) else bs

/-- Polices a frame: its colour and bytes, or none where it is dropped. -/
def State.police (s : State) (m : Nat) (bs : List Byte) : State × Option (Nat × List Byte) :=
  match s.policerOf m bs with
  | none => (s, some (0, bs))
  | some k =>
    let p := s.policer k
    if !bit p.cfg 0 then (s, some (0, bs))
    else
      let a := if bit p.cfg 2 then s.arrivalColour m bs else 0
      let (p, c) := (p.accrue s.clk).meter a (s.counted m (bs.length + 4))
      let s := s.setPolicer k (p.tally c)
      let act := if c = 0 then 0 else if c = 1 then bits p.cfg 4 3 else if bit p.cfg 5 then 1 else 2
      match act with
      | 0 => (s, some (c, bs))
      | 1 => (s, some (c, setDei bs))
      | _ => (s.bump (Reg.ETH_RX_POLICED (m / 8) (m % 8)) 1, none)

/-- A write of HST_POL_SEL. -/
def State.polSel (s : State) (w : W32) : State :=
  let k := w.toNat % 2 ^ 16
  let p := s.policer k
  let s := s.setReg Reg.HST_POL_SEL k
  let s := (((s.setReg Reg.HST_POL_CFG p.cfg).setReg Reg.HST_POL_CIR p.cir).setReg Reg.HST_POL_CBS p.cbs).setReg Reg.HST_POL_PIR p.pir
  (((s.setReg Reg.HST_POL_EBS_PBS p.ebs).setReg64 Reg.HST_POL_GREEN p.green).setReg64 Reg.HST_POL_YELLOW p.yellow).setReg64
    Reg.HST_POL_RED p.red

/-- HST_POL_SEL (R354): a write selects a policer and loads its fields into the window. -/
def execHstPolSel (w : W32) (s : State) : Host.Outcome State Fault Refusal :=
  .next (s.polSel w)

/-- A write of the policer window applies to the selected policer; enabling it fills both buckets (R350). -/
def State.polWritten (s : State) : State :=
  let k := s.field Reg.HST_POL_SEL 15 0
  let old := (s.policer k).accrue s.clk
  let p : Policer := { old with
    cfg := s.reg Reg.HST_POL_CFG, cir := s.field Reg.HST_POL_CIR 19 0, cbs := s.field Reg.HST_POL_CBS 24 0
    pir := s.field Reg.HST_POL_PIR 19 0, ebs := s.field Reg.HST_POL_EBS_PBS 24 0 }
  let full (n : Nat) : Bucket := { credit := Int.ofNat (n * 8000), at_ := s.clk }
  s.setPolicer k (if bit p.cfg 0 && !bit old.cfg 0 then { p with c := full p.cbs, e := full p.ebs } else p)

/-! ### Receive queues (R351, R397, R403) -/

/-- A frame is dropped at a receive queue. -/
def State.rxDrop (s : State) (q m : Nat) : State := (s.bump (Reg.QUE_DROPS q) 1).bump (Reg.ETH_RX_DROP (m / 8) (m % 8)) 1

/-- A received frame with what its completion tells. -/
structure RxFrame where
  mac : Nat
  bytes : List Byte
  colour : Nat
  ptp : Bool
  stamp : List Nat
  deriving DecidableEq, Repr

/-- Writes a frame into the buffer at slot C of a receive queue and forms its completion (R351); `ring` is the buffer entry as host
memory holds it. -/
def State.rxDeliver (s : State) (f : RxFrame) (q : Nat) (ring : ExtData) : State :=
  let v := s.queue q
  if !v.en || v.typ != 4 || v.failed || v.prod == v.cons || decide (bits v.typeCfg 19 6 < f.bytes.length) then s.rxDrop q f.mac
  else
    match s.ringEntry q v.cons 16 ring with
    | none => (s.failQueue q 0).rxDrop q f.mac
    | some bs =>
      let a := word64At bs 0 % 2 ^ 57
      let s := s.consume q
      if !s.hostOrPinned v.fn a f.bytes.length then s.rxDrop q f.mac
      else
        let gen := (s.func v.fn).gen
        let r0 := f.bytes.length + 2 ^ 14 * f.mac + 2 ^ 20 * f.colour + 2 ^ 22 * b2n f.ptp
        (s.devWrite v.fn a f.bytes).sendRec v.pair v.fn gen (.rx q) (words ([r0, gen] ++ f.stamp ++ [v.cons, 0, 0]))

/-- Delivers a frame to several queues in order, each with its own buffer entry. -/
def State.rxAll (s : State) (f : RxFrame) : List Nat → List ExtData → State
  | [], _ => s
  | q :: qs, rs => (s.rxDeliver f q (rs.headD .error)).rxAll f qs rs.tail

/-- The frame matches a filter (R404). -/
def RxFilter.hits (e : RxFilter) (m : Nat) (bs : List Byte) : Bool :=
  e.mac == m && fromBE (bs.take 6) == e.addr && match e.vid with
    | some v => isTagged bs && tci bs % 4096 == v
    | none => !isTagged bs

/-- The queues of the functions whose filters match: one for each function. -/
def State.rxQueues (s : State) (m : Nat) (bs : List Byte) : List Nat :=
  let hits := (s.net.filters.filter fun (_, e) => e.hits m bs).map (·.2)
  let firsts := hits.foldl (fun (t : Tab RxFilter) e => if (t.look e.fn).isSome then t else t.put e.fn e) []
  firsts.map fun (_, e) => e.base + flowHash bs % max 1 e.count

/-! ### Reception (R349) -/

/-- Steers a frame that has passed the policer. -/
def State.steer (s : State) (f : RxFrame) (rings : List ExtData) : State :=
  let bs := f.bytes
  let m := f.mac
  let drop (s : State) : State := s.bump (Reg.ETH_RX_DROP (m / 8) (m % 8)) 1
  let et := etherType bs
  if twoTags bs then drop s
  else if et = 0xAEFE ∨ et = 0xFC3D then
    match fronthaul bs with
    | none => drop s
    | some k =>
      match s.fh.find? fun e => e.hits m bs k with
      | some e => s.rxDeliver f e.queue (rings.headD .error)
      | none => s.bump (Reg.ETH_RX_UNMATCHED (m / 8) (m % 8)) 1
  else if f.ptp || et == 0x8809 then
    let r := s.reg (Reg.HST_MGMT_RXQ m)
    if bit r 18 then s.rxDeliver f (r % 2 ^ 18) (rings.headD .error)
    else { s with net := { s.net with toFw := s.net.toFw ++ [(m, f.stamp, bs)] } }
  else if s.sldOn && udpPort bs == some (s.field Reg.SLD_UDP_PORT 15 0) then s
  else
    match s.rxQueues m bs with
    | [] => match s.net.dflt with
      | some q => s.rxDeliver f q (rings.headD .error)
      | none => drop s
    | qs => s.rxAll f qs rings

/-- FRAME_RECEIVE (R349): a frame without its FCS, whether the FCS holds, and the buffer entries of the rings in host memory, in the
order of the queues it goes to. The payload of a Solder frame is handled by the Solder rows of the table. -/
def execFrameReceive (m : Nat) (bs : List Byte) (fcsOk : Bool) (rings : List ExtData) (s : State) : Host.Outcome State Fault Refusal :=
  .next (
    let p := m / 8
    let k := m % 8
    if !s.portOn m || !(s.mac m).up then s
    else if !fcsOk then s.bump (Reg.ETH_RX_FCS_ERR p k) 1
    else if s.mtu m < bs.length + 4 then s.bump (Reg.ETH_RX_OVERSIZE p k) 1
    else
      let s := s.bump (Reg.ETH_RX_FRAMES p k) 1
      if etherType bs = 0x8808 then s.bump (Reg.ETH_RX_DROP p k) 1
      else
        let stamp := storedForm (s.stampAt (s.reg (Reg.ETH_TS_INGRESS_ADJ p k)))
        match s.police m bs with
        | (s, none) => s
        | (s, some (c, bs)) =>
          let ptp := etherType bs == 0x88F7 || udpPort bs == some 319 || udpPort bs == some 320
          s.steer { mac := m, bytes := bs, colour := c, ptp := ptp, stamp := stamp } rings)

/-! ### Filters (R404) -/

/-- Filters of a function. -/
def State.filterCount (s : State) (fn : Nat) : Nat := s.net.filters.countP fun (_, e) => e.fn == fn

/-- HST_RXF_ADD (R404): a MAC, a destination address, a VLAN or none for untagged frames, the first of the function's receive queues
and their count; or, for the physical function, the queue that becomes the default. The reply holds the filter's number. -/
def execHstRxfAdd (i : Issuer) (mac addr : Nat) (vid : Option Nat) (base count : Nat) (default_ : Bool) (s : State) : Host.Outcome State Fault Refusal :=
  .next (s.command i 0x0411 fun fn _ =>
    let rx (k : Nat) : Bool := match s.poolQueue fn (base + k) with
      | some q => (s.queue q).en && (s.queue q).typ == 4 && (s.queue q).fn == fn
      | none => false
    match s.poolQueue fn base with
    | none => .error stArgument
    | some q =>
      if default_ then
        if fn ≠ 0 then .error stPermission
        else if !rx 0 then .error stArgument
        else .ok ({ s with net := { s.net with dflt := some q } }, [])
      else if fn ≠ 0 && !(s.func fn).macMask.testBit mac then .error stPermission
      else if 64 ≤ mac || decide (2 ^ 48 ≤ addr) || vid.any (fun v => decide (4096 ≤ v)) || !([1, 2, 4, 8, 16, 32, 64].contains count) ||
          !((List.range count).all rx) then .error stArgument
      else if fn ≠ 0 && decide ((s.func fn).rxFilters ≤ s.filterCount fn) then .error stResource
      else
        match lowestFree 4096 fun k => (s.net.filters.look k).isSome with
        | none => .error stResource
        | some k =>
          let e : RxFilter := { mac := mac, addr := addr, vid := vid, fn := fn, base := q, count := count }
          .ok ({ s with net := { s.net with filters := s.net.filters.put k e } }, [k]))

/-- HST_RXF_DEL (R404): removes a filter of the function. -/
def execHstRxfDel (i : Issuer) (k : Nat) (s : State) : Host.Outcome State Fault Refusal :=
  .next (s.command i 0x0412 fun fn _ =>
    match s.net.filters.look k with
    | none => .error stArgument
    | some e =>
      if fn ≠ 0 ∧ e.fn ≠ fn then .error stPermission
      else .ok ({ s with net := { s.net with filters := s.net.filters.del k } }, []))

end Sys2Proof.Machine
end

