-- ==== Sys2Proof/Machine/Access.lean ====
section
/-! DEFINITION. Accesses of contexts to the tier range under the world map (R447 to R450). -/

namespace Sys2Proof.Machine

/-- The context is of the secure world (R447). -/
def State.secureCtx (s : State) (x : Nat) : Bool := (s.ctx x).secure || (s.ctx x).l1

/-- Requester codes of SEC_VIOL_LAST. -/
def whoTin : Nat := 0
def whoDma : Nat := 1
def whoBronze : Nat := 2
def whoBar4 : Nat := 3
def whoSolder : Nat := 4
def whoReg : Nat := 5

/-- Reads the tier range for a context; a read that the world map forbids returns zeros and is counted. -/
def State.worldRead (s : State) (who x a n : Nat) : State × List Byte :=
  let fs := if s.secureCtx x then [] else s.filtersOn a n false
  if fs.isEmpty then (s, s.tierRead a n) else (s.violation who (s.ctx x).fn x false a fs, List.replicate n 0)

/-- Writes the tier range for a context; a write that the world map forbids is discarded and counted. -/
def State.worldWrite (s : State) (who x a : Nat) (bs : List Byte) : State :=
  let fs := if s.secureCtx x then [] else s.filtersOn a bs.length true
  if bs.isEmpty then s else if fs.isEmpty then s.tierWrite a bs else s.violation who (s.ctx x).fn x true a fs

end Sys2Proof.Machine
end

