-- ==== Sys2Proof/Machine/SolderHome.lean ====
section
/-! DEFINITION. The Solder responder: exports (R357 to R359), requests (R370, R374, R377) and the performance of operations (R360,
R367, R375). -/

namespace Sys2Proof.Machine

/-! ### Exports -/

/-- An export holds n bytes from a window offset. -/
def SldExport.holds (e : SldExport) (o n : Nat) : Bool :=
  decide (e.base * 2 ^ 21 ≤ o) && decide (o + n ≤ (e.base + e.shelves) * 2 ^ 21)

/-- The right of an operation (R358). -/
def SldExport.may (e : SldExport) (opc : Nat) : Bool := if opc = 0 then e.rd else if opc = 1 then e.wr else e.at_

/-- The tier-range address of a window offset (R359). -/
def State.sldHomeAddr (s : State) (e : SldExport) (o : Nat) : Nat :=
  (s.obj e.obj).base + (e.objShelf + o / 2 ^ 21 - e.base) * 2 ^ 21 + o % 2 ^ 21

/-- R359: where an operation's bytes lie, or the status that answers it. DEDUCED: the statuses are tested in the order OPCODE,
ALIGN, ADDR, DENIED, and a FENCE, which has no bytes, needs AT in some export of its domain (log 45). -/
def State.sldLocate (s : State) (opc len off domain : Nat) : Except Nat Nat :=
  if 12 < opc then .error 5
  else if opc = 12 then
    if s.sld.exports.any fun (_, e) => e.domain == domain && e.at_ then .ok 0 else .error 2
  else if off % (if opc = 11 then 4 else 8) ≠ 0 then .error 3
  else
    match s.sld.exports.find? fun (_, e) => e.holds off len with
    | none => .error 1
    | some (_, e) => if e.domain = domain ∧ e.may opc then .ok (s.sldHomeAddr e off) else .error 2

/-- The addresses at which an accepted LOAD waits for a CACHED or STREAM range. -/
def State.sldStalled (s : State) (a : SldAcc) : Option Nat :=
  match s.sldLocate a.opc a.len a.off a.domain with
  | .ok t => if a.opc = 0 && !s.dataReady t a.len then some t else none
  | .error _ => none

/-- A new export overlaps the window of another. -/
def State.sldOverlap (s : State) (base shelves : Nat) : Bool :=
  s.sld.exports.any fun (_, e) => decide (base < e.base + e.shelves) && decide (e.base < base + shelves)

/-- SLD_EXPORT_ADD (R358): the words X0 to X5 of the entry. The reply holds its number. -/
def execSldExportAdd (i : Issuer) (xs : List W32) (s : State) : Host.Outcome State Fault Refusal :=
  .next (s.command i 0x0505 fun fn _ =>
    let x (k : Nat) : Nat := (nth 0 xs k).toNat
    let e : SldExport :=
      { base := bits (x 0) 20 0, shelves := bits (x 1) 21 0, obj := bits (x 2) 19 0, ogen := bits (x 3) 15 0
        domain := bits (x 3) 31 16, rd := bit (x 4) 0, wr := bit (x 4) 1, at_ := bit (x 4) 2, objShelf := bits (x 5) 26 0 }
    match s.objFor fn e.obj e.ogen with
    | .error st => .error st
    | .ok o =>
      if fn ≠ 0 ∧ e.domain ≠ (s.func fn).domain then .error stPermission
      else if e.shelves = 0 ∨ 2097152 < e.shelves ∨ o.st ≠ .ready ∨ o.shelves < e.objShelf + e.shelves ∨
          2097152 < e.base + e.shelves || s.sldOverlap e.base e.shelves || ((e.wr || e.at_) && o.policy != .pinned) then
        .error stArgument
      else
        match lowestFree 1024 (fun k => (s.sld.exports.look k).isSome) with
        | none => .error stResource
        | some k => .ok ({ s with sld := { s.sld with exports := s.sld.exports.put k e } }, [k]))

/-! ### Responses -/

/-- Sends the answer of an operation to its source; nothing goes to an expelled node or out of a self-fenced device (R381, R382),
nor to a session that is gone. -/
def State.sldReply (s : State) (a : SldAcc) (status : Nat) (data : List Byte) : State :=
  if a.loc then s.sldAnswer a.src a.seq a.tag a.opc status data
  else
    let v := s.src a.src
    if s.sld.selfFenced || s.expelled a.src || v.inc != a.inc || !s.sldOn then s
    else
      s.sldSend a.src (sldHeader 1 (4 * b2n a.echo) 1 0 s.ownNode a.src v.expected s.ownInc v.inc ++
        sldAnsBytes a.opc status a.tag a.seq a.idx data)

/-- Keeps an atomic's result in the replay table (R374). -/
def State.sldKeep (s : State) (a : SldAcc) (status old : Nat) : State :=
  let v := s.src a.src
  if sldAtomic a.opc && !a.loc && v.inc == a.inc then s.setSrc a.src { v with replay := v.replay.put (a.tag % 64) ⟨a.tag, status, old⟩ } else s

/-- A responder's reader of a shelf or page. -/
def SldAcc.reader (a : SldAcc) : Reader := .solder a.src a.seq

/-- Removes an export: a LOAD stalled on it is answered ADDR at once and drops its reference (R358). -/
def State.sldDropExport (s : State) (k : Nat) : State :=
  match s.sld.exports.look k with
  | none => s
  | some e =>
    let hit (a : SldAcc) : Bool := e.holds a.off a.len && (s.sldStalled a).isSome
    let out := s.sld.acc.filter hit
    let s := { s with sld := { s.sld with exports := s.sld.exports.del k, acc := s.sld.acc.filter fun a => !hit a } }
    out.foldl (fun s a => (s.dropReader a.reader).sldReply a 1 []) s

/-- SLD_EXPORT_DEL (R358). -/
def execSldExportDel (i : Issuer) (k : Nat) (s : State) : Host.Outcome State Fault Refusal :=
  .next (s.command i 0x0506 fun fn _ =>
    match s.sld.exports.look k with
    | none => .error stArgument
    | some e => if fn ≠ 0 ∧ (s.obj e.obj).fn ≠ fn then .error stPermission else .ok (s.sldDropExport k, []))

/-! ### Requests -/

/-- Operations the inbound queue holds (R377). -/
def sldInbound : Nat := 65536

/-- The accepted form of a record. -/
def SldHdr.acc (h : SldHdr) (idx : Nat) (r : SldRec) (echo : Bool) : SldAcc :=
  { src := h.src, seq := h.seq, idx := idx, opc := r.opc, len := r.len, off := r.off, domain := r.domain, source := r.source
    tag := r.tag, data := r.data, echo := echo, inc := h.inc, loc := false }

/-- The accepted forms of a packet's records, with their indexes. -/
def SldHdr.accs (h : SldHdr) (echo : Bool) : Nat → List SldRec → List SldAcc
  | _, [] => []
  | k, r :: t => h.acc k r echo :: h.accs echo (k + 1) t

/-- Puts operations into the inbound queue. -/
def State.sldQueue (s : State) (as : List SldAcc) : State := { s with sld := { s.sld with acc := s.sld.acc ++ as } }

/-- A packet in sequence: accepted, or dropped whole where it does not fit (R370, R377). -/
def State.sldAccept (s : State) (h : SldHdr) (rs : List SldRec) (ce : Bool) : State :=
  let v := s.src h.src
  let n := s.sld.acc.length
  if sldInbound < n + rs.length then s.bump Reg.SLD_RX_OVERFLOW 1
  else
    let echo := ce || decide (s.field Reg.SLD_ECN_THRESH 16 0 < n)
    (s.setSrc h.src { v with expected := (v.expected + 1) % 2 ^ 24 }).sldQueue (h.accs echo 0 rs)

/-- One operation of a duplicate packet (R370, R374). -/
def State.sldDup (s : State) (a : SldAcc) : State :=
  let busy := s.sld.acc.any fun b => b.src == a.src && b.seq == a.seq && b.idx == a.idx && b.inc == a.inc && !b.loc
  if busy then s
  else if a.opc = 1 then s.sldReply a 0 []
  else if sldAtomic a.opc then
    match (s.src a.src).replay.look (a.tag % 64) with
    | some e =>
      if e.tag = a.tag then (s.bump Reg.SLD_REPLAY_HITS 1).sldReply a e.status (if e.status = 0 then toLE 8 e.old else []) else s
    | none => s
  else s.sldQueue [a]

/-- A NAK to a node (R370). -/
def State.sldNak (s : State) (n reason inc : Nat) : State :=
  (s.sldSend n (sldHeader 2 0 0 reason s.ownNode n (s.src n).expected s.ownInc inc)).bump Reg.SLD_NAK_TX 1

/-- NAK GAP, at most once per 10 µs per session (R370). -/
def State.sldGap (s : State) (n : Nat) : State :=
  let v := s.src n
  let again := match v.nakAt with
    | some t => decide (10 ≤ s.usSince t)
    | none => true
  if again then (s.setSrc n { v with nakAt := some s.clk }).sldNak n 1 v.inc else s

/-- SOLDER_REQUEST_RECEIVE (R370): the payload of a REQUEST, whether it arrived marked CE and whether its UDP checksum holds. -/
def execSolderRequestReceive (bs : List Byte) (ce sumOk : Bool) (s : State) : Host.Outcome State Fault Refusal :=
  .next (match s.sldTake bs 0 sumOk with
    | (s, none) => s
    | (s, some h) =>
      match (if h.ops = 0 ∨ 16 < h.ops then none else decodeSldOps h.ops (bs.drop 24)) with
      | none => s
      | some rs =>
        let known := (s.sld.srcs.look h.src).isSome
        let v := s.src h.src
        if h.isOpen && (!known || v.inc != h.inc) then
          (s.setSrc h.src { inc := h.inc, expected := h.seq }).sldAccept h rs ce
        else if known && v.inc == h.inc && (h.isOpen || h.peer == s.ownInc) then
          if h.seq = v.expected then s.sldAccept h rs ce
          else if seqNewer 24 h.seq v.expected then s.sldGap h.src
          else (h.accs false 0 rs).foldl (fun s a => s.sldDup a) (s.bump Reg.SLD_DUP_RX 1)
        else s.sldNak h.src 2 h.inc)

/-! ### Performance -/

/-- A float add of R360. -/
def sldFAdd (f : FFmt) (a b : Nat) : Nat := encodeF f .rne (addF (decodeF f a) (decodeF f b))

/-- The new value of an atomic (R360): the old value, the operand and, for CAS, the value it stores. -/
def sldNew (opc old x y : Nat) : Nat :=
  match opc with
  | 2 => (old + x) % 2 ^ 64
  | 3 => x
  | 4 => if old = x then y else old
  | 5 => if sext 64 x < sext 64 old then x else old
  | 6 => if sext 64 old < sext 64 x then x else old
  | 7 => old &&& x
  | 8 => old ||| x
  | 9 => old ^^^ x
  | 10 => sldFAdd fp64 old x
  | _ => sldFAdd fp32 old x

/-- Entry `a` of the inbound queue must wait behind one before it: one of its source, or one on a line it touches (R367, R375). -/
def sldBehind (a : SldAcc) (before : List SldAcc) : Bool :=
  before.any fun b => (b.src == a.src && b.source == a.source && b.loc == a.loc) ||
    (b.opc != 12 && a.opc != 12 && (granulesOf b.off b.len).any (granulesOf a.off a.len).contains)

/-- The world filters of a remote access (R447 to R449); an export's object belongs to no context. -/
def State.sldForbidden (s : State) (a : SldAcc) (t : Nat) : List Nat := s.filtersOn t a.len (a.opc != 0)

/-- Performs an operation at its tier-range address and answers it. -/
def State.sldPerform (s : State) (a : SldAcc) (t : Nat) : State :=
  let fn := match s.objAt t a.len with
    | some (_, o) => o.fn
    | none => 0
  let fs := if a.opc = 12 then [] else s.sldForbidden a t
  if a.opc = 12 then s.sldReply a 0 []
  else if !fs.isEmpty then
    let s := s.violation whoSolder fn 0xFFF (a.opc != 0) t fs
    (s.sldKeep a 0 0).sldReply a 0 (if a.opc = 1 then [] else List.replicate (if a.opc = 0 then a.len else 8) 0)
  else if a.opc = 1 then (s.tierWrite t a.data).sldReply a 0 []
  else
    match s.poisonIn t a.len with
    | some l => ((s.poisonRead l).sldKeep a 4 0).sldReply a 4 []
    | none =>
      if a.opc = 0 then s.sldReply a 0 (s.tierRead t a.len)
      else
        let old := fromLE (s.tierRead t a.len)
        let new := sldNew a.opc old (fromLE (a.data.take 8)) (fromLE (a.data.drop 8))
        ((s.tierWrite t (toLE a.len new)).sldKeep a 0 old).sldReply a 0 (toLE 8 old)

/-- SOLDER_OP_PERFORM (R367, R368, R375): entry k of the inbound queue is performed, unless it must wait behind an earlier one or
its data is not in HBM. A self-fenced device performs no operation of its own node. -/
def execSolderOpPerform (k : Nat) (s : State) : Host.Outcome State Fault Refusal :=
  .next (match s.sld.acc[k]? with
    | none => s
    | some a =>
      if sldBehind a (s.sld.acc.take k) || (a.loc && s.sld.selfFenced) || (s.sldStalled a).isSome then s
      else
        let s := { s with sld := { s.sld with acc := s.sld.acc.eraseIdx k } }
        match s.sldLocate a.opc a.len a.off a.domain with
        | .error st => ((s.sldKeep a st 0).sldReply a st []).sldRunAll.hostDone
        | .ok t => (s.sldPerform a t).sldRunAll.hostDone)

/-! ### The quorum (R378 to R382) -/

/-- SLD_QUORUM_KEYS (R378): registers the keys and the threshold once. -/
def execSldQuorumKeys (i : Issuer) (threshold : Nat) (keys : List (List Byte)) (s : State) : Host.Outcome State Fault Refusal :=
  .next (s.command i 0x0507 fun _ _ =>
    if !s.sld.keys.isEmpty then .error stPermission
    else if 8 < keys.length ∨ threshold < 2 ∨ keys.length < threshold || keys.any (·.length != 57) then .error stArgument
    else
      let s := { s with sld := { s.sld with keys := keys, threshold := threshold } }
      let s := (s.setReg Reg.SLD_QUORUM_CFG (keys.length + 16 * threshold)).setField Reg.SLD_STATUS 2 2 1
      .ok (s.measure 8 3 (keys.length + 16 * threshold) (shake256 (keys.flatten ++ toLE 1 threshold) 64), []))

/-- SLD_FENCE (R379): submits a quorum command; its mailbox stays BUSY until Armoire has checked it. -/
def execSldFence (i : Issuer) (cmd : List Byte) (s : State) : Host.Outcome State Fault Refusal :=
  .next (
    let b := s.box i
    let fromBox : QuorumFrom := match i with
      | .mbox fn m => .mailbox fn m
      | .queue q => .mailbox (2 ^ 20) q
      | .firmware => .mailbox (2 ^ 20 + 1) 0
    let queued := s.sld.quorum.any fun e => e.1 == fromBox
    if b.busy && b.command == 0x0508 && s.served i && !queued then
      { s with sld := { s.sld with quorum := s.sld.quorum ++ [(fromBox, cmd)] } }
    else s)

/-- SOLDER_CONTROL_RECEIVE (R379): a CONTROL packet with the address and port it came from. -/
def execSolderControlReceive (bs : List Byte) (v6 : Bool) (ip port : Nat) (sumOk : Bool) (s : State) : Host.Outcome State Fault Refusal :=
  .next (match s.sldTake bs 3 sumOk with
    | (s, none) => s
    | (s, some h) =>
      if s.boot.phase == .running then { s with sld := { s.sld with quorum := s.sld.quorum ++ [(.packet h.src v6 ip port, bs.drop 24)] } }
      else s.bump Reg.SLD_QUORUM_REJECT 1)

/-- Byte range [a, a + n) of a command. -/
def sub (bs : List Byte) (a n : Nat) : List Byte := (bs.drop a).take n
/-- All of it is zero. -/
def zeros (bs : List Byte) : Bool := bs.all (· == 0)

/-- The signature records of a command. -/
def sigRecords (bs : List Byte) (n : Nat) : List (List Byte) := (List.range n).map fun k => sub bs (80 + 120 * k) 120

/-- Keys whose signatures hold, each once. -/
def State.goodKeys (s : State) (body : List Byte) (rs : List (List Byte)) : List Nat :=
  rs.foldl (fun ks r =>
    let k := (nth 0 r 0).toNat
    if k < s.sld.keys.length && !ks.contains k && ed448Verify (nth [] s.sld.keys k) body (r.drop 6) then ks ++ [k] else ks) []

/-- R380: the result of a command's checks, 0 where it is accepted. -/
def State.quorumResult (s : State) (bs : List Byte) : Nat :=
  let b (k : Nat) : Nat := (nth 0 bs k).toNat
  let op := b 1
  let nsig := b 2
  let target := fromLE (sub bs 4 2)
  let dev := sub bs 24 32
  if s.sld.keys.isEmpty then 7
  else if b 0 ≠ 1 ∨ op = 0 ∨ 5 < op ∨ nsig < 2 ∨ 8 < nsig ∨ b 3 ≠ 0 ∨ 2 ^ 14 ≤ target ∨ bs.length ≠ 80 + 120 * nsig ||
      !zeros (sub bs 6 2) || !zeros (sub bs 56 24) || !(sigRecords bs nsig).all (fun r => zeros (sub r 1 5)) ||
      ((op == 3 || op == 4) && target != s.ownNode) then 1
  else if !(s.flag Reg.SEC_STATUS 0 && dev == shake256 (ed448Public Config.identitySeed) 32) && !(zeros dev && (op == 1 || op == 2 || op == 5)) then 2
  else if !seqNewer 64 (fromLE (sub bs 8 8)) (s.reg64 Reg.SLD_QUORUM_SEQ) then 3
  else if reached s.now (fromLE (sub bs 16 8)) then 4
  else if (s.goodKeys (bs.take 80) (sigRecords bs nsig)).length < s.sld.threshold then 5
  else if op = 1 ∧ 4096 ≤ s.sld.expelled.length ∧ ¬ s.expelled target then 6
  else 0

/-- An accepted command takes effect (R381, R382). -/
def State.quorumApply (s : State) (op target : Nat) : State :=
  let wake (s : State) : State := s.sldRunAll
  let list (xs : List Nat) (s : State) : State := ({ s with sld := { s.sld with expelled := xs } }).setReg Reg.SLD_EXPELLED_COUNT xs.length
  match op with
  | 1 => if s.expelled target then s else list (s.sld.expelled ++ [target]) s
  | 2 => wake (list (s.sld.expelled.filter (· != target)) s)
  | 3 => ({ s with sld := { s.sld with selfFenced := true } }).setField Reg.SLD_STATUS 1 1 1
  | 4 => wake (({ s with sld := { s.sld with selfFenced := false } }).setField Reg.SLD_STATUS 1 1 0)
  | _ => wake (list [] s)

/-- Sends a CONTROL reply to the sender's address and port (R379). -/
def State.sldControlReply (s : State) (node : Nat) (v6 : Bool) (ip port result : Nat) : State :=
  let p := s.sld.peers.look node
  let mac := match p with
    | some p => p.mac
    | none => 0
  let vlan := match p with
    | some p => if p.tagged then some (p.vid, p.pcp) else none
    | none => none
  let hop := match p with
    | some p => p.hop
    | none => 0
  let f : SldFrame :=
    { mac := mac, vlan := vlan, hop := hop, v6 := v6, src := s.sld.locals.get 0 mac, dst := ip, sport := 49152 + node, dport := port
      dscp := s.field Reg.SLD_QOS 9 4, ecn := 2, ttl := 64, tc := max 4 (s.field Reg.SLD_QOS 3 0)
      payload := sldHeader 3 0 0 0 s.ownNode node 0 s.ownInc (s.dest node).peerInc ++ toLE 8 result }
  ({ s with sld := { s.sld with tx := s.sld.tx ++ [f] } }).bump Reg.SLD_TX_PKTS 1

/-- The result of a quorum command goes back to where it came from. DESIGN CHOICE: a mailbox answers OK for ACCEPTED and AUTH with
the result in DETAIL otherwise (log 23). -/
def State.quorumReply (s : State) (q : QuorumFrom) (result : Nat) : State :=
  match q with
  | .mailbox fn m =>
    let i : Issuer := if fn = 2 ^ 20 then .queue m else .mbox fn m
    if result = 0 then s.answer i stOk 0 [] else s.answer i stAuth result []
  | .packet n v6 ip port => s.sldControlReply n v6 ip port result

/-- QUORUM_VERIFY_DONE (R380): Armoire finishes the first command that waits. -/
def execQuorumVerifyDone (s : State) : Host.Outcome State Fault Refusal :=
  .next (match s.sld.quorum with
    | [] => s
    | (q, bs) :: rest =>
      if s.boot.phase != .running then s else
      let s := { s with sld := { s.sld with quorum := rest } }
      if !s.sld.keys.isEmpty && bs == s.sld.lastCmd then s.quorumReply q 0
      else
        let r := s.quorumResult bs
        if r ≠ 0 then (s.bump Reg.SLD_QUORUM_REJECT 1).quorumReply q r
        else
          let op := (nth 0 bs 1).toNat
          let target := fromLE (sub bs 4 2)
          let cseq := fromLE (sub bs 8 8)
          let s := ({ s with sld := { s.sld with lastCmd := bs } }).setReg64 Reg.SLD_QUORUM_SEQ cseq
          let s := (s.quorumReply q 0).quorumApply op target
          s.pfEvent 0x011D op target (cseq % 2 ^ 32) (cseq / 2 ^ 32))

end Sys2Proof.Machine
end

