-- ==== Sys2Proof/Machine/Queues.lean ====
section
/-! DEFINITION. The queue pool: doorbells (R391 to R395), record posting (R396 to R399, R410), creation and destruction (R401, R402), host
Solder and mailbox queues (R405, R406). -/

namespace Sys2Proof.Machine

/-- Entries of a ring. -/
def Queue.size (v : Queue) : Nat := 2 ^ v.logSize
/-- The host produces into the queue (R392). -/
def Queue.hostProduced (v : Queue) : Bool := v.typ != 1 && v.typ != 2
/-- P − C. -/
def Queue.held (v : Queue) : Nat := (v.prod + 2 ^ 32 - v.cons) % 2 ^ 32
/-- The queue is full (R394). -/
def Queue.full (v : Queue) : Bool := v.held == v.size

/-! ### Doorbells (R391, R394, R399) -/

/-- The pool queue whose doorbell record a function writes: a virtual function's local queue, or a queue the physical function
owns; the state counts what is ignored. -/
def State.doorbell (s : State) (fn i : Nat) : State × Option Nat :=
  match s.poolQueue fn i with
  | none => (s, none)
  | some q =>
    let v := s.queue q
    if v.en && v.fn != fn || decide (262144 ≤ q) || (fn == 0 && !v.en && decide (2048 ≤ q) && !s.host.pfBlocks.contains (q / 16)) then
      (if fn = 0 then s.bump Reg.PCI_BAD_DOORBELL 1 else s, none)
    else (s, some q)

/-- DOORBELL_COUNT (R394): the host writes the counter it owns. -/
def execDoorbellCount (fn i value : Nat) (s : State) : Host.Outcome State Fault Refusal :=
  .next (match s.doorbell fn i with
    | (s, none) => s
    | (s, some q) =>
      let v := s.queue q
      let value := value % 2 ^ 32
      let bad := s.bump (Reg.QUE_BAD_DOORBELL q) 1
      if !v.en then s
      else if v.hostProduced then
        if seqStale 32 value v.prod || decide (v.size < (value + 2 ^ 32 - v.cons) % 2 ^ 32) then bad else s.setQueue q { v with prod := value }
      else
        if seqStale 32 value v.cons || decide (v.size < (v.prod + 2 ^ 32 - value) % 2 ^ 32) then bad else s.setQueue q { v with cons := value })

/-- DOORBELL_ARM (R399): a write of `a` to ARM. -/
def execDoorbellArm (fn i a : Nat) (s : State) : Host.Outcome State Fault Refusal :=
  .next (match s.doorbell fn i with
    | (s, none) => s
    | (s, some q) =>
      let v := s.queue q
      if !v.en || v.hostProduced then s
      else if seqNewer 32 v.prod a then (s.setQueue q { v with armed := false }).fire v.fn v.vector
      else s.setQueue q { v with armed := true, since := 0 })

/-- COAL_TIMER (R399): COAL_US has passed since the first record after arming. -/
def execCoalTimer (q : Nat) (s : State) : Host.Outcome State Fault Refusal :=
  .next (
    let v := s.queue q
    if v.en && v.armed && v.since != 0 && v.coalUs != 0 then (s.setQueue q { v with armed := false }).fire v.fn v.vector else s)

/-! ### Posting (R396, R397, R410) -/

/-- Marks a queue FAILED and posts QUEUE_FAILED, after which the slot of a discarded task record is free (R397). -/
def State.freeTaskSlot (s : State) (u : RecFor) : State :=
  match u with
  | .task i => match (s.slot i).task with
    | some t => if t.st == .recording then s.freeSlot i else s
    | none => s
  | _ => s

/-- A source queue that stopped behind a record goes on (R397). -/
def State.unblock (s : State) (u : RecFor) : State :=
  match u with
  | .source q => s.setQueue q { s.queue q with blocked := false }
  | _ => s

/-- A record is discarded. -/
def State.discard (s : State) (r : PostRec) : State := (s.freeTaskSlot r.use).unblock r.use

/-- The bytes as they are posted: an event takes the time at which firmware handles it (R325), a completion its FGEN (R185). -/
def State.postBytes (s : State) (r : PostRec) : List Byte :=
  match r.use with
  | .event => r.bytes.take 8 ++ toLE 8 s.now ++ r.bytes.drop 16
  | .task _ => patch r.bytes 6 (toLE 2 r.gen)
  | .refusal => patch r.bytes 6 (toLE 2 r.gen)
  | _ => r.bytes

/-- Writes a record into its ring and P to WB_ADDR, and fires the vector of an armed queue (R396, R399). -/
def State.writeRec (s : State) (r : PostRec) : State :=
  let v := s.queue r.queue
  let s := s.devWrite v.fn (v.base + v.prod % v.size * 32) (s.postBytes r)
  let p := (v.prod + 1) % 2 ^ 32
  let s := s.devWrite v.fn v.wb (toLE 4 p)
  let n := v.since + 1
  let fires := v.armed && decide (max 1 v.coalCount ≤ n)
  let s := s.setQueue r.queue { v with prod := p, since := n, armed := v.armed && !fires }
  let s := s.when fires (·.fire v.fn v.vector)
  (s.freeTaskSlot r.use).unblock r.use

/-- A record that finds its queue full (R397): completions wait, events and received frames are dropped. -/
def State.fullRec (s : State) (r : PostRec) (out : State) : State :=
  match r.use with
  | .event => (out.bump Reg.CAB_EVENT_DROP 1).bump (Reg.QUE_DROPS r.queue) 1
  | .rx q => out.rxDrop q (s.queue q).mac
  | .source q => s.setQueue q { s.queue q with blocked := true }
  | _ => s

/-- Posts a record: `fault` 1 tells that the ring cannot be written, 2 that the write-back cannot. -/
def State.postRec (s : State) (r : PostRec) (fault : Nat) : State :=
  let v := s.queue r.queue
  let out : State := { s with host := { s.host with outbox := s.host.outbox.erase r } }
  if r.gen ≠ (s.func r.fn).gen then (out.staleDrop r.fn).discard r
  else if r.use == .event && s.boot.phase != .running then s
  else if !v.en || v.fn != r.fn || v.failed then
    ((if r.use == .event then out.bump Reg.CAB_EVENT_DROP 1 else out).bump (Reg.QUE_DROPS r.queue) 1).discard r
  else if v.full then s.fullRec r out
  else if fault = 0 then out.writeRec r
  else
    match r.use with
    | .event => s.fullRec r out
    | .rx _ => s.fullRec r out
    | _ => ((out.failQueue r.queue fault).bump (Reg.QUE_DROPS r.queue) 1).discard r

/-- The first record that waits for a queue and of which `f` holds. -/
def State.firstRec (s : State) (q : Nat) (f : RecFor → Bool) : Option PostRec :=
  (s.host.outbox.find? fun r => r.queue == q).filter fun r => f r.use

/-- A task completion. -/
def RecFor.isTask : RecFor → Bool
  | .task _ => true
  | _ => false

/-- RECORD_POST (R396, R397, R410): the device posts the first record of a queue. -/
def execRecordPost (q fault : Nat) (s : State) : Host.Outcome State Fault Refusal :=
  .next (match s.firstRec q fun u => !u.isTask with
    | some r => s.postRec r fault
    | none => s)

/-- COMPLETION_RECORD_POST (R186): a waiting task completion is posted to its CQ once there is room, and its slot becomes free. -/
def execCompletionRecordPost (q fault : Nat) (s : State) : Host.Outcome State Fault Refusal :=
  .next (match s.firstRec q RecFor.isTask with
    | some r => s.postRec r fault
    | none => s)

/-- Bytes of an entry of a host-produced queue (R392). -/
def entryBytes (typ : Nat) : Nat :=
  match typ with
  | 0 => 128
  | 4 => 16
  | 5 => 64
  | _ => 32

/-- QUEUE_ENTRY_FETCH (R396, R397): the device fetches the next entry of a host-produced queue, which is marked FAILED where that or
the write-back of C fails; what the entry does is the effect of its queue's own row. -/
def execQueueEntryFetch (q : Nat) (data : ExtData) (wbOk : Bool) (s : State) : Host.Outcome State Fault Refusal :=
  .next (
    let v := s.queue q
    if !v.en || !v.hostProduced || v.failed then s
    else if v.prod != v.cons && (s.ringEntry q v.cons (entryBytes v.typ) data).isNone then s.failQueue q 0
    else if !wbOk then s.failQueue q 2
    else s.devWrite v.fn v.wb (toLE 4 v.cons))

/-! ### Creating and destroying (R401, R402) -/

/-- The arguments of QUE_CREATE. -/
structure QueArgs where
  typ : Nat
  kind : Nat
  logSize : Nat
  base : Nat
  wb : Nat
  pair : Nat
  vector : Nat
  coalCount : Nat
  coalUs : Nat
  typeCfg : Nat
  persist : Bool
  deriving DecidableEq, Repr

/-- Whether the physical function may hold a pool queue: its first 2,048, its blocks, or a block that nobody holds. -/
def State.pfMay (s : State) (q : Nat) : Bool :=
  decide (q < 262144) && !(s.host.funcs.any fun (n, f) => n != 0 && f.st != .absent && decide (f.qbase ≤ q) && decide (q < f.qbase + f.qcount))

/-- The pairing of a queue holds (R392, R401). -/
def State.pairOk (s : State) (fn : Nat) (a : QueArgs) : Option Nat :=
  if a.typ < 3 then some 0
  else
    match s.poolQueue fn a.pair with
    | none => none
    | some p =>
      let v := s.queue p
      if v.en && v.typ == 1 && v.kind == a.typ - 2 && v.fn == fn then some p else none

/-- R392, R393, R400: what QUE_CREATE refuses with ARGUMENT. -/
def State.queBad (s : State) (fn version : Nat) (a : QueArgs) : Bool :=
  decide (6 < a.typ) || (a.typ == 1 && decide (4 < a.kind)) || (version == 1 && decide (4 < a.typ)) || decide (a.logSize < 6) ||
    decide (16 < a.logSize) || a.base % 4096 != 0 ||
    !s.hostOrPinned fn a.base (2 ^ a.logSize * entryBytes (if a.typ = 1 ∨ a.typ = 2 then 3 else a.typ)) || a.wb % 8 != 0 ||
    spaceOf a.wb != spaceOf a.base || !s.hostOrPinned fn a.wb 8 || (s.pairOk fn a).isNone || decide (s.vectorCount fn ≤ a.vector) ||
    decide (65535 < a.coalCount) || decide (65535 < a.coalUs) ||
    ((a.typ == 3 || a.typ == 4) && !s.macPresent (bits a.typeCfg 5 0)) ||
    (a.typ == 4 && decide (bits a.typeCfg 19 6 < s.mtu (bits a.typeCfg 5 0)))

/-- The lowest Solder slot that no queue holds (R405). -/
def State.sldSlot (s : State) : Option Nat :=
  lowestFree 4096 fun k => s.host.queues.any fun (_, v) => v.en && v.typ == 5 && v.typeCfg == k

/-- QUE_CREATE (R401): creates and enables a queue. -/
def execQueCreate (i : Issuer) (idx typ kind logSize base wb pair vector coalCount coalUs typeCfg : Nat) (persist : Bool) (s : State) : Host.Outcome State Fault Refusal :=
  .next (s.command i 0x0101 fun fn version =>
    let v1 := version == 1
    let cfg := if typ = 3 then (if v1 then typeCfg % 2 ^ 10 else typeCfg % 2 ^ 11) else if typ = 4 then typeCfg % 2 ^ 20 else 0
    let a : QueArgs :=
      { typ := typ, kind := kind, logSize := logSize, base := base, wb := wb, pair := pair, vector := vector, coalCount := coalCount
        coalUs := coalUs, typeCfg := cfg, persist := persist && !v1 }
    match s.poolQueue fn idx with
    | none => .error stArgument
    | some q =>
      if s.queBad fn version a || (fn == 0 && !s.pfMay q) then .error stArgument
      else if (s.queue q).en then .error stBusy
      else if fn ≠ 0 && (a.persist || (typ == 3 && bit cfg 10) || ((typ == 3 || typ == 4) && !(s.func fn).macMask.testBit (bits cfg 5 0))) then
        .error stPermission
      else
        match (if typ = 5 then s.sldSlot else some cfg) with
        | none => .error stResource
        | some cfg =>
          let v : Queue :=
            { en := true, typ := typ, persist := a.persist, kind := if typ = 1 then kind else 0, fn := fn, logSize := logSize
              pair := (s.pairOk fn a).getD 0, vector := vector, base := base, wb := wb, coalCount := coalCount, coalUs := coalUs
              typeCfg := cfg }
          let s := s.setQueue q v
          let blk := q / 16
          let take := fn == 0 && decide (2048 ≤ q) && !s.host.pfBlocks.contains blk
          .ok (if take then { s with host := { s.host with pfBlocks := s.host.pfBlocks ++ [blk] } } else s, []))

/-- Another queue pairs with this one. -/
def State.paired (s : State) (q : Nat) : Bool :=
  s.host.queues.any fun (_, v) => v.en && decide (3 ≤ v.typ) && v.pair == q

/-- An accepted task names the queue as its CQ and has not completed. -/
def State.cqTask (s : State) (q : Nat) : Bool :=
  s.slots.any fun (_, v) => match v.task with
    | some t => t.desc.cq == q && t.fn == (s.queue q).fn && t.st != .recording
    | none => false

/-- The fetched, uncommitted tasks of a submission queue. -/
def State.uncommitted (s : State) (q : Nat) : List Nat :=
  (s.slots.filter fun (_, v) => match v.task with
    | some t => t.sq == q && !t.committed && t.inst.isNone && t.fn == (s.queue q).fn
    | none => false).map (·.1)

/-- A queue stops and is disabled (R402). -/
def State.stopQueue (s : State) (q : Nat) : State :=
  let v := s.queue q
  let s := if v.typ = 3 then s.killHead q txFlushed else s
  let s := if v.typ = 0 then (s.uncommitted q).foldl (fun s i => s.endTask i 4 0 0xFF) s else s
  s.setQueue q {}

/-- QUE_DESTROY (R402). -/
def execQueDestroy (i : Issuer) (idx : Nat) (s : State) : Host.Outcome State Fault Refusal :=
  .next (s.command i 0x0102 fun fn _ =>
    match s.poolQueue fn idx with
    | none => .error stArgument
    | some q =>
      let v := s.queue q
      if !v.en || v.fn != fn then .error stArgument
      else if s.paired q then .error stBusy
      else if !v.failed && ((s.liveCtxs.any fun c => c.2.evq == q) || s.cqTask q) then .error stBusy
      else .ok (s.stopQueue q, []))

/-- The words of a queue's context block (R422). -/
def State.queWords (s : State) (q : Nat) : List Nat :=
  let v := s.queue q
  if !v.en then [0, 0, 0, 0, 0, 0, 0, 0, 0, 0, 0, 0]
  else
    [1 + 2 * v.typ + 16 * b2n v.persist + 32 * v.kind + 2 ^ 8 * v.fn + 2 ^ 18 * v.logSize + 2 ^ 23 * b2n v.failed, v.pair + 2 ^ 18 * v.vector,
     v.base % 2 ^ 32, v.base / 2 ^ 32, v.wb % 2 ^ 32, v.wb / 2 ^ 32, v.prod, v.cons, v.coalCount + 2 ^ 16 * v.coalUs, v.typeCfg,
     b2n v.armed + 2 * b2n v.full, 0]

/-- QUE_QUERY (R420): the context block of an owned queue. -/
def execQueQuery (i : Issuer) (idx : Nat) (s : State) : Host.Outcome State Fault Refusal :=
  .next (s.command i 0x0103 fun fn _ =>
    match s.poolQueue fn idx with
    | none => .error stArgument
    | some q =>
      let v := s.queue q
      if v.en && v.fn != fn then .error stPermission
      else
        .ok (s, s.queWords q ++ [s.reg (Reg.QUE_DROPS q), s.reg (Reg.QUE_DROPS q + 4), s.reg (Reg.QUE_BAD_DOORBELL q), s.reg (Reg.QUE_BAD_DOORBELL q + 4)]))

/-! ### Host Solder queues (R405) -/

/-- Unacknowledged stores of a host Solder queue. -/
def State.sldStores (s : State) (q : Nat) : Nat :=
  s.sld.entries.countP fun e => e.queue == q && e.opc == 1 && !(s.sld.ans.any fun a => a.op.who == .host q e.id)

/-- The operand of an entry in memory order: the words of an atomic, the bytes of a STORE; or the status that answers it. DEDUCED: an
address that R405 does not allow, and a host read that fails, are answered ADDR (log 46). -/
def State.sldOperand (s : State) (fn opc len data : Nat) (ops : List Byte) (src : ExtData) : Except (State × Nat) (List Byte) :=
  if opc = 1 then
    if !s.hostOrPinned fn data len then .error (s, 1)
    else if spaceOf data == 1 then
      match src with
      | .data bs => .ok (bs.take len ++ List.replicate (len - bs.length) 0)
      | .error => .error (s, 1)
    else
      match s.poisonIn (offOf data) len with
      | some l => .error (s.poisonRead l, 4)
      | none => .ok (s.tierRead (offOf data) len)
  else if opc = 0 && !s.hostOrPinned fn data len then .error (s, 1)
  else .ok (ops.take (sldSends opc len))

/-- SOLDER_QUEUE_ENTRY (R405): takes the next entry of a host Solder queue and issues its operation; `src` is the data of a STORE as
host memory holds it. -/
def execSolderQueueEntry (q : Nat) (entry src : ExtData) (s : State) : Host.Outcome State Fault Refusal :=
  .next (
    let v := s.queue q
    if !v.en || v.typ != 5 || v.failed || v.blocked || v.prod == v.cons || decide (16 ≤ s.sldStores q) then s
    else
      match s.ringEntry q v.cons 64 entry with
      | none => s.failQueue q 0
      | some bs =>
        let opc := bits (word32At bs 0) 3 0
        let len := sldLen opc (bits (word32At bs 0) 8 4)
        let data := word64At bs 16 % 2 ^ 57
        let f := s.func v.fn
        let e : SldEntry :=
          { queue := q, fn := v.fn, pair := v.pair, id := s.sld.nextEntry, opc := opc, len := len, dst := data, cookie := word64At bs 40, gen := f.gen }
        let s := s.consume q
        let s : State := { s with sld := { s.sld with entries := s.sld.entries ++ [e], nextEntry := s.sld.nextEntry + 1 } }
        let op (d : List Byte) : SldOp :=
          { who := .host q e.id, ctx := none, node := word32At bs 1 % 2 ^ 14, opc := opc, len := len, off := word64At bs 8 % 2 ^ 42
            domain := f.domain, source := 4096 + v.typeCfg, data := d, pc := 0 }
        let bad (st : Nat) : SldAns := { op := op [], status := st, data := [] }
        let fail (s : State) (st : Nat) : State := ({ s with sld := { s.sld with ans := s.sld.ans ++ [bad st] } }).hostDone
        if f.domain = 0 then fail s 1
        else
          match s.sldOperand v.fn opc len data (bs.drop 24) src with
          | .error (s, st) => fail s st
          | .ok d => s.sldIssue (op d))

/-! ### Mailbox queues (R406) -/

/-- MAILBOX_QUEUE_ENTRY (R406): firmware takes the next entry of a mailbox queue, with the header that its buffer holds. DEDUCED: a
buffer address that R406 does not allow is answered ARGUMENT (log 47). -/
def execMailboxQueueEntry (q : Nat) (entry : ExtData) (h : MbxHeader) (s : State) : Host.Outcome State Fault Refusal :=
  .next (
    let v := s.queue q
    if !v.en || v.typ != 6 || v.failed || v.blocked || v.prod == v.cons || s.host.mbxq.isSome || s.boot.phase != .running then s
    else
      match s.ringEntry q v.cons 32 entry with
      | none => s.failQueue q 0
      | some bs =>
        let buf := word64At bs 0 % 2 ^ 57
        let e : MbxqEntry := { queue := q, fn := v.fn, pair := v.pair, buf := buf, cookie := word64At bs 8, gen := (s.func v.fn).gen }
        let s := s.consume q
        let s : State := { s with host := { s.host with mbxq := some e } }
        let s := s.setBox (.queue q) {}
        if s.hostOrPinned v.fn buf 4096 then
          let word (k : Nat) : W32 := BitVec.ofNat 32 (word32At (s.tierRead (offOf buf) 12) k)
          let h : MbxHeader := if spaceOf buf = 1 then h else ⟨word 0, word 1, word 2⟩
          s.takeCommand (.queue q) h (bits h.h1.toNat 15 0)
        else s.answer (.queue q) stArgument 0 [])

end Sys2Proof.Machine
end

