-- ==== Sys2Proof/Machine/PewterLane.lean ====
section
/-! DEFINITION. The lanes of a Pewter unit: the instruction word (R111), registers (R94 to R98), the arithmetic of the vector
instructions (R92, R93, R118 to R126), the BFP-IQ blocks (R76 to R78) and the address generators (R113 to R115). -/

namespace Sys2Proof.Machine

/-- The fields of an instruction word (R111). -/
structure PwtInsn where
  op : Nat
  vd : Nat
  va : Nat
  vb : Nat
  vc : Nat
  acc : Nat
  ag : Nat
  sa : Nat
  sd : Nat
  imm : Nat
  deriving DecidableEq, Repr

/-- R111: the instruction that a 64-bit word holds. -/
def decodePwt (w : Nat) : PwtInsn :=
  ⟨bits w 63 56, bits w 55 51, bits w 50 46, bits w 45 41, bits w 40 36, bits w 35 34, bits w 33 32, bits w 31 28, bits w 27 24,
   bits w 23 0⟩

/-- Causes of PWT_FAULT. -/
def pwtIllegal : Nat := 1
def pwtAddr : Nat := 2
def pwtAlign : Nat := 3
def pwtRange : Nat := 4
def pwtTileLimit : Nat := 5
def pwtNd : Nat := 6

/-- What an instruction makes of its queue's state, with its saturations, or the cause of its fault. -/
abbrev PwtRes := Except Nat (PwtQueue × Nat)

/-! ### Registers -/

/-- Lane l of a vector register. -/
def PwtQueue.lane (q : PwtQueue) (r l : Nat) : Nat := (q.v.get 0 (32 * r + l)).toNat
def PwtQueue.setLane (q : PwtQueue) (r l n : Nat) : PwtQueue := { q with v := q.v.set 0 (32 * r + l) (BitVec.ofNat 32 n) }
/-- I and Q of a lane (R94). -/
def PwtQueue.ci (q : PwtQueue) (r l : Nat) : Int × Int := (sext 16 (q.lane r l), sext 16 (q.lane r l / 2 ^ 16))
/-- A lane as INT32. -/
def PwtQueue.si (q : PwtQueue) (r l : Nat) : Int := sext 32 (q.lane r l)
/-- A part of an accumulator set: 0 real, 1 imaginary. -/
def PwtQueue.accPart (q : PwtQueue) (a l p : Nat) : Int := (q.a.get 0 (2 * (32 * a + l) + p)).toInt
/-- Sets a part, modulo 2^48 (R92). -/
def PwtQueue.setAcc (q : PwtQueue) (a l p : Nat) (x : Int) : PwtQueue :=
  { q with a := q.a.set 0 (2 * (32 * a + l) + p) (BitVec.ofInt 48 x) }
/-- A scalar register. -/
def PwtQueue.s (q : PwtQueue) (i : Nat) : Nat := (q.sreg.get 0 i).toNat
def PwtQueue.setS (q : PwtQueue) (i n : Nat) : PwtQueue := { q with sreg := q.sreg.set 0 i (BitVec.ofNat 32 n) }
/-- An address generator. -/
def PwtQueue.gen (q : PwtQueue) (i : Nat) : PwtAg := q.ag.get {} i
def PwtQueue.setGen (q : PwtQueue) (i : Nat) (g : PwtAg) : PwtQueue := { q with ag := q.ag.set {} i g }

/-- Writes a vector register on every active lane (R97); `f` reads the queue as it stood before (R98) and counts saturations. -/
def PwtQueue.lanes (q : PwtQueue) (vd : Nat) (f : Nat → Nat × Nat) : PwtQueue × Nat :=
  (List.range q.vl).foldl (fun (r, n) l => (r.setLane vd l (f l).1, n + (f l).2)) (q, 0)

/-! ### Narrowing and products (R92, R93) -/

/-- Saturates to w bits: the field, and 1 when it saturated. -/
def narrow (w : Nat) (x : Int) : Nat × Nat := (wrap w (satS w x), b2n (satS w x != x))
/-- A CI16 element from two narrowed parts. -/
def ci16Of (a b : Nat × Nat) : Nat × Nat := (a.1 + 2 ^ 16 * b.1, a.2 + b.2)
/-- ⌊x / 2^s⌋ saturated to 16 bits on both parts. -/
def narrowCi (s : Nat) (x : Int × Int) : Nat × Nat := ci16Of (narrow 16 (asr x.1 s)) (narrow 16 (asr x.2 s))
/-- The exact complex product. -/
def cmulC (a b : Int × Int) : Int × Int := (a.1 * b.1 - a.2 * b.2, a.1 * b.2 + a.2 * b.1)
/-- Conjugation of an operand when `b` is set (R95). -/
def conjC (b : Bool) (a : Int × Int) : Int × Int := (a.1, if b then -a.2 else a.2)
/-- A shift field at IMM[13:8]. -/
def PwtInsn.sh (w : PwtInsn) : Nat := bits w.imm 13 8

/-! ### Arithmetic instructions (R126) -/

/-- CMAC (R95). -/
def pwtCmac (q : PwtQueue) (w : PwtInsn) : PwtRes :=
  .ok ((List.range q.vl).foldl (fun r l =>
    let p := cmulC (conjC (bit w.imm 0) (q.ci w.va l)) (conjC (bit w.imm 1) (q.ci w.vb l))
    let from_ (part : Nat) : Int := if bit w.imm 2 then q.preset.toInt else q.accPart w.acc l part
    (r.setAcc w.acc l 0 (from_ 0 + p.1)).setAcc w.acc l 1 (from_ 1 + p.2)) q, 0)

/-- ACCR. -/
def pwtAccr (q : PwtQueue) (w : PwtInsn) : PwtRes :=
  if 47 < w.sh then .error pwtRange
  else .ok (q.lanes w.vd fun l => narrowCi w.sh (q.accPart w.acc l 0, q.accPart w.acc l 1))

/-- ACC32. -/
def pwtAcc32 (q : PwtQueue) (w : PwtInsn) : PwtRes :=
  .ok (q.lanes w.vd fun l => narrow 32 (asr (q.accPart w.acc l (w.imm % 2)) w.sh))

/-- ACCSUM: lane 0 receives the sums, the other active lanes zero. -/
def pwtAccsum (q : PwtQueue) (w : PwtInsn) : PwtRes :=
  let sum (p : Nat) : Int := (List.range q.vl).foldl (fun n l => n + q.accPart w.acc l p) 0
  .ok ((List.range q.vl).foldl (fun r l =>
    (r.setAcc w.acc l 0 (if l = 0 then sum 0 else 0)).setAcc w.acc l 1 (if l = 0 then sum 1 else 0)) q, 0)

/-- CMULH. -/
def pwtCmulh (q : PwtQueue) (w : PwtInsn) : PwtRes :=
  if 31 < w.sh then .error pwtRange
  else .ok (q.lanes w.vd fun l =>
    narrowCi w.sh (cmulC (conjC (bit w.imm 0) (q.ci w.va l)) (conjC (bit w.imm 1) (q.ci w.vb l))))

/-- CADD and CSUB: B is multiplied by `sg` first. IMM[0] halves with floor instead of saturating. -/
def pwtAddSub (sg : Int) (q : PwtQueue) (w : PwtInsn) : PwtRes :=
  .ok (q.lanes w.vd fun l =>
    let a := q.ci w.va l
    let b := q.ci w.vb l
    narrowCi (w.imm % 2) (a.1 + sg * b.1, a.2 + sg * b.2))

/-- A shift by a signed count in an n-bit field: saturating to the left, floor to the right. -/
def shiftBy (n : Nat) (c x : Int) : Nat × Nat :=
  if 0 ≤ c then narrow n (x * Int.ofNat (2 ^ c.toNat)) else narrow n (asr x (-c).toNat)

/-- VSHF. -/
def pwtVshf (q : PwtQueue) (w : PwtInsn) : PwtRes :=
  let c := sext 8 w.imm
  if bit w.imm 8 then
    if c < -32 ∨ 32 < c then .error pwtRange else .ok (q.lanes w.vd fun l => shiftBy 32 c (q.si w.va l))
  else if c < -16 ∨ 16 < c then .error pwtRange
  else .ok (q.lanes w.vd fun l => ci16Of (shiftBy 16 c (q.ci w.va l).1) (shiftBy 16 c (q.ci w.va l).2))

/-- CMAG2. -/
def pwtCmag2 (q : PwtQueue) (w : PwtInsn) : PwtRes :=
  .ok (q.lanes w.vd fun l => narrow 32 ((q.ci w.va l).1 * (q.ci w.va l).1 + (q.ci w.va l).2 * (q.ci w.va l).2))

/-- VPERM: the selected lane, active or not. -/
def pwtVperm (q : PwtQueue) (w : PwtInsn) : PwtRes :=
  .ok (q.lanes w.vd fun l => (q.lane w.va (q.lane w.vb l % 32), 0))

/-- R118: the redundant-sign count of an n-bit value. -/
def redundantSigns (n x : Nat) : Nat := ((List.range (n - 1)).takeWhile fun i => bit x (n - 2 - i) == bit x (n - 1)).length

/-- The smaller count of a lane's parts. -/
def PwtQueue.rsCi (q : PwtQueue) (r l : Nat) : Nat :=
  min (redundantSigns 16 (q.lane r l % 2 ^ 16)) (redundantSigns 16 (q.lane r l / 2 ^ 16))

/-- NORM (R119). -/
def pwtNorm (q : PwtQueue) (w : PwtInsn) : PwtRes :=
  if w.vc = w.vd then .error pwtRange
  else
    let r (l : Nat) : Nat := if bit w.imm 0 then redundantSigns 32 (q.lane w.va l) else q.rsCi w.va l
    let x (l : Nat) : Nat :=
      if bit w.imm 0 then q.lane w.va l * 2 ^ r l % 2 ^ 32
      else q.lane w.va l % 2 ^ 16 * 2 ^ r l % 2 ^ 16 + 2 ^ 16 * (q.lane w.va l / 2 ^ 16 * 2 ^ r l % 2 ^ 16)
    let a := (q.lanes w.vd fun l => (x l, 0)).1
    .ok ((a.lanes w.vc fun l => (r l, 0)).1, 0)

/-- The group size of EXPB (R120). -/
def expbGroup (i : Nat) : Option Nat := match i with
  | 0 => some 1 | 1 => some 2 | 2 => some 4 | 3 => some 8 | 4 => some 16 | 5 => some 32 | 6 => some 12 | _ => none

/-- EXPB (R120). -/
def pwtExpb (q : PwtQueue) (w : PwtInsn) : PwtRes :=
  match expbGroup (w.imm % 8) with
  | none => .error pwtRange
  | some g =>
    if q.vl % g ≠ 0 then .error pwtRange
    else .ok (q.lanes w.vd fun l =>
      ((List.range g).foldl (fun m i => min m (q.rsCi w.va (l / g * g + i))) 15, 0))

/-- BFLY2 (R123). -/
def pwtBfly2 (q : PwtQueue) (w : PwtInsn) : PwtRes :=
  if w.vd % 2 = 1 then .error pwtRange
  else
    let s := 15 + w.imm % 2
    let p (l : Nat) : Int × Int := cmulC (q.ci w.vc l) (q.ci w.vb l)
    let x (l : Nat) : Int × Int := ((q.ci w.va l).1 * 2 ^ 15, (q.ci w.va l).2 * 2 ^ 15)
    let u := q.lanes w.vd fun l => narrowCi s ((x l).1 + (p l).1, (x l).2 + (p l).2)
    let v := u.1.lanes (w.vd + 1) fun l => narrowCi s ((x l).1 - (p l).1, (x l).2 - (p l).2)
    .ok (v.1, u.2 + v.2)

/-- BFLY4 (R124): y1 and y3 enter X1 and X3 multiplied by ∓j, and by ±j for the inverse transform. -/
def pwtBfly4 (q : PwtQueue) (w : PwtInsn) : PwtRes :=
  let s := w.imm % 4
  if s = 3 ∨ w.vd % 4 ≠ 0 ∨ w.va % 4 ≠ 0 ∨ 29 < w.vc then .error pwtRange
  else
    let y (k l : Nat) : Int × Int :=
      if k = 0 then ((q.ci w.va l).1 * 2 ^ 15, (q.ci w.va l).2 * 2 ^ 15)
      else cmulC (q.ci (w.vc + k - 1) l) (q.ci (w.va + k) l)
    let sg : Int := if bit w.imm 2 then -1 else 1
    -- j times a value, under the sign of the transform
    let j (a : Int × Int) : Int × Int := (-sg * a.2, sg * a.1)
    let sum (a b c d : Int × Int) : Int × Int := (a.1 + b.1 + c.1 + d.1, a.2 + b.2 + c.2 + d.2)
    let neg (a : Int × Int) : Int × Int := (-a.1, -a.2)
    let out (k l : Nat) : Int × Int := match k with
      | 0 => sum (y 0 l) (y 1 l) (y 2 l) (y 3 l)
      | 1 => sum (y 0 l) (neg (j (y 1 l))) (neg (y 2 l)) (j (y 3 l))
      | 2 => sum (y 0 l) (neg (y 1 l)) (y 2 l) (neg (y 3 l))
      | _ => sum (y 0 l) (j (y 1 l)) (neg (y 2 l)) (neg (j (y 3 l)))
    .ok ((List.range 4).foldl (fun (r, n) k =>
      let o := r.lanes (w.vd + k) fun l => narrowCi (15 + s) (out k l)
      (o.1, n + o.2)) (q, 0))

/-! ### Scalar and set-up instructions -/

/-- IMM sign-extended. -/
def PwtInsn.sext (w : PwtInsn) : Int := Sys2Proof.sext 24 w.imm
/-- An instruction that sets s(SD). -/
def pwtScalar (f : PwtQueue → PwtInsn → Nat) (q : PwtQueue) (w : PwtInsn) : PwtRes := .ok (q.setS w.sd (f q w), 0)
def pwtSli : PwtQueue → PwtInsn → PwtRes := pwtScalar fun _ w => wrap 32 w.sext
def pwtSlih : PwtQueue → PwtInsn → PwtRes := pwtScalar fun q w => q.s w.sd % 2 ^ 16 + 2 ^ 16 * (w.imm % 2 ^ 16)
def pwtSaddi : PwtQueue → PwtInsn → PwtRes := pwtScalar fun q w => wrap 32 (Int.ofNat (q.s w.sa) + w.sext)
def pwtSadd : PwtQueue → PwtInsn → PwtRes := pwtScalar fun q w => q.s w.sa + q.s (w.imm % 16)
def pwtSsub : PwtQueue → PwtInsn → PwtRes := pwtScalar fun q w => q.s w.sa + 2 ^ 32 - q.s (w.imm % 16)
def pwtSget : PwtQueue → PwtInsn → PwtRes := pwtScalar fun q w => q.lane w.va (w.imm % 32)
def pwtVbcast (q : PwtQueue) (w : PwtInsn) : PwtRes := .ok (q.lanes w.vd fun _ => (q.s w.sa, 0))
def pwtSetvl (q : PwtQueue) (w : PwtInsn) : PwtRes :=
  if 1 ≤ w.imm % 64 ∧ w.imm % 64 ≤ 32 then .ok ({ q with vl := w.imm % 64 }, 0) else .error pwtRange
def pwtAsetp (q : PwtQueue) (w : PwtInsn) : PwtRes := .ok ({ q with preset := BitVec.ofInt 48 (Sys2Proof.sext 32 (q.s w.sa)) }, 0)

/-- AGSET (R113). -/
def pwtAgset (q : PwtQueue) (w : PwtInsn) : PwtRes :=
  let x := q.s w.sa
  let g := q.gen w.ag
  match w.imm % 8 with
  | 0 => if 4 < x then .error pwtRange else .ok (q.setGen w.ag { g with mode := x }, 0)
  | 1 => if 2 ^ 25 ≤ x then .error pwtRange else .ok (q.setGen w.ag { g with base := x }, 0)
  | 2 => .ok (q.setGen w.ag { g with s := BitVec.ofNat 32 x }, 0)
  | 3 => .ok (q.setGen w.ag { g with modl := BitVec.ofNat 32 x }, 0)
  | 4 => .ok (q.setGen w.ag { g with p := BitVec.ofNat 32 x }, 0)
  | _ => .error pwtRange

/-! ### Address generators (R114, R115) -/

/-- The low n bits of x reversed. -/
def revBits (n x : Nat) : Nat := (List.range n).foldl (fun r i => r + b2n (bit x i) * 2 ^ (n - 1 - i)) 0

/-- The address of lane l. `x` is the lane's gather index. -/
def PwtAg.addr (g : PwtAg) (e l x : Nat) : Nat :=
  let sI : Int := g.s.toInt
  match g.mode with
  | 0 => (g.base + g.p.toNat + e * l) % 2 ^ 32
  | 1 => wrap 32 (Int.ofNat (g.base + g.p.toNat) + sI * Int.ofNat l)
  | 2 => wrap 32 (Int.ofNat g.base + (Int.ofNat g.p.toNat + sI * Int.ofNat l) % Int.ofNat g.modl.toNat)
  | 3 => wrap 32 (Int.ofNat g.base + sI * Int.ofNat (revBits g.modl.toNat ((g.p.toNat + l) % 2 ^ g.modl.toNat)))
  | _ => wrap 32 (Int.ofNat g.base + sI * Int.ofNat x)

/-- P after an access by `vl` lanes. -/
def PwtAg.after (g : PwtAg) (e vl : Nat) : PwtAg :=
  let sI : Int := g.s.toInt
  match g.mode with
  | 0 => { g with p := BitVec.ofNat 32 (g.p.toNat + e * vl) }
  | 1 => { g with p := BitVec.ofInt 32 (Int.ofNat g.p.toNat + sI * Int.ofNat vl) }
  | 2 => { g with p := BitVec.ofInt 32 ((Int.ofNat g.p.toNat + sI * Int.ofNat vl) % Int.ofNat g.modl.toNat) }
  | 3 => { g with p := BitVec.ofNat 32 ((g.p.toNat + vl) % 2 ^ g.modl.toNat) }
  | _ => g

/-- The addresses of the active lanes. -/
def PwtQueue.addrs (q : PwtQueue) (w : PwtInsn) (e : Nat) : List Nat :=
  (List.range q.vl).map fun l => (q.gen w.ag).addr e l (q.lane w.vc l)

/-- The fault of an access by lanes, in the order RANGE, ADDR, ALIGN (R115). -/
def PwtQueue.accessFault (q : PwtQueue) (w : PwtInsn) (e size : Nat) : Option Nat :=
  let g := q.gen w.ag
  if (g.mode = 2 ∧ g.modl = 0) ∨ (g.mode = 3 ∧ (g.modl = 0 ∨ 16 < g.modl.toNat)) then some pwtRange
  else if (q.addrs w e).any (fun a => decide (size < a + e)) then some pwtAddr
  else if (q.addrs w e).any (fun a => a % e != 0) then some pwtAlign
  else none

/-- Bytes of an element by IMM[1:0]; 3 is out of range. -/
def elemOf (imm : Nat) : Option Nat := match imm % 4 with
  | 0 => some 1 | 1 => some 2 | 2 => some 4 | _ => none

/-! ### BFP-IQ (R76 to R78) -/

/-- The mantissa width of IMM[3:0]; 1 to 7 are out of range. -/
def bfpWidth (imm : Nat) : Option Nat :=
  let w := imm % 16
  if w = 0 then some 16 else if w < 8 then none else some w

/-- The bits of a block, most significant bit first, as one number of 24 w bits; mantissa i of width w. -/
def bfpMant (bs : List Byte) (w i : Nat) : Int := sext w (fromBE (bs.drop 1) / 2 ^ (w * (23 - i)))

/-- Packs an exponent and 24 mantissas (w-bit fields) into 1 + 3w bytes. -/
def bfpBlock (w e : Nat) (ms : List Nat) : List Byte :=
  BitVec.ofNat 8 e :: toBE (3 * w) (ms.foldl (fun n m => n * 2 ^ w + m % 2 ^ w) 0)

/-- The parts of the 12 lanes of a group in the order I0, Q0, I1, Q1 … -/
def PwtQueue.parts (q : PwtQueue) (r b : Nat) : List Int :=
  (List.range 12).flatMap fun i => [(q.ci r (12 * b + i)).1, (q.ci r (12 * b + i)).2]

/-- R78: one packed block, with its saturations. `given` is the exponent that BFPK takes from VB. -/
def PwtQueue.bfpPack (q : PwtQueue) (r b w : Nat) (given : Option Nat) : List Byte × Nat :=
  let e := match given with
    | some e => e
    | none => 16 - (List.range 12).foldl (fun m i => min m (q.rsCi r (12 * b + i))) 15 - w
  let ms := (q.parts r b).map fun x => narrow w (asr x e)
  (bfpBlock w e (ms.map (·.1)), (ms.map (·.2)).sum)

/-! ### LLR (R125) -/

/-- L_0 to L_(b−1) of a component. -/
def llrLevels (d : Nat) : Nat → Int → List Int
  | 0, _ => []
  | n + 1, x => x :: llrLevels d n (Int.ofNat (2 ^ n * d) - Int.ofNat x.natAbs)

/-- One written byte and whether it was clamped. -/
def llrByte (g s : Nat) (l : Int) : Byte × Nat :=
  let x := asr (Int.ofNat g * l) s
  let y : Int := if x < -127 then -127 else if 127 < x then 127 else x
  (BitVec.ofInt 8 y, b2n (x != y))

/-- The Q_m bytes of a lane, I before Q at each level. -/
def llrLane (b d g s : Nat) (x : Int × Int) : List (Byte × Nat) :=
  ((llrLevels d b x.1).zip (llrLevels d b x.2)).flatMap fun (i, q) => [llrByte g s i, llrByte g s q]

end Sys2Proof.Machine
end

