-- ==== Sys2Proof/Machine/Pewter.lean ====
section
/-! DEFINITION. A Pewter unit: its queues, kernels and tiles (R99 to R110), its faults (R128) and the instructions of R126. Every
row of the instruction list executes the instruction at the head of the queue being served when its OP is that row's. -/

namespace Sys2Proof.Machine

/-- Queue 0 (radio) or 1 (tenant) of a unit (R99). -/
def PwtUnit.qu (t : PwtUnit) (i : Nat) : PwtQueue := if i = 0 then t.rq else t.tq
def PwtUnit.setQu (t : PwtUnit) (i : Nat) (q : PwtQueue) : PwtUnit := if i = 0 then { t with rq := q } else { t with tq := q }

/-- A queue of unit u = 4c + k. -/
def State.pq (s : State) (u i : Nat) : PwtQueue := (s.pewter u).qu i
def State.setPq (s : State) (u i : Nat) (q : PwtQueue) : State := s.setPewter u ((s.pewter u).setQu i q)

/-- The waiter index of a queue (R156). -/
def pwtWaiter (u i : Nat) : Nat := 2 + 2 * (u % 4) + i

/-- Records a queue holds (R99). -/
def pwtDepth : Nat := 16

/-- The queue is enabled on a cluster that is on. -/
def State.pwtEnabled (s : State) (u i : Nat) : Bool := s.clusterOn (u / 4) && s.flag (Reg.PWT_CTRL (u / 4) (u % 4)) i

/-- The queue's kernel can issue (R105): it holds one, no WAIT stalls it, and at a boundary neither HALT nor a step switch stops
it. -/
def State.pwtCan (s : State) (u i : Nat) : Bool :=
  let q := s.pq u i
  let torn := match q.recs with
    | r :: _ => (s.ctx r.task.ctx).tearing
    | [] => false
  s.pwtEnabled u i && !q.recs.isEmpty && !s.waiting (u / 4) (pwtWaiter u i) &&
    (q.inTile || (!torn && !s.flag (Reg.PWT_CTRL (u / 4) (u % 4)) 2 && !s.holding (u / 4)))

/-- The queue that may issue now: inside a tile the one being served, at a boundary the choice of R105. -/
def State.pwtChoice (s : State) (u : Nat) : Option Nat :=
  let i := (s.pewter u).serving
  if (s.pq u i).inTile then (if s.pwtCan u i then some i else none)
  else if s.pwtCan u 0 then some 0
  else if s.pwtCan u 1 then some 1
  else none

/-- The kernel of the head record ends: its record leaves the queue and its task is reported (R110, R128). -/
def State.pwtEnd (s : State) (u i status cause : Nat) : State :=
  let q := s.pq u i
  match q.recs with
  | [] => s
  | r :: rest => (s.setPq u i { q with recs := rest, run := false, inTile := false, fetch := none }).finish r.task status cause u

/-- Discards, at a boundary, the kernel and the records of contexts that are being torn down (R191). -/
def State.pwtReap (s : State) (u : Nat) : State :=
  let reap (q : PwtQueue) : PwtQueue :=
    let gone (r : PwtRec) : Bool := (s.ctx r.task.ctx).tearing
    if q.inTile then { q with recs := q.recs.take 1 ++ (q.recs.drop 1).filter fun r => !gone r }
    else
      let head := match q.recs with
        | r :: _ => gone r
        | [] => false
      { q with recs := q.recs.filter (fun r => !gone r), run := q.run && !head, fetch := if head then none else q.fetch }
  let t := s.pewter u
  s.setPewter u { t with rq := reap t.rq, tq := reap t.tq, offers := t.offers.filter fun o => !(s.ctx o.issue.task.ctx).tearing }

/-- R128: the fault of the instruction at the head. -/
def State.pwtFault (s : State) (u i op cause : Nat) : State :=
  let s := s.setReg (Reg.PWT_FAULT (u / 4) (u % 4)) (1 + 2 * cause + 16 * i + 256 * op)
  let s := s.setReg (Reg.PWT_FAULT_PC (u / 4) (u % 4)) ((s.pq u i).pc % 2 ^ 25)
  s.pwtEnd u i 1 cause

/-- The line of an instruction enters the 4 KiB buffer of 64 lines (R102). -/
def PwtQueue.buffer (q : PwtQueue) (l : Nat) : PwtQueue :=
  if q.lines.contains l then q else { q with lines := (l :: q.lines).take 64 }

/-- Goes on with the next instruction, within the tile. -/
def PwtQueue.step (q : PwtQueue) : PwtQueue := { q with pc := q.pc + 8, inTile := true }.buffer ((q.pc + 8) / 64)

/-- Branches by `d` instructions; outside the buffer issue stalls until the line arrives (R102). -/
def PwtQueue.branch (q : PwtQueue) (d : Int) : PwtQueue :=
  let t := wrap 32 (Int.ofNat q.pc + 8 * d)
  { q with pc := t, inTile := true, fetch := if q.lines.contains (t / 64) then none else some (t / 64) }

/-- The word at the head of the queue that may issue: its queue, its record and the instruction, `none` where the fetch lies
outside the share. -/
def State.pwtHead (s : State) (u : Nat) : Option (Nat × PwtRec × Option PwtInsn) :=
  match s.pwtChoice u with
  | none => none
  | some i =>
    let q := s.pq u i
    if i != (s.pewter u).serving || !q.run || q.fetch.isSome then none
    else
      match q.recs with
      | [] => none
      | r :: _ => some (i, r, (s.shareRead (u / 4) r.task.ctx q.pc 8).map fun bs => decodePwt (fromLE bs))

/-- Executes the instruction at the head when `want` accepts its OP. `f` gives the state after it, or the cause of its fault.
A fetch outside the share faults as ADDR whichever row of the table meets it. -/
def State.pwtOp (s : State) (u : Nat) (want : Nat → Bool) (f : State → Nat → PwtRec → PwtInsn → Except Nat State) : State :=
  match s.pwtHead u with
  | none => s
  | some (i, _, none) => s.pwtFault u i 0 pwtAddr
  | some (i, r, some w) =>
    if want w.op then
      match f s i r w with
      | .ok s => s.bump (Reg.PWT_INSNS (u / 4) (u % 4)) 1
      | .error c => s.pwtFault u i w.op c
    else s

/-- An instruction that acts on its queue's state alone. -/
def State.pwtReg (s : State) (u op : Nat) (f : PwtQueue → PwtInsn → PwtRes) : State :=
  s.pwtOp u (· == op) fun s i _ w =>
    match f (s.pq u i) w with
    | .ok (q, n) => .ok ((s.setPq u i q.step).bump (Reg.PWT_SAT (u / 4) (u % 4)) n)
    | .error c => .error c

/-! ### Queues and kernels -/

/-- PEWTER_ISSUE_PUSH (R99, R100): the pushes of one T-cycle enter in round-robin order from the push pointer; a push to a full
queue waits. -/
def execPewterIssuePush (u : Nat) (s : State) : Host.Outcome State Fault Refusal :=
  .next (
    if !s.clusterOn (u / 4) then s
    else
      let p0 := s.field (Reg.PWT_PUSH_RR (u / 4) (u % 4)) 1 0
      let order := [p0 % 3, (p0 + 1) % 3, (p0 + 2) % 3]
      let offers := order.flatMap fun src => (s.pewter u).offers.filter (·.src == src)
      offers.foldl (fun s o =>
        let q := s.pq u o.q
        if s.pwtEnabled u o.q && decide (q.recs.length < pwtDepth) then
          let s := s.setPq u o.q { q with recs := q.recs ++ [o.issue] }
          let t := s.pewter u
          (s.setPewter u { t with offers := t.offers.erase o }).setReg (Reg.PWT_PUSH_RR (u / 4) (u % 4)) ((o.src + 1) % 3)
        else s) s)

/-- KERNEL_START (R101): the kernel of the head record starts with its queue's state reset; a KADDR that is not a multiple of 8
faults as ADDR. -/
def execKernelStart (u : Nat) (s : State) : Host.Outcome State Fault Refusal :=
  .next (
    let s := s.pwtReap u
    let i := (s.pewter u).serving
    let q := s.pq u i
    match q.recs with
    | [] => s
    | r :: _ =>
      if q.run || s.pwtChoice u != some i then s
      else
        let q : PwtQueue :=
          { recs := q.recs, run := true, pc := r.kaddr
            sreg := (((Tab.set 0 (Tab.set 0 (Tab.set 0 (Tab.set 0 [] 0 r.p0) 1 r.p1) 2 r.p2) 3 r.p3)))
            lines := [r.kaddr / 64] }
        let s := s.setPq u i q
        if r.kaddr % 8 ≠ 0 then s.pwtFault u i 0 pwtAddr else s)

/-- PEWTER_QUEUE_CHANGE (R105): at a boundary the unit takes the radio queue if it can issue, else the tenant queue. -/
def execPewterQueueChange (u : Nat) (s : State) : Host.Outcome State Fault Refusal :=
  .next (
    let s := s.pwtReap u
    let t := s.pewter u
    match s.pwtChoice u with
    | none => s
    | some i =>
      if i = t.serving then s
      else
        (s.setPewter u { t with serving := i }).when (i == 0) (·.bump (Reg.PWT_PREEMPT (u / 4) (u % 4)) 1))

/-- INSN_LINE_FETCH (R102): the line a branch waited for arrives after `wait` T-cycles, at least 20, and issue resumes. -/
def execInsnLineFetch (u wait : Nat) (s : State) : Host.Outcome State Fault Refusal :=
  .next (
    let i := (s.pewter u).serving
    let q := s.pq u i
    match q.fetch with
    | none => s
    | some l =>
      if s.clusterOn (u / 4) then
        (s.setPq u i ({ q with fetch := none }.buffer l)).bump (Reg.PWT_STALL_MEM (u / 4) (u % 4)) (max 20 wait)
      else s)

/-- TILE_LIMIT (R104): the tile has reached 4,096 T-cycles without a boundary. A class 0 kernel is also reported as
SLOT_OVERRUN with cause 1 (R213). -/
def execTileLimit (u : Nat) (s : State) : Host.Outcome State Fault Refusal :=
  .next (
    let i := (s.pewter u).serving
    let q := s.pq u i
    match q.recs with
    | [] => s
    | r :: _ =>
      if !q.inTile || !q.run || !s.clusterOn (u / 4) then s
      else
        let op := match s.shareRead (u / 4) r.task.ctx q.pc 8 with
          | some bs => (decodePwt (fromLE bs)).op
          | none => 0
        let s := (s.bump (Reg.PWT_TILE_LIMIT (u / 4) (u % 4)) 1).pwtFault u i op pwtTileLimit
        s.when (r.task.cls == 0) (·.fnEvent 0 0x0106 r.task.ctx r.task.handle 1 0 0))

/-- PWT_HALT (R129): writes PWT_CTRL.HALT; each queue stops at its next tile boundary, and resumes when it is cleared. -/
def execPwtHalt (u : Nat) (set : Bool) (s : State) : Host.Outcome State Fault Refusal :=
  .next (if s.clusterPresent (u / 4) then s.setField (Reg.PWT_CTRL (u / 4) (u % 4)) 2 2 (b2n set) else s)

/-! ### Control -/

/-- PWT_NOP. -/
def execPwtNop (u : Nat) (s : State) : Host.Outcome State Fault Refusal :=
  .next (s.pwtReg u 0x00 fun q _ => .ok (q, 0))

/-- A tile boundary after the instruction (R103). -/
def PwtQueue.edge (q : PwtQueue) : PwtQueue := { q.step with inTile := false }

/-- PWT_TILE (R103). -/
def execPwtTile (u : Nat) (s : State) : Host.Outcome State Fault Refusal :=
  .next (s.pwtOp u (· == 0x01) fun s i _ _ => .ok (s.setPq u i (s.pq u i).edge))

/-- PWT_END (R110): stores are written as they issue, so the kernel ends at once. -/
def execPwtEnd (u : Nat) (s : State) : Host.Outcome State Fault Refusal :=
  .next (s.pwtOp u (· == 0x02) fun s i _ _ => .ok (s.pwtEnd u i 0 0))

/-- PWT_WAIT: WAIT(s(SA)) on a latch of the context, and a tile boundary. -/
def execPwtWait (u : Nat) (s : State) : Host.Outcome State Fault Refusal :=
  .next (s.pwtOp u (· == 0x03) fun s i r w =>
    let l := w.imm % 256
    if !s.latchOwned (u / 4) l r.task.ctx then .error pwtRange
    else
      let n := (s.pq u i).s w.sa
      .ok ((s.setPq u i (s.pq u i).edge).waitOn (u / 4) l (pwtWaiter u i) n))

/-- PWT_SIGNAL: SIGNAL(s(SA)); every earlier store has been written (R110). -/
def execPwtSignal (u : Nat) (s : State) : Host.Outcome State Fault Refusal :=
  .next (s.pwtOp u (· == 0x04) fun s i r w =>
    let l := w.imm % 256
    if !s.latchOwned (u / 4) l r.task.ctx then .error pwtRange
    else .ok ((s.setPq u i (s.pq u i).step).signal (u / 4) l ((s.pq u i).s w.sa)))

/-- LOOP. -/
def execLoop (u : Nat) (s : State) : Host.Outcome State Fault Refusal :=
  .next (s.pwtOp u (· == 0x05) fun s i _ w =>
    let q := (s.pq u i).setS w.sd ((s.pq u i).s w.sd + 2 ^ 32 - 1)
    .ok (s.setPq u i (if q.s w.sd = 0 then q.step else q.branch w.sext)))

/-- JMP. -/
def execJmp (u : Nat) (s : State) : Host.Outcome State Fault Refusal :=
  .next (s.pwtOp u (· == 0x06) fun s i _ w => .ok (s.setPq u i ((s.pq u i).branch w.sext)))

/-- R127: an ND instruction of a Sterling context is not executed. -/
def State.sterling (s : State) (x : Nat) : Bool := (s.ctx x).stl.st != .off

/-- RDTIME: the NS field of Invar time. -/
def execRdtime (u : Nat) (s : State) : Host.Outcome State Fault Refusal :=
  .next (s.pwtOp u (· == 0x08) fun s i r w =>
    if s.sterling r.task.ctx then .error pwtNd else .ok (s.setPq u i ((s.pq u i).setS w.sd s.ns).step))

/-- RDCYC: the T-cycle count, which no rule ties to the model's commands: a free value. -/
def execRdcyc (u : Nat) (s : State) : Host.Outcome State Fault Refusal :=
  .next (s.pwtOp u (· == 0x09) fun s i r w =>
    if s.sterling r.task.ctx then .error pwtNd
    else .ok ((s.setPq u i ((s.pq u i).setS w.sd (Config.freeValue s.nonce)).step).tickNonce))

/-! ### Scalar and set-up -/

/-- SLI. -/
def execSli (u : Nat) (s : State) : Host.Outcome State Fault Refusal := .next (s.pwtReg u 0x10 pwtSli)
/-- SLIH. -/
def execSlih (u : Nat) (s : State) : Host.Outcome State Fault Refusal := .next (s.pwtReg u 0x11 pwtSlih)
/-- SADDI. -/
def execSaddi (u : Nat) (s : State) : Host.Outcome State Fault Refusal := .next (s.pwtReg u 0x12 pwtSaddi)
/-- SADD. -/
def execSadd (u : Nat) (s : State) : Host.Outcome State Fault Refusal := .next (s.pwtReg u 0x13 pwtSadd)
/-- SSUB. -/
def execSsub (u : Nat) (s : State) : Host.Outcome State Fault Refusal := .next (s.pwtReg u 0x14 pwtSsub)
/-- SGET. -/
def execSget (u : Nat) (s : State) : Host.Outcome State Fault Refusal := .next (s.pwtReg u 0x15 pwtSget)
/-- VBCAST. -/
def execVbcast (u : Nat) (s : State) : Host.Outcome State Fault Refusal := .next (s.pwtReg u 0x16 pwtVbcast)
/-- SETVL. -/
def execSetvl (u : Nat) (s : State) : Host.Outcome State Fault Refusal := .next (s.pwtReg u 0x17 pwtSetvl)
/-- AGSET (R113). -/
def execAgset (u : Nat) (s : State) : Host.Outcome State Fault Refusal := .next (s.pwtReg u 0x18 pwtAgset)
/-- ASETP. -/
def execAsetp (u : Nat) (s : State) : Host.Outcome State Fault Refusal := .next (s.pwtReg u 0x19 pwtAsetp)

/-! ### Memory -/

/-- PWT_LD (R114, R115, R117). -/
def execPwtLd (u : Nat) (s : State) : Host.Outcome State Fault Refusal :=
  .next (s.pwtOp u (· == 0x20) fun s i r w =>
    let q := s.pq u i
    match elemOf w.imm with
    | none => .error pwtRange
    | some e =>
      match q.accessFault w e (s.shareSize (u / 4) r.task.ctx) with
      | some c => .error c
      | none =>
        let vals := (q.addrs w e).map fun a => wrap 32 (sext (8 * e) (fromLE ((s.shareRead (u / 4) r.task.ctx a e).getD [])))
        let q' := (q.lanes w.vd fun l => (nth 0 vals l, 0)).1
        .ok (s.setPq u i (q'.setGen w.ag ((q.gen w.ag).after e q.vl)).step))

/-- Writes the elements of a store lane by lane. Where lanes store to one address no rule says which stays: a free value
decides at each later lane. -/
def State.storeLanes (s : State) (c x : Nat) (task : TaskId) (dig : Bool) : List (Nat × List Byte) → List Nat → Nat → State
  | [], _, _ => s.tickNonce
  | (a, bs) :: t, seen, l =>
    if seen.contains a && !bit (Config.freeValue s.nonce) l then State.storeLanes s c x task dig t seen (l + 1)
    else
      let s := ((s.shareWrite c x a bs).getD s).when dig (·.mark task (shareMark a) bs.length)
      State.storeLanes s c x task dig t (a :: seen) (l + 1)

/-- PWT_ST (R114, R115, R117): narrow elements saturate. -/
def execPwtSt (u : Nat) (s : State) : Host.Outcome State Fault Refusal :=
  .next (s.pwtOp u (· == 0x21) fun s i r w =>
    let q := s.pq u i
    match elemOf w.imm with
    | none => .error pwtRange
    | some e =>
      match q.accessFault w e (s.shareSize (u / 4) r.task.ctx) with
      | some c => .error c
      | none =>
        let vals := (List.range q.vl).map fun l => if e = 4 then (q.lane w.va l, 0) else narrow (8 * e) (q.si w.va l)
        let s := s.storeLanes (u / 4) r.task.ctx r.task (bit w.imm 2)
          ((q.addrs w e).zip (vals.map fun v => toLE e v.1)) [] 0
        .ok ((s.setPq u i (q.setGen w.ag ((q.gen w.ag).after e q.vl)).step).bump (Reg.PWT_SAT (u / 4) (u % 4))
          (vals.map (·.2)).sum))

/-- A LINEAR access of `n` bytes by BFPU, BFPK or LLR (R114, R115): its address, or the fault. -/
def PwtQueue.linear (q : PwtQueue) (w : PwtInsn) (n size : Nat) : Except Nat Nat :=
  let g := q.gen w.ag
  let a := (g.base + g.p.toNat) % 2 ^ 32
  if g.mode ≠ 0 then .error pwtRange else if size < a + n then .error pwtAddr else .ok a

/-- BFPU (R121): unpacks VL / 12 blocks. With VC = VD and IMM[4] set no rule says which result stays: a free value decides. -/
def execBfpu (u : Nat) (s : State) : Host.Outcome State Fault Refusal :=
  .next (s.pwtOp u (· == 0x22) fun s i r w =>
    let q := s.pq u i
    match bfpWidth w.imm with
    | none => .error pwtRange
    | some wd =>
      if q.vl ≠ 12 ∧ q.vl ≠ 24 then .error pwtRange
      else
        let bl := 1 + 3 * wd
        let n := q.vl / 12 * bl
        match q.linear w n (s.shareSize (u / 4) r.task.ctx) with
        | .error c => .error c
        | .ok a =>
          let blk (b : Nat) : List Byte := (s.shareRead (u / 4) r.task.ctx (a + b * bl) bl).getD []
          let e (l : Nat) : Nat := (nth 0 (blk (l / 12)) 0).toNat % 16
          let part (l p : Nat) : Nat × Nat := narrow 16 (bfpMant (blk (l / 12)) wd (2 * (l % 12) + p) * Int.ofNat (2 ^ e l))
          let x := q.lanes w.vd fun l => ci16Of (part l 0) (part l 1)
          let keep := w.vc == w.vd && bit (Config.freeValue s.nonce) 0
          let q' := if bit w.imm 4 && !keep then (x.1.lanes w.vc fun l => (e l, 0)).1 else x.1
          let g := q.gen w.ag
          let q' := q'.setGen w.ag { g with p := BitVec.ofNat 32 (g.p.toNat + n) }
          .ok (((s.setPq u i q'.step).bump (Reg.PWT_SAT (u / 4) (u % 4)) x.2).tickNonce))

/-- Writes packed bytes at a share address and marks them when the instruction asks for it. -/
def State.pwtWrite (s : State) (u : Nat) (r : PwtRec) (a : Nat) (bs : List Byte) (dig : Bool) : State :=
  ((s.shareWrite (u / 4) r.task.ctx a bs).getD s).when dig (·.mark r.task (shareMark a) bs.length)

/-- BFPK (R122): packs VL / 12 blocks, with computed or given exponents. -/
def execBfpk (u : Nat) (s : State) : Host.Outcome State Fault Refusal :=
  .next (s.pwtOp u (· == 0x23) fun s i r w =>
    let q := s.pq u i
    match bfpWidth w.imm with
    | none => .error pwtRange
    | some wd =>
      if q.vl ≠ 12 ∧ q.vl ≠ 24 then .error pwtRange
      else
        let n := q.vl / 12 * (1 + 3 * wd)
        match q.linear w n (s.shareSize (u / 4) r.task.ctx) with
        | .error c => .error c
        | .ok a =>
          let blks := (List.range (q.vl / 12)).map fun b =>
            q.bfpPack w.va b wd (if bit w.imm 4 then some (q.lane w.vb (12 * b) % 16) else none)
          let s := s.pwtWrite u r a (blks.flatMap (·.1)) (bit w.imm 5)
          let g := q.gen w.ag
          .ok ((s.setPq u i (q.setGen w.ag { g with p := BitVec.ofNat 32 (g.p.toNat + n) }).step).bump
            (Reg.PWT_SAT (u / 4) (u % 4)) (blks.map (·.2)).sum))

/-- LLR (R125): Q_m bytes for each active lane. -/
def execLlr (u : Nat) (s : State) : Host.Outcome State Fault Refusal :=
  .next (s.pwtOp u (· == 0x24) fun s i r w =>
    let q := s.pq u i
    let b := w.imm % 4 + 1
    if 31 < w.sh then .error pwtRange
    else
      let n := 2 * b * q.vl
      match q.linear w n (s.shareSize (u / 4) r.task.ctx) with
      | .error c => .error c
      | .ok a =>
        let out := (List.range q.vl).flatMap fun l =>
          llrLane b (q.s w.sa % 2 ^ 16) (q.lane w.vb l % 2 ^ 16) w.sh (q.ci w.va l)
        let s := s.pwtWrite u r a (out.map (·.1)) (bit w.imm 2)
        let g := q.gen w.ag
        .ok ((s.setPq u i (q.setGen w.ag { g with p := BitVec.ofNat 32 (g.p.toNat + n) }).step).bump
          (Reg.PWT_SAT (u / 4) (u % 4)) (out.map (·.2)).sum))

/-! ### Arithmetic -/

/-- CMAC (R95). -/
def execCmac (u : Nat) (s : State) : Host.Outcome State Fault Refusal := .next (s.pwtReg u 0x30 pwtCmac)
/-- ACCR. -/
def execAccr (u : Nat) (s : State) : Host.Outcome State Fault Refusal := .next (s.pwtReg u 0x31 pwtAccr)
/-- ACC32. -/
def execAcc32 (u : Nat) (s : State) : Host.Outcome State Fault Refusal := .next (s.pwtReg u 0x32 pwtAcc32)
/-- ACCSUM. -/
def execAccsum (u : Nat) (s : State) : Host.Outcome State Fault Refusal := .next (s.pwtReg u 0x33 pwtAccsum)
/-- CMULH. -/
def execCmulh (u : Nat) (s : State) : Host.Outcome State Fault Refusal := .next (s.pwtReg u 0x34 pwtCmulh)
/-- CADD. -/
def execCadd (u : Nat) (s : State) : Host.Outcome State Fault Refusal := .next (s.pwtReg u 0x35 (pwtAddSub 1))
/-- CSUB. -/
def execCsub (u : Nat) (s : State) : Host.Outcome State Fault Refusal := .next (s.pwtReg u 0x36 (pwtAddSub (-1)))
/-- VSHF. -/
def execVshf (u : Nat) (s : State) : Host.Outcome State Fault Refusal := .next (s.pwtReg u 0x37 pwtVshf)
/-- CMAG2. -/
def execCmag2 (u : Nat) (s : State) : Host.Outcome State Fault Refusal := .next (s.pwtReg u 0x38 pwtCmag2)
/-- VPERM. -/
def execVperm (u : Nat) (s : State) : Host.Outcome State Fault Refusal := .next (s.pwtReg u 0x39 pwtVperm)
/-- NORM (R119). -/
def execNorm (u : Nat) (s : State) : Host.Outcome State Fault Refusal := .next (s.pwtReg u 0x3A pwtNorm)
/-- EXPB (R120). -/
def execExpb (u : Nat) (s : State) : Host.Outcome State Fault Refusal := .next (s.pwtReg u 0x3B pwtExpb)
/-- BFLY2 (R123). -/
def execBfly2 (u : Nat) (s : State) : Host.Outcome State Fault Refusal := .next (s.pwtReg u 0x3C pwtBfly2)
/-- BFLY4 (R124). -/
def execBfly4 (u : Nat) (s : State) : Host.Outcome State Fault Refusal := .next (s.pwtReg u 0x3D pwtBfly4)

/-- The OP values of the instruction list (R126). -/
def pwtDefined (op : Nat) : Bool :=
  decide (op ≤ 0x09 ∧ op ≠ 0x07) || decide (0x10 ≤ op ∧ op ≤ 0x19) || decide (0x20 ≤ op ∧ op ≤ 0x24) || decide (0x30 ≤ op ∧ op ≤ 0x3D)

/-- PEWTER_ILLEGAL_OP (R111, R126): an undefined OP faults as ILLEGAL_OP. -/
def execPewterIllegalOp (u : Nat) (s : State) : Host.Outcome State Fault Refusal :=
  .next (s.pwtOp u (fun op => !pwtDefined op) fun _ _ _ _ => .error pwtIllegal)

end Sys2Proof.Machine
end

