-- ==== Sys2Proof/Machine/Philox.lean ====
section
/-! DEFINITION. The random streams of R231: Philox-4×32-10 and the word of a stream of a task. -/

namespace Sys2Proof.Machine

/-- One round of Philox-4×32 on a counter (x0, x1, x2, x3) under a key. -/
def philoxRound (x : Nat × Nat × Nat × Nat) (k0 k1 : Nat) : Nat × Nat × Nat × Nat :=
  let p0 := 0xD2511F53 * x.1
  let p1 := 0xCD9E8D57 * x.2.2.1
  ((p1 / 2 ^ 32) ^^^ x.2.1 ^^^ k0, p1 % 2 ^ 32, (p0 / 2 ^ 32) ^^^ x.2.2.2 ^^^ k1, p0 % 2 ^ 32)

/-- `n` rounds, the key rising by the increments of R231. -/
def philoxRounds : Nat → Nat × Nat × Nat × Nat → Nat → Nat → Nat × Nat × Nat × Nat
  | 0, x, _, _ => x
  | n + 1, x, k0, k1 => philoxRounds n (philoxRound x k0 k1) ((k0 + 0x9E3779B9) % 2 ^ 32) ((k1 + 0xBB67AE85) % 2 ^ 32)

/-- R231: word w of stream st under a seed and a TASK_ID. -/
def philoxWord (seed taskId st w : Nat) : Nat :=
  let j := w / 4
  let x := philoxRounds 10 (j % 2 ^ 32, (st * 2 ^ 16 + j / 2 ^ 32 % 2 ^ 16) % 2 ^ 32, taskId % 2 ^ 32, taskId / 2 ^ 32 % 2 ^ 32)
    (seed % 2 ^ 32) (seed / 2 ^ 32 % 2 ^ 32)
  match w % 4 with
  | 0 => x.1
  | 1 => x.2.1
  | 2 => x.2.2.1
  | _ => x.2.2.2

/-- The word that a unit of work of a task draws. -/
def State.taskWord (s : State) (t : TaskId) (st w : Nat) : Nat := philoxWord (s.ctx t.ctx).seed t.taskId st w

end Sys2Proof.Machine
end

