-- ==== Sys2Proof/Machine/TrestleMath.lean ====
section
/-! DEFINITION. The arithmetic of a Trestle: layouts, stationary blocks, passes, accumulation, the checks of R246 to R248 and
the output conversion of R84 to R91. -/

namespace Sys2Proof.Machine

/-! ### Layouts (R40, R57, R63 to R67) -/

/-- Column groups of a layout. -/
def groupsOf (layout : Nat) : Nat := match layout with
  | 1 => 2
  | 2 => 4
  | _ => 1
/-- Blocks of a layout: 2^(BD_LOG + 1) in block-diagonal layout, else 1. -/
def TrsQueue.blocksOf (q : TrsQueue) : Nat := if q.layout = 3 then 2 ^ (q.bdLog + 1) else 1
/-- The accumulator kind of a queue's operands. -/
def TrsQueue.kind (q : TrsQueue) : AccKind := ((Fmt.ofCode q.fmtA).getD .bf).kind
def TrsQueue.fa (q : TrsQueue) : Fmt := (Fmt.ofCode q.fmtA).getD .bf
def TrsQueue.fb (q : TrsQueue) : Fmt := (Fmt.ofCode q.fmtB).getD .bf
/-- V of a queue's formats (R32). -/
def TrsQueue.v (q : TrsQueue) : Nat := Fmt.pairV q.fa q.fb
/-- R63, R64: whether a PROB value is valid for the layout. -/
def TrsQueue.probOk (q : TrsQueue) (p : Nat) : Bool :=
  decide (p / 2 < groupsOf q.layout) && (q.ksplit || p % 2 == 0)
/-- Array rows of one problem, or of one block. -/
def TrsQueue.rows (q : TrsQueue) : Nat :=
  if q.layout = 3 then 128 / q.blocksOf else if q.ksplit then 64 else 128
/-- Physical columns of one problem, or of one block. -/
def TrsQueue.colsMax (q : TrsQueue) : Nat :=
  if q.layout = 3 then 128 / q.blocksOf else 128 / groupsOf q.layout
/-- The effective K of a problem or block; complex formats count complex values. -/
def TrsQueue.kMax (q : TrsQueue) : Nat := if q.kind.isComplex then q.rows / 2 else q.rows * q.v
/-- The greatest N_COLS of a LOAD; complex formats count complex columns. -/
def TrsQueue.nMax (q : TrsQueue) : Nat := if q.kind.isComplex then q.colsMax / 2 else q.colsMax
/-- The greatest N_COLS of a DRAIN: every output column of the layout. -/
def TrsQueue.dMax (q : TrsQueue) : Nat :=
  let w := if q.layout = 3 then 128 else q.colsMax
  if q.kind.isComplex then w / 2 else w
/-- R40, R247: the accumulator rows of a problem. `half` tells that checked results keep twins. -/
def TrsQueue.accRows (q : TrsQueue) (half : Bool) : Nat :=
  let n := if q.ksplit then 1024 else 2048
  if half then n / 2 else n
/-- Physical width of a problem's group. -/
def TrsQueue.width (q : TrsQueue) : Nat := if q.layout = 3 then 128 else q.colsMax
/-- Physical column of a problem's first column. -/
def TrsQueue.col0 (q : TrsQueue) (p : Nat) : Nat := (p / 2) * (128 / groupsOf q.layout)

/-- The keys (without the bank bit) of the segments and halves a problem covers (R30, R36): 2 segment + half. -/
def TrsQueue.segs (q : TrsQueue) (p : Nat) : List Nat :=
  let s0 := q.col0 p / 32
  let n := q.width / 32
  (List.range n).flatMap fun i =>
    if q.ksplit then [2 * (s0 + i) + p % 2] else [2 * (s0 + i), 2 * (s0 + i) + 1]

/-- Scales of a row or column of K values. -/
def scalesOf (k : Nat) : Nat := ceilDiv k 32

/-- Bytes of one stationary record (R58). -/
def TrsQueue.recBytes (q : TrsQueue) (n : Nat) : Nat := q.fb.bytes (if q.kind.isComplex then n else n * q.v)

/-- Bytes of one streamed row (R31, R65). -/
def TrsQueue.rowBytes (q : TrsQueue) (k : Nat) : Nat :=
  if q.layout = 3 then q.blocksOf * q.fa.bytes q.kMax else q.fa.bytes k

/-- Elements of a row of C (R498). -/
def TrsQueue.cWidth (q : TrsQueue) (n : Nat) : Nat := if q.layout = 3 then (q.blocksOf - 1) * q.nMax + n else n

/-- R59: T-cycles that a LOAD takes. -/
def TrsQueue.loadCycles (q : TrsQueue) (l : TrsLoad) : Nat :=
  let lines := ceilDiv (q.recBytes l.nCols) 128
  let rows := if q.layout = 3 then (if q.kind.isComplex then 64 else 128)
    else if q.kind.isComplex then l.k else ceilDiv l.k q.v
  max 1 (rows * lines)

/-! ### Reading blocks and rows -/

/-- The exact value of element part i of packed bytes, under a scale byte when the format has scales. -/
def partUnder (f : Fmt) (bs : List Byte) (sc : List Byte) (i si : Nat) : FNum :=
  let x := partVal f (partCode f bs i)
  if f.mx then underScale (scaleExp (nth 0 sc si)) x else x

/-- Column n of a real block: its K values (R58). `recs` are the records of the block, `sc` the column's scales. -/
def realCol (f : Fmt) (v k n : Nat) (recs : List (List Byte)) (sc : List Byte) : List FNum :=
  (List.range k).map fun i => partUnder f (nth [] recs (i / v)) sc (n * v + i % v) (i / 32)

/-- The two accumulator columns of complex column n (R67): over array rows, (b_r, −b_i) and (b_i, b_r). -/
def complexCols (f : Fmt) (k n : Nat) (recs : List (List Byte)) : List (List FNum) :=
  let br (i : Nat) := partVal f (partCode f (nth [] recs i) (2 * n))
  let bi (i : Nat) := partVal f (partCode f (nth [] recs i) (2 * n + 1))
  [(List.range k).flatMap fun i => [br i, negF (bi i)], (List.range k).flatMap fun i => [bi i, br i]]

/-- Bytes of the share that an op named and whose range its decode has tested. -/
def State.shareGet (s : State) (c x o n : Nat) : List Byte := (s.shareRead c x o n).getD []

/-- The accumulator columns of block b of a LOAD, padded columns empty (R58, R59). -/
def State.loadCols (s : State) (c x : Nat) (q : TrsQueue) (l : TrsLoad) (b : Nat) : List (List FNum) :=
  let cx := q.kind.isComplex
  let nrec := if cx then l.k else ceilDiv l.k q.v
  let base := l.bAddr + b * q.rows * l.bStride
  let recs := (List.range nrec).map fun i => s.shareGet c x (base + i * l.bStride) (q.recBytes l.nCols)
  let nsc := scalesOf l.k
  let cols := (List.range l.nCols).flatMap fun n =>
    if cx then complexCols q.fb l.k n recs
    else [realCol q.fb q.v l.k n recs (if q.fb.mx then s.shareGet c x (l.bScale + (b * q.rows + n) * nsc) nsc else [])]
  cols ++ List.replicate (q.colsMax - cols.length) []

/-- FP32 of an exact value. -/
def fp32Of (x : FNum) : W32 := BitVec.ofNat 32 (encodeF fp32 .rne x)
/-- One FP32 addition with RNE. -/
def add32 (a b : W32) : W32 := addRne32 a (decodeF fp32 b.toNat)

/-- The integer an exact integer value stands for. -/
def intOf : FNum → Int
  | .num n m e => scaled n m e 0
  | _ => 0

/-- Sum of a list of values in the accumulator arithmetic, in order (R246). -/
def sumVals (float : Bool) (xs : List FNum) : FNum :=
  if float then decodeF fp32 (xs.foldl addRne32 0).toNat
  else numOfInt (sext 32 (wrap 32 (xs.foldl (fun a x => a + intOf x) 0))) 0

/-- R246: the checksum column of one block of a layout, for each K position the sum over its columns in ascending n. -/
def chkCol (float : Bool) (k : Nat) (cols : List (List FNum)) : List FNum :=
  (List.range k).map fun i => sumVals float (cols.filterMap fun v => v[i]?)

/-- The block a LOAD reads (R58, R65, R67, R246). -/
def State.readBlock (s : State) (c qi : Nat) (q : TrsQueue) (p : Nat) (task : TaskId) (l : TrsLoad) : TrsBlock :=
  let x := task.ctx
  let parts := (List.range q.blocksOf).map (s.loadCols c x q l)
  let kk := if q.kind.isComplex then 2 * l.k else l.k
  { q := qi, p := p, task := task, load := l, kind := q.kind, v := if q.kind.isComplex then 1 else q.v, bw := q.colsMax
    col0 := q.col0 p, width := q.width, last := p / 2 + 1 == groupsOf q.layout, cols := parts.flatten
    chk := parts.map (chkCol q.kind.isFloat kk) }

/-- The values of row m of A, per block of the layout (R60, R65, R67). -/
def State.readRow (s : State) (c x : Nat) (q : TrsQueue) (t : TrsStream) (m : Nat) : List (List FNum) :=
  let f := q.fa
  let bs := s.shareGet c x (t.aAddr + m * t.aStride) (q.rowBytes t.k)
  let nb := q.blocksOf
  let nsc := scalesOf t.k
  (List.range nb).map fun b =>
    let vb := if q.layout = 3 then bs.drop (b * f.bytes q.kMax) else bs
    let sc := if f.mx then s.shareGet c x (t.aScale + (m * nb + b) * nsc) nsc else []
    (List.range (if f.complex then 2 * t.k else t.k)).map fun i => partUnder f vb sc i (i / 32)

/-- R83, R498: the accumulator row that INIT = C starts from. -/
def State.readC (s : State) (c x : Nat) (q : TrsQueue) (t : TrsStream) (n m : Nat) : List W32 :=
  match Fmt.ofCode t.cFmt with
  | none => []
  | some f =>
    let w := q.cWidth n
    let bs := s.shareGet c x (t.cAddr + m * t.cStride) (f.bytes w)
    let sc := if f.mx then s.shareGet c x (t.cScale + m * scalesOf w) (scalesOf w) else []
    let parts := if f.complex then 2 else 1
    (List.range q.width).map fun j =>
      let e := j / parts
      let inBlk := if q.layout = 3 then e % q.nMax else e
      if inBlk < n && e < w then
        cInit f (if f.mx then scaleExp (nth 0 sc (e / 32)) else some 0) (partCode f bs j)
      else 0

/-! ### Passes (R79 to R82, R41) -/

/-- The exact sum of the products of one cell: P of R79. -/
def cellSum : List FNum → List FNum → FNum
  | a :: as, b :: bs => addF (mulF a b) (cellSum as bs)
  | _, _ => .num false 0 0

/-- Sums the cells of one column over array rows, V products each, from a running sum. -/
def passF (v : Nat) : Nat → W32 → List FNum → List FNum → W32
  | 0, acc, _, _ => acc
  | _, acc, [], _ => acc
  | _, acc, _, [] => acc
  | fuel + 1, acc, a, b => passF v fuel (addRne32 acc (noNegZero (cellSum (a.take v) (b.take v)))) (a.drop v) (b.drop v)

/-- The integer pass of a column, wrapping at 32 bits (R82). -/
def passI (acc : W32) (a b : List FNum) : W32 :=
  acc + BitVec.ofInt 32 ((a.zip b).foldl (fun t ab => t + intOf ab.1 * intOf ab.2) 0)

/-- One column's pass, continuing from a running sum. -/
def passCol (kind : AccKind) (v : Nat) (acc : W32) (a b : List FNum) : W32 :=
  if kind.isFloat then passF v (a.length + 1) acc a b else passI acc a b

/-- The passes of a row over the columns of its block. -/
def TrsBlock.passes (b : TrsBlock) (a : List (List FNum)) : List W32 :=
  b.cols.zipIdx.map fun (col, j) => passCol b.kind b.v 0 (nth [] a (j / b.bw)) col

/-- The pass of the checksum column (R246), array rows of all blocks in order. -/
def TrsBlock.tail (b : TrsBlock) (a : List (List FNum)) : W32 :=
  (a.zip b.chk).foldl (fun acc ab => passCol b.kind b.v acc ab.1 ab.2) 0

/-- The accumulator element after a pass lands on it (R41). -/
def accAdd (kind : AccKind) (acc pass : W32) : W32 := if kind.isFloat then add32 acc pass else acc + pass

/-! ### Checks (R248) -/

def abs32 (a : W32) : W32 := a &&& 0x7FFFFFFF#32
/-- NaN or infinite. -/
def nonFinite (a : W32) : Bool := a.toNat / 2 ^ 23 % 256 == 255
/-- FP32 product with RNE. -/
def mul32 (a b : W32) : W32 := fp32Of (mulF (decodeF fp32 a.toNat) (decodeF fp32 b.toNat))
/-- a ≤ b for nonnegative finite or infinite FP32 values. -/
def le32 (a b : W32) : Bool := decide (a.toNat ≤ b.toNat)

/-- Whether a check over terms `xs` and a checksum `y` passes (R248). -/
def checkOk (kind : AccKind) (tau : W32) (xs : List W32) (y : W32) : Bool :=
  if kind.isFloat then
    let x := xs.foldl add32 0
    if nonFinite x || nonFinite y then nonFinite x && nonFinite y
    else
      let a := (xs.map abs32).foldl add32 0
      let d := abs32 (add32 x (y ^^^ 0x80000000#32))
      le32 d (add32 (mul32 tau (add32 a (abs32 y))) 0x00800000#32)
  else xs.foldl (· + ·) 0 == y

/-- The columns of a tile whose column check fails, and whether some row check fails (R246). -/
def tileChecks (kind : AccKind) (tau : W32) (last : Bool) (passes : List (List W32)) (tails extra : List W32) :
    List Nat × Bool :=
  let ncols := extra.length
  let bad := (List.range ncols).filter fun n => !checkOk kind tau (passes.map (nth 0 · n)) (nth 0 extra n)
  let rowBad := last && (passes.zip tails).any fun (p, y) => !checkOk kind tau p y
  (bad, rowBad)

/-! ### Output conversion (R84 to R91) -/

/-- The bytes and scales of one drained row: accumulator words `ws`, element numbers from m × N. -/
def drainRow (f : Fmt) (d : TrsDrain) (word : Nat → Nat) (m : Nat) (ws : List W32) : List Byte × List Byte :=
  let parts := if f.complex then 2 else 1
  let ws := ws.take (parts * d.nCols)
  let rnd (i : Nat) : Round := if d.rnd = 1 then .stoch (word i) else .rne
  match f.mx, f.float with
  | true, some ff =>
    let r := mxRow f ff d.nanOvf (fun j => rnd (m * d.nCols + j)) (ws.length + 1) 0 (ws.map fun w => decodeF fp32 w.toNat)
    (packParts f r.2, r.1.map (BitVec.ofNat 8))
  | _, _ => (packParts f (ws.zipIdx.map fun (w, j) => convPart f (rnd (parts * (m * d.nCols) + j)) w), [])

end Sys2Proof.Machine
end

