-- ==== Sys2Proof/Machine/Trestle.lean ====
section
/-! DEFINITION. The command queues of a Trestle and its tile ops (R44, R54 to R62): every row TRS_* of the table executes the op
at the head of the queue being served when it is of that row's kind. -/

namespace Sys2Proof.Machine

/-- Queue 0 (radio) or 1 (tenant) of a Trestle (R44). -/
def Trestle.qu (t : Trestle) (i : Nat) : TrsQueue := if i = 0 then t.rq else t.tq
def Trestle.setQu (t : Trestle) (i : Nat) (q : TrsQueue) : Trestle := if i = 0 then { t with rq := q } else { t with tq := q }

/-- Updates a queue of cluster c's Trestle. -/
def State.modQu (s : State) (c i : Nat) (f : TrsQueue → TrsQueue) : State :=
  let t := s.trestle c
  s.setTrestle c (t.setQu i (f (t.qu i)))

/-- Bank key of a segment-and-half key and a bank (R35). -/
def bankKey (seg bank : Nat) : Nat := 2 * seg + bank
/-- The bank keys of a problem's block in a bank. -/
def TrsQueue.bankKeys (q : TrsQueue) (p bank : Nat) : List Nat := (q.segs p).map fun s => bankKey s bank

/-- Every earlier op of the queue has completed (R61). -/
def Trestle.quiet (t : Trestle) (i : Nat) : Bool :=
  let q := t.qu i
  q.acts.isEmpty && q.loads.isEmpty && q.convs.isEmpty && t.flight.all (·.q != i) && t.tiles.all (·.q != i)

/-- A queue has a re-run waiting or running (R52). -/
def Trestle.rerunning (t : Trestle) (i : Nat) : Bool :=
  t.tiles.any (fun x => x.q == i && x.phase != 0) || (t.serving == i && !t.rerun.isEmpty)

/-- A queue may run: its cluster is on, it is enabled and not halted, no step switch holds it, no WAIT stalls it. -/
def State.trsRuns (s : State) (c i : Nat) : Bool :=
  s.clusterOn c && s.flag (Reg.TRS_CTRL c) i && !s.flag (Reg.TRS_CTRL c) 2 && !s.holding c && !s.waiting c i

/-- The op record at a queue's head with its 64 bytes; a record outside the share reads as `unread`, and a program of a context that
is being torn down issues no more (R191). -/
def State.trsHead (s : State) (c i : Nat) : Option (TrsItem × TileOp × List Byte) :=
  match ((s.trestle c).qu i).items with
  | [] => none
  | it :: _ =>
    if it.fault.isSome || (s.ctx it.task.ctx).tearing then none
    else if it.staged then
      match it.recs[it.pc]? with
      | some bs => some (it, decodeTileOp bs, bs)
      | none => none
    else
      match s.shareRead c it.task.ctx it.pc 64 with
      | some bs => some (it, decodeTileOp bs, bs)
      | none => some (it, .unread, [])

/-- Whether a head op can proceed now (R46, R57, R61). -/
def Trestle.canGo (t : Trestle) (i : Nat) : TileOp → Bool
  | .config _ => (t.qu i).acts.isEmpty && (t.qu i).loads.isEmpty
  | .stream p _ => ((t.qu i).acts.look p).isNone
  | .signal _ _ => t.quiet i
  | .fin => t.quiet i
  | _ => true

/-- The queue's head can proceed: a stream in progress, a re-run, or a head op that is not held. -/
def State.trsCan (s : State) (c i : Nat) : Bool :=
  let t := s.trestle c
  s.trsRuns c i &&
    (!(t.qu i).acts.isEmpty || t.rerunning i || !(t.qu i).loads.isEmpty ||
      match s.trsHead c i with
      | some (_, op, _) => t.canGo i op
      | none => false)

/-- Moves past the head op: the next record, or the end of a staged push. -/
def TrsQueue.advance (q : TrsQueue) : TrsQueue :=
  match q.items with
  | [] => q
  | it :: rest =>
    if it.staged then
      if it.pc + 1 < it.recs.length then { q with items := { it with pc := it.pc + 1 } :: rest } else { q with items := rest }
    else { q with items := { it with pc := it.pc + 64 } :: rest }

/-- The op ends a tile: a boundary falls after it (R45). -/
def State.trsAdvance (s : State) (c i : Nat) : State :=
  let s := s.modQu c i (·.advance)
  s.setTrestle c { s.trestle c with boundary := true }

/-- R62: a faulted program is reported once its earlier ops have completed, and the queue goes on with its next program. -/
def State.trsSettle (s : State) (c i : Nat) : State :=
  match ((s.trestle c).qu i).items with
  | [] => s
  | it :: rest =>
    match it.fault with
    | none => s
    | some cause =>
      if (s.trestle c).quiet i then
        (s.modQu c i fun q => { q with items := rest }).finish it.task 1 cause c
      else s

/-- R62: records a fault in TRS_FAULT and ends the program. -/
def State.trsFault (s : State) (c i opc tag cause : Nat) : State :=
  let s := (s.setReg (Reg.TRS_FAULT c) (1 + 2 * cause + 16 * i + 256 * opc)).setReg (Reg.TRS_FAULT_TAG c) tag
  let s := s.modQu c i fun q => { q with items := match q.items with
    | [] => []
    | it :: rest => { it with fault := some cause } :: rest }
  (s.setTrestle c { s.trestle c with boundary := true }).trsSettle c i

/-- Causes of TRS_FAULT. -/
def trsIllegal : Nat := 1
def trsAddr : Nat := 2
def trsLayout : Nat := 3
def trsRange : Nat := 4
def trsFormat : Nat := 5
def trsCheck : Nat := 6

/-- An access of `n` bytes at `o` lies in a share; nothing is accessed when `n` is 0. -/
def inShare (size o n : Nat) : Bool := n == 0 || decide (o + n ≤ size)

/-- Runs `f` on the head op of the queue being served when it may run now and `kind` accepts it. A record outside the share
faults as ADDR whichever row of the table meets it; a nonzero PROB in an op without a problem faults as RANGE (R55). -/
def State.trsOp (s : State) (c : Nat) (kind : TileOp → Bool) (opc : Nat)
    (f : State → Nat → TrsItem → TileOp → List Byte → State) : State :=
  let t := s.trestle c
  let i := t.serving
  if !s.trsRuns c i || t.change != 0 || t.rerunning i then s
  else
    match s.trsHead c i with
    | none => s
    | some (it, op, bs) =>
      if !t.canGo i op then s
      else
        match op with
        | .unread => s.trsFault c i 0 0 trsAddr
        | .badProb o => if o = opc then s.trsFault c i o (recTag bs) trsRange else s
        | _ => if kind op then f s i it op bs else s

/-! ### The tile ops -/

/-- TRS_NOP (R61). -/
def execTrsNop (c : Nat) (s : State) : Host.Outcome State Fault Refusal :=
  .next (s.trsOp c (fun o => o == .nop) 0 fun s i _ _ _ => s.trsAdvance c i)

/-- The fault cause of a CONFIG, if any (R32, R56, R57). -/
def configFault (w : Nat) : Option Nat :=
  if bits w 1 0 = 3 ∧ bit w 2 = true then some trsLayout
  else
    match Fmt.ofCode (bits w 7 4), Fmt.ofCode (bits w 11 8) with
    | some a, some b =>
      if !Fmt.pairOk a b then some trsFormat
      else if bits w 13 12 ≠ 0 ∧ bits w 1 0 ≠ 3 then some trsRange else none
    | _, _ => some trsFormat

/-- TRS_CONFIG (R57): the layout and formats of later rows; the record of latest blocks ends. -/
def execTrsConfig (c : Nat) (s : State) : Host.Outcome State Fault Refusal :=
  .next (s.trsOp c (fun o => match o with
    | .config _ => true
    | _ => false) 1 fun s i _ op bs =>
      match op with
      | .config w =>
        match configFault w with
        | some f => s.trsFault c i 1 (recTag bs) f
        | none =>
          (s.modQu c i fun q =>
            { q with
              layout := bits w 1 0, ksplit := bit w 2, fmtA := bits w 7 4, fmtB := bits w 11 8, bdLog := bits w 13 12
              latest := [], blkOf := [], checked := [] }).trsAdvance c i
      | _ => s)

/-- The fault cause of a LOAD, if any, for a share of `size` bytes. -/
def TrsQueue.loadFault (q : TrsQueue) (size p : Nat) (l : TrsLoad) : Option Nat :=
  if !q.probOk p then some trsLayout
  else if q.nMax < l.nCols || q.kMax < l.k || l.bStride % 64 != 0 || decide (l.bStride < q.recBytes l.nCols) then some trsRange
  else
    let nrec := if q.kind.isComplex then l.k else ceilDiv l.k q.v
    let lastBlk := q.blocksOf - 1
    let lastRec := l.bAddr + lastBlk * q.rows * l.bStride + (nrec - 1) * l.bStride
    let nsc := scalesOf l.k
    let recOk := nrec == 0 || inShare size lastRec (q.recBytes l.nCols)
    let scOk := !q.fb.mx || l.nCols == 0 || inShare size (l.bScale + (lastBlk * q.rows + (l.nCols - 1)) * nsc) nsc
    if recOk && scOk then none else some trsAddr

/-- R35: the bank a LOAD fills: not the one of the problem's latest block. DESIGN CHOICE where there is none: bank 0, or bank 1
while rows in flight select bank 0 (log 12). -/
def Trestle.nextBank (t : Trestle) (i p : Nat) : Nat :=
  let q := t.qu i
  match q.latest.look p with
  | some b => 1 - b
  | none => if (q.bankKeys p 0).any (fun k => (t.banks.get {} k).inflight != 0) then 1 else 0

/-- TRS_LOAD (R58): the problem's next block; it is read and written into its bank at LOAD_BEGIN (R36). -/
def execTrsLoad (c : Nat) (s : State) : Host.Outcome State Fault Refusal :=
  .next (s.trsOp c (fun o => match o with
    | .load _ _ => true
    | _ => false) 2 fun s i it op bs =>
      match op with
      | .load p l =>
        let t := s.trestle c
        let q := t.qu i
        match q.loadFault (s.shareSize c it.task.ctx) p l with
        | some f => s.trsFault c i 2 (recTag bs) f
        | none =>
          let b := t.nextBank i p
          let pend : TrsPend := { p := p, blk := t.nextId, banks := q.bankKeys p b, load := l, task := it.task, seq := t.seq, reload := false }
          let q := { q with latest := q.latest.put p b, blkOf := q.blkOf.put p t.nextId, loads := q.loads ++ [pend] }
          (s.setTrestle c { t.setQu i q with nextId := t.nextId + 1, seq := t.seq + 1 }).trsAdvance c i
      | _ => s)

/-- The LOAD behind a block, pending or begun. -/
def Trestle.loadOf (t : Trestle) (i blk : Nat) : Option TrsLoad :=
  match (t.qu i).loads.find? (fun l => l.blk == blk && !l.reload) with
  | some l => some l.load
  | none => (t.blocks.look blk).map (·.load)

/-- A problem keeps half its accumulator rows while it has checked tiles (R247). -/
def TrsQueue.half (q : TrsQueue) (i p : Nat) : Bool := i == 0 || q.checked.contains p

/-- The fault cause of a STREAM, if any. `ld` is the LOAD of the problem's latest block. -/
def TrsQueue.streamFault (q : TrsQueue) (size i p : Nat) (chk : Bool) (ld : Option TrsLoad) (t : TrsStream) : Option Nat :=
  if !q.probOk p then some trsLayout
  else if t.init == 2 && ((Fmt.ofCode t.cFmt).map (·.kind)) != some q.kind then some trsFormat
  else
    match ld with
    | none => some trsRange
    | some l =>
      let rows := q.accRows (chk || q.half i p)
      if t.k != l.k || t.init == 3 || decide (rows ≤ t.accRow) || decide (rows < t.accRow + t.m) then some trsRange
      else if t.m = 0 then none
      else
        let nsc := scalesOf t.k
        let nb := q.blocksOf
        let aOk := inShare size (t.aAddr + (t.m - 1) * t.aStride) (q.rowBytes t.k)
        let sOk := !q.fa.mx || inShare size (t.aScale + ((t.m - 1) * nb + (nb - 1)) * nsc) nsc
        let cOk := t.init != 2 || match Fmt.ofCode t.cFmt with
          | none => false
          | some f =>
            let w := q.cWidth l.nCols
            inShare size (t.cAddr + (t.m - 1) * t.cStride) (f.bytes w) &&
              (!f.mx || inShare size (t.cScale + (t.m - 1) * scalesOf w) (scalesOf w))
        if aOk && sOk && cOk then none else some trsAddr

/-- TRS_STREAM (R60): begins the injection of M rows against the latest block; checked for class 0 and under TENANT_FORCE. -/
def execTrsStream (c : Nat) (s : State) : Host.Outcome State Fault Refusal :=
  .next (s.trsOp c (fun o => match o with
    | .stream _ _ => true
    | _ => false) 3 fun s i it op bs =>
      match op with
      | .stream p st =>
        let t := s.trestle c
        let q := t.qu i
        let chk := st.chk || it.task.cls == 0 || (i == 1 && s.flag (Reg.TRS_CHK_CTRL c) 0)
        let blk := q.blkOf.get 0 p
        let ld := if (q.blkOf.look p).isSome then t.loadOf i blk else none
        match q.streamFault (s.shareSize c it.task.ctx) i p chk ld st with
        | some f => s.trsFault c i 3 (recTag bs) f
        | none =>
          let q := if chk && !q.checked.contains p then { q with checked := q.checked ++ [p] } else q
          if st.m = 0 then (s.setTrestle c (t.setQu i q)).trsAdvance c i
          else
            let act : TrsAct :=
              { p := p, op := st, task := it.task, seq := t.seq, blk := blk
                banks := q.bankKeys p (q.latest.get 0 p), chk := chk, tag := recTag bs }
            let q := { q.advance with acts := q.acts.put p act }
            s.setTrestle c { t.setQu i q with seq := t.seq + 1 }
      | _ => s)

/-- The fault cause of a DRAIN, if any. -/
def TrsQueue.drainFault (q : TrsQueue) (size i p : Nat) (d : TrsDrain) : Option Nat :=
  if !q.probOk p then some trsLayout
  else
    match Fmt.ofCode d.dFmt with
    | none => some trsFormat
    | some f =>
      if f.kind != q.kind then some trsFormat
      else
        let rows := q.accRows (q.half i p)
        if decide (1 < d.rnd) || q.dMax < d.nCols || decide (rows ≤ d.accRow) || decide (rows < d.accRow + d.m) then some trsRange
        else if d.m = 0 then none
        else
          let ok := inShare size (d.dAddr + (d.m - 1) * d.dStride) (f.bytes d.nCols) &&
            (!f.mx || inShare size (d.dScale + (d.m - 1) * scalesOf d.nCols) (scalesOf d.nCols))
          if ok then none else some trsAddr

/-- TRS_DRAIN (R84): its rows are busy from here until the converter has read them (R42). -/
def execTrsDrain (c : Nat) (s : State) : Host.Outcome State Fault Refusal :=
  .next (s.trsOp c (fun o => match o with
    | .drain _ _ => true
    | _ => false) 4 fun s i it op bs =>
      match op with
      | .drain p d =>
        let t := s.trestle c
        let q := t.qu i
        match q.drainFault (s.shareSize c it.task.ctx) i p d with
        | some f => s.trsFault c i 4 (recTag bs) f
        | none =>
          let conv : TrsConv := { p := p, op := d, task := it.task, seq := t.seq }
          let q := if d.m = 0 || d.nCols = 0 then q else { q with convs := q.convs ++ [conv] }
          (s.setTrestle c { t.setQu i q with seq := t.seq + 1 }).trsAdvance c i
      | _ => s)

/-- TRS_WAIT (R61): the queue waits on a latch under R154; WAIT(0) completes at once. -/
def execTrsWait (c : Nat) (s : State) : Host.Outcome State Fault Refusal :=
  .next (s.trsOp c (fun o => match o with
    | .wait _ _ => true
    | _ => false) 5 fun s i it op bs =>
      match op with
      | .wait l n =>
        if !s.latchOwned c l it.task.ctx then s.trsFault c i 5 (recTag bs) trsRange
        else (s.waitOn c l i n).trsAdvance c i
      | _ => s)

/-- TRS_SIGNAL (R61): takes effect once every earlier op of its queue has completed. -/
def execTrsSignal (c : Nat) (s : State) : Host.Outcome State Fault Refusal :=
  .next (s.trsOp c (fun o => match o with
    | .signal _ _ => true
    | _ => false) 6 fun s i it op bs =>
      match op with
      | .signal l n =>
        if !s.latchOwned c l it.task.ctx then s.trsFault c i 6 (recTag bs) trsRange
        else (s.signal c l n).trsAdvance c i
      | _ => s)

/-- TRS_END (R61): every earlier op has completed; the task is reported complete, unless a thread pushed the program (R150). -/
def execTrsEnd (c : Nat) (s : State) : Host.Outcome State Fault Refusal :=
  .next (s.trsOp c (fun o => o == .fin) 7 fun s i it _ _ =>
    let s := s.trsAdvance c i
    if it.staged then s
    else (s.modQu c i fun q => { q with items := q.items.drop 1 }).finish it.task 0 0 c)

/-- TRESTLE_ILLEGAL_OP (R55, R62): OPC 0x8 to 0xF is not executed and faults as ILLEGAL_OP. -/
def execTrestleIllegalOp (c : Nat) (s : State) : Host.Outcome State Fault Refusal :=
  .next (s.trsOp c (fun o => match o with
    | .illegal _ => true
    | _ => false) 8 fun s i _ op bs =>
      match op with
      | .illegal n => s.trsFault c i n (recTag bs) trsIllegal
      | _ => s)

/-- TRS_HALT (R68): writes TRS_CTRL.HALT; each queue stops at its next tile boundary, and resumes when it is cleared. -/
def execTrsHalt (c : Nat) (set : Bool) (s : State) : Host.Outcome State Fault Refusal :=
  .next (if s.clusterPresent c then s.setField (Reg.TRS_CTRL c) 2 2 (b2n set) else s)

end Sys2Proof.Machine
end

