-- ==== Sys2Proof/Machine/CabDispatch.lean ====
section
/-! DEFINITION. Dispatch: which ready tasks are eligible (R177), which one a decision picks (R178) and how it enters its engine
(R99, R137, R151, R168, R180, R215, R307). -/

namespace Sys2Proof.Machine

/-! ### Room in the engines -/

/-- Queue 0 serves classes 0 and 1, queue 1 the others (R44, R99, R168, R307). -/
def queueOf (cls : Nat) : Nat := if cls < 2 then 0 else 1

/-- Records free in a Pewter queue for Cabinet; pushes that wait to enter count. -/
def State.pwtRoom (s : State) (u i : Nat) : Nat :=
  if s.pwtEnabled u i then pwtDepth - (s.pq u i).recs.length - ((s.pewter u).offers.filter (·.q == i)).length else 0

/-- The unit of four with the most room, the lowest number on a tie; none where all are full. -/
def mostRoom (room : Nat → Nat) : Option Nat :=
  let best := (List.range 4).foldl (fun b k => if room b < room k then k else b) 0
  if room best = 0 then none else some best

/-- A thread runs no task (R136). -/
def State.threadFree (s : State) (m t : Nat) : Bool := ((s.core m).threads.get {} t).st == .free

/-- The thread numbers of a class (R135). -/
def threadsOf (cls : Nat) : List Nat := if cls < 2 then [12, 13, 14, 15] else List.range 12

/-- R137: the core with the fewest busy threads of the kind, and its lowest free thread. -/
def State.pickThread (s : State) (c cls : Nat) : Option (Nat × Nat) :=
  let ts := threadsOf cls
  let free (m : Nat) : List Nat := ts.filter (s.threadFree m)
  let cores := ((List.range 8).map (8 * c + ·)).filter fun m =>
    s.flag (Reg.TIN_CTRL c (m % 8)) (queueOf cls) && !(free m).isEmpty
  match cores.foldl (fun (b : Option Nat) m => match b with
    | none => some m
    | some k => if (free k).length < (free m).length then some m else b) none with
  | none => none
  | some m => (free m).head?.map fun t => (m, t)

/-- Jobs a Bronze queue holds (R307). -/
def brzDepth : Nat := 16
/-- Jobs free in a queue of Bronze unit u. -/
def State.brzRoom (s : State) (u i : Nat) : Nat :=
  if s.bronzePresent u && !(s.reg64 Reg.RST_BLK_BRONZE).testBit u && s.flag (Reg.BRZ_CTRL (u / 4) (u % 4)) i then
    brzDepth - (if i = 0 then (s.bronze u).rq else (s.bronze u).tq).length
  else 0

/-- Tenant jobs of a function that are queued or running (R408). -/
def State.brzJobs (s : State) (fn : Nat) : Nat :=
  (s.brz.map fun (_, b) =>
    ((b.tq.map (·.task)) ++ (b.trun.toList.map (·.job.task))).countP fun t => (s.ctx t.ctx).fn == fn).sum

/-- The place at which a task enters an engine: its kind of place and number, none where the target has no room. -/
def State.placeOf (s : State) (d : TaskDesc) (fn : Nat) : Option Nat :=
  let i := queueOf d.cls
  match d.op with
  | .trestle c _ =>
    let q := (s.trestle c).qu i
    if s.flag (Reg.TRS_CTRL c) i && decide ((q.items.filter (!·.staged)).length < 16) then some c else none
  | .pewter c k any _ _ _ _ _ =>
    if any then (mostRoom fun j => s.pwtRoom (4 * c + j) i).map (4 * c + ·)
    else if 0 < s.pwtRoom (4 * c + k) i then some (4 * c + k) else none
  | .tin c _ _ => (s.pickThread c d.cls).map fun _ => c
  | .dma c _ =>
    let e := s.dmaEng c
    if (if i = 0 then e.rq else e.tq).length < 16 then some c else none
  | .bronze r k any _ =>
    if fn ≠ 0 ∧ (s.func fn).bronzeJobs ≤ s.brzJobs fn then none
    else if any then (mostRoom fun j => s.brzRoom (4 * r + j) i).map (4 * r + ·)
    else if 0 < s.brzRoom (4 * r + k) i then some (4 * r + k) else none
  | _ => none

/-! ### Eligibility -/

/-- The context is RESIDENT on the cluster (R205). -/
def State.resident (s : State) (c x : Nat) : Bool := (s.cluster c).slots.any fun (_, r) => r.st == .resident && r.ctx == x

/-- The conditions of R177 other than energy. -/
def State.eligibleBut (s : State) (t : Task) : Bool :=
  let x := t.desc.ctx
  let c := s.ctx x
  t.st == .ready && c.valid && !c.tearing && !s.flag (Reg.CAB_CTX_CTRL x) 0 &&
    (decide (t.desc.cls < 2) || s.sched.susp.isEmpty) &&
    (c.stl.st == .off || c.stl.st == .running) &&
    (match t.desc.op.cluster with
      | some k => s.clusterOn k && s.resident k x
      | none => true) &&
    (s.placeOf t.desc t.fn).isSome

/-- R215: a tenant task waits for its region's credit. -/
def State.energyOk (s : State) (t : Task) : Bool :=
  t.desc.cls == 0 || match t.desc.op.region with
    | some r => s.creditOk r t.desc.energy
    | none => true

/-- R177. -/
def State.eligible (s : State) (t : Task) : Bool := s.eligibleBut t && s.energyOk t

/-- The eligible tasks with their slots, in slot order. -/
def State.eligibles (s : State) : List (Nat × Task) :=
  s.slots.filterMap fun (i, v) => match v.task with
    | some t => if s.eligible t then some (i, t) else none
    | none => none

/-! ### The decision (R178) -/

/-- The first by a strict order, the earlier in the list on a tie. -/
def firstBy (lt : Task → Task → Bool) : List (Nat × Task) → Option (Nat × Task)
  | [] => none
  | e :: es => some (es.foldl (fun b e => if lt e.2 b.2 then e else b) e)

/-- Class 0: the earlier DEADLINE, then the earlier commit. -/
def class0Before (a b : Task) : Bool :=
  seqNewer 64 b.desc.deadline a.desc.deadline || (a.desc.deadline == b.desc.deadline && decide (a.commitNo < b.commitNo))

/-- Within a context: the earlier to become ready, then the earlier commit. -/
def readyBefore (a b : Task) : Bool :=
  decide (a.readyNo < b.readyNo) || (a.readyNo == b.readyNo && decide (a.commitNo < b.commitNo))

/-- The weight of a class; 0 acts as 1. -/
def State.classWeight (s : State) (c : Nat) : Nat :=
  let w := if c < 5 then s.field Reg.CAB_CLASS_WEIGHT_A (8 * (c - 1) + 7) (8 * (c - 1))
    else s.field Reg.CAB_CLASS_WEIGHT_B (8 * (c - 5) + 7) (8 * (c - 5))
  max 1 w

/-- One round of the smooth weighted round robin over the classes that have an eligible task: the pick and the deficits after
it. -/
def State.pickClass (s : State) (classes : List Nat) : Option (Nat × Tab Int) :=
  let d := classes.map fun c => (c, s.sched.deficit.get 0 c + Int.ofNat (s.classWeight c))
  match d with
  | [] => none
  | e :: es =>
    let p := es.foldl (fun (b : Nat × Int) (e : Nat × Int) => if b.2 < e.2 then e else b) e
    let total : Int := Int.ofNat (classes.map s.classWeight).sum
    some (p.1, d.map fun (c, x) => (c, if c = p.1 then x - total else x))

/-- The context of a class that is served next, and the pointer after it. -/
def State.pickCtx (s : State) (cls : Nat) (xs : List Nat) : Option (Nat × (Nat × Nat)) :=
  let (p, n) := s.sched.ptr.get (0, 0) cls
  let x := match xs.find? (fun x => decide (p ≤ x)) with
    | some x => some x
    | none => xs.head?
  x.map fun x =>
    let k := (if x = p then n else 0) + 1
    (x, if (s.ctx x).weight ≤ k then ((x + 1) % 4096, 0) else (x, k))

/-- The contexts of a list of tasks, ascending, each once. -/
def ctxsOf (es : List (Nat × Task)) : List Nat :=
  (es.foldl (fun (t : Tab Unit) (e : Nat × Task) => t.put e.2.desc.ctx ()) []).map (·.1)

/-- The task that the next decision picks, and the scheduler's state after it. -/
def State.nextDispatch (s : State) : Option (Nat × Task × Sched) :=
  let es := s.eligibles
  match firstBy class0Before (es.filter (·.2.desc.cls == 0)) with
  | some (i, t) => some (i, t, s.sched)
  | none =>
    let classes := [1, 2, 3, 4, 5, 6, 7].filter fun c => es.any (·.2.desc.cls == c)
    match s.pickClass classes with
    | none => none
    | some (c, def_) =>
      let cs := es.filter (·.2.desc.cls == c)
      match s.pickCtx c (ctxsOf cs) with
      | none => none
      | some (x, p) =>
        (firstBy readyBefore (cs.filter (·.2.desc.ctx == x))).map fun (i, t) =>
          (i, t, { s.sched with deficit := def_, ptr := s.sched.ptr.put c p })

/-! ### Delivery -/

/-- The epoch of a cluster (R28). -/
def State.epoch (s : State) (c : Nat) : Nat := s.reg (Reg.CAB_RES_EPOCH c)

/-- Puts a task into its engine's queue at its place. -/
def State.deliver (s : State) (t : Task) (place : Nat) : State :=
  let d := t.desc
  let i := queueOf d.cls
  match d.op with
  | .trestle c prog =>
    let s := s.modQu c i fun q => { q with items := q.items ++ [{ task := t.id (s.epoch c), pc := prog }] }
    s.setTrestle c { s.trestle c with pushRr := 1 }
  | .pewter c _ _ ka p0 p1 p2 p3 =>
    let u := s.pewter place
    s.setPewter place { u with offers := u.offers ++ [⟨0, i, ⟨t.id (s.epoch c), ka, p0, p1, p2, p3⟩⟩] }
  | .tin c entry args =>
    match s.pickThread c d.cls with
    | none => s
    | some (m, th) =>
      let core := s.core m
      let thread : TinThread := { task := some (t.id (s.epoch c)), st := .ready, entry := some (entry, args) }
      s.setCore m { core with threads := core.threads.put th thread }
  | .dma c x =>
    let e := s.dmaEng c
    let xfer : DmaXfer := { task := t.id (s.epoch c), use := .task, desc := x }
    s.setDma c (if i = 0 then { e with rq := e.rq ++ [xfer] } else { e with tq := e.tq ++ [xfer] })
  | .bronze _ _ _ job =>
    let b := s.bronze place
    let j : BrzJob := ⟨t.id 0, job⟩
    s.setBronze place (if i = 0 then { b with rq := b.rq ++ [j] } else { b with tq := b.tq ++ [j] })
  | _ => s

/-- DISPATCH_DECISION (R178, R215): one eligible task is picked, charged and put into its engine's queue. A class with no
eligible task has its deficit set to 0. -/
def execDispatchDecision (s : State) : Host.Outcome State Fault Refusal :=
  .next (
    if !s.flag Reg.CAB_CTRL 1 then s
    else
      match s.nextDispatch with
      | none => { s with sched := { s.sched with deficit := [] } }
      | some (i, t, sch) =>
        match s.placeOf t.desc t.fn with
        | none => s
        | some p =>
          let s := { s with sched := sch }
          let s := match t.desc.op.region with
            | some r => s.charge r t.desc.cls t.desc.energy
            | none => s
          let v := s.slot i
          let s := s.setSlot i { v with task := some { t with st := .dispatched, place := p } }
          let s := (s.bump Reg.CAB_DISPATCHED 1).bump (Reg.CAB_CTX_DISPATCHED t.desc.ctx) 1
          s.deliver t p)

end Sys2Proof.Machine
end

