-- ==== Sys2Proof/Machine/Residency.lean ====
section
/-! DEFINITION. Residency of contexts on clusters (R200 to R207, R499) and the Sterling profile of regions (R24). -/

namespace Sys2Proof.Machine

/-! ### The Sterling profile of a region (R24) -/

/-- A context in Sterling mode is RESIDENT on cluster c. -/
def State.sterlingOn (s : State) (c : Nat) : Bool :=
  (s.cluster c).slots.any fun (_, r) => r.st == .resident && (s.ctx r.ctx).valid && (s.ctx r.ctx).stl.st != .off

/-- R24: the region runs the Sterling profile while such a context is resident on one of its clusters. DEDUCED: entering it is a
change to the frequencies of step 2 under R23; on leaving, the region stays at step 2 until Bimetal moves it (log 34). -/
def State.sterlingSync (s : State) (r : Nat) : State :=
  let on := s.sterlingOn (2 * r) || s.sterlingOn (2 * r + 1)
  let a := Reg.BIM_REG_STEP r
  if on == s.regSterling r then s
  else if on then
    let s := s.setField a 2 2 1
    if s.field a 1 0 = 2 then (s.setField a 3 3 0).setRegion r { s.region r with target := none, retuned := false }
    else (s.startStep r 2).raiseRail (r / 3)
  else s.setField a 2 2 0

/-! ### Granules -/

/-- Share granules of a cluster (R200). -/
def granCount : Nat := 96
/-- Residency slots that hold granules. -/
def ResSlot.holds (r : ResSlot) : Bool := r.st != .absent && r.st != .pending
/-- The lowest `n` free share granules of a cluster. -/
def State.freeGrans (s : State) (c : Nat) : List Nat :=
  let used := (s.cluster c).slots.flatMap fun (_, r) => if r.holds then r.grans else []
  (List.range granCount).filter fun g => !used.contains g
/-- The free latch granules of a cluster (R153). -/
def State.freeLats (s : State) (c : Nat) : List Nat := (List.range 32).filter fun g => !s.flag (Reg.LAT_OWNER c g) 12
/-- The lowest free residency slot. -/
def State.freeResSlot (s : State) (c : Nat) : Option Nat := lowestFree 8 fun k => ((s.cluster c).slots.get {} k).holds

/-- Clears physical granules of a scratchpad to zero (R203). -/
def State.scrubGrans (s : State) (c : Nat) (gs : List Nat) : State :=
  { s with spad := s.spad.filter fun (k, _) => !(k / 2 ^ 25 == c && gs.contains (k % 2 ^ 25 / shareGran)) }

/-- Zeroes the latches of a granule and sets its owner; `none` frees it. -/
def State.setLatGran (s : State) (c g : Nat) (x : Option Nat) : State :=
  let s := (List.range 8).foldl (fun s i => (s.setReg (Reg.LAT_COUNT c (8 * g + i)) 0).setLatch c (8 * g + i) {}) s
  s.setReg (Reg.LAT_OWNER c g) (match x with
    | some x => x + 2 ^ 12
    | none => 0)

/-! ### Events (R206) -/

/-- The owning function's event queue, or the physical function's for an ORPHANED slot. -/
def State.resEvent (s : State) (r : ResSlot) (kind e4 e5 e6 e7 : Nat) : State :=
  if r.orphan || !(s.ctx r.ctx).valid then s.fnEvent 0 kind r.ctx e4 e5 e6 e7 else s.ctxEvent r.ctx kind e4 e5 e6 e7

/-! ### Grants -/

/-- The DMA descriptor of a share copy: whole rows of 64 KiB. -/
def copyDesc (addr grans : Nat) (save : Bool) : DmaDesc :=
  { src := if save then 0 else addr, srcShare := save, dst := if save then addr else 0, dstShare := !save, rowBytes := 65536
    rows := 4 * grans, digest := false, srcStride := 65536, dstStride := 65536, resv := false }

/-- Starts a share copy on the cluster's DMA engine: the radio queue for class floor 0, else the tenant queue (R203). -/
def State.startCopy (s : State) (c x : Nat) (u : DmaUse) (d : DmaDesc) : State :=
  let e := s.dmaEng c
  let cls := if (s.ctx x).floor = 0 then 0 else 7
  let xfer : DmaXfer := { task := { ctx := x, cls := cls, thread := true }, use := u, desc := d }
  s.setDma c (if cls = 0 then { e with rq := e.rq ++ [xfer] } else { e with tq := e.tq ++ [xfer] })

/-- R267: counts residency copies that read or write an object. -/
def State.holdObj (s : State) (a n : Nat) (d : Int) : State :=
  match s.objAt (offOf a) n with
  | some (k, o) => s.setObj k { o with copies := (Int.ofNat o.copies + d).toNat }
  | none => s

/-- The slot reaches RESIDENT. -/
def State.becomeResident (s : State) (c k : Nat) (r : ResSlot) : State :=
  let cl := s.cluster c
  let s := s.setCluster c { cl with slots := cl.slots.put k { r with st := .resident }, allBlk := false }
  (s.resEvent r 0x0109 c k r.zeroed 0).sterlingSync (c / 2)

/-- A request fits the cluster. -/
def State.fits (s : State) (c : Nat) (q : ResReq) : Bool :=
  s.clusterPresent c && (s.freeResSlot c).isSome && decide (q.grans ≤ (s.freeGrans c).length) && decide (q.lats ≤ (s.freeLats c).length)

/-- Makes a grant that fits (R201, R205): the share reads as zero or is copied in from RESTORE_ADDR. -/
def State.grant (s : State) (c : Nat) (q : ResReq) : State :=
  match s.freeResSlot c with
  | none => s
  | some k =>
    let gs := (s.freeGrans c).take q.grans
    let ls := (s.freeLats c).take q.lats
    let s := ls.foldl (fun s g => s.setLatGran c g (some q.ctx)) (s.scrubGrans c gs)
    let r : ResSlot := { st := .restoring, ctx := q.ctx, fn := q.fn, grans := gs, lats := ls }
    if q.restore = 0 then s.becomeResident c k r
    else
      let cl := s.cluster c
      let s := s.setCluster c { cl with slots := cl.slots.put k r }
      (s.holdObj q.restore (q.grans * shareGran) 1).startCopy c q.ctx (.restore k) (copyDesc q.restore q.grans false)

/-- Pending requests are granted strictly in order; the first that does not fit holds back the rest (R202). -/
def State.grantPending (s : State) (c : Nat) : List ResReq → State
  | [] => s
  | q :: t =>
    if s.fits c q then
      let cl := s.cluster c
      (({ s with cl := s.cl.put c { cl with pend := t } }).grant c q).grantPending c t
    else s

/-- Granules a function holds on every cluster, and latch granules (R408). -/
def State.fnGrans (s : State) (fn : Nat) : Nat × Nat :=
  let rs := s.cl.flatMap fun (_, c) => (c.slots.map (·.2)).filter fun r => r.holds && r.fn == fn
  ((rs.map (·.grans.length)).sum, (rs.map (·.lats.length)).sum)

/-- R201: a share copy address names a PINNED range of the function. -/
def State.copyRange (s : State) (fn a n : Nat) : Bool := spaceOf a == 0 && s.pinnedRange fn (offOf a) n

/-- CAB_RES_GRANT (R201): a context, a cluster, granules, latch granules, RESTORE_ADDR (0 for none) and WAIT. A ninth pending
request is refused with RESOURCE (DEDUCED, log 35). -/
def execCabResGrant (i : Issuer) (x c grans lats restore : Nat) (wait : Bool) (s : State) : Host.Outcome State Fault Refusal :=
  .next (s.command i 0x0206 fun fn _ =>
    match s.ctxFor fn x with
    | .error e => .error e
    | .ok cx =>
      let cl := s.cluster c
      let used := s.fnGrans cx.fn
      let f := s.func cx.fn
      let q : ResReq := { ctx := x, fn := cx.fn, grans := grans, lats := lats, restore := restore }
      if !s.clusterPresent c || grans = 0 || granCount < grans || 32 < lats then .error stArgument
      else if (cl.slots.any fun (_, r) => r.holds && r.ctx == x && !r.orphan && r.st != .orphaned) || cl.pend.any (·.ctx == x) then .error stBusy
      else if cx.stl.st != .off && decide (s.field (Reg.BIM_REG_FLOOR (c / 2)) 1 0 < 2) then .error stBusy
      else if restore ≠ 0 && !s.copyRange cx.fn restore (grans * shareGran) then .error stArgument
      else if fn ≠ 0 && (decide (f.shareGran < used.1 + grans) || decide (f.latchGran < used.2 + lats)) then .error stResource
      else if s.fits c q && cl.pend.isEmpty then .ok (s.grant c q, [])
      else if wait && decide (cl.pend.length < 8) then .ok (s.setCluster c { cl with pend := cl.pend ++ [q] }, [])
      else .error stResource)

/-! ### Releases -/

/-- CAB_RES_RUN: tasks of a context dispatched to a cluster and not complete. -/
def State.resRun (s : State) (c x : Nat) : Nat :=
  s.slots.countP fun (_, v) => match v.task with
    | some t => t.desc.ctx == x && (t.st == .dispatched || t.st == .digesting) && t.desc.op.cluster == some c
    | none => false

/-- A registered template names the cluster (R26, R203); a RETIRING one does not count (DEDUCED, log 36). -/
def State.warm (s : State) (c : Nat) : Bool := s.tpls.any fun (_, t) => !t.retiring && t.clusters.testBit c

/-- CAB_RES_RELEASE (R203): a cluster, a residency slot and SAVE_ADDR (0 for none). -/
def execCabResRelease (i : Issuer) (c k save : Nat) (s : State) : Host.Outcome State Fault Refusal :=
  .next (s.command i 0x0207 fun fn _ =>
    let cl := s.cluster c
    let r := cl.slots.get {} k
    if !s.clusterPresent c || 8 ≤ k || !r.holds then .error stArgument
    else if fn ≠ 0 ∧ r.fn ≠ fn then .error stPermission
    else if r.st == .restoring || r.st == .releasing then .error stBusy
    else if r.st == .resident && s.resRun c r.ctx != 0 then .error stBusy
    else if r.st == .resident && (s.ctx r.ctx).floor == 0 && s.warm c then .error stBusy
    else if save ≠ 0 && !s.copyRange r.fn save r.size then .error stBusy
    else
      let r' := { r with st := .releasing, orphan := r.st == .orphaned, saving := save != 0 }
      let s := s.setCluster c { cl with slots := cl.slots.put k r', allBlk := false }
      let s := s.sterlingSync (c / 2)
      if save = 0 then .ok (s, [])
      else .ok ((s.holdObj save r.size 1).startCopy c r.ctx (.save k) (copyDesc save r.grans.length true), []))

/-- The copy of a residency slot that is queued or running. -/
def State.copyOf (s : State) (c k : Nat) : Option DmaXfer :=
  let e := s.dmaEng c
  (e.rq ++ e.tq).find? fun x => x.use == .save k || x.use == .restore k

/-- SHARE_COPY_DONE (R205, R499): the last row of a slot's copy has been acknowledged. A restore makes the slot RESIDENT, or
ORPHANED when its context was torn down meanwhile. -/
def execShareCopyDone (c k : Nat) (s : State) : Host.Outcome State Fault Refusal :=
  .next (
    let cl := s.cluster c
    let r := cl.slots.get {} k
    match s.copyOf c k with
    | none => s
    | some x =>
      if !x.fin then s
      else
        let e := s.dmaEng c
        let s := s.setDma c { e with rq := e.rq.filter (· != x), tq := e.tq.filter (· != x) }
        let s := s.holdObj (if x.desc.srcShare then x.desc.dst else x.desc.src) r.size (-1)
        if r.st == .restoring then
          if r.orphan then (s.setCluster c { cl with slots := cl.slots.put k { r with st := .orphaned, zeroed := x.bad } }).vfSettle
          else s.becomeResident c k { r with zeroed := x.bad }
        else if r.st == .releasing then
          (s.setCluster c { cl with slots := cl.slots.put k { r with saving := false, poisoned := x.bad } }).when (x.bad != 0) (·.needFence 0 c 2)
        else s)

/-- SHARE_SCRUB_DONE (R203): the granules of a released slot have been scrubbed; the slot is freed, RES_RELEASED is posted and
pending grants are made. -/
def execShareScrubDone (c k : Nat) (s : State) : Host.Outcome State Fault Refusal :=
  .next (
    let cl := s.cluster c
    let r := cl.slots.get {} k
    if r.st != .releasing || r.saving then s
    else
      let s := r.lats.foldl (fun s g => s.setLatGran c g none) (s.scrubGrans c r.grans)
      let s := s.setCluster c { s.cluster c with slots := cl.slots.del k }
      let s := s.resEvent r 0x010A c k 0 r.poisoned
      (s.grantPending c (s.cluster c).pend).vfSettle)

/-! ### All-blocked (R207) -/

/-- R207: none of the context's work on the cluster advances and none of its tasks there is eligible. DEDUCED: a dispatched DMA
task counts as advancing, and eligibility is tested without energy (log 37). -/
def State.blocked (s : State) (c x : Nat) : Bool :=
  let own (t : TaskId) : Bool := t.ctx == x
  let tin := (List.range 8).all fun m => (s.core (8 * c + m)).threads.all fun (_, th) =>
    !(th.task.any own) || th.st != .ready
  let trs := [0, 1].all fun i => match ((s.trestle c).qu i).items with
    | it :: _ => !own it.task || s.waiting c i
    | [] => true
  let pwt := (List.range 4).all fun k => [0, 1].all fun i => match (s.pq (4 * c + k) i).recs with
    | r :: _ => !own r.task || s.waiting c (pwtWaiter (4 * c + k) i)
    | [] => true
  let dma := ((s.dmaEng c).rq ++ (s.dmaEng c).tq).all fun d => !own d.task
  let tasks := s.slots.all fun (_, v) => match v.task with
    | some t => !(t.desc.ctx == x && t.desc.op.cluster == some c && s.eligibleBut t)
    | none => true
  tin && trs && pwt && dma && tasks

/-- R207: every resident context of a cluster is blocked and a ready task of a context that is not resident targets it. -/
def State.allBlocked (s : State) (c : Nat) : Bool :=
  let rs := (s.cluster c).slots.filter fun (_, r) => r.st == .resident
  !rs.isEmpty && (rs.all fun (_, r) => s.blocked c r.ctx) &&
    s.slots.any fun (_, v) => match v.task with
      | some t => t.st == .ready && t.desc.op.cluster == some c && !s.resident c t.desc.ctx
      | none => false

/-- ALL_BLOCKED (R207): the cluster has been all-blocked for CAB_RES_ALLBLK_US; it is posted once. -/
def execAllBlocked (c : Nat) (s : State) : Host.Outcome State Fault Refusal :=
  .next (
    let cl := s.cluster c
    if !s.allBlocked c then s.setCluster c { cl with allBlk := false, blkSince := none }
    else if cl.allBlk || s.reg (Reg.CAB_RES_ALLBLK_US c) == 0 then s
    else ((s.setCluster c { cl with allBlk := true }).bump (Reg.CAB_RES_ALLBLK_CNT c) 1).pfEvent 0x0104 c 0 0 0)

/-- The all-blocked timers at a tick: each restarts whenever the condition breaks. -/
def State.blockTick (s : State) : State :=
  let one (c : Nat) (cl : Cluster) : Cluster :=
    if s.allBlocked c then { cl with blkSince := some (cl.blkSince.getD s.clk) } else { cl with blkSince := none, allBlk := false }
  { s with cl := s.cl.map fun e => (e.1, one e.1 e.2) }

end Sys2Proof.Machine
end

