-- ==== Sys2Proof/Machine/Teardown.lean ====
section
/-! DEFINITION. Teardown of a context (R191, R192, R204, R283, R373). -/

namespace Sys2Proof.Machine

/-- Ends a task ABORTED without a record (R191). -/
def State.abortTask (s : State) (i : Nat) : State :=
  let v := s.slot i
  match v.task with
  | none => s
  | some t =>
    let s := s.setSlot i { v with task := some { t with fin := some (4, 0), place := if t.st == .dispatched then t.place else 0xFF } }
    ({ s with marks := s.marks.del i }).recordTask i false

/-- The slots of a context whose task is in a state that `f` holds of. -/
def State.ctxSlots (s : State) (x : Nat) (f : TaskSt → Bool) : List Nat :=
  (s.slots.filter fun (_, v) => match v.task with
    | some t => t.desc.ctx == x && f t.st
    | none => false).map (·.1)

/-- Ends the tasks of a context in these states ABORTED. They leave the waiting state together first, so that none becomes ready
when another ends. -/
def State.abortTasks (s : State) (x : Nat) (f : TaskSt → Bool) : State :=
  let is := s.ctxSlots x f
  let off (t : Task) : Task := if t.desc.ctx == x && f t.st then { t with st := if t.st == .dispatched then .dispatched else .ending } else t
  let s := s.mapTasks off
  let s := is.foldl (fun s i => s.abortTask i) s
  s.setCtx x { s.ctx x with aborted := (s.ctx x).aborted + is.length }

/-- The Solder operations of a context: those not sent are dropped, those sent stay until they are answered, and those to a LOST or
expelled peer are discarded (R373). -/
def State.sldGone (s : State) (x : Nat) : State :=
  let own (o : SldOp) : Bool := o.ctx == some x
  let free (p : SldPkt) : SldPkt := if own p.op then { p with op := { p.op with ctx := none, who := .gone } } else p
  let one (n : Nat) (d : SldDest) : SldDest :=
    let pkts := if d.lost || s.expelled n then d.pkts.filter fun p => !own p.op else d.pkts
    { d with held := d.held.filter (fun o => !own o), pkts := pkts.map free }
  { s with sld := { s.sld with
    dests := s.sld.dests.map fun e => (e.1, one e.1 e.2), ans := s.sld.ans.filter fun a => !own a.op } }

/-- Frees one Tin thread: its latch wait and its references go, and later responses count in TIN_LATE_DROP (R191). -/
def State.freeThread (s : State) (m t : Nat) : State :=
  let core := s.core m
  let outs := ((core.threads.get {} t).outs.filter fun o => decide (o.path < 4)).length
  let s := s.setCore m
    { core with threads := core.threads.del t, cur := if core.cur = some t then none else core.cur, stray := core.stray + outs }
  (s.unwait (m / 8) (tinWaiter m t)).dropReader (.tin m t)

/-- The Tin threads of a context. -/
def State.ctxThreads (s : State) (x : Nat) : List (Nat × Nat) :=
  s.tin.flatMap fun (m, c) => (c.threads.filter fun (_, th) => (th.task.map (·.ctx)) == some x).map fun (t, _) => (m, t)

/-- The queues of a Trestle without the programs of a context; a stream that stands at a boundary goes with them. -/
def Trestle.drop (t : Trestle) (x : Nat) : Trestle :=
  let one (q : TrsQueue) : TrsQueue :=
    { q with
      items := q.items.filter fun i => i.task.ctx != x
      acts := q.acts.filter fun (_, a) => !(a.task.ctx == x && (a.edge || a.tileCyc == 0))
      loads := q.loads.filter fun l => !(l.task.ctx == x && !l.begun) }
  { t with rq := one t.rq, tq := one t.tq }

/-- The DMA transfers of a context other than share copies end at once, at their row boundary. -/
def State.dropDma (s : State) (c x : Nat) : State :=
  let e := s.dmaEng c
  let keep (d : DmaXfer) : Bool := d.task.ctx != x || match d.use with
    | .save _ => true
    | .restore _ => true
    | _ => false
  let s := (List.range 2).foldl (fun s q =>
    match (if q = 0 then e.rq else e.tq).head? with
    | some d => if keep d then s else s.dropReader (.dma c q)
    | none => s) s
  s.setDma c { rq := e.rq.filter keep, tq := e.tq.filter keep }

/-- The Bronze jobs of a context: queued ones go, one that still fetches its input is abandoned, running ones finish. -/
def State.dropBronze (s : State) (u x : Nat) : State :=
  let b := s.bronze u
  let keep (r : BrzRun) : Bool := !(r.job.task.ctx == x && r.stage == .fetching)
  let out := [b.rrun, b.trun].any fun r => r.any fun r => !keep r
  let s := s.setBronze u
    { b with
      rq := b.rq.filter (·.task.ctx != x), tq := b.tq.filter (·.task.ctx != x)
      rrun := b.rrun.filter keep, trun := b.trun.filter keep }
  s.when out (·.dropReader (.bronze u))

/-- The latches granted to a context release their waiters, whose work is gone. -/
def State.dropWaits (s : State) (x : Nat) : State :=
  let one (k : Nat) (v : Latches) : Latches := if s.latchOwned (k / 256) (k % 256) x then { v with waits := [] } else v
  { s with lat := s.lat.map fun e => (e.1, one e.1 e.2) }

/-- A pending residency request of the context is removed, and RES_RELEASED reports it (R204). -/
def State.dropRequests (s : State) (c x : Nat) : State :=
  let cl := s.cluster c
  let n := (cl.pend.filter (·.ctx == x)).length
  let s := s.setCluster c { cl with pend := cl.pend.filter (·.ctx != x) }
  let s := (List.range n).foldl (fun s _ => s.ctxEvent x 0x010A c 0 1 0) s
  s.grantPending c (s.cluster c).pend

/-- Steps 1 to 3 of R191. -/
def State.tearCtx (s : State) (x : Nat) : State :=
  let s := s.setCtx x { s.ctx x with tearing := true, aborted := 0 }
  let keep (d : Done) : Bool := d.task.ctx != x || match (s.slot (slotOf d.task.handle)).task with
    | some t => t.st != .ending
    | none => true
  let s : State := { s with done := s.done.filter keep }
  let s := s.abortTasks x fun (st : TaskSt) => [TaskSt.waiting, TaskSt.ready, TaskSt.ending, TaskSt.atBarrier].contains st
  let ths := s.ctxThreads x
  let s := s.setCtx x { s.ctx x with freed := ths.length }
  let s := (ths.foldl (fun s p => s.freeThread p.1 p.2) s).sldGone x
  let cut (e : Nat × Trestle) : Nat × Trestle := (e.1, e.2.drop x)
  let s : State := { s with trs := s.trs.map cut }
  let s := (List.range 96).foldl (fun s u => if (s.pwt.look u).isSome then s.pwtReap u else s) s
  let s := (List.range 24).foldl (fun s c => if (s.dma.look c).isSome then s.dropDma c x else s) s
  let s := (List.range 48).foldl (fun s u => if (s.brz.look u).isSome then s.dropBronze u x else s) s
  let s := s.dropWaits x
  (List.range 24).foldl (fun s c => if (s.cl.look c).isSome then s.dropRequests c x else s) s

/-- CAB_CTX_TEARDOWN (R191): starts the teardown of a context. -/
def execCabCtxTeardown (i : Issuer) (x : Nat) (s : State) : Host.Outcome State Fault Refusal :=
  .next (s.command i 0x0203 fun fn _ =>
    match s.ctxFor fn x with
    | .error e => .error e
    | .ok c => if c.tearing then .error stBusy else .ok (s.tearCtx x, []))

/-- Work of a context still runs in a Trestle: a tile, its rows or its drains. -/
def Trestle.busyFor (t : Trestle) (x : Nat) : Bool :=
  let own (q : TrsQueue) : Bool := q.acts.any (fun (_, a) => a.task.ctx == x) || q.convs.any (·.task.ctx == x) || q.loads.any (·.task.ctx == x)
  own t.rq || own t.tq || t.tiles.any (·.task.ctx == x)

/-- Every engine has stopped the context's work. -/
def State.stopped (s : State) (x : Nat) : Bool :=
  (s.trs.all fun (_, t) => !t.busyFor x) &&
    (s.pwt.all fun (_, u) => [u.rq, u.tq].all fun q => match q.recs with
      | r :: _ => !(r.task.ctx == x && q.inTile)
      | [] => true) &&
    s.brz.all fun (_, b) => [b.rrun, b.trun].all fun r => r.all fun r => r.job.task.ctx != x

/-- The residency slots of a context become ORPHANED; a restore runs on (R204, R205). -/
def State.orphan (s : State) (c x : Nat) : State :=
  let one (r : ResSlot) : ResSlot :=
    if r.ctx != x then r
    else match r.st with
      | .resident => { r with st := .orphaned }
      | .restoring => { r with orphan := true }
      | .releasing => { r with orphan := true }
      | _ => r
  let cl := s.cluster c
  s.setCluster c { cl with slots := cl.slots.map fun e => (e.1, one e.2) }

/-- Steps 4 and 5 of R191. -/
def State.tornDown (s : State) (x : Nat) : State :=
  let s := (List.range 96).foldl (fun s u => if (s.pwt.look u).isSome then s.pwtReap u else s) s
  let s := s.abortTasks x fun (st : TaskSt) => st == .dispatched || st == .digesting
  let s := { s with done := s.done.filter (·.task.ctx != x) }
  let c := s.ctx x
  let s := if (s.func c.fn).st == .active then s.ctxEvent x 0x0102 c.aborted c.freed 0 0 else s.staleDrop c.fn
  let s := (List.range 24).foldl (fun s c => if (s.cl.look c).isSome then s.orphan c x else s) s
  let s := { s with
    ctxs := s.ctxs.del x
    slots := s.slots.filter fun (k, _) => decide (k < c.slotBase) || decide (c.slotBase + c.slotCount ≤ k) }
  (List.range 12).foldl (fun s r => s.sterlingSync r) s

end Sys2Proof.Machine
end

