-- ==== Sys2Proof/Machine/Functions.lean ====
section
/-! DEFINITION. Virtual functions, function-level resets and the link (R386, R408 to R413), and the age alarm of contexts (R194). -/

namespace Sys2Proof.Machine

/-! ### Grants (R408) -/

/-- Virtual functions that hold grants. -/
def State.vfs (s : State) : List (Nat × Func) := s.host.funcs.filter fun (n, f) => n != 0 && f.st != .absent

/-- First-fit of `n` numbers from `lo` to `hi` − 1 among taken ranges (first, count). -/
def firstFit (lo hi n : Nat) (taken : List (Nat × Nat)) : Option Nat :=
  let ok (b : Nat) : Bool := decide (lo ≤ b) && decide (b + n ≤ hi) && taken.all fun r => decide (b + n ≤ r.1) || decide (r.1 + r.2 ≤ b)
  ((lo :: taken.map fun r => r.1 + r.2).filter ok).min?

/-- The range of pool queues for a new virtual function. -/
def State.freeQueues (s : State) (n : Nat) : Option Nat :=
  firstFit 2048 262144 n ((s.vfs.map fun (_, f) => (f.qbase, f.qcount)) ++ s.host.pfBlocks.map fun b => (16 * b, 16))

/-- The range of pool vectors (R400). -/
def State.freeVectors (s : State) (n : Nat) : Option Nat := firstFit 2048 32768 n (s.vfs.map fun (_, f) => (f.vec0, f.vectors))

/-- Granules of every stack present. -/
def State.hbmGranules (s : State) : Nat := (s.stackNos.map fun t => s.field (Reg.HBM_CAPACITY_GIB t) 6 0 * 2 ^ 18).sum

/-- A pool of `cap` has room for `n` beside the grants of the virtual functions. -/
def State.poolFits (s : State) (cap n : Nat) (f : Func → Nat) : Bool := decide ((s.vfs.map fun e => f e.2).sum + n ≤ cap)

/-- The arguments lie in their ranges (R408). -/
def vfRanges (n : Nat) (f : Func) (cache : Nat) : Bool :=
  decide (1 ≤ n) && decide (n < 1024) && f.qcount % 16 == 0 && decide (16 ≤ f.qcount) && decide (f.qcount ≤ 4096) &&
    decide (1 ≤ f.vectors) && decide (f.vectors ≤ 64) && decide (1 ≤ f.contexts) && decide (f.contexts ≤ 256) &&
    decide (f.shareGran ≤ 2304) && decide (f.latchGran ≤ 768) && decide (f.hbm < 2 ^ 32) && decide (cache < 2 ^ 32) &&
    decide (f.objects ≤ 1048576) && decide (f.bronzeJobs ≤ 768) && decide (f.macMask < 2 ^ 64) && decide (f.txRate ≤ 800000) &&
    decide (f.rxFilters ≤ 64)

/-- Every pool has the grant. -/
def State.vfFits (s : State) (f : Func) : Bool :=
  s.poolFits 4096 f.contexts (·.contexts) && s.poolFits 2304 f.shareGran (·.shareGran) && s.poolFits 768 f.latchGran (·.latchGran) &&
    s.poolFits s.hbmGranules f.hbm (·.hbm) && s.poolFits 1048576 f.objects (·.objects) && s.poolFits 768 f.bronzeJobs (·.bronzeJobs) &&
    s.poolFits 4096 f.rxFilters (·.rxFilters)

/-- VF_CREATE (R408, R409). DESIGN CHOICE: the host enables the function in the SR-IOV capability with it (log 26). -/
def execVfCreate (i : Issuer) (n queues vectors contexts share lat hbm cache objects jobs macMask txRate rxFilters : Nat) (s : State) : Host.Outcome State Fault Refusal :=
  .next (s.command i 0x0110 fun _ _ =>
    let f : Func :=
      { st := .active, enabled := true, gen := (s.func n).gen, qcount := queues, vectors := vectors, contexts := contexts, shareGran := share
        latchGran := lat, hbm := hbm, cacheAllow := some cache, objects := objects, bronzeJobs := jobs, macMask := macMask
        txRate := txRate, rxFilters := rxFilters, txCredit := Int.ofNat (2 ^ 20 * 8000), txAt := s.clk }
    if !vfRanges n f cache then .error stArgument
    else if (s.func n).st != .absent then .error stBusy
    else
      match s.freeQueues queues, s.freeVectors vectors with
      | some q, some v => if s.vfFits f then .ok (s.setFunc n { f with qbase := q, vec0 := v }, []) else .error stResource
      | _, _ => .error stResource)

/-- Contexts of a function that exist. -/
def State.fnCtxs (s : State) (fn : Nat) : List Nat := (s.liveCtxs.filter fun (_, c) => c.fn == fn).map (·.1)

/-- VF_STATE, and the words of the grants that VF_QUERY returns. -/
def State.vfWords (s : State) (n : Nat) : List Nat :=
  let f := s.func n
  [f.st.code + 4 * b2n f.enabled, f.gen, f.qbase, f.qcount, f.vec0 + 2 ^ 16 * f.vectors, f.contexts + 2 ^ 16 * (s.fnCtxs n).length, f.shareGran,
   f.latchGran, f.hbm, f.cacheAllow.getD 0, f.objects, f.bronzeJobs, f.macMask % 2 ^ 32, f.macMask / 2 ^ 32, f.txRate, f.rxFilters]

/-- VF_QUERY (R420). -/
def execVfQuery (i : Issuer) (n : Nat) (s : State) : Host.Outcome State Fault Refusal :=
  .next (s.command i 0x0112 fun _ _ => if n = 0 ∨ 1024 ≤ n then .error stArgument else .ok (s, s.vfWords n))

/-! ### Function-level resets (R411 to R413) -/

/-- Records of an older generation of a function are discarded and counted (R410). -/
def State.purge (s : State) (fn : Nat) : State :=
  let old (r : PostRec) : Bool := r.fn == fn && r.gen != (s.func fn).gen
  let gone := s.host.outbox.filter old
  let s : State := { s with host := { s.host with outbox := s.host.outbox.filter fun r => !old r } }
  gone.foldl (fun s r => (s.staleDrop fn).discard r) s

/-- Step 1 of R411 for one box: a command in progress completes with no reply, one that waits is dropped, and the last sequence
becomes 0. -/
def Mbox.reset (b : Mbox) : Mbox :=
  if b.busy && b.header.isNone then { b with mute := true, last := 0 } else { b with busy := false, header := none, last := 0 }

/-- The boxes of a virtual function at its reset. -/
def State.resetBoxes (s : State) (n : Nat) : State :=
  let one (k : Nat) (b : Mbox) : Mbox := if k == 4 * n || (s.host.mbxq.any fun e => e.fn == n && k == 2 ^ 20 + e.queue) then b.reset else b
  { s with host := { s.host with mboxes := s.host.mboxes.map fun e => (e.1, one e.1 e.2) } }

/-- Entries of host Solder queues of a function are forgotten: operations already sent stay until they are answered. -/
def State.dropEntries (s : State) (n : Nat) : State :=
  let mine (w : SldWho) : Bool := s.sld.entries.any fun e => e.fn == n && w == .host e.queue e.id
  let free (p : SldPkt) : SldPkt := if mine p.op.who then { p with op := { p.op with who := .gone } } else p
  let one (d : SldDest) : SldDest := { d with held := d.held.filter (fun o => !mine o.who), pkts := d.pkts.map free }
  { s with sld := { s.sld with
    dests := s.sld.dests.map (fun e => (e.1, one e.2))
    ans := s.sld.ans.filter fun a => !mine a.op.who
    entries := s.sld.entries.filter fun e => e.fn != n } }

/-- Queues of a function that are enabled, PERSIST ones where `persist` holds. -/
def State.fnQueues (s : State) (fn : Nat) (persist : Bool) : List Nat :=
  (s.host.queues.filter fun (_, v) => v.en && v.fn == fn && (persist || !v.persist)).map (·.1)

/-- Starts the teardown of contexts that are not being torn down. -/
def State.tearAll (s : State) (xs : List Nat) : State := xs.foldl (fun s x => if (s.ctx x).tearing then s else s.tearCtx x) s

/-- Objects of a function. -/
def State.fnObjs (s : State) (fn : Nat) : List (Nat × Obj) := s.tiers.objs.filter fun (_, o) => o.st != .none && o.fn == fn

/-- Step 4 of R411: barriers, receive filters, exports, HOLD references and PINNED objects; `all` destroys the other objects too
(R412). -/
def State.freeFn (s : State) (n : Nat) (all : Bool) : State :=
  let s : State := { s with bars := s.bars.filter fun (_, b) => b.fn != n, net := { s.net with filters := s.net.filters.filter fun (_, f) => f.fn != n } }
  let ks := (s.sld.exports.filter fun (_, e) => (s.obj e.obj).fn == n).map (·.1)
  let s := ks.foldl (fun s k => s.sldDropExport k) s
  let shs := (s.fnObjs n).flatMap fun (_, o) => (s.objShelves o).map (·.1)
  let s := shs.foldl (fun s sh => s.setShelf sh { s.shelf sh with holds := 0 }) s
  (s.fnObjs n).foldl (fun s (k, o) => if all || o.policy == .pinned then s.setObj k { o with st := .destroying } else s) s

/-- The MSI-X table and pending bits of a function as PCIe resets them (R411). -/
def State.resetMsix (s : State) (n : Nat) : State :=
  { s with host := { s.host with msix := s.host.msix.filter (fun (k, _) => k / 2 ^ 13 != n), pba := s.host.pba.filter fun k => k / 2 ^ 11 != n } }

/-- The steps of R411 up to the teardowns, which end the reset in their own time; `all` removes the function (R412). -/
def State.resetVf (s : State) (n : Nat) (all : Bool) : State :=
  let f := s.func n
  let s := (s.setFunc n { f with gen := (f.gen + 1) % 2 ^ 16, st := if all then .removing else .resetting }).resetBoxes n
  let s := (s.fnQueues n true).foldl (fun s q => s.stopQueue q) s
  let s := ((s.dropEntries n).tearAll (s.fnCtxs n)).freeFn n all
  ((s.resetMsix n).purge n).vfSettle

/-- Records a reset source in RST_CAUSE (R426). -/
def State.cause (s : State) (bit : Nat) : State := s.setField Reg.RST_CAUSE bit bit 1

/-- VF_FLR (R411): a function-level reset of a virtual function, or of every ACTIVE one when VF Enable is cleared. -/
def State.flr (s : State) (fn : Option Nat) : State :=
  let hit (n : Nat) (f : Func) : Bool := n != 0 && f.st == .active && (fn == some n || fn.isNone)
  let ns := (s.host.funcs.filter fun (n, f) => hit n f).map (·.1)
  let s := if ns.isEmpty then s else s.cause 8
  let s := if fn.isSome then s else ns.foldl (fun s n => s.setFunc n { s.func n with enabled := false }) s
  ns.foldl (fun s n => s.resetVf n false) s

/-- VF_FLR (R411): a function-level reset of function n, or VF Enable cleared. In a full reset it is only recorded (R425). -/
def execVfFlr (fn : Option Nat) (s : State) : Host.Outcome State Fault Refusal :=
  .next (if s.boot.phase == .held then s.cause 8 else s.flr fn)

/-- The function-level reset of the physical function (R413). -/
def State.resetPf (s : State) : State :=
  let f := s.func 0
  let s := (s.setFunc 0 { f with gen := (f.gen + 1) % 2 ^ 16 }).flr none
  let s := (s.fnQueues 0 false).foldl (fun s q => s.stopQueue q) s
  s.tearAll ((s.fnCtxs 0).filter fun x => decide (2 ≤ (s.ctx x).floor))

/-- PF_FLR (R413). -/
def execPfFlr (s : State) : Host.Outcome State Fault Refusal :=
  .next (if s.boot.phase == .held then s.cause 7 else (s.cause 7).resetPf)

/-- An install or reinstall of an object of function n is in progress. -/
def State.installing (s : State) (n : Nat) : Bool := s.tiers.installs.any fun x => (s.obj x.obj).fn == n

/-- VF_DESTROY (R412): accepted of an ACTIVE or RESETTING function. -/
def execVfDestroy (i : Issuer) (n : Nat) (s : State) : Host.Outcome State Fault Refusal :=
  .next (s.command i 0x0111 fun _ _ =>
    let f := s.func n
    if n = 0 || 1024 ≤ n || f.st == .absent then .error stArgument
    else if f.st == .removing || s.installing n then .error stBusy
    else .ok (s.resetVf n true, []))

/-- TEARDOWN_ENGINES_STOPPED (R191): every engine has stopped the work of a context being torn down; its dispatched tasks end and
TEARDOWN_DONE is posted. -/
def execTeardownEnginesStopped (x : Nat) (s : State) : Host.Outcome State Fault Refusal :=
  .next (
    let c := s.ctx x
    if c.valid && c.tearing && s.stopped x then (s.tornDown x).vfSettle else s)

/-! ### The link (R386, R423) -/

/-- The rate cap of the strap's choice before firmware (R434). -/
def State.romRate (s : State) : Nat :=
  let choice := s.field Reg.RST_STRAP 15 12
  if choice ≤ 5 then 6 else if choice ≤ 10 then 5 else 4

/-- PCIE_LINK_TRAINED (R386): the link comes up at a speed code and width under the caps in force. -/
def execPcieLinkTrained (speed width : Nat) (flit : Bool) (s : State) : Host.Outcome State Fault Refusal :=
  .next (
    let maxSpeed := if s.boot.phase == .rom then s.romRate else (s.item 0x50001).getD 6
    let maxWidth := if s.boot.phase == .rom then 16 else (s.item 0x50002).getD 16
    if s.boot.phase == .held || speed = 0 || decide (min 6 maxSpeed < speed) || !(width == 8 || width == 16) || decide (maxWidth < width) then s
    else s.setReg Reg.PCI_LINK_STATUS (speed + 8 * width + 256 * b2n flit))

/-- The PCIe controller and the configuration space of every function are reset. -/
def State.resetLink (s : State) : State :=
  { s.setReg Reg.PCI_LINK_STATUS 0 with host := { s.host with msix := [], pba := [], bar4Log := 30, bar4 := .none } }

/-- HOT_RESET (R423, R425): a hot reset or link down. Bytes that the mask ROM has staged are discarded. -/
def execHotReset (s : State) : Host.Outcome State Fault Refusal :=
  .next (
    let s := s.cause 6
    match s.boot.phase with
    | .held => s
    | .rom => ({ s with boot := { s.boot with stage := none } }).resetLink.resetPf
    | .awaiting => ({ s with boot := { s.boot with stage := none } }).resetLink.resetPf
    | _ => s.resetLink.resetPf)

/-! ### Ages of cluster-external accesses (R194, R195) -/

/-- Accesses of a context's Tin threads that their homes have not answered. -/
def State.extOuts (s : State) (x : Nat) : List TinOut :=
  s.tin.flatMap fun (_, c) => c.threads.flatMap fun (_, t) => if (t.task.map (·.ctx)) == some x then t.outs else []

/-- The oldest of them. -/
def State.extOldest (s : State) (x : Nat) : Option TinOut :=
  (s.extOuts x).foldl (fun m o => match m with
    | some p => if o.since < p.since then some o else m
    | none => some o) none

/-- The age of the oldest in µs, and the path code of the alarm. -/
def State.extAge (s : State) (x : Nat) : Nat × Nat :=
  match s.extOldest x with
  | some o => (s.usSince o.since, if o.path < 2 then o.path else if o.path = 3 then 2 else 3)
  | none => (0, 0)

/-- The age stands at or above the context's threshold. -/
def State.alarmOn (s : State) (x : Nat) : Bool :=
  s.reg (Reg.CAB_CTX_EXT_ALARM_US x) != 0 && decide (s.reg (Reg.CAB_CTX_EXT_ALARM_US x) ≤ (s.extAge x).1)

/-- EXT_ALARM (R194): posted once each time the age rises to the threshold. -/
def execExtAlarm (x : Nat) (s : State) : Host.Outcome State Fault Refusal :=
  .next (
    let c := s.ctx x
    if !c.valid then s
    else if !s.alarmOn x then s.setCtx x { c with alarmed := false }
    else if c.alarmed then s
    else (s.setCtx x { c with alarmed := true }).ctxEvent x 0x0108 (s.extAge x).1 (s.extAge x).2 0 0)

/-- Ages that have fallen below their thresholds may raise the alarm again. -/
def State.alarmTick (s : State) : State :=
  let one (x : Nat) (c : Ctx) : Ctx := { c with alarmed := c.alarmed && s.alarmOn x }
  { s with ctxs := s.ctxs.map fun e => (e.1, one e.1 e.2) }

end Sys2Proof.Machine
end

