-- ==== Sys2Proof/Machine/Epoch.lean ====
section
/-! DEFINITION. The advance of a cluster's epoch (R28, R68, R129, R160, R162): what it clears in the cluster's engines. -/

namespace Sys2Proof.Machine

/-- Removes the entries of a table whose keys `f` holds of. -/
def dropKeys {α : Type} (t : Tab α) (f : Nat → Bool) : Tab α := t.filter fun e => !f e.1

/-- The contexts that are resident on a cluster. -/
def State.residents (s : State) (c : Nat) : List Nat := ((s.cluster c).slots.filter fun (_, r) => r.st == .resident).map (·.2.ctx)

/-- R160: latch ownership is kept only for contexts that remain resident. -/
def State.dropOwners (s : State) (c : Nat) : State :=
  let xs := s.residents c
  let kept (g : Nat) : Bool := s.flag (Reg.LAT_OWNER c g) 12 && xs.contains (s.field (Reg.LAT_OWNER c g) 11 0)
  let trim (r : ResSlot) : ResSlot := { r with lats := r.lats.filter kept }
  let cl := s.cluster c
  let t := if (s.cl.look c).isSome then s.setCluster c { cl with slots := cl.slots.map fun e => (e.1, trim e.2) } else s
  (List.range 32).foldl (fun t g => if kept g then t else t.setReg (Reg.LAT_OWNER c g) 0) t

/-- R160: every count and every pending wait of the cluster's latches, LAT_OVERFLOW and LAT_WAITING. -/
def State.clearLatches (s : State) (c : Nat) : State :=
  let s := (List.range 256).foldl (fun s l => if s.reg (Reg.LAT_COUNT c l) = 0 then s else s.setReg (Reg.LAT_COUNT c l) 0) s
  let s := (List.range 8).foldl (fun s i => s.setReg (Reg.LAT_OVERFLOW c i) 0) s
  { s with lat := dropKeys s.lat fun k => k / 256 == c }

/-- The fault registers of the cluster's engines, and PWT_PUSH_RR (R68, R129, R162). -/
def State.clearFaults (s : State) (c : Nat) : State :=
  let s := (s.setReg (Reg.TRS_FAULT c) 0).setReg (Reg.TRS_FAULT_TAG c) 0
  let s := (List.range 4).foldl (fun s k => ((s.setReg (Reg.PWT_FAULT c k) 0).setReg (Reg.PWT_FAULT_PC c k) 0).setReg (Reg.PWT_PUSH_RR c k) 0) s
  (List.range 8).foldl (fun s m => ((s.setReg (Reg.TIN_FAULT c m) 0).setReg64 (Reg.TIN_FAULT_PC c m) 0).setReg64 (Reg.TIN_FAULT_ADDR c m) 0) s

/-- The Tin cores of a cluster without their threads and caches; responses to the accesses of those threads will be discarded (R141). -/
def State.freeCores (s : State) (c : Nat) : State :=
  let gone (v : TinCore) : Nat := (v.threads.map fun e => (e.2.outs.filter fun o => decide (o.path < 4)).length).sum
  { s with tin := s.tin.map fun e => if e.1 / 8 = c then (e.1, { stray := e.2.stray + gone e.2 }) else e }

/-- The cluster returns with its next epoch, its latches and queues empty (R28). DEDUCED: the accumulator rows stay, since no rule
clears them (log 58). -/
def State.newEpoch (s : State) (c : Nat) : State :=
  let s := s.setReg (Reg.CAB_RES_EPOCH c) (s.reg (Reg.CAB_RES_EPOCH c) + 1)
  let s := ((s.dropOwners c).clearLatches c).clearFaults c
  let s := s.freeCores c
  { s with
    trs := match s.trs.look c with
      | some t => s.trs.put c { acc := t.acc }
      | none => s.trs
    pwt := dropKeys s.pwt fun u => u / 4 == c
    dma := s.dma.del c }

end Sys2Proof.Machine
end

