-- ==== Sys2Proof/Machine/Reset.lean ====
section
/-! DEFINITION. Reset sources, their reach and the release sequence (R423 to R434, R487, R488), and pins (R427). -/

namespace Sys2Proof.Machine

/-! ### What a full reset keeps (R423, R426, R430, R431) -/

/-- Registers of the retained store (R432). -/
def retReg (a : Nat) : Bool := decide (0x500100 ≤ a) && decide (a < 0x500150) || decide (0x510000 ≤ a) && decide (a < 0x520000)

/-- Registers that a full reset leaves as they stand: RST_CAUSE, PERST_SCOPE, the counts since power-on, the retained store, the grown
bad blocks that Bureau's mapping holds, and the I3C target (R493). -/
def keptReg (a : Nat) : Bool :=
  a == Reg.RST_CAUSE || a == Reg.RST_SCOPE || decide (0x500040 ≤ a) && decide (a < 0x500050) || retReg a ||
    (List.range 32).any (fun n => a == Reg.NAND_BAD_BLOCKS n) || decide (2 ^ 48 ≤ a)

/-- Objects whose entries Bureau keeps: READY ones in flash, with those that an earlier reset left. DEDUCED: an object that holds no
complete data is not restored (log 28). -/
def State.savedObjs (s : State) : Tab Obj :=
  s.tiers.objs.foldl (fun t (k, o) => if o.st == .ready && o.policy != .pinned then t.put k o else t) s.tiers.saved

/-- NAND channels whose retirement is recorded in the NAND (R469). -/
def State.retiredNand (s : State) : Tab W32 :=
  (List.range 32).foldl (fun t n =>
    if s.field (Reg.SBD_SVC_NAND n) 1 0 = 3 then t.put (Reg.SBD_SVC_NAND n) (BitVec.ofNat 32 (s.reg (Reg.SBD_SVC_NAND n))) else t) []

/-- The state after a full reset: everything at its reset value but what R426, R430 and R431 keep. Commands that wait, the model's own
counts and host memory are not the package's. -/
def State.fullReset (s : State) : State :=
  let objs := s.savedObjs
  let inFlash (a : Nat) : Bool := objs.any fun (_, o) => decide (o.base ≤ a) && decide (a < o.base + o.shelves * 2 ^ 21)
  let bad := s.tiers.shelves.filter fun (sh, v) => v.st == .poisoned && inFlash (sh * 2 ^ 21)
  let one (v : Shelf) : Shelf := { st := .poisoned, lost := v.lost }
  { State.reset with
    pending := s.pending
    clk := s.clk
    nonce := s.nonce
    hostOut := s.hostOut
    regs := (dropKeys s.regs fun a => !keptReg a).foldr (fun e t => t.put e.1 e.2) s.retiredNand
    tier := dropKeys s.tier fun a => !inFlash a
    tiers := { saved := objs, shelves := bad.map fun e => (e.1, one e.2), blocks := s.tiers.blocks, failed := s.tiers.failed }
    boot := { debug := s.boot.debug, trip := s.boot.trip } }

/-- A power-on reset also clears the retained store and everything that lasts until power-on (R423, R426). -/
def State.powerOn (s : State) : State :=
  let t := s.fullReset
  let lasts (a : Nat) : Bool := retReg a || a == Reg.RST_CAUSE || a == Reg.RST_SCOPE || decide (0x500040 ≤ a) && decide (a < 0x500050) || decide (2 ^ 48 ≤ a)
  { t with regs := dropKeys t.regs lasts, boot := {} }

/-- A source of a full reset. During a full reset it is only recorded (R425). -/
def State.fullBy (s : State) (bit : Nat) : State :=
  if s.boot.phase == .held then s.cause bit else (s.cause bit).fullReset.bump Reg.RST_FULL_COUNT 1

/-! ### Sources -/

/-- POWER_ON (R423). -/
def execPowerOn (s : State) : Host.Outcome State Fault Refusal := .next s.powerOn

/-- RESET_N_ASSERT (R424): RESET_N has been low for a number of consecutive samples. -/
def execResetNAssert (samples : Nat) (s : State) : Host.Outcome State Fault Refusal :=
  .next (if samples < 250 then s else s.fullBy 1)

/-- PERST_N_ASSERT (R423, R424): the same for PERST_N, at the scope in force. -/
def execPerstNAssert (samples : Nat) (s : State) : Host.Outcome State Fault Refusal :=
  .next (
    if samples < 25 then s
    else if s.boot.phase == .held then s.cause 2
    else if s.flag Reg.RST_SCOPE 0 then (s.cause 2).resetLink.resetPf
    else s.fullBy 2)

/-- A write of RST_FULL. -/
def State.rstFull (s : State) (v : W32) : State :=
  if bits v.toNat 31 16 = 0xD1E5 ∧ bit v.toNat 0 then s.fullBy 3 else s

/-- RST_FULL (R446): a write of RST_FULL, which acts with its key and GO. -/
def execRstFull (v : W32) (s : State) : Host.Outcome State Fault Refusal :=
  .next (s.rstFull v)

/-- THERMAL_TRIP (R428, R488): THERMTRIP_N goes low and holds the package in full reset. -/
def execThermalTrip (s : State) : Host.Outcome State Fault Refusal :=
  .next (
    let s := s.fullBy 4
    { s with boot := { s.boot with trip := true } })

/-! ### Rails (R483, R487) -/

/-- The lower limit of a rail in µV: VDD_CORE0 to 3 are rails 0 to 3, the others follow in the order of R483. -/
def State.railLow (s : State) (k : Nat) : Nat :=
  if k < 4 then
    let v := s.rail k
    980 * (if v.changing && decide (s.clk - v.since < 120000) then min v.mv v.prev else v.mv)
  else nth 0 [727500, 727500, 1067000, 388000, 1710000, 735000, 1164000, 735000, 1164000, 1140000, 727500, 1710000] (k - 4)

/-- RAIL_UNDERVOLTAGE (R487): a rail has stood at a voltage for a time in ns. During a thermal trip only VDD_AON and VDDIO_1V8 are
watched. -/
def execRailUndervoltage (k uv ns : Nat) (s : State) : Host.Outcome State Fault Refusal :=
  .next (
    if 16 ≤ k ∨ ns ≤ 2000 ∨ s.railLow k ≤ uv then s
    else if s.boot.trip && decide (k < 14) then s
    else s.powerOn)

/-! ### The release sequence (R429 to R434) -/

/-- The four stacks that carry the firmware reserve: 0, 3, 6 and 9, each replaced by the next present one in ascending order. -/
def reserveStacks (present : List Nat) : List Nat :=
  [0, 3, 6, 9].foldl (fun l t =>
    match (((List.range 12).map fun i => (t + i) % 12).find? fun u => present.contains u && !l.contains u && (u == t || !([0, 3, 6, 9].contains u))) with
    | some u => l ++ [u]
    | none => l) []

/-- Stacks whose training succeeded and whose die is linked. -/
def State.goodStacks (s : State) : List Nat := (List.range 12).filter fun t => !s.boot.badStacks.contains t && !s.boot.badDies.contains (t / 3)

/-- A stack's pseudo-channels and capacity (R290). -/
def State.setStack (s : State) (t pcs : Nat) : State :=
  let n := (List.range 32).countP fun i => pcs.testBit i
  let cut := if (reserveStacks s.goodStacks).contains t then 2 else 0
  (s.setReg (Reg.HBM_PC_PRESENT t) pcs).setReg (Reg.HBM_CAPACITY_GIB t) (3 * n - cut)

/-- RST_STRAP of a CFG_SEL code (R433, R434). -/
def strapOf (code : Nat) : Nat :=
  let c := min code 255
  let m := c % 16
  c + 2 ^ 8 * (c / 16) + 2 ^ 12 * (15 - c / 16) + 2 ^ 16 * b2n (m == 0 || m == 1 || m == 14 || m == 15) + 2 ^ 17

/-- The release sequence of R429. -/
def State.release (s : State) (code : Nat) (stackNos dies : List Nat) : State :=
  let s : State := { s with boot := { s.boot with phase := .rom, trip := false, badStacks := stackNos, badDies := dies }, time := 0 }
  let s := s.setReg Reg.RST_STRAP (strapOf code)
  let s := if s.boot.debug then s.setField Reg.SEC_STATUS 2 2 1 else s.setField Reg.SEC_STATUS 1 1 1
  let s := s.measure 1 0 0 (shake256 Config.maskRom 64)
  let s := s.measure 9 0 (strapOf code) (List.replicate 64 0)
  s.goodStacks.foldl (fun s t => s.setStack t (2 ^ 32 - 1)) s

/-- RESET_RELEASE (R429): the last source releases and the sequence runs to mailbox 0 READY, with the median CFG_SEL code and the stacks
and die links that fail training. -/
def execResetRelease (code : Nat) (stackNos dies : List Nat) (s : State) : Host.Outcome State Fault Refusal :=
  .next (if s.boot.phase != .held || s.boot.trip then s else s.release code stackNos dies)

/-- TRIP_HOLD_END (R487, R488): the removed rails have been in range for 1 ms. While a sensor still reads 115 °C the trip stays. -/
def execTripHoldEnd (hot : Bool) (code : Nat) (stackNos dies : List Nat) (s : State) : Host.Outcome State Fault Refusal :=
  .next (if !s.boot.trip || hot then s else s.release code stackNos dies)

/-! ### Pins (R427, R428) -/

/-- The outputs of R427. -/
inductive Pin where
  | ethTx (p : Nat)
  | pcieTx
  | nand (n : Nat)
  | syncOut
  | ppsOut
  | rclk (k : Nat)
  | avs
  | i3cSda
  | thermtrip
  | tdo
  deriving DecidableEq, Repr

/-- Whether an output is driven, rather than in its reset state. -/
def State.driven (s : State) (p : Pin) : Bool :=
  s.boot.phase != .held && (match p with
    | .ethTx p => s.flag (Reg.ETH_CTRL p) 0 && !s.flag Reg.RST_BLK_MISC p
    | .pcieTx => true
    | .nand n => s.flag Reg.BUR_CTRL 0 && s.nandPresent n && !s.flag Reg.RST_BLK_NAND n
    | .syncOut => s.flag Reg.CAB_STL_CHAIN_CTRL 0
    | .ppsOut => s.flag (Reg.INV_TRG_CTRL 0) 0 && s.flag (Reg.INV_TRG_CTRL 0) 3
    | .rclk k => s.flag (if k = 0 then Reg.INV_RCLK0_CFG else Reg.INV_RCLK1_CFG) 7
    | .avs => s.flag Reg.BIM_CTRL 0 || s.flag Reg.BIM_CTRL 1
    | .i3cSda => true
    | .thermtrip => false
    | .tdo => false) || (p == .thermtrip && s.boot.trip)

end Sys2Proof.Machine
end

