-- ==== Sys2Proof/Machine/Bureau.lean ====
section
/-! DEFINITION. Bureau's flash: the ladder, rebuilds, poisoned shelves and maintenance (R278 to R284), and patrol and refresh of HBM
(R226, R289). Installs, maintenance and rebuilds wait while firmware does not run (R471). A block is named by channel × 2^20 + block. -/

namespace Sys2Proof.Machine

/-- The channel of a block. -/
def chanOf (blk : Nat) : Nat := blk / 2 ^ 20

/-- A page of a shelf is being read: of a filling CACHED shelf, or of a STREAM object that is not POISONED. -/
def State.pageRead (s : State) (page : Nat) : Bool :=
  match s.objAt (page * 2 ^ 14) 1 with
  | some (_, o) =>
    let v := s.shelf (page / 128)
    o.st == .ready && match o.policy with
      | .cached => v.st == .filling && v.granted && !(List.range 4).all fun j => v.words.contains (page % 128 * 4 + j)
      | .stream => v.st != .poisoned
      | .pinned => false
  | none => false

def State.setLadder (s : State) (l : Tab Ladder) : State := { s with tiers := { s.tiers with ladder := l } }

/-- HARD_DECODE_FAIL (R280): a read of a page from block `blk` fails its hard decode and enters the ladder. -/
def execHardDecodeFail (page blk : Nat) (s : State) : Host.Outcome State Fault Refusal :=
  .next (
    if !s.pageRead page || (s.tiers.ladder.look page).isSome then s
    else
      let s := ((s.flashRead blk 0).bump (Reg.NAND_UNCORR (chanOf blk)) 1).bump Reg.BUR_RETRY 1
      s.setLadder (s.tiers.ladder.put page .levels))

/-- LADDER_DONE (R280): the re-reads succeed, or soft decision follows. -/
def execLadderDone (page : Nat) (ok : Bool) (s : State) : Host.Outcome State Fault Refusal :=
  .next (
    match s.tiers.ladder.look page with
    | some .levels =>
      if ok then s.setLadder (s.tiers.ladder.del page)
      else (s.setLadder (s.tiers.ladder.put page .soft)).bump Reg.BUR_SOFT 1
    | _ => s)

/-- SOFT_DECODE_DONE (R280): the soft decode succeeds, or the stripe is rebuilt. -/
def execSoftDecodeDone (page : Nat) (ok : Bool) (s : State) : Host.Outcome State Fault Refusal :=
  .next (
    match s.tiers.ladder.look page with
    | some .soft => s.setLadder (if ok then s.tiers.ladder.del page else s.tiers.ladder.put page .rebuild)
    | _ => s)

/-- R281: a page is unrecoverable: its shelf becomes POISONED. -/
def State.poisonShelf (s : State) (page : Nat) : State :=
  let sh := page / 128
  match s.shelfObj sh with
  | none => s
  | some (k, o) =>
    let v := s.shelf sh
    let s := if v.granted then s.dropGrans o.cost else s
    let n := v.lost + 1
    let s := s.setShelf sh { v with st := .poisoned, words := [], granted := false, lost := n }
    let t := s.tiers
    let s := { s with tiers := { t with
      fills := t.fills.filter (·.shelf != sh), ladder := t.ladder.filter fun e => e.1 / 128 != sh } }
    (s.bump Reg.BUR_POISONED_PAGES 1).fnEvent o.fn 0x0110 0xFFF k o.ogen (sh - o.base / 2 ^ 21) n

/-- Marks a block grown bad (R279). -/
def State.growBad (s : State) (blk : Nat) : State :=
  let b := s.tiers.blocks.get {} blk
  if b.bad then s
  else
    let s := { s with tiers := { s.tiers with blocks := s.tiers.blocks.put blk { b with bad := true } } }
    let r := Reg.NAND_BAD_BLOCKS (chanOf blk)
    (s.setField r 31 16 (s.field r 31 16 + 1)).bump Reg.BUR_GROWN_BAD 1

/-- Ticks of the model's own count in 24 hours. -/
def ticksPerDay : Nat := 86400 * 1000000000

/-- An unrecoverable read of a block; a second one within 24 hours marks it grown bad (R279). -/
def State.unrecoverable (s : State) (blk : Nat) : State :=
  let b := s.tiers.blocks.get {} blk
  let again := match b.unrecAt with
    | some t => decide (s.clk - t < ticksPerDay)
    | none => false
  let s := { s with tiers := { s.tiers with blocks := s.tiers.blocks.put blk { b with unrecAt := some s.clk } } }
  if again then s.growBad blk else s

/-- STRIPE_REBUILD_DONE (R280, R281): the page is rebuilt, served and its block queued for relocation; or it is
unrecoverable. -/
def execStripeRebuildDone (page blk : Nat) (ok : Bool) (s : State) : Host.Outcome State Fault Refusal :=
  .next (
    match s.tiers.ladder.look page with
    | some .rebuild =>
      let s := s.setLadder (s.tiers.ladder.del page)
      if ok then
        let b := s.tiers.blocks.get {} blk
        ({ s with tiers := { s.tiers with blocks := s.tiers.blocks.put blk { b with reloc := true } } }).bump Reg.BUR_REBUILT 1
      else ((s.poisonShelf page).unrecoverable blk).runFills
    | _ => s)

/-- FLASH_PATROL_READ (R279): a patrol read of a programmed block. It is relocated when a codeword needed more than
BUR_REFRESH_BITS corrected bits or any ladder step. -/
def execFlashPatrolRead (blk bits : Nat) (ladder : Bool) (s : State) : Host.Outcome State Fault Refusal :=
  .next (
    if s.boot.phase != .running || !s.burOn || !s.flag Reg.BUR_CTRL 1 || 32 ≤ chanOf blk then s
    else
      let s := s.flashRead blk bits
      let b := s.tiers.blocks.get {} blk
      if ladder || decide (s.field Reg.BUR_REFRESH_BITS 7 0 < bits) then
        { s with tiers := { s.tiers with blocks := s.tiers.blocks.put blk { b with reloc := true } } }
      else s)

/-- The lowest and highest erase counts among the blocks of a channel that are listed (NAND_ERASE_RANGE). -/
def State.eraseRange (s : State) (n : Nat) : Nat × Nat :=
  let es := (s.tiers.blocks.filter fun (k, b) => chanOf k == n && !b.bad).map (·.2.erases)
  match es with
  | [] => (0, 0)
  | e :: t => (t.foldl min e, t.foldl max e)

/-- The spread of erase counts on a channel calls for moving static data (R279). -/
def State.wearDue (s : State) (n : Nat) : Bool :=
  let (lo, hi) := s.eraseRange n
  decide (s.field Reg.BUR_WEAR_SPREAD 15 0 < hi - lo)

/-- BLOCK_RELOCATE_DONE (R279): a block has been relocated for wear, read disturb, retention or a rebuild, and erased. No
tier-range address changes. -/
def execBlockRelocateDone (blk : Nat) (s : State) : Host.Outcome State Fault Refusal :=
  .next (
    let b := s.tiers.blocks.get {} blk
    if s.boot.phase != .running || !s.burOn || !s.flag Reg.BUR_CTRL 2 || !(b.reloc || s.wearDue (chanOf blk)) then s
    else
      ({ s with tiers := { s.tiers with
        blocks := s.tiers.blocks.put blk { b with reads := 0, erases := b.erases + 1, reloc := false } } }).bump Reg.BUR_RELOC_BLOCKS 1)

/-- The key of a failed die; die 64 stands for the whole channel. -/
def dieKey (n die : Nat) : Nat := n * 65 + die

/-- NAND_DIE_FAILURE (R284): die `die` of channel n, or the whole channel when it is 64, fails and its stripes are rebuilt. -/
def execNandDieFailure (n die : Nat) (s : State) : Host.Outcome State Fault Refusal :=
  .next (
    if 32 ≤ n || 64 < die || (s.tiers.failed.look (dieKey n die)).isSome then s
    else { s with tiers := { s.tiers with failed := s.tiers.failed.put (dieKey n die) false } })

/-- NAND_REBUILD_DONE (R284). -/
def execNandRebuildDone (n die : Nat) (s : State) : Host.Outcome State Fault Refusal :=
  .next (
    match (if s.boot.phase == .running then s.tiers.failed.look (dieKey n die) else none) with
    | some false => { s with tiers := { s.tiers with failed := s.tiers.failed.put (dieKey n die) true } }
    | _ => s)

/-- PROGRAM_OR_ERASE_FAILURE (R279, R284): the block is marked grown bad. When the free reserve is consumed, firmware lowers the
user capacity to `gib` and posts FLASH_LOW. -/
def execProgramOrEraseFailure (blk gib : Nat) (s : State) : Host.Outcome State Fault Refusal :=
  .next (
    if s.boot.phase != .running || 32 ≤ chanOf blk then s
    else
      let s := s.growBad blk
      if gib < s.reg Reg.SBD_SIZE_FLASH_GIB then (s.publish [(Reg.SBD_SIZE_FLASH_GIB, gib)]).pfEvent 0x0115 gib 0 0 0 else s)

/-! ### HBM patrol and refresh -/

/-- HBM_PATROL_READ (R289): the controller of stack t patrols a line; `corrected` words needed correction. Patrol is suspended
while the region runs the Sterling profile. -/
def execHbmPatrolRead (t corrected : Nat) (s : State) : Host.Outcome State Fault Refusal :=
  .next (if !s.stackPresent t || s.flag (Reg.BIM_REG_STEP t) 2 then s else s.bump (Reg.HBM_CE t) corrected)

/-- HBM_REFRESH (R226): in the Sterling profile the controller refreshes the next bank, in ascending order. -/
def execHbmRefresh (t : Nat) (s : State) : Host.Outcome State Fault Refusal :=
  .next (
    if !s.stackPresent t || !s.flag (Reg.BIM_REG_STEP t) 2 then s
    else
      let b := s.tiers.refBank.get 0 t + 1
      { s with tiers := { s.tiers with refBank := if b = Config.hbmBanks then s.tiers.refBank.del t else s.tiers.refBank.put t b } })

end Sys2Proof.Machine
end

