-- ==== Sys2Proof/Machine/Timers.lean ====
section
/-! DEFINITION. Numerology timers (R296 to R298). PRESUMED: the symbol durations of TS 38.211, which R296 names (log 20). -/

namespace Sys2Proof.Machine

/-- Units of 2^-32 ns in a nanosecond. -/
def nsUnit : Int := 4294967296

def State.nt (s : State) (t : Nat) : NtTimer := s.timers.get {} t
def State.setNt (s : State) (t : Nat) (v : NtTimer) : State := { s with timers := s.timers.put t v }

/-- Time since G + Δ in units of 2^-32 ns. -/
def State.ntTime (s : State) (delta : Int) : Int := Int.ofNat s.time - (315964819 * 1000000000 + delta) * nsUnit

/-- Nanoseconds in a slot. -/
def slotNs (mu : Nat) : Int := Int.ofNat (1000000 / 2 ^ mu)

/-- The number of the last frame, slot or symbol boundary at or before a time since G + Δ. -/
def frameIdx (x : Int) : Int := x / (10000000 * nsUnit)
def slotIdx (mu : Nat) (x : Int) : Int := x / (slotNs mu * nsUnit)

/-- The start of symbol l in its subframe, in Tc: the first symbol of each half-subframe is 1,024 Tc longer. -/
def symStart (mu l : Nat) : Nat := l * (140288 / 2 ^ mu) + 1024 * (b2n (decide (0 < l)) + b2n (decide (7 * 2 ^ mu < l)))

def symbolIdx (mu : Nat) (x : Int) : Int :=
  let ms := x / (1000000 * nsUnit)
  let r := (x % (1000000 * nsUnit)).toNat
  let l := (List.range (14 * 2 ^ mu)).countP fun l => decide (symStart mu l * 1000000 * 2 ^ 32 ≤ r * 1966080)
  ms * Int.ofNat (14 * 2 ^ mu) + (Int.ofNat l - 1)

/-- The settings that the registers hold: MU and Δ. -/
def State.ntMu (s : State) (t : Nat) : Nat := s.field (Reg.INV_NT_CTRL t) 2 1
def State.ntDelta (s : State) (t : Nat) : Int := sext 32 (s.reg (Reg.INV_NT_OFFSET_NS t))

/-- A write of a timer's settings, `old` being the state before it (R298): enabling the timer or a kind of tick fires nothing for
boundaries already past, and a change of µ or Δ waits for the next frame boundary of the new settings. -/
def State.ntSettings (old s : State) (t : Nat) : State :=
  let mu := s.ntMu t
  let d := s.ntDelta t
  let was := old.reg (Reg.INV_NT_CTRL t)
  let is := s.reg (Reg.INV_NT_CTRL t)
  let v := s.nt t
  let rise (k : Nat) : Bool := bit is k && !bit was k
  let fresh (v : NtTimer) (x : Int) : NtTimer := { v with frame := frameIdx x, slot := slotIdx v.mu x, symbol := symbolIdx v.mu x }
  if rise 0 then s.setNt t (fresh { v with mu := mu, delta := d, next := none } (s.ntTime d))
  else if !bit is 0 then s
  else
    let x := s.ntTime v.delta
    let n := fresh v x
    let v := { v with
      frame := if rise 3 then n.frame else v.frame, slot := if rise 4 then n.slot else v.slot
      symbol := if rise 5 then n.symbol else v.symbol }
    if v.mu = mu ∧ v.delta = d then s.setNt t { v with next := none }
    else s.setNt t { v with next := some (mu, d, frameIdx (s.ntTime d) + 1) }

/-- New settings take effect once their frame boundary has been reached. -/
def State.ntAdopt (s : State) (t : Nat) : State :=
  let v := s.nt t
  match v.next with
  | some (mu, d, f) =>
    if f ≤ frameIdx (s.ntTime d) then
      let n : Int := Int.ofNat (10 * 2 ^ mu)
      s.setNt t { mu := mu, delta := d, next := none, frame := f - 1, slot := f * n - 1, symbol := f * n * 14 - 1 }
    else s
  | none => s

/-- The timer raises ticks of a kind: EN and the kind's bit. -/
def State.ntOn (s : State) (t k : Nat) : Bool := decide (t < 64) && s.flag (Reg.INV_NT_CTRL t) 0 && s.flag (Reg.INV_NT_CTRL t) k

/-- Counts the boundaries passed without a tick when boundary n fires after boundary `last` (R298). -/
def State.ntSkip (s : State) (t : Nat) (n last : Int) : State := s.bump (Reg.INV_NT_SKIPPED t) (n - last - 1).toNat

/-- SFN_TICK (R297): timer t reaches a frame boundary. -/
def execSfnTick (t : Nat) (s : State) : Host.Outcome State Fault Refusal :=
  .next (
    if !s.ntOn t 3 then s
    else
      let s := s.ntAdopt t
      let v := s.nt t
      let n := frameIdx (s.ntTime v.delta)
      if n ≤ v.frame then s
      else ((s.setNt t { v with frame := n }).ntSkip t n v.frame).setField (Reg.INV_NT_NOW t) 9 0 (wrap 10 n))

/-- SYMBOL_TICK (R297): timer t reaches a symbol boundary and signals the latch of INV_NT_SYMLATCH. -/
def execSymbolTick (t : Nat) (s : State) : Host.Outcome State Fault Refusal :=
  .next (
    if !s.ntOn t 5 then s
    else
      let s := s.ntAdopt t
      let v := s.nt t
      let n := symbolIdx v.mu (s.ntTime v.delta)
      if n ≤ v.symbol then s
      else
        let s := ((s.setNt t { v with symbol := n }).ntSkip t n v.symbol).setField (Reg.INV_NT_NOW t) 20 17 (n % 14).toNat
        s.invarSignal (s.field (Reg.INV_NT_SYMLATCH t) 12 8) (s.field (Reg.INV_NT_SYMLATCH t) 7 0))

end Sys2Proof.Machine
end

