-- ==== Sys2Proof/Machine/Templates.lean ====
section
/-! DEFINITION. Slot templates (R299 to R304) and the slot tick that instantiates them. -/

namespace Sys2Proof.Machine

/-! ### The form of a template (R299, R300) -/

/-- The template that the 16 words of a header describe, without its entries. -/
def headerTpl (h : List Nat) : Template :=
  { group := bits (wd h 1) 7 0, timer := bits (wd h 1) 13 8, depth := bits (wd h 0) 10 8, ctx := bits (wd h 1) 27 16
    slotBase := bits (wd h 2) 16 0, cq := bits (wd h 3) 17 0, tidHi := wd h 4, clusters := bits (wd h 5) 23 0
    mask := wd h 6 + 2 ^ 32 * wd h 7 + 2 ^ 64 * (wd h 8 % 2 ^ 16), entries := [] }

/-- A reserved bit of a header, or a field that R299 refuses. -/
def headerBad (h : List Nat) (version : Nat) : Bool :=
  let d := bits (wd h 0) 10 8
  let n := bits (wd h 0) 26 16
  maskedOut h [0x07FF07FF, 0x0FFF3FFF, 0x1FFFF, 0x3FFFF, 2 ^ 32 - 1, 0xFFFFFF, 2 ^ 32 - 1, 2 ^ 32 - 1, 0xFFFF] ||
    bits (wd h 0) 7 0 != 1 || !(d == 2 || (d == 4 && version != 1)) || n == 0 || decide (1024 < n)

/-- A predecessor index of a control record: the entry, and whether it is of the previous instance. -/
def TplEntry.pidx (e : TplEntry) (k : Nat) : Nat × Bool :=
  let v := bits (wd e.ctl (k / 2)) (16 * (k % 2) + 15) (16 * (k % 2))
  (v % 2 ^ 15, bit v 15)
def TplEntry.swAt (e : TplEntry) : Nat := bits (wd e.ctl 4) 4 0
def TplEntry.caAt (e : TplEntry) : Nat := bits (wd e.ctl 4) 12 8
/-- NPRED of an entry. -/
def TplEntry.npred (e : TplEntry) : Nat := bits (wd e.desc 2) 18 16

/-- Entry k of n breaks a rule of R300, or targets a cluster outside CLUSTERS (R299). -/
def TplEntry.bad (e : TplEntry) (k n clusters : Nat) : Bool :=
  let d := decodeTask e.desc
  let at_ (a : Nat) : Bool := a != 0 && decide (a < 16)
  d.resv || d.typ == 5 || decide (6 < d.typ) || decide (1 < d.cls) || d.fgen != 0 || d.handle != 0 || d.taskId != 0 || d.deadline != 0 ||
    d.step != 0 || [12, 13, 14, 15].any (fun i => wd e.desc i != 0) ||
    (List.range e.npred).any (fun p => let (i, prev) := e.pidx p; if prev then decide (n ≤ i) else decide (k ≤ i)) ||
    at_ e.swAt || at_ e.caAt || maskedOut (e.ctl.drop 4) [0x1F1F, 2 ^ 32 - 1] ||
    match d.op.cluster with
    | some c => !clusters.testBit c
    | none => false

/-- Reads a template of n entries from its bytes. -/
def readTpl (bs : List Byte) : Template :=
  let h := wordsOf 16 bs
  let n := bits (wd h 0) 26 16
  { headerTpl h with entries := (List.range n).map fun e =>
      ⟨wordsOf 32 (bs.drop (64 + 128 * e)), wordsOf 8 (bs.drop (64 + 128 * n + 32 * e))⟩ }

/-! ### Registration (R301, R302) -/

/-- Entries held in the template store. -/
def State.storeUsed (s : State) : Nat := (s.tpls.map (·.2.entries.length)).sum

/-- The slots of a template. -/
def Template.slots (t : Template) : List Nat := (List.range (t.depth * t.entries.length)).map (t.slotBase + ·)

/-- Enables or disables the slack tracker of a group by whether a registered template names it (R302). -/
def State.trackGroup (s : State) (g : Nat) : State :=
  s.setReg (Reg.CAB_SLK_CTRL g) (b2n (s.tpls.any fun (_, t) => t.group == g && !t.retiring))

/-- CAB_TPL_REGISTER (R301): the device address of a template in a PINNED object of the physical function. The reply holds the
template index. -/
def execCabTplRegister (i : Issuer) (addr : Nat) (s : State) : Host.Outcome State Fault Refusal :=
  .next (s.command i 0x0210 fun _ version =>
    let a := offOf addr
    if spaceOf addr ≠ 0 || !s.pinnedRange 0 a 64 then .error stArgument
    else
      let h := wordsOf 16 (s.tierRead a 64)
      let n := bits (wd h 0) 26 16
      let len := 64 + 160 * n
      if headerBad h version || !s.pinnedRange 0 a len then .error stArgument
      else
        let t := readTpl (s.tierRead a len)
        let c := s.ctx t.ctx
        if !c.valid || c.tearing || c.fn != 0 || c.floor != 0 || (s.cqOf 0 t.cq).isNone ||
            t.entries.zipIdx.any (fun e => e.1.bad e.2 n t.clusters) then .error stArgument
        else
          let outside := decide (t.slotBase < c.slotBase) || decide (c.slotBase + c.slotCount < t.slotBase + t.depth * n)
          let taken := t.slots.any fun k => (s.slot k).busy || s.tplSlot k
          let absent := (List.range 24).any fun k => t.clusters.testBit k && !s.clusterPresent k
          match lowestFree 512 (fun k => (s.tpls.look k).isSome) with
          | none => .error stResource
          | some k =>
            if outside || taken || absent || decide (16384 < s.storeUsed + n) then .error stResource
            else
              let s := { s with tpls := s.tpls.put k t }
              let s := (s.setReg (Reg.CAB_TPL_INSTANCE k) 0).setReg64 (Reg.CAB_TPL_SKIPPED k) 0
              .ok ((s.setReg64 (Reg.CAB_TPL_LAST_TICK k) 0).trackGroup t.group, [k]))

/-- CAB_TPL_UNREGISTER (R302). DEDUCED: a template that is RETIRING already answers BUSY (log 48). -/
def execCabTplUnregister (i : Issuer) (k : Nat) (s : State) : Host.Outcome State Fault Refusal :=
  .next (s.command i 0x0211 fun _ _ =>
    match s.tpls.look k with
    | none => .error stArgument
    | some t =>
      if t.retiring then .error stBusy
      else
        let s := { s with tpls := s.tpls.put k { t with retiring := true } }
        .ok (s.tplReap.trackGroup t.group, []))

/-! ### Instantiation (R303, R304) -/

/-- The slot word of R300. -/
def slotWord (sfn slot copy : Nat) : Nat := sfn % 1024 + 2 ^ 10 * (slot % 128) + 2 ^ 17 * (copy % 4)

/-- Replaces word i of a descriptor. -/
def setWord (ws : List Nat) (i v : Nat) : List Nat := setNth ws i (v % 2 ^ 32)

/-- The handle of the next task in a slot (R170). -/
def State.nextHandle (s : State) (i : Nat) : Nat := i + 2 ^ 17 * (((s.slot i).gen + 1) % 2 ^ 15)
/-- The handle that a slot now holds. -/
def State.curHandle (s : State) (i : Nat) : Nat := i + 2 ^ 17 * (s.slot i).gen

/-- The descriptor of entry e of a template for instance i at a tick (R303). `s` is the state before the instance. -/
def State.instDesc (s : State) (t : Template) (e : Nat) (x : TplEntry) (inst boundary sfn slot : Nat) : TaskDesc :=
  let n := t.entries.length
  let copy := inst % t.depth
  let prevCopy := (inst + t.depth - 1) % t.depth
  let ws := x.desc
  let ws := if x.swAt = 0 then ws else setWord ws x.swAt (slotWord sfn slot copy)
  let ws := if x.caAt = 0 then ws else setWord ws x.caAt (wd ws x.caAt + copy * wd x.ctl 5)
  let d := decodeTask ws
  let pred (p : Nat) : Nat :=
    let (j, prev) := x.pidx p
    if prev then s.curHandle (t.slotBase + prevCopy * n + j) else s.nextHandle (t.slotBase + copy * n + j)
  { d with
    handle := s.nextHandle (t.slotBase + copy * n + e)
    ctx := t.ctx
    cq := t.cq
    fgen := (s.func 0).gen
    taskId := 2 ^ 32 * t.tidHi + 2 ^ 10 * (inst % 2 ^ 22) + e % 2 ^ 10
    step := inst
    deadline := if d.cls = 0 then (boundary + wd x.ctl 2) % 2 ^ 64 else 0
    preds := (List.range x.npred).map pred }

/-- Accepts the entries of an instance in order, each committed as it is accepted; one that fails a check is refused (R182). -/
def State.acceptInst (s : State) (key : Nat × Nat) : List (TaskDesc × Nat) → State
  | [] => s
  | (d, wcet) :: ds =>
    let cause := s.refusal 0 d true
    let s := if cause ≠ 0 then s.refuseDesc 0 d cause else s.acceptTask 0 (2 ^ 18) 0 d true wcet (some key)
    s.acceptInst key ds

/-- One template at a matching tick. Answers REMAIN and DEADLINE of its class 0 tasks where it is instantiated. -/
def State.instantiate (s : State) (k : Nat) (t : Template) (key boundary sfn slot : Nat) : State × Option (Nat × Nat) :=
  let inst := (s.reg (Reg.CAB_TPL_INSTANCE k) + 1) % 2 ^ 32
  let s := s.setReg (Reg.CAB_TPL_INSTANCE k) inst
  let n := t.entries.length
  let copy := inst % t.depth
  if (List.range n).any fun e => (s.slot (t.slotBase + copy * n + e)).busy then
    ((s.bump (Reg.CAB_TPL_SKIPPED k) 1).pfEvent 0x0116 k inst (slotWord sfn slot copy) 0, none)
  else
    let ds := t.entries.zipIdx.map fun (x, e) => (s.instDesc t e x inst boundary sfn slot, wd x.ctl 3)
    let c0 := ds.filter (·.1.cls == 0)
    let later (a b : Nat) : Nat := if seqNewer 64 b a then b else a
    let dl := c0.foldl (fun m d => later m d.1.deadline) boundary
    let s := (s.acceptInst (t.group, key) ds).setReg64 (Reg.CAB_TPL_LAST_TICK k) boundary
    (s, some ((c0.map (·.2)).sum, dl))

/-- The templates of one group at a tick, in ascending index, and then its slack tracker (R211). -/
def State.tickGroup (s : State) (g key boundary sfn slot : Nat) (ts : List (Nat × Template)) : State :=
  let later (a b : Nat) : Nat := if seqNewer 64 b a then b else a
  let (s, r) := ts.foldl (fun (acc : State × Option (Nat × Nat)) (k, t) =>
    let (s, x) := acc.1.instantiate k t key boundary sfn slot
    (s, match acc.2, x with
      | some (a, b), some (c, d) => some (a + c, later b d)
      | none, y => y
      | y, none => y)) (s, none)
  match r with
  | some (remain, dl) => (s.slackStart g key remain dl).slackSettle g
  | none => s

/-- R303: the templates of timer t whose mask names the slot, all of them handled at one tick. -/
def State.tickTemplates (s : State) (t key boundary sfn slot : Nat) : State :=
  let ts := s.tpls.filter fun (_, x) => x.timer == t && !x.retiring && x.mask.testBit slot
  let groups := (ts.foldl (fun (m : Tab Unit) e => m.put e.2.group ()) []).map (·.1)
  let s := groups.foldl (fun s g => s.slackOverrun g) s
  groups.foldl (fun s g => s.tickGroup g key boundary sfn slot (ts.filter (·.2.group == g))) s

/-- R313: SLOT.indication to every running cell of the timer. -/
def State.slotIndications (s : State) (t sfn slot : Nat) : State :=
  let ms := (s.fapi.filter fun (_, c) => c.st == .running && c.timer == t).map fun (p, _) => (p, FapiMsg.slotIndication sfn slot)
  { s with fapiOut := s.fapiOut ++ ms }

/-- SLOT_TICK (R297, R303): timer t reaches a slot boundary; the tick carries the boundary instant. -/
def execSlotTick (t : Nat) (s : State) : Host.Outcome State Fault Refusal :=
  .next (
    if !s.ntOn t 4 then s
    else
      let s := s.ntAdopt t
      let v := s.nt t
      let n := slotIdx v.mu (s.ntTime v.delta)
      if n ≤ v.slot then s
      else
        let per : Int := Int.ofNat (10 * 2 ^ v.mu)
        let slot := (n % per).toNat
        let sfn := wrap 10 (n / per)
        let boundary := wrap 64 (v.delta + n * slotNs v.mu)
        let s := ((s.setNt t { v with slot := n }).ntSkip t n v.slot).setField (Reg.INV_NT_NOW t) 16 10 slot
        let s := s.bump (Reg.INV_NT_TICKS t) 1
        (s.tickTemplates t n.toNat boundary sfn slot).slotIndications t sfn slot)

end Sys2Proof.Machine
end

