-- ==== Sys2Proof/Machine/TrestleFeeder.lean ====
section
/-! DEFINITION. The feeder, the banks, the drain buffer and the converter of a Trestle (R33 to R53, R58, R63 to R66, R496). -/

namespace Sys2Proof.Machine

/-! ### Accumulators -/

/-- Key of accumulator row r of a problem (R40). -/
def accKey (i p r : Nat) : Nat := (8 * i + p) * 2048 + r

/-- An accumulator row; one that nothing has written holds zeros. -/
def accRow (m : Tab (List W32)) (i p r w : Nat) : List W32 := (m.look (accKey i p r)).getD (List.replicate w 0)

/-- R42, R247: a DRAIN that has been issued still covers the row, or a checked tile still holds it. -/
def Trestle.accBusy (t : Trestle) (i p r : Nat) : Bool :=
  (t.qu i).convs.any (fun d => d.p == p && decide (d.op.accRow + d.next ≤ r) && decide (r < d.op.accRow + d.op.m)) ||
  t.tiles.any (fun x => x.q == i && x.p == p && x.extraIn && x.rows.any fun w => !w.extra && w.accRow == r)

/-! ### What a port may send (R37, R66, R496) -/

/-- The state of a STREAM in a T-cycle. -/
inductive Offer where
  /-- nothing to send -/
  | idle
  /-- data or block not there, or at a tile boundary -/
  | dry
  | drain
  /-- waits under R66 -/
  | layout
  /-- a row is ready -/
  | row
  /-- the extra row of a checked tile is due: it needs no budget and never waits (R60) -/
  | extra
  deriving DecidableEq, Repr

/-- Every bank of a STREAM holds its block and has finished loading. -/
def Trestle.blockReady (t : Trestle) (a : TrsAct) : Bool :=
  a.banks.all fun k => let b := t.banks.get {} k; b.blk == a.blk && b.loading == 0

/-- R66: a wider row of an earlier layout reaches the group's left edge in this cycle. -/
def Trestle.layoutWait (t : Trestle) (col : Nat) : Bool :=
  t.flight.any fun r =>
    match t.blocks.look r.blk with
    | some b => decide (b.col0 < col) && decide (col < b.col0 + b.width) && r.t + (col - b.col0) == t.cyc
    | none => false

/-- R60: the extra row of a checked tile enters after the tile's last data-row cycle. -/
def TrsAct.extraDue (a : TrsAct) : Bool :=
  a.chk && !a.edge && a.tile != 0 && (decide (2047 ≤ a.tileCyc) || a.next == a.op.m)

/-- What a STREAM offers in this T-cycle; `held` tells that nothing of the queue may enter now. -/
def Trestle.offer (t : Trestle) (i : Nat) (held : Bool) (late : List Nat) (a : TrsAct) : Offer :=
  if a.extraDue && !held then .extra
  else if a.next == a.op.m then .idle
  else if held || a.edge || late.contains a.p || !t.blockReady a then .dry
  else if t.accBusy i a.p (a.op.accRow + a.next) then .drain
  else if t.layoutWait ((t.qu i).col0 a.p) then .layout
  else .row

/-! ### Injection -/

/-- A row enters: it selects its banks and is in flight (R33, R36). -/
def Trestle.enter (t : Trestle) (r : TrsRow) : Trestle :=
  let r := { r with t := t.cyc }
  { t with
    flight := t.flight ++ [r]
    banks := r.banks.foldl (fun b k =>
      let v := b.get {} k
      b.put k { v with inflight := v.inflight + 1, streamed := true }) t.banks }

/-- Adds a data row to the running sums of the extra row, in FP32 with RNE or as integers (R246). -/
def addExtra (float : Bool) : List (List FNum) → List (List FNum) → List (List FNum)
  | [], a => a.map fun v => v.map fun x => sumVals float [x]
  | e, a => (e.zip a).map fun (ev, av) => (ev.zip av).map fun (x, y) => sumVals float [x, y]

/-- The STREAM p of queue i injects its next data row, read from the share of its context. -/
def State.injectRow (s : State) (c i p : Nat) : State :=
  let t := s.trestle c
  let q := t.qu i
  match q.acts.look p with
  | none => s
  | some a =>
    let x := a.task.ctx
    let n := ((t.blocks.look a.blk).map (·.load.nCols)).getD 0
    let vals := s.readRow c x q a.op a.next
    let tileId := if a.chk then (if a.tile = 0 then t.nextId else a.tile) else 0
    let row : TrsRow :=
      { q := i, p := p, banks := a.banks, blk := a.blk, accRow := a.op.accRow + a.next, init := a.op.init
        c := if a.op.init = 2 then s.readC c x q a.op n a.next else [], a := vals, tile := tileId, seq := a.seq }
    let fresh := a.chk && a.tile == 0
    let a' := { a with
      next := a.next + 1, tile := tileId
      extra := if a.chk then addExtra q.kind.isFloat (if fresh then [] else a.extra) vals else a.extra }
    let tiles := if fresh then
        t.tiles ++ [{ id := tileId, q := i, p := p, task := a.task, tag := a.tag, seq := a.seq, blk := a.blk, rows := [row] }]
      else t.tiles.map fun z => if a.chk && z.id = tileId then { z with rows := z.rows ++ [row] } else z
    let t := { t.setQu i { q with acts := q.acts.put p a' } with
      tiles := tiles, nextId := if fresh then t.nextId + 1 else t.nextId }
    (s.setTrestle c (t.enter row)).bump (Reg.TRS_ROWS_VALID c) 1

/-- The extra row of STREAM p enters, which ends its tile (R60, R246). -/
def State.injectExtra (s : State) (c i p : Nat) : State :=
  let t := s.trestle c
  let q := t.qu i
  match q.acts.look p with
  | none => s
  | some a =>
    let row : TrsRow :=
      { q := i, p := p, banks := a.banks, blk := a.blk, accRow := 0, init := 0, c := [], a := a.extra, extra := true
        tile := a.tile, seq := a.seq }
    let tiles := t.tiles.map fun z => if z.id = a.tile then { z with rows := z.rows ++ [row], extraIn := true } else z
    let t := { t.setQu i { q with acts := q.acts.put p { a with edge := true, tile := 0, extra := [] } } with tiles := tiles }
    ((s.setTrestle c (t.enter row)).bump (Reg.TRS_ROWS_VALID c) 1).bump (Reg.TRS_CHK_TILES c) 1

/-- Which counter a port's bubble goes to (R496): PORT, else DRAIN, else DRY. -/
def bubbleReg (c : Nat) (os : List Offer) : Nat :=
  if os.contains .layout || os.contains .row then Reg.TRS_BUBBLES_PORT c
  else if os.contains .drain then Reg.TRS_BUBBLES_DRAIN c
  else Reg.TRS_BUBBLES_DRY c

/-- One port in one T-cycle: sends its ready rows under the budget of R39, or counts a bubble. Answers the running total of
bytes and the last port that injected. -/
def State.feedPort (c i : Nat) (held : Bool) (late : List Nat) (acc : State × Nat × Option Nat) (g : Nat) :
    State × Nat × Option Nat :=
  let (s, total, last) := acc
  let t := s.trestle c
  let q := t.qu i
  let acts := [2 * g, 2 * g + 1].filterMap q.acts.look
  let os := acts.map fun a => (a, t.offer i held late a)
  let work := os.filter fun o => o.2 != .idle
  if work.isEmpty then acc
  else
    let s := work.foldl (fun s o => if o.2 == .extra then s.injectExtra c i o.1.p else s) s
    let rows := work.filter fun o => o.2 == .row
    let bytes := (rows.map fun o => q.rowBytes o.1.op.k).sum
    if !rows.isEmpty && decide (total + bytes ≤ 512) then
      (rows.foldl (fun s o => s.injectRow c i o.1.p) s, total + bytes, some g)
    else if work.any (fun o => o.2 == .extra) then (s, total, some g)
    else (s.bump (bubbleReg c (work.map (·.2))) 1, total, last)

/-- Every STREAM's tile grows by the cycle; a tile ends after 2,048 feeder cycles, and a STREAM at its last row (R45). -/
def Trestle.endCycle (t : Trestle) (i : Nat) : Trestle :=
  let q := t.qu i
  let acts := q.acts.map fun (p, a) =>
    let n := a.tileCyc + 1
    (p, { a with tileCyc := n, edge := a.edge || ((!a.chk || a.tile == 0) && decide (2048 ≤ n)) || (!a.chk && a.next == a.op.m) })
  let overflow := acts.filter fun (_, a) => a.next == a.op.m && (!a.chk || a.edge)
  let left := acts.filter fun (_, a) => !(a.next == a.op.m && (!a.chk || a.edge))
  { t.setQu i { q with acts := left } with boundary := t.boundary || !overflow.isEmpty || left.any (fun (_, a) => a.edge) }

/-- A loading bank is one T-cycle nearer; a LOAD that has finished leaves the queue's list. -/
def Trestle.loadCycle (t : Trestle) (i : Nat) : Trestle :=
  let banks := t.banks.map fun (k, b) => (k, { b with loading := b.loading - 1 })
  let q := t.qu i
  let done (l : TrsPend) : Bool := l.begun && l.banks.all fun k =>
    let b := Tab.get {} banks k
    b.loading == 0 || b.blk != l.blk
  { t.setQu i { q with loads := q.loads.filter fun l => !done l } with banks := banks }

/-- The next row of a re-run enters (R52, R249). -/
def State.feedRerun (s : State) (c : Nat) : State :=
  let t := s.trestle c
  match t.rerun with
  | [] => s
  | r :: rest =>
    let t := { t with rerun := rest, boundary := t.boundary || rest.isEmpty }
    (s.setTrestle c (t.enter r)).bump (Reg.TRS_ROWS_VALID c) 1

/-- FEEDER_CYCLE (R37): one T-cycle of cluster c's feeder. `late` names the problems whose scratchpad data has not arrived. -/
def execFeederCycle (c : Nat) (late : List Nat) (s : State) : Host.Outcome State Fault Refusal :=
  .next (
    if !s.clusterOn c then s
    else
      let t := s.trestle c
      let i := t.serving
      let waits := ((t.qu i).loads.filter fun l => !l.begun && l.banks.any fun k => (t.banks.get {} k).inflight != 0).length
      let s := s.when (decide (0 < waits)) (·.bump (Reg.TRS_LOAD_WAIT c) waits)
      let held := t.change != 0 || !t.rerun.isEmpty
      let s := if t.change = 0 && !t.rerun.isEmpty then s.feedRerun c else s
      let start := s.field (Reg.TRS_PORT_RR c) 1 0
      let r := (List.range 4).foldl (fun acc n => State.feedPort c i held late acc ((start + n) % 4)) (s, 0, none)
      let s := match r.2.2 with
        | some g => r.1.setReg (Reg.TRS_PORT_RR c) ((g + 1) % 4)
        | none => r.1
      let t := s.trestle c
      let t := if held then t else t.endCycle i
      let t := t.loadCycle i
      s.setTrestle c { t with cyc := t.cyc + 1, change := t.change - 1 })

/-! ### Banks -/

/-- LOAD_BEGIN (R36): the next LOAD of the queue being served starts once no row in flight selects its banks; it reads its
records and scales from the share and takes the T-cycles of R59. No STREAM that still injects may use the bank. -/
def execLoadBegin (c : Nat) (s : State) : Host.Outcome State Fault Refusal :=
  .next (
    let t := s.trestle c
    let i := t.serving
    let q := t.qu i
    if !s.clusterOn c || t.change != 0 || q.loads.any (·.begun) then s
    else
      match q.loads with
      | [] => s
      | l :: rest =>
        let free := l.banks.all fun k => let b := t.banks.get {} k; b.inflight == 0 && b.loading == 0
        let used := q.acts.any fun (_, a) => decide (a.seq < l.seq) && a.banks.any l.banks.contains
        if !free || (used && !l.reload) then s
        else
          let blk := s.readBlock c i q l.p l.task l.load
          let cyc := q.loadCycles l.load
          let banks := l.banks.foldl (fun b k => b.put k { blk := l.blk, loading := cyc, owner := 16 * i + l.p + 1 }) t.banks
          let t := { t.setQu i { q with loads := { l with begun := true } :: rest } with
            banks := banks, blocks := t.blocks.put l.blk blk }
          (s.setTrestle c t).when (l.reload && i == 1) (·.bump (Reg.TRS_RELOADS c) 1))

/-! ### Tile boundaries (R45 to R53) -/

/-- R48: when the radio queue takes the array, tenant blocks that were loaded but not yet streamed are released. -/
def Trestle.release (t : Trestle) : Trestle :=
  let latest := t.tq.latest.flatMap fun (p, b) => t.tq.bankKeys p b
  let drop (kb : Nat × TrsBank) : Nat × TrsBank :=
    if latest.contains kb.1 && !kb.2.streamed && kb.2.inflight == 0 && decide (17 ≤ kb.2.owner) then (kb.1, {}) else kb
  let t := { t with banks := t.banks.map drop }
  { t with tq := { t.tq with loads := t.tq.loads.filter fun l => !l.begun } }

/-- R50: a queue that takes the array reloads every block of its own that was released or overwritten. -/
def Trestle.reloads (t : Trestle) (i : Nat) : Trestle :=
  let q := t.qu i
  let want := q.blkOf.filterMap fun (p, blk) =>
    let b := q.latest.get 0 p
    let keys := q.bankKeys p b
    let gone := keys.any fun k => (t.banks.get {} k).blk != blk
    match gone && !q.loads.any (fun l => l.blk == blk), t.blocks.look blk with
    | true, some tb =>
      some { p := p, blk := blk, banks := keys, load := tb.load, task := tb.task, seq := 0, reload := true }
    | _, _ => none
  t.setQu i { q with loads := want ++ q.loads }

/-- The feeder changes queue: 128 T-cycles before the new queue's first load or row (R47). -/
def State.trsSwitch (s : State) (c i : Nat) : State :=
  let t := s.trestle c
  let t := if i = 0 then t.release else t
  let t := ({ t with serving := i, change := 128 } : Trestle).reloads i
  (s.setTrestle c t).when (i == 0) (·.bump (Reg.TRS_PREEMPT c) 1)

/-- The block of a re-run tile is read into its banks' lists again: its rows enter before any later row or op (R52). -/
def Trestle.startRerun (t : Trestle) (i : Nat) : Trestle :=
  match t.tiles.find? (fun x => x.q == i && x.phase == 1) with
  | none => t
  | some x =>
    let x' := { x with
      phase := 2, passes := [], tails := [], extra := [], extraLanded := false, suspectSums := [], spareSums := [] }
    { t with
      rerun := x.rows.map fun r => { r with rerun := true }
      tiles := t.tiles.map fun z => if z.id = x.id then x' else z }

/-- Blocks that nothing names any more are forgotten. -/
def Trestle.gc (t : Trestle) : Trestle :=
  let used := t.banks.map (·.2.blk) ++ t.flight.map (·.blk) ++ t.rerun.map (·.blk) ++ t.tiles.map (·.blk) ++
    t.rq.blkOf.map (·.2) ++ t.tq.blkOf.map (·.2) ++ t.rq.acts.map (·.2.blk) ++ t.tq.acts.map (·.2.blk)
  { t with blocks := t.blocks.filter fun (k, _) => used.contains k }

/-- TILE_BOUNDARY (R46): the feeder chooses the queue to serve next; a re-run of the queue served enters first. -/
def execTileBoundary (c : Nat) (s : State) : Host.Outcome State Fault Refusal :=
  .next (
    let t := s.trestle c
    let i := t.serving
    let mid := (t.qu i).acts.any (fun (_, a) => !a.edge && a.tileCyc != 0) || !t.rerun.isEmpty
    let goes (a : TrsAct) : Bool := !(a.edge && (s.ctx a.task.ctx).tearing)
    if !s.clusterOn c || t.change != 0 then s
    else
      let radio := s.trsCan c 0
      let tenant := s.trsCan c 1
      if i = 1 && radio then (if mid || !t.boundary then s else (s.trsSwitch c 0))
      else if i = 0 && !radio && tenant then (if mid || !t.boundary then s else (s.trsSwitch c 1))
      else if s.flag (Reg.TRS_CTRL c) 2 || s.holding c || !s.flag (Reg.TRS_CTRL c) i then s
      else
        let t := if t.rerun.isEmpty && t.tiles.all (fun x => x.q != i || x.phase != 2) then t.startRerun i else t
        let q := t.qu i
        let t := if t.rerunning i then t
          else t.setQu i { q with acts := (q.acts.filter fun e => goes e.2).map fun (p, a) => (p, if a.edge then { a with edge := false, tileCyc := 0 } else a) }
        s.setTrestle c { t.gc with boundary := false })

/-! ### Landing and drain -/

/-- The mapped column of TRS_CHK_SPARE (R250). -/
def State.mapped (s : State) (c : Nat) : Option Nat :=
  if s.flag (Reg.TRS_CHK_SPARE c) 8 then some (s.field (Reg.TRS_CHK_SPARE c) 7 0) else none

/-- A hardware upset of physical column n, as the words XORed into its sum. -/
def flipOf (flips : List (Nat × W32)) (n : Nat) : W32 := (flips.filter (·.1 == n)).foldl (fun a f => a ^^^ f.2) 0

/-- The sum that lands for physical column n: a mapped column's sum comes from the spare (R250). -/
def landed (flips : List (Nat × W32)) (spare : Option Nat) (n : Nat) (w : W32) : W32 :=
  w ^^^ flipOf flips (if spare = some n then 129 else n)

/-- What the sums of a row do to the accumulators and to its checked tile. -/
def Trestle.land (t : Trestle) (r : TrsRow) (spare : Option Nat) (flips : List (Nat × W32)) : Trestle :=
  match t.blocks.look r.blk with
  | none => t
  | some b =>
    let tile := t.tiles.find? (·.id == r.tile)
    let susp := if r.rerun then tile.bind (fun x => if x.useSpare then x.suspect else none) else none
    let stand := match susp with
      | some n => some n
      | none => spare
    let raw := b.passes r.a
    let sums := raw.zipIdx.map fun (w, j) => landed flips stand (b.col0 + j) w
    let rawTail := b.tail r.a
    let tail := landed flips stand 128 rawTail
    let of (n : Nat) : W32 := if n = 128 then rawTail else nth 0 raw (n - b.col0)
    let t := if r.extra then t
      else
        let w := sums.length
        let base := match r.init with
          | 1 => List.replicate w 0
          | 2 => r.c
          | _ => accRow t.acc r.q r.p r.accRow w
        let row := (base.zip sums).map fun (x, y) => accAdd b.kind x y
        let k := accKey r.q r.p r.accRow
        if r.tile = 0 then { t with acc := t.acc.put k row } else { t with twin := t.twin.put k row }
    if r.tile = 0 then t
    else
      { t with tiles := t.tiles.map fun x =>
        if x.id ≠ r.tile then x
        else
          let x := match susp with
            | some n => { x with
                suspectSums := x.suspectSums ++ [of n ^^^ flipOf flips n], spareSums := x.spareSums ++ [of n ^^^ flipOf flips 129] }
            | none => x
          if r.extra then { x with extra := sums, extraLanded := true }
          else { x with passes := x.passes ++ [sums], tails := x.tails ++ [tail] } }

/-- ROW_LANDS (R41): the oldest row's sums land 258 T-cycles after its entry. `flips` are hardware upsets by physical column. -/
def execRowLands (c : Nat) (flips : List (Nat × W32)) (s : State) : Host.Outcome State Fault Refusal :=
  .next (
    let t := s.trestle c
    match t.flight with
    | [] => s
    | r :: rest =>
      if !s.clusterOn c || decide (t.cyc < r.t + 258) then s
      else
        let t := { t with
          flight := rest
          banks := r.banks.foldl (fun b k =>
            let v := Tab.get ({} : TrsBank) b k
            Tab.put b k { v with inflight := v.inflight - 1 }) t.banks }
        (s.setTrestle c (t.land r (s.mapped c) flips)).trsSettle c r.q)

/-- R43: every sum aimed at accumulator row r of problem p by ops before `seq` has landed. -/
def Trestle.rowSettled (t : Trestle) (i p r seq : Nat) : Bool :=
  t.flight.all (fun w => !(w.q == i && w.p == p && w.accRow == r && decide (w.seq < seq) && !w.extra)) &&
  (t.qu i).acts.all (fun (_, a) => !(a.p == p && decide (a.seq < seq) && decide (a.op.accRow + a.next ≤ r) &&
    decide (r < a.op.accRow + a.op.m))) &&
  t.tiles.all (fun x => !(x.q == i && x.p == p && decide (x.seq < seq) && x.rows.any fun w => !w.extra && w.accRow == r))

/-- The converter writes the next row of a queue's oldest DRAIN to the share, with its digest marks (R43, R84, R233). -/
def State.convertRow (s : State) (c i : Nat) : Option State :=
  let t := s.trestle c
  match (t.qu i).convs with
  | [] => none
  | d :: rest =>
    let r := d.op.accRow + d.next
    if !t.rowSettled i d.p r d.seq then none
    else
      match Fmt.ofCode d.op.dFmt with
      | none => none
      | some f =>
        let q := t.qu i
        let ws := accRow t.acc i d.p r q.width
        let o := drainRow f d.op (s.taskWord d.task d.op.rng) d.next ws
        let x := d.task.ctx
        let a := d.op.dAddr + d.next * d.op.dStride
        let sa := d.op.dScale + d.next * scalesOf d.op.nCols
        let s := (s.shareWrite c x a o.1).getD s
        let s := if o.2.isEmpty then s else (s.shareWrite c x sa o.2).getD s
        let s := if d.op.digest then (s.mark d.task (shareMark a) o.1.length).mark d.task (shareMark sa) o.2.length else s
        let d' := { d with next := d.next + 1 }
        let s := s.modQu c i fun q => { q with convs := if d'.next = d.op.m then rest else d' :: rest }
        some (s.trsSettle c i)

/-- DRAIN_ROW_CONVERT (R43): one accumulator row is converted and written, a radio-side row ahead of any tenant-side row. -/
def execDrainRowConvert (c : Nat) (s : State) : Host.Outcome State Fault Refusal :=
  .next (
    if !s.clusterOn c then s
    else
      match s.convertRow c 0 with
      | some s' => s'
      | none => (s.convertRow c 1).getD s)

end Sys2Proof.Machine
end

