-- ==== Sys2Proof/Machine/TrestleChecks.lean ====
section
/-! DEFINITION. The judgement of checked tiles: CHECK_EVALUATE and CHECK_RERUN_OUTCOME (R246 to R250). -/

namespace Sys2Proof.Machine

/-- The tile's results become the live accumulator rows (R247). -/
def Trestle.accept (t : Trestle) (x : TrsTile) : Trestle :=
  let rows := x.rows.filter fun r => !r.extra
  let step (t : Trestle) (r : TrsRow) : Trestle :=
    let k := accKey r.q r.p r.accRow
    match t.twin.look k with
    | some w => { t with acc := t.acc.put k w, twin := t.twin.del k }
    | none => t
  let t := rows.foldl step t
  { t with tiles := t.tiles.filter fun z => z.id != x.id }

/-- The tile is dropped with its twins. -/
def Trestle.dropTile (t : Trestle) (x : TrsTile) : Trestle :=
  let rows := x.rows.filter fun r => !r.extra
  { t with
    twin := rows.foldl (fun m r => Tab.del m (accKey r.q r.p r.accRow)) t.twin
    tiles := t.tiles.filter fun z => z.id != x.id }

/-- The checks of a tile: failing data columns of its group, and whether some row check fails. -/
def State.judge (s : State) (c : Nat) (x : TrsTile) : List Nat × Bool :=
  match (s.trestle c).blocks.look x.blk with
  | none => ([], false)
  | some b =>
    tileChecks b.kind (BitVec.ofNat 32 (s.reg (Reg.TRS_CHK_TOL c))) b.last x.passes x.tails x.extra

/-- Physical column of a group's first column for a tile. -/
def State.tileCol0 (s : State) (c : Nat) (x : TrsTile) : Nat := (((s.trestle c).blocks.look x.blk).map (·.col0)).getD 0

/-- R249: the suspect column of a mismatch. -/
def suspectOf (col0 : Nat) (bad : List Nat) (rowBad : Bool) : Option Nat :=
  match bad with
  | [n] => some (col0 + n)
  | [] => if rowBad then some 128 else none
  | _ => none

/-- CHECK_EVALUATE (R248): judges the tile whose extra row has landed; on a mismatch the tile runs once more (R249). -/
def execCheckEvaluate (c : Nat) (s : State) : Host.Outcome State Fault Refusal :=
  .next (
    let t := s.trestle c
    match t.tiles.find? (fun x => x.extraLanded && x.phase == 0) with
    | none => s
    | some x =>
      let v := s.judge c x
      if v.1.isEmpty && !v.2 then (s.setTrestle c (t.accept x)).trsSettle c x.q
      else
        let sus := suspectOf (s.tileCol0 c x) v.1 v.2
        let spare := s.flag (Reg.TRS_CHK_CTRL c) 1 && (s.mapped c).isNone && sus.isSome
        let x' := { x with phase := 1, suspect := sus, useSpare := spare }
        let s := s.setTrestle c { t with tiles := t.tiles.map (fun z => if z.id = x.id then x' else z), boundary := true }
        s.bump (Reg.TRS_CHK_MISMATCH c) 1)

/-- The program whose tile stays unresolved ends with CAUSE 6 (R249). -/
def State.unresolved (s : State) (c : Nat) (x : TrsTile) : State :=
  let s := s.setTrestle c ((s.trestle c).dropTile x)
  let s := s.bump (Reg.TRS_CHK_UNRESOLVED c) 1
  let s := (s.pfEvent 0x010E c x.task.handle 0 0).needFence 0 c 1
  let s := s.modQu c x.q fun q => { q with acts := q.acts.filter fun (_, a) => a.task != x.task, loads := q.loads.filter fun l => l.task != x.task }
  s.trsFault c x.q 3 x.tag trsCheck

/-- CHECK_RERUN_OUTCOME (R249): the re-run of a mismatched tile ends as transient, permanent or unresolved. -/
def execCheckRerunOutcome (c : Nat) (s : State) : Host.Outcome State Fault Refusal :=
  .next (
    let t := s.trestle c
    match t.tiles.find? (fun x => x.extraLanded && x.phase == 2) with
    | none => s
    | some x =>
      let v := s.judge c x
      if v.1.isEmpty && !v.2 then
        let s := s.setTrestle c (t.accept x)
        let s :=
          match x.useSpare && x.spareSums != x.suspectSums, x.suspect with
          | true, some n =>
            let s := (s.setReg (Reg.TRS_CHK_SPARE c) (n + 256)).bump (Reg.TRS_CHK_SPARE_MAPS c) 1
            let s := { s with boot := { s.boot with tested := s.boot.tested.filter (· != c) } }
            s.pfEvent 0x010D c n 0 0
          | _, _ => s.bump (Reg.TRS_CHK_TRANSIENT c) 1
        s.trsSettle c x.q
      else s.unresolved c x)

end Sys2Proof.Machine
end

