-- ==== Sys2Proof/Machine/Units.lean ====
section
/-! DEFINITION. Units that leave service (R184, R205, R465, R468): what a lost cluster, Bronze unit, stack, channel, port or column
takes with it, and the size table that shows what is present (R18, R19). -/

namespace Sys2Proof.Machine

/-! ### Service states (R465, R476) -/

/-- Service kinds of R465. -/
def svcCluster : Nat := 0
def svcBronze : Nat := 1
def svcRegion : Nat := 2
def svcPc : Nat := 3
def svcNand : Nat := 4
def svcPort : Nat := 5
def svcColumn : Nat := 6

/-- The unit word of a kind and number; a Trestle column has none. -/
def unitReg (kind n : Nat) : Option Nat :=
  if kind = svcCluster ∧ n < 24 then some (Reg.SBD_SVC_CLUSTER n)
  else if kind = svcBronze ∧ n < 48 then some (Reg.SBD_SVC_BRONZE n)
  else if kind = svcRegion ∧ n < 12 then some (Reg.SBD_SVC_REGION n)
  else if kind = svcPc ∧ n < 384 then some (Reg.SBD_SVC_PC n)
  else if kind = svcNand ∧ n < 32 then some (Reg.SBD_SVC_NAND n)
  else if kind = svcPort ∧ n < 8 then some (Reg.SBD_SVC_PORT n)
  else none

/-- STATE codes. -/
def unitIn : Nat := 0
def unitFenced : Nat := 1
def unitTesting : Nat := 2
def unitRetired : Nat := 3

/-- The service state of a unit. A column is FENCED while the spare is mapped onto it (R465). -/
def State.unitState (s : State) (kind n : Nat) : Nat :=
  if kind = svcColumn then
    if s.boot.colRetired.contains n then unitRetired else if (s.mapped n).isSome then unitFenced else unitIn
  else match unitReg kind n with
    | some a => s.field a 1 0
    | none => unitIn

/-- Sets STATE, and REASON where one is given. -/
def State.setUnit (s : State) (kind n st : Nat) (reason : Option Nat) : State :=
  match unitReg kind n with
  | some a =>
    let s := s.setField a 1 0 st
    match reason with
    | some r => s.setField a 7 4 r
    | none => s
  | none => s

/-- REASON of a unit. -/
def State.unitReason (s : State) (kind n : Nat) : Nat :=
  match unitReg kind n with
  | some a => s.field a 7 4
  | none => if s.unitState kind n = unitIn then 0 else 7

/-- UNIT_STATE (R475). -/
def State.unitEvent (s : State) (kind n : Nat) : State :=
  s.pfEvent 0x011F kind n (s.unitState kind n) (s.unitReason kind n)

/-! ### What is present (R18) -/

/-- The bits of a word from a test. -/
def bitsOf (n : Nat) (f : Nat → Bool) : Nat := ((List.range n).map fun i => 2 ^ i * b2n (f i)).sum

/-- The unit is in service. -/
def State.inService (s : State) (kind n : Nat) : Bool := s.unitState kind n == unitIn

/-- Cluster c is to be shown present. -/
def State.clusterUp (s : State) (c : Nat) : Bool := s.inService svcCluster c && s.inService svcRegion (c / 2) && !s.boot.badDies.contains (c / 6)
/-- Region r with its stack is present while one of its clusters is. -/
def State.regionUp (s : State) (r : Nat) : Bool := (s.clusterUp (2 * r) || s.clusterUp (2 * r + 1)) && s.stackPresent r
def State.bronzeUp (s : State) (u : Nat) : Bool := s.inService svcBronze u && s.inService svcRegion (u / 4) && !s.boot.badDies.contains (u / 12)
/-- Present and populated (R277); a channel that RST_BLOCK holds stays in the table. -/
def State.nandUp (s : State) (n : Nat) : Bool :=
  s.inService svcNand n && (s.field (Reg.NAND_CFG n) 11 4 != 0 || s.flag Reg.RST_BLK_NAND n)

/-- The size table as the repair state gives it (R18); SBD_SIZE_FLASH_GIB is set where the flash is configured or fails. -/
def State.sizeWords (s : State) : List (Nat × Nat) :=
  let brz := bitsOf 48 s.bronzeUp
  [(Reg.SBD_SIZE_FORMAT, 1),
   (Reg.SBD_SIZE_CLUSTERS, bitsOf 24 s.clusterUp),
   (Reg.SBD_SIZE_REGIONS, bitsOf 12 s.regionUp + 2 ^ 16 * (bitsOf 4 (fun d => !s.boot.badDies.contains d) + 16)),
   (Reg.SBD_SIZE_BRONZE, brz % 2 ^ 32), (Reg.SBD_SIZE_BRONZE + 4, brz / 2 ^ 32),
   (Reg.SBD_SIZE_SHAPE, 0x18410841),
   (Reg.SBD_SIZE_TRESTLE_SPARE, bitsOf 24 fun c => s.clusterUp c && (s.mapped c).isNone),
   (Reg.SBD_SIZE_NAND, bitsOf 32 s.nandUp),
   (Reg.SBD_SIZE_PORTS, bitsOf 8 fun p => s.inService svcPort p),
   (Reg.SBD_SIZE_HBM_GIB, ((List.range 12).map fun t => s.field (Reg.HBM_CAPACITY_GIB t) 6 0).sum),
   (Reg.SBD_SIZE_QUEUES, 0x40000), (Reg.SBD_SIZE_FUNCS, 0x800003FF), (Reg.SBD_SIZE_CABINET, 0x20000),
   (Reg.SBD_SIZE_CONTEXTS, 0x10001000)]

/-- Publishes the table and posts SIZE_CHANGED. -/
def State.publishSize (s : State) : State := s.publish s.sizeWords

/-- SIZE_TABLE_PUBLISH (R19, R250): firmware publishes the table and posts SIZE_CHANGED. -/
def execSizeTablePublish (s : State) : Host.Outcome State Fault Refusal :=
  .next (if s.boot.phase == .running then s.publishSize else s)

/-! ### Tasks that lose their unit (R184) -/

/-- The slots whose task `f` holds of, in ascending order. -/
def State.slotsWhere (s : State) (f : Task → Bool) : List Nat := (s.slots.filter fun (_, v) => v.task.any f).map (·.1)

/-- Ends the tasks in slots UNIT_LOST, where they ran or nowhere. -/
def State.loseTasks (s : State) (is : List Nat) : State :=
  is.foldl (fun s i => match (s.slot i).task with
    | some t => s.endTask i 5 0 (if t.st == .dispatched then t.place else 0xFF)
    | none => s) s

/-- R184: first the tasks dispatched to a unit, then the ready tasks that target it. A task whose digest is being appended ends
UNIT_LOST when its entry stands. -/
def State.unitLost (s : State) (ran targets : Task → Bool) : State :=
  let late (t : Task) : Task := if ran t && t.st == .digesting then { t with fin := some (5, 0) } else t
  let s := s.mapTasks late
  let s := s.loseTasks (s.slotsWhere fun t => t.st == .dispatched && ran t)
  s.loseTasks (s.slotsWhere fun t => t.st == .ready && t.fin.isNone && targets t)

/-! ### A lost cluster (R28, R184, R205) -/

/-- The residency slots of a cluster go to ABSENT, with their contents, and RES_LOST reports each (R205). -/
def State.loseResidency (s : State) (c : Nat) : State :=
  let s := (s.cluster c).slots.foldl (fun s (k, r) =>
    if !r.holds then s
    else
      let s := match s.copyOf c k with
        | some x => s.holdObj (if x.desc.srcShare then x.desc.dst else x.desc.src) r.size (-1)
        | none => s
      s.resEvent r 0x010B c k 0 0) s
  let cl := s.cluster c
  { s with
    cl := s.cl.put c { pend := cl.pend }
    spad := s.spad.filter fun e => e.1 / 2 ^ 25 != c
    spadBad := s.spadBad.filter fun l => l / 2 ^ 19 != c }

/-- The Solder operations of a cluster's threads and DMA queues: those not sent are dropped, the answers of the others will be
discarded. -/
def State.sldLost (s : State) (c : Nat) : State :=
  let own (o : SldOp) : Bool := match o.who with
    | .tin m _ => m / 8 == c
    | .dma k _ => k == c
    | _ => false
  let free (p : SldPkt) : SldPkt := if own p.op then { p with op := { p.op with ctx := none, who := .gone } } else p
  let one (d : SldDest) : SldDest := { d with held := d.held.filter (fun o => !own o), pkts := d.pkts.map free }
  { s with sld := { s.sld with
    dests := s.sld.dests.map fun e => (e.1, one e.2), ans := s.sld.ans.filter fun a => !own a.op } }

/-- Every reference that the cluster's threads and DMA queues hold. -/
def State.dropReaders (s : State) (c : Nat) : State :=
  let s := (List.range 128).foldl (fun s i => s.dropReader (.tin (8 * c + i / 16) (i % 16))) s
  (s.dropReader (.dma c 0)).dropReader (.dma c 1)

/-- A cluster is fenced, retired, held or repaired: its tasks end UNIT_LOST, its residencies go and its epoch advances. -/
def State.retireCluster (s : State) (c : Nat) : State :=
  let s := s.unitLost (fun t => t.desc.op.cluster == some c) (fun t => t.desc.op.cluster == some c)
  let s := ((s.loseResidency c).sldLost c).dropReaders c
  ((s.newEpoch c).sterlingSync (c / 2)).vfSettle

/-! ### A lost Bronze unit -/

/-- A Bronze task that can run on unit u only, or on any unit of a region that has no other. -/
def State.bronzeTarget (s : State) (u : Nat) (t : Task) : Bool :=
  match t.desc.op with
  | .bronze r k any _ =>
    if any then r == u / 4 && !(List.range 4).any fun j => 4 * r + j != u && s.bronzePresent (4 * r + j) else 4 * r + k == u
  | _ => false

/-- A Bronze task. -/
def TaskDesc.isBronze (d : TaskDesc) : Bool := match d.op with
  | .bronze _ _ _ _ => true
  | _ => false

/-- A Bronze unit is lost: its tasks end UNIT_LOST. -/
def State.loseBronze (s : State) (u : Nat) : State :=
  let s := s.unitLost (fun t => t.desc.isBronze && t.place == u) (s.bronzeTarget u)
  ({ s with brz := s.brz.del u }).dropReader (.bronze u)

/-! ### Stacks (R468) -/

/-- DESIGN CHOICE: granules move to the present stack with the lowest number that has room (log 29). -/
def State.otherStack (s : State) (t n : Nat) (but : Nat) : Option Nat :=
  s.stackNos.find? fun u => u != t && u != but && decide (n ≤ s.stackFree u)

/-- Shelves of an object that hold granules. -/
def State.heldShelves (s : State) (o : Obj) : Nat :=
  if o.policy == .pinned then o.shelves else ((s.objShelves o).filter fun (_, v) => v.granted).length

/-- Moves an object's granules off stack t, with its contents: their tier-range addresses do not change. -/
def State.moveObj (s : State) (t k : Nat) (o : Obj) : State :=
  let n := s.heldShelves o
  let sole := o.mirror && o.partner == o.stack
  if o.spread then
    let per := ceilDiv 512 (max 1 o.stackNos.length) * n * o.stackNos.countP (· == t)
    match s.otherStack t per t with
    | some u => ((s.dropGrans [(t, per)]).takeGrans [(u, per)]).setObj k { o with stackNos := o.stackNos.map fun x => if x = t then u else x }
    | none => s
  else if o.stack = t then
    match s.otherStack t (512 * n) (if o.mirror then o.partner else t) with
    | some u => ((s.dropGrans [(t, 512 * n)]).takeGrans [(u, 512 * n)]).setObj k { o with stack := u, partner := if sole then u else o.partner }
    | none => s
  else if o.mirror && o.partner == t then
    match s.otherStack t (512 * n) o.stack with
    | some u => ((s.dropGrans [(t, 512 * n)]).takeGrans [(u, 512 * n)]).setObj k { o with partner := u }
    | none => s
  else s

/-- The object has granules on stack t. -/
def Obj.on (o : Obj) (t : Nat) : Bool :=
  o.st != .none && (if o.spread then o.stackNos.contains t else o.stack == t || (o.mirror && o.partner == t))

/-- STACK_MOVE_DONE (R468): the granules of stack t have moved to free granules of other stacks. -/
def execStackMoveDone (t : Nat) (s : State) : Host.Outcome State Fault Refusal :=
  .next (
    if !s.boot.moving.contains t then s
    else
      let s := s.tiers.objs.foldl (fun s (k, o) => if o.on t then s.moveObj t k o else s) s
      ({ s with boot := { s.boot with moving := s.boot.moving.erase t } }).retryCopies.runFills)

/-- Poisons the 64-byte lines of an object that stand on stack t (R286). -/
def State.poisonStack (s : State) (t : Nat) (o : Obj) : State :=
  let lines := ((List.range (o.shelves * 2 ^ 15)).map (o.base / 64 + ·)).filter fun l => o.stackOf (l * 64) == t
  let mark (p : Tab Bool) (l : Nat) : Tab Bool := if (p.look l).isSome then p else p.put l false
  { s with tiers := { s.tiers with poison := lines.foldl mark s.tiers.poison } }

/-- A CACHED shelf whose HBM copy is lost refills into new granules (R269, R285). -/
def State.refill (s : State) (sh : Nat) (o : Obj) : State :=
  let v := s.shelf sh
  if v.granted then
    let s := (s.dropGrans o.cost).bump Reg.DMW_HBM_REFETCH 1
    let s := { s with tiers := { s.tiers with fills := s.tiers.fills.filter (·.shelf != sh) } }
    s.queueFill sh o.fn ((v.readers.map fun r => r.2 % 2 ^ 21 / 4096).headD 0) (!v.readers.isEmpty)
  else s

/-- A MIRROR object whose copy on stack t is lost: the other copy serves as its home, and it degrades (R288). -/
def State.degrade (s : State) (t k : Nat) (o : Obj) : State :=
  let s := if o.stack = t then s.setObj k { o with stack := o.partner, partner := t } else s
  if (s.obj k).st == .ready then s.losePartner k else s

/-- What a stack that can no longer be read does to an object that stands on it. -/
def State.objLost (s : State) (t k : Nat) (o : Obj) : State :=
  match o.policy with
  | .cached =>
    let shs := (s.objShelves o).filter fun (_, v) => v.granted
    let s := shs.foldl (fun s (sh, _) => s.refill sh o) s
    match s.otherStack t 0 t with
    | some u => s.setObj k (if o.spread then { o with stackNos := o.stackNos.map fun x => if x = t then u else x } else { o with stack := u })
    | none => s
  | .pinned =>
    if o.mirror && !o.degraded then s.degrade t k o
    else if o.mirror && o.stack != t then
      let s := { s with tiers := { s.tiers with mcopy := s.tiers.mcopy.filter (·.1 != k) } }
      let o := { o with degraded := false }
      (s.setObj k o).degrade t k o
    else s.poisonStack t o
  | .stream => s

/-- R468: stack t can no longer be read. DESIGN CHOICE: every staged page is staged again, since the staging area is spread over the
stacks (log 17). -/
def State.stackLost (s : State) (t : Nat) : State :=
  let s := s.tiers.objs.foldl (fun s (k, o) => if o.st == .ready && o.on t then s.objLost t k o else s) s
  let again (p : Staged) : Staged := { p with ready := false }
  ({ s with tiers := { s.tiers with staged := s.tiers.staged.map again } }).runFills

/-- Stack t leaves service: its granules move, or are lost with its die. -/
def State.stackOut (s : State) (t : Nat) : State :=
  if !s.stackPresent t then s
  else
    let s := (s.setReg (Reg.HBM_PC_PRESENT t) 0).setReg (Reg.HBM_CAPACITY_GIB t) 0
    if s.boot.badDies.contains (t / 3) then s.stackLost t
    else { s with boot := { s.boot with moving := s.boot.moving.erase t ++ [t] } }

/-- A stack is repacked with pseudo-channel i absent or present (R290, R465). -/
def State.repack (s : State) (t i : Nat) (present : Bool) : State :=
  let s := s.setField (Reg.HBM_PC_PRESENT t) i i (b2n present)
  let g := s.field (Reg.HBM_CAPACITY_GIB t) 6 0
  let s := s.setField (Reg.HBM_CAPACITY_GIB t) 6 0 (if present then g + 3 else g - 3)
  { s with boot := { s.boot with moving := s.boot.moving.erase t ++ [t] } }

/-! ### Effects of a fence (R465) -/

/-- A unit of a fenced region is fenced with it. -/
def State.fenceMember (s : State) (kind n reason : Nat) : State :=
  if s.unitState kind n != unitIn then s
  else
    let s := if kind = svcCluster then s.retireCluster n else s.loseBronze n
    s.setUnit kind n unitFenced (some reason)

/-- The members of a region. -/
def membersOf (r : Nat) : List (Nat × Nat) :=
  [(svcCluster, 2 * r), (svcCluster, 2 * r + 1), (svcBronze, 4 * r), (svcBronze, 4 * r + 1), (svcBronze, 4 * r + 2), (svcBronze, 4 * r + 3)]

/-- What fencing a unit does, before the size table shows it. -/
def State.fenceEffect (s : State) (kind n col reason : Nat) : State :=
  if kind = svcCluster then s.retireCluster n
  else if kind = svcBronze then s.loseBronze n
  else if kind = svcRegion then ((membersOf n).foldl (fun s m => s.fenceMember m.1 m.2 reason) s).stackOut n
  else if kind = svcPc then s.repack (n / 32) (n % 32) false
  else if kind = svcNand then
    if (s.tiers.failed.look (dieKey n 64)).isSome then s
    else { s with tiers := { s.tiers with failed := s.tiers.failed.put (dieKey n 64) false } }
  else if kind = svcPort then s.portOff n
  else
    let s := s.setReg (Reg.TRS_CHK_SPARE n) (col + 256)
    { s with boot := { s.boot with tested := s.boot.tested.filter (· != n) } }

/-- Fences a unit: the effect, the size table, then the events. -/
def State.fence (s : State) (kind n col reason : Nat) : State :=
  let fresh := if kind = svcRegion then (membersOf n).filter fun m => s.inService m.1 m.2 else []
  let s := ((s.fenceEffect kind n col reason).setUnit kind n unitFenced (some reason)).publishSize
  (fresh.foldl (fun s m => s.unitEvent m.1 m.2) s).unitEvent kind n

/-- The test of a unit has ended (R466, R467): 1 PASS, 2 FAIL; 3 abandoned leaves LAST_TEST as it is. -/
def State.endTest (s : State) (kind n result : Nat) : State :=
  match unitReg kind n with
  | none => s
  | some a =>
    let s := s.setUnit kind n unitFenced none
    let s := if result = 3 then s else (s.setField a 3 2 result).setField a 15 8 (min 255 (s.field a 15 8 + 1))
    let s := s.when (kind == svcCluster && result == 1) fun s => { s with boot := { s.boot with tested := s.boot.tested.filter (· != n) ++ [n] } }
    (s.unitEvent kind n).pfEvent 0x0120 kind n result 0

/-- R464, R467: a fault of a unit, once firmware acts on it. -/
def State.faultFence (s : State) (kind n reason : Nat) : State :=
  let st := s.unitState kind n
  if st = unitIn then (s.fence kind n 0 reason).bump Reg.SBD_AUTO_FENCES 1
  else if st = unitTesting then s.endTest kind n 2
  else s

/-- A fault that fences at once where firmware runs, and waits for it otherwise (R471). -/
def State.faultNow (s : State) (kind n reason : Nat) : State :=
  if s.boot.phase == .running then s.faultFence kind n reason
  else { s with boot := { s.boot with fences := s.boot.fences ++ [(kind, n, reason)] } }

end Sys2Proof.Machine
end

