-- ==== Sys2Proof/Machine/Service.lean ====
section
/-! DEFINITION. Faults of units and the service commands (R15, R285, R462 to R468). -/

namespace Sys2Proof.Machine

/-! ### Who may leave service (R466) -/

/-- A registered template names region r through a cluster or a Bronze task (R466). -/
def State.bronzeNamed (s : State) (r : Nat) : Bool :=
  s.tpls.any fun (_, t) => !t.retiring && t.entries.any fun e => match (decodeTask e.desc).op with
    | .bronze r' _ _ _ => r' == r
    | _ => false

/-- Unit u is the last present Bronze unit of its region. -/
def State.lastBronze (s : State) (u : Nat) : Bool := (List.range 4).all fun j => 4 * (u / 4) + j == u || !s.bronzePresent (4 * (u / 4) + j)

/-- Another NAND channel than n is rebuilding (R284). -/
def State.rebuildingOther (s : State) (n : Nat) : Bool := s.tiers.failed.any fun (k, done) => !done && k / 65 != n

/-- The command names a unit that the device has. -/
def State.unitThere (s : State) (kind n col : Nat) : Bool :=
  if kind = svcColumn then decide (n < 24) && decide (col ≤ 128)
  else if kind = svcPc then decide (n < 384) && (s.flag (Reg.HBM_PC_PRESENT (n / 32)) (n % 32) || !s.inService kind n)
  else if kind = svcNand then decide (n < 32) && (s.field (Reg.NAND_CFG n) 11 4 != 0 || !s.inService kind n)
  else (unitReg kind n).isSome

/-- R466: SVC_FENCE is refused with BUSY. -/
def State.fenceBusy (s : State) (kind n : Nat) : Bool :=
  if kind = svcCluster then s.warm n
  else if kind = svcRegion then s.warm (2 * n) || s.warm (2 * n + 1) || s.bronzeNamed n
  else if kind = svcBronze then s.lastBronze n && s.bronzeNamed (n / 4)
  else if kind = svcNand then s.rebuildingOther n
  else false

/-- The mapping that a KIND 6 command names is the one that stands. -/
def State.columnIs (s : State) (kind n col : Nat) : Bool := kind != svcColumn || s.mapped n == some col

/-- SVC_FENCE (R466). -/
def execSvcFence (i : Issuer) (kind n col : Nat) (s : State) : Host.Outcome State Fault Refusal :=
  .next (s.command i 0x0801 fun _ _ =>
    if !s.unitThere kind n col then .error stArgument
    else if !s.inService kind n then if s.columnIs kind n col then .ok (s, []) else .error stBusy
    else if s.fenceBusy kind n then .error stBusy
    else .ok (s.fence kind n col 7, []))

/-- SVC_TEST (R465, R466): accepted on receipt from FENCED. -/
def execSvcTest (i : Issuer) (kind n col : Nat) (s : State) : Host.Outcome State Fault Refusal :=
  .next (s.command i 0x0802 fun _ _ =>
    if !s.unitThere kind n col || kind == svcRegion || kind == svcColumn || s.unitState kind n != unitFenced then .error stArgument
    else .ok ((s.setUnit kind n unitTesting none).unitEvent kind n, []))

/-- R497: the enables that firmware sets for a unit. -/
def State.enableUnit (s : State) (kind n : Nat) : State :=
  if kind = svcCluster then
    let s := s.setField (Reg.TRS_CTRL n) 1 0 3
    let s := (List.range 4).foldl (fun s k => s.setField (Reg.PWT_CTRL n k) 1 0 3) s
    (List.range 8).foldl (fun s m => s.setField (Reg.TIN_CTRL n m) 1 0 3) s
  else if kind = svcBronze then s.setField (Reg.BRZ_CTRL (n / 4) (n % 4)) 1 0 3
  else s

/-- R317: when a Bronze unit is retired or returned to service its BRZ_FAULT is cleared. -/
def State.clearBronzeFault (s : State) (u : Nat) : State := s.setReg (Reg.BRZ_FAULT (u / 4) (u % 4)) 0

/-- What returning a unit does, before the size table shows it (R465). -/
def State.returnEffect (s : State) (kind n : Nat) : State :=
  if kind = svcCluster then (s.newEpoch n).enableUnit kind n
  else if kind = svcBronze then (s.clearBronzeFault n).enableUnit kind n
  else if kind = svcPc then if s.inService svcRegion (n / 32) then s.repack (n / 32) (n % 32) true else s
  else if kind = svcNand then { s with tiers := { s.tiers with failed := s.tiers.failed.del (dieKey n 64) } }
  else if kind = svcColumn then s.setReg (Reg.TRS_CHK_SPARE n) 0
  else s

/-- SVC_RETURN (R466): from FENCED with LAST_TEST = PASS; a column returns once its cluster has passed a test since the mapping. -/
def execSvcReturn (i : Issuer) (kind n col : Nat) (s : State) : Host.Outcome State Fault Refusal :=
  .next (s.command i 0x0803 fun _ _ =>
    if !s.unitThere kind n col || kind == svcRegion || s.unitState kind n != unitFenced || !s.columnIs kind n col then .error stArgument
    else
      let passed := match unitReg kind n with
        | some a => s.field a 3 2 == 1
        | none => s.boot.tested.contains n
      if !passed then .error stBusy
      else
        let s := ((s.returnEffect kind n).setUnit kind n unitIn (some 0)).publishSize
        let s := s.unitEvent kind n
        .ok (if kind = svcCluster then s.grantPending n (s.cluster n).pend else s, []))

/-- SVC_RETIRE (R466, R469): given up until a full reset. -/
def execSvcRetire (i : Issuer) (kind n col : Nat) (s : State) : Host.Outcome State Fault Refusal :=
  .next (s.command i 0x0804 fun _ _ =>
    if !s.unitThere kind n col || s.unitState kind n != unitFenced || !s.columnIs kind n col then .error stArgument
    else
      let s := (s.setUnit kind n unitRetired none).when (kind == svcBronze) (·.clearBronzeFault n)
      let s := s.when (kind == svcColumn) fun s => { s with boot := { s.boot with colRetired := s.boot.colRetired ++ [n] } }
      .ok (s.unitEvent kind n, []))

/-- UNIT_TEST_DONE (R465, R466): a test ends with PASS or FAIL. -/
def execUnitTestDone (kind n : Nat) (pass : Bool) (s : State) : Host.Outcome State Fault Refusal :=
  .next (
    if s.boot.phase != .running || kind == svcColumn || s.unitState kind n != unitTesting then s
    else s.endTest kind n (if pass then 1 else 2))

/-! ### Faults (R462) -/

/-- AUTO_FENCE (R464): firmware takes the first fault that calls for a fence. -/
def execAutoFence (s : State) : Host.Outcome State Fault Refusal :=
  .next (
    match s.boot.fences with
    | [] => s
    | (kind, n, reason) :: rest =>
      if s.boot.phase != .running then s
      else ({ s with boot := { s.boot with fences := rest } }).faultFence kind n reason)

/-- A fault of a cluster that an automatic fence answers, unless AUTO_FENCE is clear (R464). -/
def State.clusterFault (s : State) (c reason : Nat) : State := if s.flag Reg.SBD_SVC_CTRL 0 then s.faultNow svcCluster c reason else s

/-- SRAM_UE (R462): an uncorrectable error in the scratchpad of cluster c, at a 64-byte line, or in a drain buffer or register file of
its engines. The task in `slot` reads it and completes POISON; then the cluster is fenced. -/
def execSramUe (c : Nat) (line : Option Nat) (slot : Nat) (s : State) : Host.Outcome State Fault Refusal :=
  .next (
    if 24 ≤ c then s
    else
      let s : State := match line with
        | some l =>
          let k := (spadKey c 0) / 64 + l % 2 ^ 19
          if s.spadBad.contains k then s else { s with spadBad := s.spadBad ++ [k] }
        | none => s
      let s : State := match (s.slot slot).task with
        | some t => if t.st == .dispatched && t.desc.op.cluster == some c then s.endTask slot 2 0xFF t.place else s
        | none => s
      s.clusterFault c 2)

/-- D2D_LINK_FAILURE (R15, R462): a compute die's link fails; its three regions leave service with what stands in their stacks. -/
def execD2dLinkFailure (d : Nat) (s : State) : Host.Outcome State Fault Refusal :=
  .next (
    if 4 ≤ d || s.boot.badDies.contains d then s
    else
      let s : State := { s with boot := { s.boot with badDies := s.boot.badDies ++ [d] } }
      [3 * d, 3 * d + 1, 3 * d + 2].foldl (fun s r => s.faultNow svcRegion r 4) s)

/-- PORT_FAILURE (R462): a port has lost lock for 1 s, or its uncorrectable FEC rate is too high. -/
def execPortFailure (p : Nat) (s : State) : Host.Outcome State Fault Refusal :=
  .next (if s.portPresent p then s.faultNow svcPort p 6 else s)

/-! ### Uncorrectable errors of HBM (R285) -/

/-- The object at an address stands on stack t, in its first or second copy. -/
def Obj.onStack (o : Obj) (a t : Nat) : Bool := o.stackOf a == t || (o.mirror && o.partner == t)

/-- A 64-byte line becomes poisoned (R286). -/
def State.poisonLine (s : State) (l : Nat) : State :=
  if (s.tiers.poison.look l).isSome then s else { s with tiers := { s.tiers with poison := s.tiers.poison.put l false } }

/-- What an uncorrectable error in the data of an object does. -/
def State.objError (s : State) (a t : Nat) (o : Obj) (both : Bool) : State :=
  let sh := a / 2 ^ 21
  match o.policy with
  | .cached =>
    let v := s.shelf sh
    if v.st == .filling then s.setShelf sh { v with words := v.words.filter (· != a % 2 ^ 21 / 4096) }
    else (s.refill sh o).runFills
  | .stream =>
    let again (p : Staged) : Staged := if p.page = a / 2 ^ 14 then { p with ready := false } else p
    { s with tiers := { s.tiers with staged := s.tiers.staged.map again } }
  | .pinned => if o.mirror && !o.degraded && !both then s.bump (Reg.HBM_MIRROR_FIXES t) 1 else s.poisonLine (a / 64)

/-- A second uncorrectable error of a pseudo-channel within 24 h calls for a fence (R462). -/
def State.notePc (s : State) (pc : Nat) : State :=
  let recent := s.boot.pcErrors.filter fun e => decide (s.clk - e.2 < ticksPerDay)
  let again := recent.any (·.1 == pc)
  let s : State := { s with boot := { s.boot with pcErrors := recent ++ [(pc, s.clk)] } }
  s.when again (·.needFence svcPc pc 3)

end Sys2Proof.Machine
end

