-- ==== Sys2Proof/Machine/Firmware.lean ====
section
/-! DEFINITION. Bundles, firmware starts and restarts (R436 to R444, R470 to R474, R497), and RST_BLOCK (R445). -/

namespace Sys2Proof.Machine

/-! ### Commands that the mask ROM serves too -/

/-- The firmware version that serves: 0 from the ROM (R436). -/
def State.version (s : State) : Nat := if s.boot.phase == .running then (s.boot.bundle.map (·.version)).getD 0 else 0

/-- MBX_VERSION (R414, R420, R436): the protocol versions accepted, 1 and 2, and the firmware version. -/
def execMbxVersion (i : Issuer) (s : State) : Host.Outcome State Fault Refusal :=
  .next (s.command i 0x0002 fun _ _ => .ok (s, [1, 2, s.version]))

/-- Bytes a bundle may have (R437). -/
def bundleMax : Nat := 268435456

/-- The strap's choice (R434). -/
def State.choice (s : State) : Nat := s.field Reg.RST_STRAP 15 12

/-- FW_LOAD_BEGIN (R429, R435, R438, R441): staging of TOTAL bytes with the overlay numbers for choice 0. -/
def execFwLoadBegin (i : Issuer) (total : Nat) (names : List Nat) (s : State) : Host.Outcome State Fault Refusal :=
  .next (s.command i 0x0601 fun _ _ =>
    if s.goodStacks.length < 4 then .error stNotReady
    else if bundleMax < total || (s.choice != 0 && names.any (· != 0xFF)) then .error stArgument
    else .ok ({ s with boot := { s.boot with stage := some { total := total, names := names.take 4 } } }, []))

/-- FW_LOAD_CHUNK (R439): LENGTH bytes at OFFSET, inline in MODE 0, or read from a host window in MODE 1. Version 1 has MODE 0 only
(R421). Where no staging is open TOTAL is 0. -/
def execFwLoadChunk (i : Issuer) (off len mode : Nat) (data : ExtData) (s : State) : Host.Outcome State Fault Refusal :=
  .next (s.command i 0x0602 fun _ version =>
    let most := if mode = 0 then 4048 else 16777216
    if 1 < mode || (version == 1 && mode == 1) || len = 0 || most < len then .error stArgument
    else
      match s.boot.stage, data with
      | some g, .data bs =>
        if g.total < off + len then .error stArgument
        else if bs.length ≠ len then .error (if mode = 0 then stLength else stArgument)
        else .ok ({ s with boot := { s.boot with stage := some { g with data := Mem.write g.data off bs } } }, [])
      | _, _ => .error stArgument)

/-! ### Checks of a bundle (R437, R440) -/

/-- A byte list of zeroBytes. -/
def zeroBytes (bs : List Byte) : Bool := bs.all (· == 0)

/-- Two ranges do not meet. -/
def apart (a b : Nat × Nat × Nat) : Bool := decide (a.2.1 + a.2.2 ≤ b.2.1) || decide (b.2.1 + b.2.2 ≤ a.2.1) || a.2.2 == 0 || b.2.2 == 0

/-- Sections of a list that meet. -/
def meets : List (Nat × Nat × Nat) → Bool
  | [] => false
  | e :: es => es.any (fun f => !apart e f) || meets es

/-- A strap table with its reserved bytes zero. -/
def strapOk (bs : List Byte) : Bool := bs.length == 120 && (List.range 15).all fun k => zeroBytes (slice bs (8 * k + 4) 4)

/-- The records of an overlay section: ITEM, MASK, VALUE (R443). -/
def overlayRecords (bs : List Byte) : List (Nat × Nat × Nat) :=
  (List.range ((bs.length - 32) / 16)).map fun k => (leAt bs (32 + 16 * k), leAt bs (36 + 16 * k), leAt bs (40 + 16 * k))

/-- The form of an overlay section (R443). -/
def overlayOk (bs : List Byte) : Bool :=
  let count := fromLE (slice bs 2 2)
  (nth 0 bs 0).toNat == 1 && decide (1 ≤ count) && decide (count ≤ 1024) && bs.length == 32 + 16 * count && nth 0 bs 1 == 0 &&
    zeroBytes (slice bs 4 12) && (List.range count).all fun k => leAt bs (44 + 16 * k) == 0

/-- Items in ascending order, each once. -/
def itemsRise : List (Nat × Nat) → Bool
  | a :: b :: t => decide (a.1 < b.1) && itemsRise (b :: t)
  | _ => true

/-- FORMAT, NSECT, KEY, the section rules of R437 and the reserved fields. -/
def bundleFormOk (bs : List Byte) : Bool :=
  let total := bs.length
  let n := (nth 0 bs 2).toNat
  let es := bundleEntries bs
  let one (t : Nat) : Bool := es.countP (·.1 == t) == 1
  (nth 0 bs 0).toNat == 1 && decide ((nth 0 bs 1).toNat ≤ 1) && decide (1 ≤ n) && decide (n ≤ 40) && decide (64 + 16 * n + 114 ≤ total) &&
    leAt bs 8 == total && nth 0 bs 3 == 0 && zeroBytes (slice bs 12 52) &&
    (List.range n).all (fun i => leAt bs (76 + 16 * i) == 0) &&
    es.all (fun e => decide (1 ≤ e.1) && decide (e.1 ≤ 5) && decide (e.2.1 + e.2.2 ≤ total - 114)) && !meets es &&
    one 1 && one 2 && one 3 && one 5 && decide (es.countP (·.1 == 4) ≤ 15) &&
    (bundleSections bs 5).all strapOk && (bundleSections bs 4).all overlayOk &&
    (bundleSections bs 3).all fun c => c.length % 8 == 0 && itemsRise (itemsOf c)

/-- The items that the device knows (R442). -/
def knownItem (k : Nat) : Bool :=
  let f := k % 2 ^ 16
  match k / 2 ^ 16 with
  | 1 => f == 1 || f == 2
  | 2 => decide (f < 32)
  | 3 => decide (f < 8) || (decide (0x100 ≤ f) && decide (f < 0x180) && decide (f % 16 < 8))
  | 4 => f == 1 || (decide (0x10 ≤ f) && decide (f < 0x1C))
  | 5 => f == 1 || f == 2
  | 6 => f == 1
  | 7 => decide (f < 24) || (decide (0x100 ≤ f) && decide (f < 0x10C))
  | _ => false

/-- One record of an overlay changes its item. -/
def changeItem (is : List (Nat × Nat)) (r : Nat × Nat × Nat) : List (Nat × Nat) :=
  is.map fun e => if e.1 = r.1 then (e.1, (e.2 &&& (r.2.1 ^^^ (2 ^ 32 - 1))) ||| (r.2.2 &&& r.2.1)) else e

/-- The items that result from a base configuration and overlays, in order (R443). -/
def resultItems (base : List (Nat × Nat)) (overlays : List (List Byte)) : List (Nat × Nat) :=
  overlays.foldl (fun is o => (overlayRecords o).foldl changeItem is) base

/-- The overlay numbers that are named: by the strap table for choices 1 to 15, else by the host (R435). -/
def State.named (s : State) (bs : List Byte) (names : List Nat) : List Nat :=
  let ns := if s.choice = 0 then names else (slice ((bundleSections bs 5).headD []) (8 * (s.choice - 1)) 4).map (·.toNat)
  ns.filter (· != 0xFF)

/-- R440: checks a staged bundle; the first failure gives the status. -/
def State.checkBundle (s : State) (g : Stage) : Except Nat Bundle :=
  let bs := Mem.read g.data 0 g.total
  if !bundleFormOk bs then .error stArgument
  else if !ed448Verify (Config.rootKey (nth 0 bs 1).toNat) (bs.take (g.total - 114)) (bs.drop (g.total - 114)) then .error stAuth
  else
    let os := bundleSections bs 4
    let ns := s.named bs g.names
    let base := itemsOf ((bundleSections bs 3).headD [])
    if ns.any (fun n => decide (os.length ≤ n)) then .error stArgument
    else
      let named := ns.map fun n => nth [] os n
      if base.any (fun e => !knownItem e.1) || named.any (fun o => (overlayRecords o).any fun r => !base.any (·.1 == r.1)) then .error stArgument
      else .ok { bytes := bs, overlays := ns, items := resultItems base named }

/-! ### Configuration (R442) -/

/-- Writes an item to the register or setting that its group names. The watchdog period and PERST_SCOPE are settings of the reset
controller; the items of group 5 stand in the configuration in force. -/
def State.applyItem (s : State) (e : Nat × Nat) : State :=
  let f := e.1 % 2 ^ 16
  let v := e.2
  match e.1 / 2 ^ 16 with
  | 1 => if f = 1 then s.setReg Reg.RST_SCOPE (v % 2) else s.setReg Reg.SBD_WDT_PERIOD_MS v
  | 2 => s.setReg (Reg.NAND_CFG f) (v % 2 ^ 17)
  | 3 => if f < 8 then s.setReg (Reg.ETH_CFG f) v else s.setReg (Reg.ETH_LANE_CFG (f / 16 % 16) (f % 16)) (v % 8)
  | 4 => if f = 1 then s.setReg Reg.BIM_PKG_LIMIT_W (min 1500 (max 800 (v % 2 ^ 11))) else s.setReg (Reg.BIM_REG_FLOOR (f - 0x10)) (v % 4)
  | 6 => s.setReg Reg.BUR_STAGE_MIB v
  | 7 =>
    if v = 0 then s
    else if f < 24 then s.setUnit svcCluster f unitRetired none
    else
      let t := f - 0x100
      let s := (s.setReg (Reg.HBM_PC_PRESENT t) 0).setReg (Reg.HBM_CAPACITY_GIB t) 0
      (List.range 32).foldl (fun s i => s.setUnit svcPc (32 * t + i) unitRetired none) s
  | _ => s

/-- R15, R469: regions of a die whose link failed training are retired, with their units. -/
def State.retireDies (s : State) : State :=
  s.boot.badDies.foldl (fun s d => [3 * d, 3 * d + 1, 3 * d + 2].foldl (fun s r =>
    ((svcRegion, r) :: membersOf r).foldl (fun s m => s.setUnit m.1 m.2 unitRetired (some 4)) s) s) s

/-- R497: the enables of the first start. -/
def State.enableAll (s : State) : State :=
  let s := ((List.range 24).filter s.clusterPresent).foldl (fun s c => s.enableUnit svcCluster c) s
  let s := ((List.range 48).filter s.bronzePresent).foldl (fun s u => s.enableUnit svcBronze u) s
  let s := (s.setField Reg.CAB_CTRL 1 0 3).setField Reg.BIM_CTRL 1 0 3
  (s.setField Reg.BUR_CTRL 2 0 7).setField Reg.DMW_CTRL 0 0 1

/-- R431: Bureau, first enabled after a full reset, restores its objects: READY, of the physical function, OGEN advanced by one. -/
def State.restoreObjs (s : State) : State :=
  s.tiers.saved.foldl (fun s (k, o) =>
    s.setObj k { o with st := .ready, ogen := (o.ogen + 1) % 2 ^ 16, fn := 0, stackNos := s.stackNos, copies := 0, degraded := false })
    { s with tiers := { s.tiers with saved := [] } }

/-- The device identity: the public key of the identity key (R453). -/
def identityKey : List Byte := ed448Public Config.identitySeed

/-- R454: the chain in the card's NAND, ignored where its leaf carries another key. -/
def State.nandCert (s : State) (cert : List Byte) : State :=
  if !cert.isEmpty && s.flag Reg.SEC_STATUS 0 && Config.leafKey cert == identityKey then
    ({ s with boot := { s.boot with cert := cert } }).setField Reg.SEC_STATUS 5 4 1
  else s

/-- Puts a bundle in force and measures it (R440, R458). -/
def State.adopt (s : State) (cause : Nat) (b : Bundle) : State :=
  let s := (s.measureBundle cause b).setField Reg.SEC_STATUS 6 6 b.key
  { s with boot := { s.boot with bundle := some b, imageLost := false } }

/-- The first start of the Sideboard image after a full reset (R431, R440, R454, R497). `gib` is the user flash capacity of the card and
`cert` the certificate chain of its NAND. -/
def State.firstStart (s : State) (b : Bundle) (gib : Nat) (cert : List Byte) : State :=
  let s := s.adopt 0 b
  let s := (b.items.foldl State.applyItem s).retireDies
  let s := (s.setReg Reg.SBD_SIZE_FLASH_GIB (min gib 131072)).publishSize
  let s := (s.enableAll.restoreObjs).nandCert cert
  ({ s with boot := { s.boot with phase := .running } }).takeWaiting

/-! ### Restarts (R470 to R474) -/

/-- Ticks of 600 s. -/
def ticks600 : Nat := 600 * 1000000000

/-- The ticks of a list that lie in the last 600 s. -/
def State.recent (s : State) (ts : List Nat) : List Nat := ts.filter fun t => decide (s.clk - t ≤ ticks600)

/-- The Sideboard resets and starts again: every mailbox reads READY = 0 until the restart is complete. -/
def State.beginRestart (s : State) (r : Restart) : State := { s with boot := { s.boot with phase := .restarting, restart := some r } }

/-- A bundle may start without a full reset: its configuration is the one in force (R473). -/
def State.sameConfig (s : State) (b : Bundle) : Bool := match s.boot.bundle with
  | some c => b.config == c.config
  | none => false

/-- The mask ROM takes mailbox 0 over while a bundle is awaited (R473). DEDUCED from R418: a command in progress there that the ROM does
not serve cannot be completed and is answered RETRY (log 103). -/
def State.romTakes (s : State) : State :=
  let s : State := { s with boot := { s.boot with phase := .awaiting, held := none, stage := none, restart := none } }
  let b := s.box (.mbox 0 0)
  if b.busy && b.header.isNone && !romCommand b.command then s.refuse (.mbox 0 0) stRetry else s.takeWaiting

/-- R473: the Sideboard does not restart. A held bundle starts at once; one whose configuration differs is refused, and the ROM waits for
another. -/
def State.await (s : State) : State :=
  match s.boot.held with
  | some b => if s.sameConfig b then s.beginRestart { cause := 2, bundle := some b } else s.romTakes
  | none => s.romTakes

/-- WATCHDOG_EXPIRY (R470, R473): the third within 600 s, or an image that cannot be read, leads to AWAITING_BUNDLE. -/
def execWatchdogExpiry (s : State) : Host.Outcome State Fault Refusal :=
  .next (
    if s.boot.phase != .running then s
    else
      let ts := s.recent s.boot.expiries ++ [s.clk]
      let s := (s.cause 5).bump Reg.RST_WDT_COUNT 1
      let s : State := { s with boot := { s.boot with expiries := ts } }
      if 3 ≤ ts.length || s.boot.imageLost then s.await else s.beginRestart { cause := 0 })

/-- Every test that a restart abandons (R467). -/
def State.abandonTests (s : State) : State :=
  let units := [(svcCluster, 24), (svcBronze, 48), (svcPc, 384), (svcNand, 32), (svcPort, 8)].flatMap fun e => (List.range e.2).map fun n => (e.1, n)
  units.foldl (fun s u => if s.unitState u.1 u.2 = unitTesting then s.endTest u.1 u.2 3 else s) s

/-- Steps 2 to 4 of R470: the image is measured, firmware rebuilds its tables, the command that asked for the restart is answered and
the commands that waited are taken. -/
def State.finishRestart (s : State) : State :=
  match s.boot.phase, s.boot.restart with
  | .restarting, some r =>
    if r.bundle.isNone && s.boot.imageLost then
      (match r.issuer with
      | some i => s.refuse i stRetry
      | none => s).await
    else
    let s := match r.bundle with
      | some b =>
        let t := s.adopt 2 b
        { t with boot := { t.boot with held := none } }
      | none => s.measure 2 1 0 (match s.boot.bundle with
        | some b => shake256 (b.section_ 1) 64
        | none => s.measured 2)
    let ts := s.recent s.boot.restarts ++ [s.clk]
    let s : State := { s with boot := { s.boot with phase := .running, restart := none, restarts := ts, spdm := { out := s.boot.spdm.out } } }
    let s := (s.bump Reg.SBD_FW_RESTARTS 1).abandonTests
    let s := s.pfEvent 0x0121 r.cause s.version ts.length 0
    let s := match r.issuer with
      | some i => s.answer i stOk 0 []
      | none => s
    s.takeWaiting
  | _, _ => s

/-- FW_RESTART (R474): the reply follows the restart. -/
def execFwRestart (i : Issuer) (mode : Nat) (s : State) : Host.Outcome State Fault Refusal :=
  .next (
    let b := s.box i
    if !(b.busy && b.command == 0x0805 && s.boot.phase == .running) then s
    else
      match mode, s.boot.held with
      | 0, _ => if s.boot.imageLost then (s.refuse i stRetry).await else s.beginRestart { cause := 1, issuer := some i }
      | 1, some h => if s.sameConfig h then s.beginRestart { cause := 2, issuer := some i, bundle := some h } else s.refuse i stArgument
      | 1, none => s.refuse i stBusy
      | _, _ => s.refuse i stArgument)

/-- FW_LOAD_END (R440, R441, R473): checks the staged bundle. From the ROM it starts firmware; while firmware runs it is held; while a
bundle is awaited it starts when its configuration is the one in force. -/
def execFwLoadEnd (i : Issuer) (gib : Nat) (cert : List Byte) (s : State) : Host.Outcome State Fault Refusal :=
  .next (
    let b := s.box i
    let mine := b.busy && b.command == 0x0603 && s.served i
    let clear (s : State) : State := { s with boot := { s.boot with stage := none } }
    if !mine then s
    else
      match s.boot.stage with
      | none => s.refuse i stBusy
      | some g =>
        match s.checkBundle g with
        | .error e => (clear s).refuse i e
        | .ok x =>
          match s.boot.phase with
          | .rom => ((clear s).firstStart x gib cert).answer i stOk 0 []
          | .awaiting =>
            if s.sameConfig x then (clear s).beginRestart { cause := 2, issuer := some i, bundle := some x } else (clear s).refuse i stArgument
          | _ => ({ clear s with boot := { (clear s).boot with held := some x } }).answer i stOk 0 [])

/-- CFG_QUERY (R444): the strap, the overlays, the VALUE of each item and the measurement of the resulting configuration. -/
def execCfgQuery (i : Issuer) (items : List Nat) (s : State) : Host.Outcome State Fault Refusal :=
  .next (s.command i 0x0610 fun _ _ =>
    if 500 < items.length then .error stArgument
    else
      let overlays := match s.boot.bundle with
        | some b => fromLE ((b.overlays ++ List.replicate 4 0xFF).take 4 |>.map (BitVec.ofNat 8))
        | none => 2 ^ 32 - 1
      let m := match s.boot.bundle with
        | some b => b.config
        | none => List.replicate 64 0
      .ok (s, [s.reg Reg.RST_STRAP, overlays] ++ items.map (fun k => (s.item k).getD (2 ^ 32 - 1)) ++ (List.range 16).map fun j => leAt m (4 * j)))

/-! ### Errors of HBM (R285, R472) -/

/-- A structure of the firmware reserve loses both its copies (R472): the image, without which the next restart goes to host reload, or
the replay tables of Solder. -/
def State.reserveLost (s : State) (replay : Bool) : State :=
  if replay then
    if s.flag Reg.SLD_CTRL 0 then
      match execSldCtrlEn 0 s with
      | .next t => match execSldCtrlEn 1 t with
        | .next u => u
        | _ => t
      | _ => s
    else s
  else { s with boot := { s.boot with imageLost := true } }

/-- HBM_UE (R285, R462, R472): the controller of a stack detects an uncorrectable error in pseudo-channel `pc`, at a tier-range address,
or in the firmware reserve: in the image at 2^48, in the replay tables at 2^48 + 1. `both` tells that the other copy fails as well. -/
def execHbmUe (a pc : Nat) (both : Bool) (s : State) : Host.Outcome State Fault Refusal :=
  .next (
    let t := pc / 32
    if !s.flag (Reg.HBM_PC_PRESENT t) (pc % 32) then s
    else if 2 ^ 48 ≤ a then
      let s := (s.bump (Reg.HBM_UE t) 1).notePc pc
      if both then s.reserveLost (a == 2 ^ 48 + 1) else s
    else
      match s.objAt a 1 with
      | some (_, o) => if o.onStack a t then ((s.bump (Reg.HBM_UE t) 1).objError a t o both).notePc pc else s
      | none => s)

/-! ### RST_BLOCK (R445) -/

/-- Registers of a range but for those that `keep` names return to their reset values. -/
def State.resetRegs (s : State) (base n : Nat) (keep : List Nat) : State :=
  { s with regs := dropKeys s.regs fun a => decide (base ≤ a) && decide (a < base + n) && !keep.contains a }

/-- Solder's state is cleared but for the key set, which only a full reset clears (R378), and the commands that Armoire still verifies. -/
def State.clearSolder (s : State) : State :=
  let l : Solder := { keys := s.sld.keys, threshold := s.sld.threshold, quorum := s.sld.quorum }
  (({ s with sld := l }).resetRegs 0x700000 0x10000 [Reg.SLD_QUORUM_CFG]).setField Reg.SLD_STATUS 2 2 (b2n (!s.sld.keys.isEmpty))

/-- What HOLD does to a block. The registers of its block return to their reset values; DEDUCED: not the spare mapping and the grown bad
blocks, which firmware and Bureau keep (log 30). -/
def State.holdBlock (s : State) (b : RstBlock) : State :=
  let s := s.cause 9
  match b with
  | .cluster c => ((s.retireCluster c).resetRegs (0x1000000 + 0x80000 * c) 0x80000 [Reg.TRS_CHK_SPARE c]).setField Reg.RST_BLK_CLUSTER c c 1
  | .bronze u => ((s.loseBronze u).resetRegs (Reg.BRZ_CTRL (u / 4) (u % 4)) 0x1000 []).setReg64 Reg.RST_BLK_BRONZE (s.reg64 Reg.RST_BLK_BRONZE ||| 2 ^ u)
  | .nand n => (s.resetRegs (Reg.NAND_CFG n) 0x10000 [Reg.NAND_BAD_BLOCKS n]).setField Reg.RST_BLK_NAND n n 1
  | .port p => ((s.portOff p).resetRegs (Reg.ETH_CFG p) 0x40000 []).setField Reg.RST_BLK_MISC p p 1
  | _ => s.clearSolder.setField Reg.RST_BLK_MISC 8 8 1

/-- HOLD is refused with BUSY. -/
def State.holdBusy (s : State) : RstBlock → Bool
  | .cluster c => s.warm c
  | .bronze u => s.lastBronze u && s.bronzeNamed (u / 4)
  | .nand n => s.rebuildingOther n
  | _ => false

/-- The block is held. -/
def State.blockHeld (s : State) : RstBlock → Bool
  | .cluster c => s.flag Reg.RST_BLK_CLUSTER c
  | .bronze u => (s.reg64 Reg.RST_BLK_BRONZE).testBit u
  | .nand n => s.flag Reg.RST_BLK_NAND n
  | .port p => s.flag Reg.RST_BLK_MISC p
  | .solder => s.flag Reg.RST_BLK_MISC 8
  | _ => false

/-- A block that RST_BLOCK accepts. -/
def State.blockOk (s : State) : RstBlock → Bool
  | .cluster c => decide (c < 24)
  | .bronze u => decide (u < 48)
  | .nand n => decide (n < 32)
  | .port p => decide (p < 8)
  | .solder => !s.flag Reg.SLD_CTRL 0
  | _ => false

/-- The items that belong to a block. -/
def blockItem (b : RstBlock) (k : Nat) : Bool :=
  match b with
  | .nand n => k == 0x20000 + n
  | .port p => k == 0x30000 + p || k / 16 == (0x30100 + 16 * p) / 16
  | _ => false

/-- What RELEASE does: the block's items are applied again and its enables set (R497). -/
def State.releaseBlock (s : State) (b : RstBlock) : State :=
  let s := match b with
    | .cluster c => s.setField Reg.RST_BLK_CLUSTER c c 0
    | .bronze u => s.setReg64 Reg.RST_BLK_BRONZE (s.reg64 Reg.RST_BLK_BRONZE &&& (2 ^ 48 - 1 - 2 ^ u))
    | .nand n => s.setField Reg.RST_BLK_NAND n n 0
    | .port p => s.setField Reg.RST_BLK_MISC p p 0
    | _ => s.setField Reg.RST_BLK_MISC 8 8 0
  let items := ((s.boot.bundle.map (·.items)).getD []).filter fun e => blockItem b e.1
  let s := items.foldl State.applyItem s
  match b with
  | .cluster c => if s.clusterPresent c then (s.enableUnit svcCluster c).grantPending c (s.cluster c).pend else s
  | .bronze u => if s.bronzePresent u then s.enableUnit svcBronze u else s
  | _ => s

/-- RST_BLOCK (R445): HOLD or RELEASE. -/
def execRstBlock (i : Issuer) (b : RstBlock) (hold : Bool) (s : State) : Host.Outcome State Fault Refusal :=
  .next (s.command i 0x0611 fun _ _ =>
    if !s.blockOk b then .error stArgument
    else if hold then
      if s.blockHeld b then .ok (s, []) else if s.holdBusy b then .error stBusy else .ok (s.holdBlock b, [])
    else if s.blockHeld b then .ok (s.releaseBlock b, []) else .ok (s, []))

end Sys2Proof.Machine
end

