-- ==== Sys2Proof/Machine/Bimetal.lean ====
section
/-! DEFINITION. Bimetal's refill and telemetry (R214 to R216), step changes of regions (R23, R485), gating and waking of clusters
(R26 to R28, R217). -/

namespace Sys2Proof.Machine

/-! ### The refill (R214) -/

/-- The thermal factor φ of a temperature in whole °C. -/
def phiOf (t : Nat) : Nat := if t < 100 then 256 else if t < 105 then (105 - t) * 256 / 5 else 0

/-- The temperature a sensor last reported. -/
def State.sensor (s : State) (i : Nat) : Nat := s.field (Reg.BIM_SENSOR i) 7 0

/-- The hottest sensor's temperature and its index, the lowest on a tie. -/
def State.hottest (s : State) : Nat × Nat :=
  (List.range 64).foldl (fun (b : Nat × Nat) i => if b.1 < s.sensor i then (s.sensor i, i) else b) (s.sensor 0, 0)

/-- The regions present. -/
def State.regionList (s : State) : List Nat := (List.range 12).filter s.regionPresent

/-- Some ready tenant task of a region waits on credit alone. -/
def State.creditWait (s : State) (r : Nat) : Bool :=
  s.slots.any fun (_, v) => match v.task with
    | some t => t.desc.cls != 0 && t.desc.op.region == some r && s.eligibleBut t && !s.energyOk t
    | none => false

/-- The share of each region: Sterling allotments scaled to what there is, then the rest by weight, the remainder one unit at a
time to the lowest numbers (R214 steps 5 and 6). Answers the shares and how many allotments were scaled. -/
def State.shares (s : State) (ten : Nat) : List (Nat × Nat) × Nat :=
  let rs := s.regionList
  let st := rs.filter s.regSterling
  let allot (r : Nat) : Nat := s.field (Reg.BIM_REG_STERLING_ALLOT r) 23 0
  let sum := (st.map allot).sum
  let short := decide (ten < sum)
  let dealt := st.map fun r => (r, if short then allot r * ten / sum else allot r)
  let rest := ten - (dealt.map (·.2)).sum
  let ws := (rs.filter (!s.regSterling ·)).map fun r => (r, s.field (Reg.BIM_REG_WEIGHT r) 7 0)
  let ws := ws.filter (·.2 != 0)
  let total := (ws.map (·.2)).sum
  let base := ws.map fun (r, w) => (r, rest * w / total)
  let left := if ws.isEmpty then 0 else rest - (base.map (·.2)).sum
  (dealt ++ base.zipIdx.map (fun ((r, v), i) => (r, v + b2n (decide (i < left)))), if short then (st.filter fun r => allot r != 0).length else 0)

/-- Refills the buckets of one region (R214 step 7, R215). DEDUCED: the class 0 bucket receives its reservation first, and the
share pays what debt is left (log 33). -/
def State.refillRegion (s : State) (r share : Nat) : State :=
  let res := s.field (Reg.BIM_REG_C0_RESERVE r) 23 0
  let b := min (sext 32 (s.reg (Reg.BIM_REG_C0_BUCKET r)) + Int.ofNat res) (Int.ofNat (1024 * res))
  let pay := if b < 0 then min share (-b).toNat else 0
  let s := s.setReg (Reg.BIM_REG_C0_BUCKET r) (wrap 32 (b + Int.ofNat pay))
  let cap := s.field (Reg.BIM_REG_CAP r) 23 0
  s.setReg (Reg.BIM_REG_CREDIT r) (min cap (s.field (Reg.BIM_REG_CREDIT r) 23 0 + (share - pay)))

/-- The step that R216 moves a region to at this refill, if any, and whether heat is the reason. A region below its floor steps
up at its next permitted change (R219). -/
def State.stepMove (s : State) (r : Nat) : Option (Nat × Bool) :=
  let g := s.region r
  let cur := s.field (Reg.BIM_REG_STEP r) 1 0
  let floor := s.field (Reg.BIM_REG_FLOOR r) 1 0
  let temps := (List.range 4).map fun i => s.sensor (4 * r + i)
  let down := s.reg Reg.BIM_STEP_DOWN_US
  let starved := decide (down < 2 * (g.waited.take down).countP id)
  let hot := temps.any fun t => decide (100 ≤ t)
  if g.target.isSome then none
  else if s.regSterling r then (if cur = 2 then none else some (2, false))
  else if !s.flag Reg.BIM_CTRL 1 then none
  else if floor < cur then some (cur - 1, false)
  else if (hot || starved) && decide (cur < floor) then some (cur + 1, hot)
  else if !hot && !starved && decide (0 < cur) && temps.all (fun t => decide (t < 97)) &&
      !(g.waited.take (s.reg Reg.BIM_STEP_UP_US)).any id then some (cur - 1, false)
  else none

/-- Records whether a region's tasks waited, as far back as the windows of R216 reach. -/
def State.noteWait (s : State) (r : Nat) (w : Bool) : State :=
  let g := s.region r
  s.setRegion r { g with waited := (w :: g.waited).take (max (s.reg Reg.BIM_STEP_DOWN_US) (s.reg Reg.BIM_STEP_UP_US)) }

/-- One region's step decision at a refill. -/
def State.moveRegion (s : State) (r : Nat) : State :=
  match s.stepMove r with
  | some (t, heat) =>
    let s := s.startStep r t
    s.setRegion r { s.region r with heat := (s.region r).heat || heat }
  | none => s

/-- The status that the BMC reads (R493). -/
def State.noteHeat (s : State) : State :=
  let (t, i) := s.hottest
  let phi := phiOf t
  let thr := decide (phi < 256) || s.regionList.any fun r => (s.region r).heat
  let s := (s.setReg Reg.BIM_TEMP_MAX (t + 256 * i)).setReg Reg.BIM_PHI phi
  (s.setReg Reg.BIM_I3C_TEMP (t + 256 * b2n thr + 512 * b2n (s.flag Reg.BIM_I3C_TEMP 9))).setReg Reg.BIM_I3C_LIMIT_W s.pkgLimit

/-- ENERGY_REFILL (R214, R216): the 1 µs refill, with the readings of the sensors that changed. -/
def execEnergyRefill (temps : List (Nat × Nat)) (s : State) : Host.Outcome State Fault Refusal :=
  .next (
    let s := temps.foldl (fun s t => if t.1 < 64 then s.setReg (Reg.BIM_SENSOR t.1) (t.2 % 256) else s) s
    let rs := s.regionList
    let waits := rs.map fun r => (r, s.creditWait r)
    let s := waits.foldl (fun s w => s.noteWait w.1 w.2) s
    let s := s.when (waits.any (·.2)) (·.bump Reg.BIM_CREDIT_WAIT 1)
    let s := s.noteHeat
    let pkg := 10 * s.pkgLimit * phiOf s.hottest.1 * s.field Reg.BIM_LAMBDA 8 0 / 65536
    let res := (rs.map fun r => s.field (Reg.BIM_REG_C0_RESERVE r) 23 0).sum
    let ten := pkg - s.field Reg.BIM_BASE_LOAD 23 0 - res
    let s := s.setReg Reg.BIM_TENANT_POOL (ten % 2 ^ 24)
    let (sh, scaled) := s.shares ten
    let s := s.bump Reg.BIM_STERLING_THROTTLE scaled
    let s := rs.foldl (fun s r => s.refillRegion r (Tab.get 0 (sh.filter (·.1 == r)) r)) s
    let s := rs.foldl (fun s r => s.moveRegion r) s
    [0, 1, 2, 3].foldl (fun s d => s.raiseRail d) s)

/-- TELEMETRY_SAMPLE (R214 step 2, R484): the power over rail selects 0 to 7 that the VRMs report, in whole W; a fixed 45 W is
added for the rails that are not on the bus. -/
def execTelemetrySample (watts : Nat) (s : State) : Host.Outcome State Fault Refusal :=
  .next (
    let p := watts + 45
    let l := s.field Reg.BIM_LAMBDA 8 0
    let lim := s.pkgLimit
    let l' := if lim < p then max 128 (l - 4) else if 100 * p < 97 * lim then min 256 (l + 1) else l
    (s.setReg Reg.BIM_LAMBDA l').setReg Reg.BIM_I3C_POWER_W (p % 2 ^ 11))

/-! ### Step changes (R23, R485) -/

/-- PLL_RETUNE_DONE (R23): the retune of region r's idle PLL path ends; its engines stop at their next boundaries. -/
def execPllRetuneDone (r : Nat) (s : State) : Host.Outcome State Fault Refusal :=
  .next (
    let g := s.region r
    if g.target.isSome && !g.retuned then s.setRegion r { g with retuned := true } else s)

/-- Neither Trestle queue of a cluster is inside a tile (R45). -/
def State.trsStopped (s : State) (c : Nat) : Bool :=
  let t := s.trestle c
  let open_ (q : TrsQueue) : Bool := q.acts.any fun (_, a) => !a.edge && a.tileCyc != 0
  t.rerun.isEmpty && !open_ t.rq && !open_ t.tq

/-- No DMA transfer of a cluster is between a row's write and its acknowledgement. -/
def State.dmaStopped (s : State) (c : Nat) : Bool :=
  let e := s.dmaEng c
  (e.rq ++ e.tq).all fun x => x.unacked == 0 || x.fin

/-- Every engine of a cluster stands at a boundary. -/
def State.enginesStopped (s : State) (c : Nat) : Bool :=
  s.trsStopped c && ((List.range 4).all fun k => [0, 1].all fun i => !(s.pq (4 * c + k) i).inTile) && s.dmaStopped c &&
    (List.range 8).all fun m => (s.core (8 * c + m)).cur.isNone

/-- The switch shows every engine 64 T-cycles of bubbles. -/
def State.switchBubbles (s : State) (c : Nat) : State :=
  if s.clusterOn c then s.setTrestle c { s.trestle c with change := (s.trestle c).change + 64 } else s

/-- REGION_STEP_SWITCH (R23, R485): every engine of the region has stopped and the rail carries the step; the clocks of the
region change together. -/
def execRegionStepSwitch (r : Nat) (s : State) : Host.Outcome State Fault Refusal :=
  .next (
    let g := s.region r
    match g.target with
    | none => s
    | some t =>
      let off (c : Nat) : Bool := !s.clusterOn c || s.enginesStopped c
      if !g.retuned || !s.railCarries r t || !off (2 * r) || !off (2 * r + 1) then s
      else
        let s := (s.setField (Reg.BIM_REG_STEP r) 1 0 t).setField (Reg.BIM_REG_STEP r) 3 3 0
        let s := s.setRegion r { g with target := none, retuned := false, heat := g.heat && t != 0 }
        ((s.switchBubbles (2 * r)).switchBubbles (2 * r + 1)).lowerRail (r / 3))

/-- STEP_CHANGE_ABANDON (R485): the rail was not reported in range 100 µs after the retune ended; the region keeps its step. -/
def execStepChangeAbandon (r : Nat) (s : State) : Host.Outcome State Fault Refusal :=
  .next (
    let g := s.region r
    match g.target with
    | none => s
    | some t =>
      if !g.retuned || s.railCarries r t then s
      else
        ((s.setField (Reg.BIM_REG_STEP r) 3 3 0).setRegion r { g with target := none, retuned := false }).lowerRail (r / 3))

/-- VRM_IN_RANGE (R485): the VRM of die d's VDD_CORE reports the voltage last written within range. -/
def execVrmInRange (d : Nat) (s : State) : Host.Outcome State Fault Refusal :=
  .next (
    let v := s.rail d
    if v.changing then { s with rails := s.rails.put d { v with prev := v.mv, changing := false } } else s)

/-! ### Gating and waking (R26 to R28, R217) -/

/-- A task has been dispatched to the cluster and is not complete. -/
def State.clusterTask (s : State) (c : Nat) : Bool :=
  s.slots.any fun (_, v) => match v.task with
    | some t => (t.st == .dispatched || t.st == .digesting) && t.desc.op.cluster == some c
    | none => false

/-- Some engine queue of the cluster holds work. -/
def State.engineWork (s : State) (c : Nat) : Bool :=
  let t := s.trestle c
  let e := s.dmaEng c
  !t.rq.items.isEmpty || !t.tq.items.isEmpty || !t.flight.isEmpty || !t.rq.convs.isEmpty || !t.tq.convs.isEmpty ||
    !t.tiles.isEmpty || !e.rq.isEmpty || !e.tq.isEmpty ||
    ((List.range 4).any fun k =>
      let u := s.pewter (4 * c + k)
      !u.rq.recs.isEmpty || !u.tq.recs.isEmpty || !u.offers.isEmpty) ||
    (List.range 8).any fun m => (s.core (8 * c + m)).threads.any fun (_, th) => th.st != .free

/-- R217: a ready task, or a committed one with at most one unsatisfied predecessor, targets the cluster. -/
def State.wanted (s : State) (c : Nat) : Bool :=
  s.slots.any fun (_, v) => match v.task with
    | some t => t.desc.op.cluster == some c &&
        (t.st == .ready || (t.st == .waiting && t.committed && decide (t.preds.countP (·.2.isNone) ≤ 1)))
    | none => false

/-- GATING_ENTRY (R26): the cluster has been idle for CAB_RES_IDLE_US; its power gating begins. -/
def execGatingEntry (c : Nat) (s : State) : Host.Outcome State Fault Refusal :=
  .next (
    if !s.clusterOn c || s.clusterTask c || s.engineWork c || s.warm c || s.sterlingOn c || s.wanted c then s
    else s.setCluster c { s.cluster c with power := .entering })

/-- What gating loses: latch counts and waiters, queues, Tin register files and caches, the Trestle's banks (R26). Latch granule
ownership stays (R160). -/
def State.loseCluster (s : State) (c : Nat) : State :=
  let s := (List.range 256).foldl (fun s l => (s.setReg (Reg.LAT_COUNT c l) 0).setLatch c l {}) s
  let t := s.trestle c
  let s := s.setTrestle c { (({} : Trestle)) with acc := t.acc }
  let s := (List.range 4).foldl (fun s k => s.setPewter (4 * c + k) {}) s
  let s := (List.range 8).foldl (fun s m => s.setCore (8 * c + m) { stray := (s.core (8 * c + m)).stray }) s
  s.setDma c {}

/-- GATING_RETENTION_POINT (R26, R27): entry passes its last step; only the shares stay, in retention. -/
def execGatingRetentionPoint (c : Nat) (s : State) : Host.Outcome State Fault Refusal :=
  .next (
    let cl := s.cluster c
    if cl.power == .entering then (s.setCluster c { cl with power := .gated }).loseCluster c else s)

/-- REGION_PLL_STOP (R27): both clusters of the region are gated, it hosts no class 0 object or HARQ mirror, and the driver
permits region sleep, as the command says (log 14). -/
def execRegionPllStop (r : Nat) (permitted : Bool) (s : State) : Host.Outcome State Fault Refusal :=
  .next (
    let gated (c : Nat) : Bool := !s.clusterPresent c || (s.cluster c).power == .gated
    let hosts := s.tiers.objs.any fun (_, o) => o.st != .none && o.class0 &&
      (o.stack == r || (o.mirror && o.partner == r) || (o.spread && o.stackNos.contains r))
    if permitted && s.regionPresent r && gated (2 * r) && gated (2 * r + 1) && !hosts then
      s.setRegion r { s.region r with pllStopped := true }
    else s)

/-- WAKE_REQUEST (R27, R217): a task targets a gated cluster. Before the retention point the request cancels the entry; after it
the full wake runs, and the region's PLL restarts first where it had stopped. -/
def execWakeRequest (c : Nat) (s : State) : Host.Outcome State Fault Refusal :=
  .next (
    let cl := s.cluster c
    if !s.clusterPresent c || !s.wanted c then s
    else
      match cl.power with
      | .entering => s.setCluster c { cl with power := .on }
      | .gated => (s.setCluster c { cl with power := .waking }).setRegion (c / 2) { s.region (c / 2) with pllStopped := false }
      | _ => s)

/-- WAKE_DONE (R27): the wake reaches its last step. -/
def execWakeDone (c : Nat) (s : State) : Host.Outcome State Fault Refusal :=
  .next (
    let cl := s.cluster c
    if cl.power == .waking then (((s.setCluster c { cl with power := .on }).newEpoch c).bump (Reg.CAB_RES_WAKES c) 1) else s)

end Sys2Proof.Machine
end

