-- ==== Sys2Proof/Machine/Sterling.lean ====
section
/-! DEFINITION. Sterling mode, start barriers and step digests (R220 to R245). -/

namespace Sys2Proof.Machine

/-! ### Task counts of a context (R195) -/

/-- Tasks of a context whose state satisfies a test. -/
def State.ctxTasks (s : State) (x : Nat) (p : Task → Bool) : Nat :=
  s.slots.countP fun (_, v) => match v.task with
    | some t => t.desc.ctx == x && p t
    | none => false

/-- CAB_CTX_WAITING. -/
def State.ctxWaiting (s : State) (x : Nat) : Nat := s.ctxTasks x fun t => t.st == .waiting
/-- CAB_CTX_READY. -/
def State.ctxReady (s : State) (x : Nat) : Nat := s.ctxTasks x fun t => t.st == .ready || t.st == .atBarrier || t.st == .ending
/-- CAB_CTX_RUNNING. -/
def State.ctxRunning (s : State) (x : Nat) : Nat := s.ctxTasks x fun t => t.st == .dispatched || t.st == .digesting
/-- The context has no task waiting, ready or running. -/
def State.ctxIdle (s : State) (x : Nat) : Bool := s.ctxWaiting x == 0 && s.ctxReady x == 0 && s.ctxRunning x == 0

/-! ### Entering Sterling mode (R220, R221) -/

/-- CAB_CTX_SET_SEED (R220). -/
def execCabCtxSetSeed (i : Issuer) (x seed : Nat) (s : State) : Host.Outcome State Fault Refusal :=
  .next (s.command i 0x0208 fun fn _ =>
    match s.ctxFor fn x with
    | .error e => .error e
    | .ok c => .ok (s.setCtx x { c with seed := seed % 2 ^ 64 }, []))

/-- The context has a residency slot that is not ABSENT, or a pending request. -/
def State.anyResidency (s : State) (x : Nat) : Bool :=
  s.cl.any fun (_, c) => (c.slots.any fun (_, r) => r.ctx == x && !r.orphan && r.st != .absent && r.st != .orphaned) || c.pend.any (·.ctx == x)

/-- E of a digest ring: a power of two from 64 to 1,048,576 (R221). -/
def ringSizeOk (e : Nat) : Bool := (List.range 15).any fun k => e == 2 ^ (6 + k)

/-- CAB_CTX_STERLING (R221): a context, a seed, a ring address and a ring size. DEDUCED: a context in use answers BUSY, every other
refusal ARGUMENT, and the ring is emptied by writing its header zero (log 15). -/
def execCabCtxSterling (i : Issuer) (x seed ring e : Nat) (s : State) : Host.Outcome State Fault Refusal :=
  .next (s.command i 0x0209 fun fn _ =>
    match s.ctxFor fn x with
    | .error e => .error e
    | .ok c =>
      if c.floor < 2 ∨ !ringSizeOk e ∨ ring % 64 ≠ 0 ∨ spaceOf ring ≠ 0 ∨ !s.pinnedRange c.fn (offOf ring) (64 + 32 * e) then .error stArgument
      else if !s.ctxIdle x || s.anyResidency x then .error stBusy
      else
        let stl : Stl := { st := .held, ring := offOf ring, entries := e }
        .ok ((s.setCtx x { c with seed := seed % 2 ^ 64, stl := stl }).tierWrite (offOf ring) (List.replicate 64 0), []))

/-! ### Start barriers (R241 to R245) -/

/-- R241: every region that hosts the context runs the Sterling profile and is not changing. -/
def State.localReady (s : State) (x : Nat) : Bool :=
  s.cl.all fun (c, cl) =>
    !(cl.slots.any fun (_, r) => r.ctx == x && !r.orphan && (r.st == .resident || r.st == .restoring)) ||
      (s.regSterling (c / 2) && !s.flag (Reg.BIM_REG_STEP (c / 2)) 3)

/-- CAB_STL_ARM (R222, R241): a context and a form, with the time of the INSTANT form. -/
def execCabStlArm (i : Issuer) (x form t : Nat) (s : State) : Host.Outcome State Fault Refusal :=
  .next (s.command i 0x020A fun fn _ =>
    match s.ctxFor fn x with
    | .error e => .error e
    | .ok c =>
      if 2 < form ∨ c.stl.st == .off then .error stArgument
      else if c.stl.st == .armed || (c.stl.st == .running && !s.ctxIdle x) then .error stBusy
      else
        let f : StlForm := if form = 0 then .loc else if form = 1 then .chain else .instant (t % 2 ^ 64)
        let past := form == 2 && reached s.now t
        .ok (s.setCtx x { c with stl := { c.stl with st := .armed, form := f, late := past, pulsed := past } }, []))

/-- The contexts ARMED in the CHAIN form take a start pulse; one that finds its context not ready makes it late (R243). -/
def State.chainPulse (s : State) : State :=
  let hit (x : Nat) (c : Ctx) : Ctx :=
    if c.valid && c.stl.st == .armed && c.stl.form == .chain && !c.stl.pulsed then
      { c with stl := { c.stl with pulsed := true, late := !s.localReady x } }
    else c
  { s with ctxs := s.ctxs.map fun e => (e.1, hit e.1 e.2) }

/-- At a tick, an INSTANT time that is reached and finds its context not ready makes it late (R243). -/
def State.instantTick (s : State) : State :=
  let hit (x : Nat) (c : Ctx) : Ctx :=
    match c.stl.form with
    | .instant t =>
      if c.valid && c.stl.st == .armed && !c.stl.pulsed && reached s.now t then
        { c with stl := { c.stl with pulsed := true, late := !s.localReady x } }
      else c
    | _ => c
  { s with ctxs := s.ctxs.map fun e => (e.1, hit e.1 e.2) }

/-- The chain is enabled, and whether this device is its master. -/
def State.chainOn (s : State) : Bool := s.flag Reg.CAB_STL_CHAIN_CTRL 0
def State.chainMaster (s : State) : Bool := s.flag Reg.CAB_STL_CHAIN_CTRL 1

/-- SYNC_IN_PULSE (R241, R244, R492): a pulse of `width` A-cycles; on the master, `ring` is the time since its calibration pulse
left, in quarter hub N-cycles. A pulse of any other width is ignored. -/
def execSyncInPulse (width ring : Nat) (s : State) : Host.Outcome State Fault Refusal :=
  .next (
    let start := decide (3 ≤ width) && decide (width ≤ 5)
    let cal := decide (7 ≤ width) && decide (width ≤ 9)
    if !s.chainOn then s
    else if s.chainMaster then
      if cal && s.chain.calOut then
        ({ s with chain := { s.chain with calOut := false } }).setReg Reg.CAB_STL_CHAIN_RING (ring % 2 ^ 20 + 2 ^ 31)
      else s
    else if start then
      let s := s.chainPulse
      { s with chain := { s.chain with starts := s.chain.starts + 1 } }
    else if cal then { s with chain := { s.chain with cals := s.chain.cals + 1 } }
    else s)

/-- A write of CAB_STL_CHAIN_GO.GO. -/
def State.chainGo (s : State) : State :=
  if s.chainOn && s.chainMaster then
    let s := s.chainPulse
    { s with chain := { s.chain with starts := s.chain.starts + 1 } }
  else s

/-- CHAIN_GO (R241): the master emits a start pulse, which is also the pulse of its own CHAIN contexts. -/
def execChainGo (s : State) : Host.Outcome State Fault Refusal :=
  .next s.chainGo

/-- A write of CAB_STL_CHAIN_GO.CAL. -/
def State.chainCal (s : State) : State :=
  if s.chainOn && s.chainMaster then { s with chain := { s.chain with cals := s.chain.cals + 1, calOut := true } } else s

/-- CHAIN_CAL (R244): the master emits a calibration pulse and awaits its return. -/
def execChainCal (s : State) : Host.Outcome State Fault Refusal :=
  .next s.chainCal

/-- The resets of R227 on one cluster of a region in the Sterling profile. -/
def State.barrierCluster (s : State) (c : Nat) : State :=
  let s := s.setReg (Reg.TRS_PORT_RR c) 0
  let s := s.setTrestle c { s.trestle c with pushRr := 0 }
  let s := (List.range 4).foldl (fun s k => s.setReg (Reg.PWT_PUSH_RR c k) 0) s
  (List.range 8).foldl (fun s m =>
    let v := s.core (8 * c + m)
    (s.setReg (Reg.TIN_ISSUE_RR c m) 0).setCore (8 * c + m) { v with icache := [], dcache := [] }) s

/-- The resets of R227 and the refresh restart of R226 on one region. -/
def State.barrierRegion (s : State) (r : Nat) : State :=
  let s := ((s.barrierCluster (2 * r)).barrierCluster (2 * r + 1)).setReg (Reg.BIM_REG_CREDIT r) 0
  { s with tiers := { s.tiers with refBank := s.tiers.refBank.del r } }

/-- The start barrier of a context may fire now (R241, R243). -/
def State.mayFire (s : State) (x : Nat) : Bool :=
  let c := s.ctx x
  c.valid && c.stl.st == .armed && s.localReady x &&
    match c.stl.form with
    | .loc => true
    | .chain => c.stl.pulsed
    | .instant t => c.stl.pulsed || reached s.now t

/-- START_BARRIER_FIRE (R242, R243): the barrier of context x fires. -/
def execStartBarrierFire (x : Nat) (s : State) : Host.Outcome State Fault Refusal :=
  .next (
    let c := s.ctx x
    if !s.mayFire x then s
    else
      let s := (s.regionList.filter s.regSterling).foldl (fun s r => s.barrierRegion r) s
      let s := { s with sched := { s.sched with fetchRr := 0, deficit := [], ptr := [] } }
      let s := s.setCtx x { c with stl := { c.stl with st := .running, startT := s.now } }
      let s := (s.bump Reg.CAB_STL_STARTS 1).when c.stl.late (·.bump Reg.CAB_STL_LATE 1)
      s.ctxEvent x 0x010C c.stl.form.code (b2n c.stl.late) 0 0)

/-! ### Digests (R233 to R240) -/

/-- One bit of CRC-64/XZ, reflected. -/
def crcBit (c : W64) : W64 := if c.getLsbD 0 then (c >>> 1) ^^^ 0xC96C5795D7870F42 else c >>> 1

/-- One byte of CRC-64/XZ. -/
def crcByte (c : W64) (b : Byte) : W64 :=
  crcBit (crcBit (crcBit (crcBit (crcBit (crcBit (crcBit (crcBit (c ^^^ b.setWidth 64))))))))

/-- CRC-64/XZ (R236). -/
def crc64 (bs : List Byte) : W64 := bs.foldl crcByte 0xFFFFFFFFFFFFFFFF ^^^ 0xFFFFFFFFFFFFFFFF

/-- The bytes of one merged range of marks, by key (R234): of the share of the task's context on its cluster, or of the tier
range. -/
def State.markBytes (s : State) (t : Task) (key n : Nat) : List Byte :=
  if 2 ^ 63 ≤ key then
    match t.desc.op.cluster with
    | some c => (s.shareRead c t.desc.ctx (key - 2 ^ 63) n).getD []
    | none => []
  else s.tierRead key n

/-- The first poisoned line that a read-back of these ranges meets. -/
def State.markPoison (s : State) (rs : List (Nat × Nat)) : Option Nat :=
  rs.findSome? fun (k, n) => if 2 ^ 63 ≤ k then none else s.poisonIn k n

/-- DIGEST_READBACK (R234 to R236): the digest unit reads back the marked bytes of the task in slot i once each in ascending key
order. Too many ranges end the task with FAULT, CAUSE 4, a poisoned line with POISON. -/
def execDigestReadback (i : Nat) (s : State) : Host.Outcome State Fault Refusal :=
  .next (
    let v := s.slot i
    match v.task with
    | none => s
    | some t =>
      if t.st != .digesting || t.dig.isSome then s
      else
        let m := s.marks.get {} i
        let taken (s : State) (fin : Option (Nat × Nat)) (d : Nat × Nat) : State :=
          let s := { s with marks := s.marks.put i { m with taken := true } }
          s.setSlot i { s.slot i with task := some { t with fin := fin, dig := some d } }
        if (t.fin.getD (0, 0)).1 ≠ 0 then taken s t.fin (0, 0)
        else if m.overflow then taken s (some (1, 4)) (0, 0)
        else
          match s.markPoison m.ranges with
          | some l => taken (s.poisonRead l) (some (2, s.poisonCause l)) (0, 0)
          | none =>
            let bs := m.ranges.flatMap fun (k, n) => s.markBytes t k n
            taken s t.fin ((crc64 bs).toNat, min (2 ^ 32 - 1) bs.length))

/-- A digest entry (R238). -/
def digestWords (t : Task) : List Nat :=
  let (d, n) := t.dig.getD (0, 0)
  let (st, cause) := t.fin.getD (0, 0)
  [t.desc.step, t.desc.handle, d % 2 ^ 32, d / 2 ^ 32, t.desc.taskId % 2 ^ 32, t.desc.taskId / 2 ^ 32, st + 256 * (if st = 0 then 0 else cause), n]

/-- DIGEST_APPEND (R239): the entry of the task in slot i is written to its context's ring and PROD after it; on a full ring the
completion waits and the wait is counted. -/
def execDigestAppend (i : Nat) (s : State) : Host.Outcome State Fault Refusal :=
  .next (
    match (s.slot i).task with
    | none => s
    | some t =>
      if t.st != .digesting || t.dig.isNone then s
      else
        let c := s.ctx t.desc.ctx
        let g := c.stl
        let full := (g.prod + 2 ^ 32 - g.cons) % 2 ^ 32 == g.entries
        let behind := !g.stalled.isEmpty && g.stalled.head? != some i
        let wait : State :=
          if g.stalled.contains i then s
          else s.setCtx t.desc.ctx { c with stl := { g with stalled := g.stalled ++ [i] } }
        if full then wait.when (!g.stalled.contains i) (·.bump Reg.CAB_STL_RING_STALL 1)
        else if behind then wait
        else
          let s := s.tierWrite (g.ring + 64 + 32 * (g.prod % g.entries)) (words (digestWords t))
          let prod := (g.prod + 1) % 2 ^ 32
          let s := s.tierWrite g.ring (toLE 4 prod)
          let s := s.setCtx t.desc.ctx { c with stl := { g with prod := prod, stalled := g.stalled.erase i } }
          s.recordTask i true)

/-- RING_CONS_RECHECK (R239): the device reads CONS of a full ring again; a value newer than PROD is ignored. -/
def execRingConsRecheck (x : Nat) (s : State) : Host.Outcome State Fault Refusal :=
  .next (
    let c := s.ctx x
    let g := c.stl
    let v := fromLE (s.tierRead (g.ring + 32) 4)
    if !c.valid || g.st == .off || g.stalled.isEmpty || seqNewer 32 v g.prod then s
    else s.setCtx x { c with stl := { g with cons := v } })

end Sys2Proof.Machine
end

