-- ==== Sys2Proof/Machine/Clock.lean ====
section
/-! DEFINITION. What an I-clock tick does whatever is commanded (R320, R321): the block idles through one when no command waits. -/

namespace Sys2Proof.Machine

/-- One I-clock tick: the count of ticks and, out of reset, Invar time advance (R320), the timers of R207, R194 and R243 are looked at, and a
restart of firmware that has been asked for completes (R470). -/
def State.tick (s : State) : State :=
  let t := if s.boot.phase == .held then s.time else ((Int.ofNat s.time + Int.ofNat s.incr) % timeWrap).toNat
  ({ s with clk := s.clk + 1, time := t }).blockTick.instantTick.alarmTick.finishRestart

/-- A state with a command put at the front of its queue. -/
def State.push (s : State) (c : Option Instr) : State :=
  match c with
  | some c => { s with pending := c :: s.pending }
  | none => s

end Sys2Proof.Machine
end

