-- ==== Sys2Proof/Machine/Attest.lean ====
section
/-! DEFINITION. Region filters (R450 to R452), the identity (R453 to R455), SPDM (R459) and the attestation report (R460). PRESUMED: the
layouts of SPDM messages and of Data Object Exchange, which R459 names and does not give, are those of DSP0274 1.2 and of the PCIe
specification (log 31). -/

namespace Sys2Proof.Machine

/-! ### Region filters (R451) -/

/-- SEC_REGION_SET (R451): SET, DISABLE or QUERY of a filter. -/
def execSecRegionSet (i : Issuer) (f action flags base limit : Nat) (s : State) : Host.Outcome State Fault Refusal :=
  .next (s.command i 0x0702 fun _ _ =>
    if 63 < f || 2 < action || base % 4096 != 0 || limit % 4096 != 0xFFF || limit < base || 2 ^ 48 ≤ limit then .error stArgument
    else if action = 0 then
      let s := s.setReg (Reg.SEC_RF_CFG f) (1 + 2 * (flags % 4))
      .ok ((s.setReg64 (Reg.SEC_RF_BASE f) base).setReg64 (Reg.SEC_RF_LIMIT f) limit, [])
    else if action = 1 then .ok (s.setField (Reg.SEC_RF_CFG f) 0 0 0, [])
    else
      let two (a : Nat) : List Nat := [s.reg a, s.reg (a + 4)]
      .ok (s, [s.reg (Reg.SEC_RF_CFG f)] ++ two (Reg.SEC_RF_BASE f) ++ two (Reg.SEC_RF_LIMIT f) ++ two (Reg.SEC_RF_VIOL f) ++
        two Reg.SEC_VIOL_TOTAL ++ [s.reg Reg.SEC_VIOL_LAST] ++ two Reg.SEC_VIOL_ADDR))

/-! ### Identity (R453, R455) -/

/-- IDENTITY_DERIVATION (R453): Armoire has the identity key, or has failed after two retries. -/
def execIdentityDerivation (ok : Bool) (s : State) : Host.Outcome State Fault Refusal :=
  .next (
    if !s.flag Reg.SEC_STATUS 1 then s
    else (s.setField Reg.SEC_STATUS 1 1 0).setField Reg.SEC_STATUS 0 0 (b2n ok))

/-- DEBUG_ACCESS (R455): use of the IEEE 1687 network erases the identity key until the next power-on and is logged. -/
def execDebugAccess (s : State) : Host.Outcome State Fault Refusal :=
  .next (
    let s : State := { s with boot := { s.boot with debug := true } }
    let s := s.setField Reg.SEC_STATUS 2 0 4
    s.measure 10 3 1 (List.replicate 64 0))

/-! ### SPDM (R459) -/

/-- Appends a response. -/
def State.spdmOut (s : State) (bs : List Byte) : State := { s with boot := { s.boot with spdm := { s.boot.spdm with out := s.boot.spdm.out ++ [bs] } } }

/-- An ERROR message: code and data. -/
def spdmError (code data : Nat) : List Byte := [0x12, 0x7F, BitVec.ofNat 8 code, BitVec.ofNat 8 data]

def errInvalid : List Byte := spdmError 0x01 0
def errBusy : List Byte := spdmError 0x03 0
def errUnexpected : List Byte := spdmError 0x04 0
def errUnspecified : List Byte := spdmError 0x05 0
def errVersion : List Byte := spdmError 0x41 0

/-- The code of a request. -/
def spdmCode (req : List Byte) : Nat := (nth 0 req 1).toNat

/-- R453, R459: the error that answers any request, if one does: firmware does not run or the identity is not derived yet; there is no
identity; another version than 1.2. GET_VERSION carries version 1.0. -/
def State.spdmRefusal (s : State) (req : List Byte) : Option (List Byte) :=
  if s.boot.phase != .running || s.flag Reg.SEC_STATUS 1 then some errBusy
  else if !s.flag Reg.SEC_STATUS 0 then some errUnspecified
  else if (nth 0 req 0).toNat != (if spdmCode req = 0x84 then 0x10 else 0x12) then some errVersion
  else none

/-- Answers a request of a code: `f` gives the state and the response, or the error that answers. A request of another code is not this
row's; while the package is in reset nothing answers. -/
def State.spdm (s : State) (req : List Byte) (code step : Nat) (f : Except (List Byte) (State × List Byte)) : State :=
  if s.boot.phase == .held || spdmCode req != code then s
  else
    match s.spdmRefusal req with
    | some e => s.spdmOut e
    | none =>
      if s.boot.spdm.step < step then s.spdmOut errUnexpected
      else match f with
        | .ok (t, bs) => t.spdmOut bs
        | .error e => s.spdmOut e

/-- Sets the transcripts. -/
def State.setSpdm (s : State) (f : Spdm → Spdm) : State := { s with boot := { s.boot with spdm := f s.boot.spdm } }

/-- GET_VERSION (R459): 1.2 is the only version. -/
def execGetVersion (req : List Byte) (s : State) : Host.Outcome State Fault Refusal :=
  .next (
    let rsp : List Byte := [0x10, 0x04, 0, 0, 0, 1, 0, 0x12]
    s.spdm req 0x84 0 (.ok (s.setSpdm fun p => { step := 1, vca := req ++ rsp, out := p.out }, rsp)))

/-- CERT_CAP, CHAL_CAP, MEAS_CAP = 2 and SET_CERT_CAP. -/
def spdmFlags : Nat := 2 + 4 + 16 + 2 ^ 19

/-- GET_CAPABILITIES (R459). -/
def execGetCapabilities (req : List Byte) (s : State) : Host.Outcome State Fault Refusal :=
  .next (
    let rsp : List Byte := [0x12, 0x61, 0, 0, 0, BitVec.ofNat 8 (Config.spdmSize 0), 0, 0] ++ toLE 4 spdmFlags ++ toLE 4 (Config.spdmSize 1) ++ toLE 4 (Config.spdmSize 2)
    s.spdm req 0xE1 1 (if req.length ≠ 20 then .error errInvalid
      else .ok (s.setSpdm fun p => { p with step := 2, vca := p.vca ++ req ++ rsp }, rsp)))

/-- TPM_ALG_EDDSA_ED448, TPM_ALG_SHA3_512, DMTF measurements, Raw Bit Stream Only. -/
def spdmAsym : Nat := 2 ^ 11
def spdmHash : Nat := 2 ^ 5

/-- NEGOTIATE_ALGORITHMS (R459): of what the request offers, what the device supports. -/
def execNegotiateAlgorithms (req : List Byte) (s : State) : Host.Outcome State Fault Refusal :=
  .next (
    let offered (o mask n : Nat) : List Byte := toLE n (fromLE (slice req o n) &&& mask)
    let rsp : List Byte := [0x12, 0x63, 0, 0, 36, 0] ++ offered 6 1 1 ++ [0] ++ toLE 4 1 ++ offered 8 spdmAsym 4 ++ offered 12 spdmHash 4 ++ List.replicate 16 0
    s.spdm req 0xE3 2 (if req.length < 32 then .error errInvalid
      else .ok (s.setSpdm fun p => { p with step := 3, vca := p.vca ++ req ++ rsp }, rsp)))

/-- The digest of slot 0's chain, and its absence. -/
def State.certDigest (s : State) : List Byte := if s.boot.cert.isEmpty then [] else sha3_512 s.boot.cert

/-- GET_DIGESTS (R459). -/
def execGetDigests (req : List Byte) (s : State) : Host.Outcome State Fault Refusal :=
  .next (
    let rsp : List Byte := [0x12, 0x01, 0, if s.boot.cert.isEmpty then 0 else 1] ++ s.certDigest
    s.spdm req 0x81 3 (.ok (s.setSpdm fun p => { p with certs := p.certs ++ req ++ rsp, meas := [] }, rsp)))

/-- GET_CERTIFICATE (R459): slot 0 only. -/
def execGetCertificate (req : List Byte) (s : State) : Host.Outcome State Fault Refusal :=
  .next (
    let off := fromLE (slice req 4 2)
    let chain := s.boot.cert
    let part := slice chain off (fromLE (slice req 6 2))
    let rsp : List Byte := [0x12, 0x02, 0, 0] ++ toLE 2 part.length ++ toLE 2 (chain.length - off - part.length) ++ part
    s.spdm req 0x82 3 (if req.length ≠ 8 || (nth 0 req 2).toNat % 16 ≠ 0 || chain.length ≤ off then .error errInvalid
      else .ok (s.setSpdm fun p => { p with certs := p.certs ++ req ++ rsp, meas := [] }, rsp)))

/-- The type of a measurement block. -/
def measureType (k : Nat) : Nat := if k = 1 then 0 else if k = 2 ∨ k = 3 then 1 else if k = 9 ∨ k = 10 then 2 else 3

/-- The measurement block of an index: its current value as a raw bit stream (R459). -/
def State.measureBlock (s : State) (k : Nat) : List Byte :=
  [BitVec.ofNat 8 k, 1, 67, 0, BitVec.ofNat 8 (0x80 + measureType k), 64, 0] ++ s.measured k

/-- The blocks of indices 1 to 10. -/
def State.measureBlocks (s : State) : List Byte := ((List.range 10).map (· + 1)).flatMap s.measureBlock

/-- 32 fresh bytes. -/
def State.nonce32 (s : State) : List Byte := toLE 32 (Config.freeValue s.nonce)

/-- The bytes that a signature of SPDM 1.2 covers: the combined prefix of 100 bytes and the hash of the transcript. -/
def spdmSigned (context : List Byte) (transcript : List Byte) : List Byte :=
  let prefix4 : List Byte := (List.replicate 4 ("dmtf-spdm-v1.2.*".toList.map fun c => BitVec.ofNat 8 c.toNat)).flatten
  prefix4 ++ List.replicate (36 - context.length) 0 ++ context ++ sha3_512 transcript

/-- The bytes of a text. -/
def textBytes (t : String) : List Byte := t.toList.map fun c => BitVec.ofNat 8 c.toNat

/-- CHALLENGE (R459): slot 0, a nonce and the kind of measurement summary. -/
def execChallenge (req : List Byte) (s : State) : Host.Outcome State Fault Refusal :=
  .next (
    let kind := (nth 0 req 3).toNat
    let sum := if kind = 0 then [] else sha3_512 s.measureBlocks
    let rsp : List Byte := [0x12, 0x03, 0, 1] ++ s.certDigest ++ s.nonce32 ++ sum ++ [0, 0]
    let sig := ed448Sign Config.identitySeed (spdmSigned (textBytes "responder-challenge_auth signing") (s.boot.spdm.vca ++ s.boot.spdm.certs ++ req ++ rsp))
    s.spdm req 0x83 3 (if req.length ≠ 36 || (nth 0 req 2).toNat ≠ 0 || s.boot.cert.isEmpty || !(kind == 0 || kind == 1 || kind == 0xFF) then .error errInvalid
      else .ok ((s.setSpdm fun p => { p with certs := [], meas := [] }).tickNonce, rsp ++ sig)))

/-- GET_MEASUREMENTS (R459): the number of blocks, one block or all, signed where the request asks for it. -/
def execGetMeasurements (req : List Byte) (s : State) : Host.Outcome State Fault Refusal :=
  .next (
    let signed := (nth 0 req 2).toNat % 2 = 1
    let op := (nth 0 req 3).toNat
    let ks : List Nat := if op = 0 then [] else if op = 0xFF then (List.range 10).map (· + 1) else [op]
    let blocks := ks.flatMap s.measureBlock
    let rsp : List Byte := [0x12, 0x60, if op = 0 then 10 else 0, 0, BitVec.ofNat 8 ks.length] ++ toLE 3 blocks.length ++ blocks ++ s.nonce32 ++ [0, 0]
    let meas := s.boot.spdm.meas ++ req ++ rsp
    let sig := ed448Sign Config.identitySeed (spdmSigned (textBytes "responder-measurements signing") (s.boot.spdm.vca ++ meas))
    s.spdm req 0xE0 3 (
      if req.length ≠ (if signed then 37 else 4) || (signed && (nth 0 req 36).toNat % 16 != 0) || (op != 0xFF && decide (10 < op)) then .error errInvalid
      else if signed then .ok ((s.setSpdm fun p => { p with meas := [] }).tickNonce, rsp ++ sig)
      else .ok ((s.setSpdm fun p => { p with meas := meas }).tickNonce, rsp)))

/-- SET_CERTIFICATE (R454): slot 0, empty or filled by the host before, and a leaf that carries the identity key. -/
def execSetCertificate (req : List Byte) (s : State) : Host.Outcome State Fault Refusal :=
  .next (
    let chain := req.drop 4
    let slot := (nth 0 req 2).toNat % 16
    s.spdm req 0xEE 3 (
      if slot ≠ 0 || !(s.boot.cert.isEmpty || s.field Reg.SEC_STATUS 5 4 == 2) || chain.isEmpty || Config.leafKey chain != identityKey then .error errInvalid
      else .ok (({ s with boot := { s.boot with cert := chain } }).setField Reg.SEC_STATUS 5 4 2, [0x12, 0x6E, 0, 0])))

/-- The request codes of R459. -/
def spdmSupported : List Nat := [0x84, 0xE1, 0xE3, 0x81, 0x82, 0x83, 0xE0, 0xEE]

/-- SPDM_UNSUPPORTED_REQUEST (R459). -/
def execSpdmUnsupportedRequest (req : List Byte) (s : State) : Host.Outcome State Fault Refusal :=
  .next (if spdmSupported.contains (spdmCode req) then s else s.spdm req (spdmCode req) 0 (.error (spdmError 0x07 (spdmCode req))))

/-- DOE_DISCOVERY (R459): the object types behind an index: discovery and CMA-SPDM, both of vendor 0x0001. -/
def execDoeDiscovery (index : Nat) (s : State) : Host.Outcome State Fault Refusal :=
  .next (
    if s.boot.phase != .running then s
    else s.spdmOut (match index with
      | 0 => [0x01, 0, 0, 1]
      | 1 => [0x01, 0, 1, 0]
      | _ => [0xFF, 0xFF, 0, 0]))

/-! ### The attestation report (R460) -/

/-- The report but for its signature. -/
def State.reportBytes (s : State) (fn : Nat) (nonce : List Byte) (first count : Nat) : List Byte :=
  let total := s.boot.log.length
  let first := min first total
  let es := (s.boot.log.drop first).take count
  let st := s.reg Reg.SEC_STATUS
  let flags := bits st 0 0 + 2 * bits st 2 2 + 4 * bits st 3 3 + 8 * b2n (!s.sld.keys.isEmpty) + 16 * bits st 5 4 + 64 * bits st 6 6
  let overlays := ((((s.boot.bundle.map Bundle.overlays).getD []).map (BitVec.ofNat 8)) ++ List.replicate 4 0xFF).take 4
  toLE 1 1 ++ toLE 1 es.length ++ toLE 2 (768 + 72 * es.length + 114) ++ toLE 4 s.version ++ toLE 2 fn ++ toLE 2 (s.func fn).gen ++ toLE 4 flags ++
    (nonce ++ List.replicate 64 0).take 64 ++ toLE 8 s.now ++ toLE 8 (s.reg64 Reg.RST_FULL_COUNT) ++ toLE 4 (s.reg Reg.RST_CAUSE) ++
    toLE 4 (s.reg Reg.RST_STRAP) ++ overlays ++ (identityKey ++ List.replicate 57 0).take 57 ++ [0, 0, 0] ++ s.boot.chain ++ toLE 2 total ++ toLE 1 first ++
    List.replicate 21 0 ++ ((List.range 8).flatMap fun k => s.measured (k + 1)) ++ es.flatMap LogEntry.bytes

/-- The words of a reply that holds bytes, the last padded with zeros. -/
def wordsOfBytes (bs : List Byte) : List Nat := (List.range (ceilDiv bs.length 4)).map (word32At bs)

/-- ATT_REPORT (R460): the signed report. -/
def execAttReport (i : Issuer) (nonce : List Byte) (first count : Nat) (s : State) : Host.Outcome State Fault Refusal :=
  .next (s.command i 0x0701 fun fn _ =>
    if 40 < count then .error stArgument
    else if !s.flag Reg.SEC_STATUS 0 then .error stAuth
    else
      let r := s.reportBytes fn nonce first count
      .ok (s, wordsOfBytes (r ++ ed448Sign Config.identitySeed r)))

end Sys2Proof.Machine
end

