-- ==== Sys2Proof/Machine/Bronze.lean ====
section
/-! DEFINITION. Bronze units (R305 to R310). What TS 38.212 computes for a job is a free value of Config: rate-matching positions,
decoder and encoder results, CRC outcomes and iterations. -/

namespace Sys2Proof.Machine

/-- The fields of a job descriptor (R305). -/
structure BrzDesc where
  op : Nat
  bg : Nat
  harq : Bool
  new : Bool
  flushOk : Bool
  maxIter : Nat
  et : Bool
  qm : Nat
  zc : Nat
  c : Nat
  a : Nat
  crc : Nat
  eLo : Nat
  eHi : Nat
  nLo : Nat
  rnti : Nat
  ncb : Nat
  stride : Nat
  inp : Nat
  out : Nat
  buf : Nat
  stat : Nat
  deriving DecidableEq, Repr

/-- Decodes the words J0 to J15. -/
def decodeBrz (ws : List Nat) : BrzDesc :=
  let j (i : Nat) : Nat := wd ws i
  { op := bits (j 0) 3 0, bg := bits (j 0) 4 4, harq := bit (j 0) 5, new := bit (j 0) 6, flushOk := bit (j 0) 7
    maxIter := bits (j 0) 11 8, et := bit (j 0) 12, qm := bits (j 0) 19 16, zc := bits (j 1) 8 0, c := bits (j 1) 24 16
    a := bits (j 2) 20 0, crc := bits (j 2) 25 24, eLo := bits (j 3) 19 0, eHi := bits (j 4) 19 0, nLo := bits (j 5) 8 0
    rnti := bits (j 5) 31 16, ncb := bits (j 6) 19 0, stride := bits (j 7) 23 0, inp := bits (wd64 ws 8) 56 0
    out := bits (wd64 ws 10) 56 0, buf := bits (wd64 ws 12) 56 0, stat := bits (wd64 ws 14) 56 0 }

def BrzDesc.polar (d : BrzDesc) : Bool := d.op == 2 || d.op == 3
def BrzDesc.dec (d : BrzDesc) : Bool := d.op == 0 || d.op == 2

/-- A reserved bit of the descriptor is set (R305). -/
def brzResv (ws : List Nat) : Bool :=
  let d := decodeBrz ws
  maskedOut ws [0x000F7FFF, 0x01FF01FF, 0x031FFFFF, 0x000FFFFF, 0x000FFFFF, 0xFFFF01FF, 0x000FFFFF, 0x00FFFFFF,
    0xFFFFFFFF, 0x01FFFFFF, 0xFFFFFFFF, 0x01FFFFFF, 0xFFFFFFFF, 0x01FFFFFF, 0xFFFFFFFF, 0x01FFFFFF] ||
    (d.polar && d.zc != 0) || (!(d.polar && d.crc == 0) && d.rnti != 0)

/-- The circular buffer of a code block (R305). -/
def BrzDesc.ncbOf (d : BrzDesc) : Nat :=
  if d.polar then d.ncb else if d.ncb = 0 then (if d.bg = 0 then 66 else 50) * d.zc else d.ncb

/-- Rate-matched bits of block r. -/
def BrzDesc.eOf (d : BrzDesc) (r : Nat) : Nat := if d.polar || r < d.nLo then d.eLo else d.eHi
/-- Rate-matched bits of all blocks before block r. -/
def BrzDesc.eBefore (d : BrzDesc) (r : Nat) : Nat := ((List.range r).map d.eOf).sum
/-- Bytes read at IN_ADDR and written at OUT_ADDR. -/
def BrzDesc.inBytes (d : BrzDesc) : Nat := if d.dec then d.eBefore d.c else ceilDiv d.a 8
def BrzDesc.outBytes (d : BrzDesc) : Nat := if d.dec then ceilDiv d.a 8 else ceilDiv (d.eBefore d.c) 8

/-- A mother length of a polar code. -/
def polarLength (n : Nat) : Bool := [32, 64, 128, 256, 512, 1024].contains n

/-- The job faults as RANGE before it runs (R305, R307). -/
def BrzDesc.bad (d : BrzDesc) (ws : List Nat) (cls : Nat) : Bool :=
  brzResv ws || decide (3 < d.op) || d.crc == 3 || !([1, 2, 4, 6, 8].contains d.qm) ||
    (if d.polar then d.c != 1 || decide (d.a < 12) || decide (140 < d.a) || !polarLength d.ncb
      else d.c == 0 || decide (256 < d.c) || d.zc != Config.impliedZc d.bg d.a d.crc d.c ||
        decide ((if d.bg = 0 then 66 else 50) * d.zc < d.ncb)) ||
    (d.op == 0 && d.maxIter == 0) || (d.op == 0 && d.harq && (d.stride % 64 != 0 || decide (d.stride < d.ncbOf))) ||
    (decide (2 ≤ cls) && (d.c != 1 || decide (8 < d.maxIter) || d.harq))

/-- F-cycles that a job holds the decoder or encoder (R308), `iters` iterations per block in order. -/
def BrzDesc.cycles (d : BrzDesc) (iters : List Nat) : Nat :=
  let l := if d.bg = 0 then 46 else 42
  match d.op with
  | 0 => (iters.map fun i => 272 + i * l * ceilDiv d.zc 96).sum
  | 1 => d.c * (139 + l * ceilDiv d.zc 48)
  | 2 => 128 + 3 * d.ncb / 2
  | _ => 32 + d.ncb / 8

/-! ### Runs -/

def BrzUnit.run (b : BrzUnit) (q : Nat) : Option BrzRun := if q = 0 then b.rrun else b.trun
def BrzUnit.setRun (b : BrzUnit) (q : Nat) (r : Option BrzRun) : BrzUnit := if q = 0 then { b with rrun := r } else { b with trun := r }

/-- A job of a unit's queue ends. -/
def State.brzEnd (s : State) (u q status cause : Nat) : State :=
  let b := s.bronze u
  match b.run q with
  | none => s
  | some r => (s.setBronze u (b.setRun q none)).finish r.job.task status cause u

/-- A job faults (R307). -/
def State.brzFault (s : State) (u q cause : Nat) : State :=
  match (s.bronze u).run q with
  | none => s
  | some r =>
    let s := s.setReg (Reg.BRZ_FAULT (u / 4) (u % 4)) (1 + 2 * cause + 16 * q)
    (s.setReg64 (Reg.BRZ_FAULT_JOB (u / 4) (u % 4)) r.job.job).brzEnd u q 1 cause

/-- A job ends with POISON at a line (R286, R287). -/
def State.brzPoison (s : State) (u q l : Nat) : State := (s.poisonRead l).brzEnd u q 2 (s.poisonCause l)

/-- A job's right to bytes of the tier range; Bronze reaches no other space (log 19). -/
def State.brzRight (s : State) (t : TaskId) (a n : Nat) (write : Bool) : Bool :=
  n == 0 || (spaceOf a == 0 && s.tierRight t.ctx t.cls (offOf a) n write)

/-- A job that has been taken reads its descriptor; ADDR and RANGE end it before it runs. -/
def State.brzBegin (s : State) (u q : Nat) (job : BrzJob) : State :=
  let t := job.task
  let a := offOf job.job
  let s := s.setBronze u { (s.bronze u).setRun q (some { job := job }) with serving := q }
  if !(spaceOf job.job == 0 && s.pinnedRange (s.ctx t.ctx).fn a 64) then s.brzFault u q 2
  else
    match s.poisonIn a 64 with
    | some l => s.brzPoison u q l
    | none =>
      let (s, bs) := s.worldRead whoBronze t.ctx a 64
      let ws := wordsOf 16 bs
      let d := decodeBrz ws
      if d.bad ws t.cls then s.brzFault u q 4
      else if !s.brzRight t d.inp d.inBytes false || !s.brzRight t d.out d.outBytes true || !s.brzRight t d.stat 64 true ||
          (d.op == 0 && d.harq && !s.brzRight t d.buf (d.c * d.stride) true) then s.brzFault u q 2
      else s.setBronze u ((s.bronze u).setRun q (some { job := job, words := ws }))

/-- BRONZE_JOB_START (R307): at a job boundary the unit takes the radio queue first. A tenant job starts only while no radio job
of an enabled queue waits and none runs. -/
def execBronzeJobStart (u : Nat) (s : State) : Host.Outcome State Fault Refusal :=
  .next (
    let b := s.bronze u
    let ctl := Reg.BRZ_CTRL (u / 4) (u % 4)
    if !s.bronzePresent u || s.flag ctl 2 then s
    else
      match (if s.flag ctl 0 then b.rq else []), b.tq with
      | j :: rest, _ =>
        if b.rrun.isNone then (s.setBronze u { b with rq := rest }).brzBegin u 0 j else s
      | [], j :: rest =>
        if b.rrun.isNone && b.trun.isNone && s.flag ctl 1 then (s.setBronze u { b with tq := rest }).brzBegin u 1 j else s
      | [], [] => s)

/-- BRONZE_INPUT_FETCHED (R307): the input of the job of queue q is staged, and the job takes the decoder or encoder once it is
free. An input that is not in HBM yet stalls the fetch. -/
def execBronzeInputFetched (u q : Nat) (s : State) : Host.Outcome State Fault Refusal :=
  .next (
    let b := s.bronze u
    match b.run q with
    | none => s
    | some r =>
      let d := decodeBrz r.words
      let busy := match b.run (1 - q) with
        | some o => o.stage == .computing
        | none => false
      if r.stage != .fetching || busy then s
      else if d.inBytes != 0 && !s.dataReady (offOf d.inp) d.inBytes then s
      else
        match s.poisonIn (offOf d.inp) d.inBytes with
        | some l => s.brzPoison u q l
        | none =>
          let (s, bs) := s.worldRead whoBronze r.job.task.ctx (offOf d.inp) d.inBytes
          s.setBronze u ((s.bronze u).setRun q (some { r with stage := .computing, input := bs })))

/-! ### Soft buffers (R309, R310) -/

/-- The received values of a block placed into a buffer: the first value at a position of new data is written as it is, any other
is added and saturated to ±127. -/
def placeLlr (ws : List Nat) (r ncb : Nat) (new : Bool) : List Byte → Nat → List Nat → Tab Byte → Tab Byte
  | [], _, _, m => m
  | b :: bs, i, seen, m =>
    let p := Config.ratePos ws r i % max 1 ncb
    let v : Byte :=
      if new && !seen.contains p then b
      else BitVec.ofInt 8 (max (-127) (min 127 ((Tab.get (0 : Byte) m p).toInt + b.toInt)))
    placeLlr ws r ncb new bs (i + 1) (p :: seen) (Tab.set 0 m p v)

/-- The circular buffer after a block's values have been received into `old`. -/
def dematch (ws : List Nat) (r ncb : Nat) (new : Bool) (llr old : List Byte) : List Byte :=
  let m0 : Tab Byte := if new then [] else (old.take ncb).zipIdx.foldl (fun m e => Tab.set 0 m e.2 e.1) []
  let m := placeLlr ws r ncb new llr 0 [] m0
  (List.range ncb).map fun i => Tab.get 0 m i

/-- The soft values of the blocks so far, with the soft buffers written, blocks flushed, and the poisoned line that ends the
job. -/
structure SoftAcc where
  st : State
  soft : List (List Byte)
  flushed : Nat
  stop : Option Nat

/-- One code block's soft values (R309, R310). -/
def softBlock (t : TaskId) (ws : List Nat) (input : List Byte) (acc : SoftAcc) (r : Nat) : SoftAcc :=
  if acc.stop.isSome then acc
  else
    let d := decodeBrz ws
    let llr := (input.drop (d.eBefore r)).take (d.eOf r)
    let a := offOf d.buf + r * d.stride
    let useBuf := d.op == 0 && d.harq
    let bad := if useBuf && !d.new then acc.st.poisonIn a d.stride else none
    if bad.isSome && !d.flushOk then { acc with stop := bad }
    else
      let new := !useBuf || d.new || bad.isSome
      let (s, old) := if new then (acc.st, []) else acc.st.worldRead whoBronze t.ctx a d.stride
      let v := dematch ws r d.ncbOf new llr old
      let s := if useBuf then s.worldWrite whoBronze t.ctx a (v ++ List.replicate (d.stride - v.length) 0) else s
      { st := s, soft := acc.soft ++ [v], flushed := acc.flushed + b2n bad.isSome, stop := none }

/-- A free value of bytes cut to a length, with zeros where it is short. -/
def fitBytes (n : Nat) (bs : List Byte) : List Byte := (bs ++ List.replicate n 0).take n

/-- Packs Bools into a number, the first as bit 0. -/
def packBits : List Bool → Nat
  | [] => 0
  | b :: bs => b2n b + 2 * packBits bs

/-- The status record (R306). -/
def brzStatus (tbOk flushed : Bool) (iters failed : Nat) (map : Nat) : List Byte :=
  words ([b2n tbOk + 2 * b2n flushed + 256 * iters + 2 ^ 16 * failed, 0] ++ ((List.range 8).map fun i => map / 2 ^ (32 * i) % 2 ^ 32) ++
    List.replicate 6 0)

/-- Iterations of block r: all of MAX_ITER, or with early stop a free value from 1 to it. -/
def BrzDesc.iters (d : BrzDesc) (ws : List Nat) (soft : List (List Byte)) (r : Nat) : Nat :=
  if d.op ≠ 0 then 0 else if d.et then max 1 (min d.maxIter (Config.brzIters ws soft r)) else d.maxIter

/-- Counters of a unit after a job. -/
def State.brzCount (s : State) (u blocks failed iters cyc : Nat) : State :=
  let r := u / 4
  let k := u % 4
  (((s.bump (Reg.BRZ_BLOCKS r k) blocks).bump (Reg.BRZ_CRC_FAIL r k) failed).bump (Reg.BRZ_ITERS r k) iters).bump (Reg.BRZ_BUSY_CYC r k) cyc

/-- The outputs of a decode: passes, TB_OK, iterations and payload (R306). -/
def State.brzDecoded (s : State) (u : Nat) (t : TaskId) (ws : List Nat) (soft : List (List Byte)) (flushed : Nat) : State :=
  let d := decodeBrz ws
  let pass := (List.range d.c).map (Config.brzPass ws soft)
  let tb := pass.all id && (d.c == 1 || d.crc == 2 || Config.brzTbCrc ws soft)
  let its := (List.range d.c).map (d.iters ws soft)
  let failed := pass.countP (!·)
  let s := s.worldWrite whoBronze t.ctx (offOf d.out) (fitBytes d.outBytes (Config.brzDecode ws soft))
  let s := s.worldWrite whoBronze t.ctx (offOf d.stat) (brzStatus tb (decide (0 < flushed)) (its.foldl max 0) failed (packBits pass))
  s.brzCount u d.c failed its.sum (d.cycles its)

/-- The outputs of an encode. -/
def State.brzEncoded (s : State) (u : Nat) (t : TaskId) (ws : List Nat) (input : List Byte) : State :=
  let d := decodeBrz ws
  let s := s.worldWrite whoBronze t.ctx (offOf d.out) (fitBytes d.outBytes (Config.brzEncode ws input))
  let s := s.worldWrite whoBronze t.ctx (offOf d.stat) (brzStatus true false 0 0 (2 ^ d.c - 1))
  s.brzCount u d.c 0 0 (d.cycles [])

/-- BRONZE_COMPUTE_DONE (R306 to R310): the job of queue q releases the decoder or encoder; soft buffers, outputs and the status
record are written. -/
def execBronzeComputeDone (u q : Nat) (s : State) : Host.Outcome State Fault Refusal :=
  .next (
    match (s.bronze u).run q with
    | none => s
    | some r =>
      if r.stage != .computing then s
      else
        let t := r.job.task
        let d := decodeBrz r.words
        let s := s.setBronze u ((s.bronze u).setRun q (some { r with stage := .writing }))
        if !d.dec then s.brzEncoded u t r.words r.input
        else
          let acc := (List.range d.c).foldl (softBlock t r.words r.input) { st := s, soft := [], flushed := 0, stop := none }
          let s := acc.st
          let s := if acc.flushed = 0 then s
            else (s.bump (Reg.BRZ_FLUSH (u / 4) (u % 4)) acc.flushed).pfEvent 0x0117 u t.handle acc.flushed 0
          match acc.stop with
          | some l => s.brzPoison u q l
          | none => s.brzDecoded u t r.words acc.soft acc.flushed)

/-- BRONZE_JOB_DONE (R306): every output, soft-buffer write and status record is acknowledged. -/
def execBronzeJobDone (u q : Nat) (s : State) : Host.Outcome State Fault Refusal :=
  .next (
    match (s.bronze u).run q with
    | some r => if r.stage == .writing then s.brzEnd u q 0 0 else s
    | none => s)

end Sys2Proof.Machine
end

