-- ==== Sys2Proof/Machine/RegView.lean ====
section
/-! DEFINITION. What a read of a register returns (R3 to R5): its word in the register file, or the field values that other state
holds. -/

namespace Sys2Proof.Machine

/-- Instance number of an address in blocks of `stride` bytes from `base`, and the offset in its block. -/
def blk (base stride a : Nat) : Nat × Nat := ((a - base) / stride, (a - base) % stride)

/-- A value held at the top of a signed 32-bit field. -/
def sat32 (x : Int) : Nat := wrap 32 (satS 32 x)

/-! ### Presence (R4) -/

/-- The register block at an address belongs to an instance that the size table does not mark absent. -/
def State.blockPresent (s : State) (a : Nat) : Bool :=
  if a < 0x220000 then true
  else if a < 0x230000 then s.clusterPresent (blk 0x220000 0x100 a).1 || decide (24 ≤ (blk 0x220000 0x100 a).1)
  else if decide (0x301000 ≤ a) && decide (a < 0x301C00) then s.regionPresent (blk 0x301000 0x100 a).1
  else if decide (0x800000 ≤ a) && decide (a < 0xA00000) then s.portPresent (blk 0x800000 0x40000 a).1
  else if decide (0xA00000 ≤ a) && decide (a < 0xB00000) then s.portPresent ((blk 0xA00000 0x4000 a).1 / 8)
  else if decide (0xC00000 ≤ a) && decide (a < 0xE00000) then s.nandPresent (blk 0xC00000 0x10000 a).1
  else if decide (0x1000000 ≤ a) && decide (a < 0x1C00000) then s.clusterPresent (blk 0x1000000 0x80000 a).1
  else if decide (0x1C00000 ≤ a) && decide (a < 0x1F00000) then
    let (r, o) := blk 0x1C00000 0x40000 a
    if o < 0x10000 then s.stackPresent r else s.bronzePresent (4 * r + (o - 0x10000) / 0x1000)
  else true

/-! ### Engines of a cluster -/

/-- TRS_STATUS. -/
def State.trsStatus (s : State) (c : Nat) : Nat :=
  let t := s.trestle c
  let q := t.qu t.serving
  let busy (i : Nat) : Bool := !(t.qu i).items.isEmpty || !t.quiet i
  let bank (p b : Nat) : Bool := (q.bankKeys p b).any fun k =>
    let v := t.banks.get {} k
    v.inflight != 0 || v.loading != 0
  let halted := s.flag (Reg.TRS_CTRL c) 2 && s.trsStopped c && t.flight.isEmpty
  b2n (busy 0) + 2 * b2n (busy 1) + 4 * b2n halted + 8 * t.serving +
    ((List.range 8).map fun p => 2 ^ (4 + 2 * p) * (b2n (bank p 0) + 2 * b2n (bank p 1))).sum + 2 ^ 20 * q.layout + 2 ^ 22 * b2n q.ksplit

/-- PWT_STATUS. -/
def State.pwtStatus (s : State) (c k : Nat) : Nat :=
  let u := s.pewter (4 * c + k)
  let halted := s.flag (Reg.PWT_CTRL c k) 2 && !u.rq.inTile && !u.tq.inTile
  let vl := if u.rq.recs.isEmpty && u.tq.recs.isEmpty then 0 else if u.serving = 0 then u.rq.vl else u.tq.vl
  b2n (!u.rq.recs.isEmpty) + 2 * b2n (!u.tq.recs.isEmpty) + 4 * b2n halted + 8 * u.serving + 16 * u.rq.recs.length + 2 ^ 9 * u.tq.recs.length +
    2 ^ 14 * vl

/-- TIN_STATUS. -/
def State.tinStatus (s : State) (c m : Nat) : Nat :=
  let v := s.core (8 * c + m)
  bitsOf 16 (fun t => ((v.threads.get {} t).task).isSome) + 2 ^ 16 * b2n (s.flag (Reg.TIN_CTRL c m) 2 && v.cur.isNone)

/-- TIN_THREAD_STATE. -/
def State.threadState (s : State) (c m t : Nat) : Nat :=
  let v := (s.core (8 * c + m)).threads.get {} t
  let id := v.task.getD {}
  let us := if v.st == .free || v.st == .ready then 0 else min 255 (s.usSince v.parkedAt)
  v.st.code + 8 * id.cls + 2 ^ 6 * id.ctx + 2 ^ 18 * v.outs.countP (·.store) + 2 ^ 23 * us

/-- C-cycles of a cluster in a number of I-clock ticks, by its region's step (R22). -/
def State.cCycles (s : State) (c ticks : Nat) : Nat :=
  ticks * nth 80 [96, 88, 80, 64] (s.field (Reg.BIM_REG_STEP (c / 2)) 1 0) / 40

/-- TIN_PARK_CYCLES: the threads that are parked now count as well. -/
def State.parkCycles (s : State) (c m : Nat) : Nat :=
  let v := s.core (8 * c + m)
  s.reg64 (Reg.TIN_PARK_CYCLES c m) +
    (v.threads.map fun e => if e.2.st == .parkedExt then s.cCycles c (s.clk - e.2.parkedAt) else 0).sum

/-- Registers of a cluster's block that other state holds. -/
def State.clusterView (s : State) (c o : Nat) : Option Nat :=
  if o = 0x10004 then some (s.trsStatus c)
  else if decide (0x20000 ≤ o) && decide (o < 0x24000) && (o - 0x20000) % 0x1000 == 4 then some (s.pwtStatus c ((o - 0x20000) / 0x1000))
  else if decide (0x304A0 ≤ o) && decide (o < 0x304B4) then
    let w := (o - 0x304A0) / 4
    some (bitsOf 32 fun x => s.waiting c (32 * w + x))
  else if decide (0x40000 ≤ o) && decide (o < 0x48000) then
    let (m, p) := blk 0x40000 0x1000 o
    if p = 4 then some (s.tinStatus c m)
    else if decide (0x40 ≤ p) && decide (p < 0x80) then some (s.threadState c m ((p - 0x40) / 4))
    else if p = 0x90 then some (s.parkCycles c m % 2 ^ 32)
    else if p = 0x94 then some (s.parkCycles c m / 2 ^ 32 % 2 ^ 32)
    else none
  else none

/-! ### Cabinet -/

/-- Barrier registers. -/
def State.barView (s : State) (b o : Nat) : Option Nat :=
  let v := s.bar b
  if o = 0 then some (v.p + 2 ^ 16 * v.fn + 2 ^ 26 * b2n v.valid)
  else if o = 4 then some (v.count + 2 ^ 16 * v.phase)
  else if o = 8 then some v.early.length
  else some (if v.count = 0 then 0 else s.usSince v.since)

/-- CAB_RES_SLOT. The requests that wait show, in their order, in the slots that hold nothing (DEDUCED, log 40). -/
def State.resSlotView (s : State) (c i : Nat) : Nat :=
  let cl := s.cluster c
  let word (ctx st grans lats : Nat) (b : Bool) : Nat := ctx + 2 ^ 12 * st + 2 ^ 15 * grans + 2 ^ 22 * lats + 2 ^ 28 * b2n b
  let r := cl.slots.get {} i
  if r.holds then word r.ctx r.st.code r.grans.length r.lats.length (r.st == .resident && s.blocked c r.ctx)
  else
    match (cl.pend.drop ((List.range i).countP fun k => !(cl.slots.get {} k).holds)).head? with
    | some q => word q.ctx 1 q.grans q.lats false
    | none => 0

/-- Residency registers of a cluster. -/
def State.resView (s : State) (c o : Nat) : Option Nat :=
  let cl := s.cluster c
  if o = 0 then
    some ((cl.slots.countP fun e => e.2.holds) + 2 ^ 4 * (s.freeGrans c).length + 2 ^ 11 * (s.freeLats c).length + 2 ^ 17 * cl.pend.length +
      2 ^ 21 * b2n (cl.power == .gated || cl.power == .waking) + 2 ^ 22 * b2n (s.warm c))
  else if decide (0x10 ≤ o) && decide (o < 0x30) then some (s.resSlotView c ((o - 0x10) / 4))
  else if decide (0x30 ≤ o) && decide (o < 0x50) then
    let r := cl.slots.get {} ((o - 0x30) / 4)
    some (if r.holds then s.resRun c r.ctx else 0)
  else if o = 0x50 then some (match cl.blkSince with
    | some t => s.usSince t
    | none => 0)
  else none

/-- Registers of a context block. -/
def State.ctxView (s : State) (x o : Nat) : Option Nat :=
  let c := s.ctx x
  let ext (f : Nat → Bool) : Nat := (s.extOuts x).countP fun e => f e.path
  let live (n : Nat) : Option Nat := some (if c.valid then n else 0)
  if o = 0x04 then live (1 + 2 * b2n (c.stl.st != .off) + 4 * c.floor + 2 ^ 8 * c.weight + 2 ^ 16 * c.fn)
  else if o = 0x08 then live c.slotBase
  else if o = 0x0C then live c.slotCount
  else if o = 0x10 then live (s.ctxWaiting x)
  else if o = 0x14 then live (s.ctxReady x)
  else if o = 0x18 then live (s.ctxRunning x)
  else if o = 0x1C then live (ext (· == 0))
  else if o = 0x20 then live (ext (· == 1))
  else if o = 0x24 then live (ext (· == 3))
  else if o = 0x28 then live (ext fun p => decide (4 ≤ p))
  else if o = 0x2C then live (s.extAge x).1
  else if o = 0x34 then live c.evq
  else if o = 0x58 then some c.lastDone
  else none

/-- Registers of a slack tracker. -/
def State.slkView (s : State) (g o : Nat) : Option Nat :=
  let v := s.slk g
  if o = 0x08 then some v.remain
  else if o = 0x0C then some (sat32 v.slackNs)
  else if o = 0x10 then some v.deadline
  else if o = 0x14 then some (v.deadline / 2 ^ 32)
  else none

/-- Registers of the Sterling side of a context. -/
def State.stlView (s : State) (x o : Nat) : Option Nat :=
  let v := (s.ctx x).stl
  if o = 0x00 then some (v.st.code + 4 * v.form.code + 16 * b2n v.late)
  else if o = 0x04 then some v.entries
  else if o = 0x08 then some v.ring
  else if o = 0x0C then some (v.ring / 2 ^ 32)
  else if o = 0x10 then some v.prod
  else if o = 0x14 then some v.cons
  else if o = 0x18 then some v.startT
  else some (v.startT / 2 ^ 32)

/-- CAB_TPL_CFG. -/
def State.tplCfg (s : State) (i : Nat) : Nat :=
  match s.tpls.look i with
  | some t => t.group + 2 ^ 8 * t.timer + 2 ^ 14 * (t.depth - 1) + 2 ^ 16 * t.entries.length + 2 ^ 27 + 2 ^ 28 * b2n t.retiring
  | none => 0

/-- Cabinet's registers. -/
def State.cabView (s : State) (a : Nat) : Option Nat :=
  if a = Reg.CAB_STATUS then some (b2n (s.flag Reg.CAB_CTRL 1) + 2 * b2n (!s.sched.susp.isEmpty))
  else if a < 0x210000 then none
  else if a < 0x220000 then s.barView (blk 0x210000 0x10 a).1 (blk 0x210000 0x10 a).2
  else if a < 0x230000 then s.resView (blk 0x220000 0x100 a).1 (blk 0x220000 0x100 a).2
  else if a < 0x240000 then s.slkView (blk 0x230000 0x20 a).1 (blk 0x230000 0x20 a).2
  else if a < 0x260000 then s.stlView (blk 0x240000 0x20 a).1 (blk 0x240000 0x20 a).2
  else if a < 0x270000 then none
  else if a < 0x280000 then if (blk 0x270000 0x20 a).2 = 0 then some (s.tplCfg (blk 0x270000 0x20 a).1) else none
  else s.ctxView (blk 0x280000 0x80 a).1 (blk 0x280000 0x80 a).2

/-! ### Memory tiers and Bronze -/

/-- Registers of Bureau and the Dumbwaiter. -/
def State.tierView (s : State) (a : Nat) : Option Nat :=
  let count (st : ShelfSt) : Nat := s.tiers.shelves.countP fun e => e.2.st == st
  if a = Reg.BUR_STATUS then
    some (b2n s.burOn + 2 * b2n (s.tiers.failed.any fun e => !e.2) + 4 * b2n (!s.tiers.installs.isEmpty))
  else if a = Reg.BUR_FREE_GIB then some ((s.flashCap - s.flashHeld) / 2 ^ 16)
  else if a = Reg.DMW_POOL_FREE then some (s.stackNos.map s.stackFree).sum
  else if a = Reg.DMW_PRESENT then some (count .present)
  else if a = Reg.DMW_FILLING then some (count .filling)
  else if a = Reg.DMW_POISONED then some (count .poisoned)
  else none

/-- Registers of a NAND channel. -/
def State.nandView (s : State) (n o : Nat) : Option Nat :=
  if o = 4 then
    some (b2n (s.burOn && s.nandUp n) + 2 * b2n (s.unitState svcNand n == unitRetired) +
      4 * b2n (s.tiers.failed.any fun e => e.1 / 65 == n && !e.2))
  else if o = 0xC then some ((s.eraseRange n).1 + 2 ^ 16 * (s.eraseRange n).2)
  else none

/-- Registers of a stack. -/
def State.hbmView (s : State) (t o : Nat) : Option Nat :=
  let copying := s.tiers.mcopy.any fun e => e.2 == t || (s.obj e.1).stack == t
  if o = 0 then some (b2n (s.stackPresent t) + 2 * b2n (s.regSterling t) + 4 * b2n (s.regSterling t) + 8 * b2n copying)
  else if o = 0xC then some (s.stackFree t)
  else none

/-- BRZ_STATUS. -/
def State.brzStatus (s : State) (u : Nat) : Nat :=
  let v := s.bronze u
  let run := v.rrun.isSome || v.trun.isSome
  b2n run + 2 * b2n (s.flag (Reg.BRZ_CTRL (u / 4) (u % 4)) 2 && !run) + 4 * v.serving + 8 * v.rq.length + 2 ^ 8 * v.tq.length

/-! ### Time and ports -/

/-- Recovered clock n is held low: its lane is out of lock or its MAC is down (R330). -/
def State.squelched (s : State) (a : Nat) : Bool :=
  let p := s.field a 2 0
  let l := s.field a 5 3
  let k := ((List.range (l + 1)).reverse.find? fun k => s.macLanes (8 * p + k) != 0).getD 0
  s.flag a 7 && !(s.flag (Reg.ETH_STATUS p) l && s.flag (Reg.ETH_STATUS p) (8 + k))

/-- Invar's registers. DEDUCED: PLL_LOCK reads 1 whenever the package is out of reset (log 104). -/
def State.invView (s : State) (a : Nat) : Option Nat :=
  if a = Reg.INV_STATUS then some (setBits (s.reg a) 0 0 (b2n (s.boot.phase != .held)) + 16 * b2n (s.squelched Reg.INV_RCLK0_CFG) + 32 * b2n (s.squelched Reg.INV_RCLK1_CFG))
  else if a = Reg.INV_NOW_W0 then some (nth 0 (storedForm s.time) 0)
  else if a = Reg.INV_NOW_W1 then some (nth 0 (storedForm s.time) 1)
  else if a = Reg.INV_NOW_W2 then some (nth 0 (storedForm s.time) 2)
  else if a = Reg.INV_NOW64 then some s.now
  else if a = Reg.INV_NOW64 + 4 then some (s.now / 2 ^ 32)
  else none

/-- The entry of the oper list that is in force, counted in the list as it was written. -/
def State.operEntry (s : State) (m : Nat) : Nat :=
  match (s.mac m).listAt s.now with
  | none => 0
  | some l =>
    let ends := (List.range l.entries.length).map fun e => (e, ((l.entries.take (e + 1)).map (·.2)).sum)
    let o := l.pos s.now
    match ends.find? fun e => decide (o < e.2) with
    | some e => e.1
    | none => ((List.range l.entries.length).filter fun e => (nth (0, 0) l.entries e).2 != 0).getLastD 0

/-- Hallstand's registers. -/
def State.hstView (s : State) (m o : Nat) : Option Nat :=
  let v := s.mac m
  if o = 8 then
    some (setBits (b2n v.oper.isSome + 2 * b2n v.next.isSome + 4 * s.operEntry m) 12 12 (s.field (Reg.HST_STATUS m) 12 12))
  else if decide (0x400 ≤ o) && decide (o < 0x800) && o % 0x40 == 0x10 then some (sat32 ((s.shaper m ((o - 0x400) / 0x40)).credit / 8000))
  else none

/-! ### The host's side -/

/-- SBD_MBX_STATUS of a mailbox (R414, R416): READY while something serves it and its function is ACTIVE. -/
def State.boxStatus (s : State) (fn m : Nat) : Nat :=
  let b := s.box (.mbox fn m)
  b.last + 2 ^ 16 * b.status + 2 ^ 24 * b2n b.busy + 2 ^ 25 * b2n (s.served (.mbox fn m) && (s.func fn).st == .active)

/-- SBD_FW_STATE. -/
def State.fwState (s : State) : Nat :=
  (match s.boot.phase with
    | .restarting => 1
    | .awaiting => 2
    | _ => 0) + 4 * b2n s.boot.held.isSome

/-- Registers of a queue context block. -/
def State.queView (s : State) (q o : Nat) : Option Nat := if o < 0x30 then some (nth 0 (s.queWords q) (o / 4)) else none

/-- Registers of the management block of a virtual function. -/
def State.vfView (s : State) (n o : Nat) : Option Nat :=
  if 0x20 ≤ o then none
  else if n = 0 then some 0
  else if o = 0x18 then some (s.func n).hbm
  else if o = 0x1C then some (s.pinnedHeld n)
  else some (nth 0 (s.vfWords n) (o / 4))

/-- What a register that other state holds reads as; `none` where the register file holds it. -/
def State.mirror (s : State) (a : Nat) : Option Nat :=
  if a = Reg.PCI_PF_GEN then some (s.func 0).gen
  else if a = Reg.SBD_FW_STATE then some s.fwState
  else if a = Reg.SEC_LOG_COUNT then some s.boot.log.length
  else if a = Reg.BIM_I3C_RST_CAUSE then some (s.reg Reg.RST_CAUSE)
  else if decide (0x200000 ≤ a) && decide (a < 0x300000) then s.cabView a
  else if decide (0x400000 ≤ a) && decide (a < 0x410000) then s.invView a
  else if decide (0xA00000 ≤ a) && decide (a < 0xB00000) then s.hstView (blk 0xA00000 0x4000 a).1 (blk 0xA00000 0x4000 a).2
  else if decide (0xC00000 ≤ a) && decide (a < 0xE00000) then s.nandView (blk 0xC00000 0x10000 a).1 (blk 0xC00000 0x10000 a).2
  else if decide (0xE00000 ≤ a) && decide (a < 0xE20000) then s.tierView a
  else if decide (0x1000000 ≤ a) && decide (a < 0x1C00000) then s.clusterView (blk 0x1000000 0x80000 a).1 (blk 0x1000000 0x80000 a).2
  else if decide (0x1C00000 ≤ a) && decide (a < 0x1F00000) then
    let (r, o) := blk 0x1C00000 0x40000 a
    if o < 0x10000 then s.hbmView r o
    else if o % 0x1000 = 4 then some (s.brzStatus (4 * r + (o - 0x10000) / 0x1000))
    else none
  else if decide (0x2000000 ≤ a) && decide (a < 0x3000000) then s.queView (blk 0x2000000 0x40 a).1 (blk 0x2000000 0x40 a).2
  else if decide (0x3000000 ≤ a) && decide (a < 0x3040000) then s.vfView (blk 0x3000000 0x100 a).1 (blk 0x3000000 0x100 a).2
  else none

/-- The word of the retained memory window (R432). -/
def retWindow (a : Nat) : Bool := decide (0x510000 ≤ a) && decide (a < 0x520000)

/-- What a register reads as under its access type (R5): a write-only register and a reserved address as zero. -/
def State.regWord (s : State) (a : Nat) : Nat :=
  if !s.blockPresent a then 0
  else if retWindow a then s.reg a
  else
    match regRow a with
    | none => 0
    | some r => if r.acc == .wo then 0 else (s.mirror a).getD (s.reg a) % 2 ^ 32

end Sys2Proof.Machine
end

