-- ==== Sys2Proof/Machine/Registers.lean ====
section
/-! DEFINITION. Reads and writes of registers (R4 to R9): who reaches which register, the shadows of 64-bit reads, the held words of
64-bit writes, the access types, and what a write of each register sets off. -/

namespace Sys2Proof.Machine

/-! ### Who reaches what (R143, R387, R390, R414, R422) -/

/-- What an access of a requester reaches: a register by BAR0 address (or by number 2^48 and up at the I3C target), a mailbox control
block, a word of a mailbox buffer, of an MSI-X table or of its pending bits, or a reserved address. -/
inductive RegTarget where
  | reg (a : Nat)
  | box (fn m off : Nat)
  | buf (fn m w : Nat)
  | msix (fn w : Nat)
  | pba (fn w : Nat)
  | none
  deriving DecidableEq, Repr

/-- BAR0 of the physical function. -/
def barTarget (a : Nat) : RegTarget :=
  if a % 4 ≠ 0 ∨ 2 ^ 26 ≤ a then .none
  else if decide (0x8000 ≤ a) && decide (a < 0x10000) then .msix 0 ((a - 0x8000) / 4)
  else if decide (0x10000 ≤ a) && decide (a < 0x10100) then .pba 0 ((a - 0x10000) / 4)
  else if decide (0x100000 ≤ a) && decide (a < 0x104000) then .buf 0 ((a - 0x100000) / 0x1000) ((a - 0x100000) % 0x1000 / 4)
  else if decide (0x110000 ≤ a) && decide (a < 0x110100) then .box 0 ((a - 0x110000) / 0x40) ((a - 0x110000) % 0x40)
  else .reg a

/-- BAR0 of virtual function n (R390). A free context window is reserved (R195). -/
def State.vfTarget (s : State) (n a : Nat) : RegTarget :=
  if a % 4 ≠ 0 ∨ 0x10000 ≤ a ∨ (s.func n).enabled = false then .none
  else if a < 0x100 then .reg (Reg.VF_STATE n + a)
  else if a < 0x200 then .reg a
  else if decide (0x400 ≤ a) && decide (a < 0x440) then .box n 0 (a - 0x400)
  else if decide (0x1000 ≤ a) && decide (a < 0x2000) then .buf n 0 ((a - 0x1000) / 4)
  else if decide (0x2000 ≤ a) && decide (a < 0x2400) then .msix n ((a - 0x2000) / 4)
  else if decide (0x2800 ≤ a) && decide (a < 0x2808) then .pba n ((a - 0x2800) / 4)
  else if 0x8000 ≤ a then
    match s.liveCtxs.find? fun e => e.2.fn == n && e.2.window == (a - 0x8000) / 0x80 with
    | some e => .reg (Reg.CAB_CTX_CTRL e.1 + (a - 0x8000) % 0x80)
    | none => .none
  else .none

/-- What a requester's access reaches. -/
def State.regTarget (s : State) (r : Requester) (a : Nat) : RegTarget :=
  match r with
  | .firmware => barTarget a
  | .func n => if n = 0 then barTarget a else s.vfTarget n a
  | .ctx x => if (s.ctx x).l1 && Config.l1Block x a then barTarget a else .none
  | .bmc => if a % 4 = 0 ∧ a < 0x18 then .reg (2 ^ 48 + a) else .none

/-- The requesting function of R8 and R9; firmware and the management controller have shadows of their own. -/
def State.regFn (s : State) : Requester → Nat
  | .firmware => 1024
  | .func n => n
  | .ctx x => (s.ctx x).fn
  | .bmc => 1025

/-- Secure-world registers (R448): the security block and firmware's half of the retained store. -/
def secureReg (a : Nat) : Bool :=
  decide (0x600000 ≤ a) && decide (a < 0x610000) || decide (0x500120 ≤ a) && decide (a < 0x500140) || decide (0x518000 ≤ a) && decide (a < 0x520000)

/-- The requester is of the secure world (R447). -/
def State.regSecure (s : State) : Requester → Bool
  | .firmware => true
  | .func _ => false
  | .ctx x => s.secureCtx x
  | .bmc => false

/-- R449: a non-secure access to a secure register is counted and not performed. Firmware's half of the retained store reads as zero
to the physical function (log 32). -/
def State.regViolation (s : State) (r : Requester) (write : Bool) (a : Nat) : State :=
  let (fn, x) := match r with
    | .func n => (n, 0xFFF)
    | .ctx x => ((s.ctx x).fn, x)
    | _ => (0, 0xFFF)
  s.violation whoReg fn x write (3 * 2 ^ 48 + a) []

/-- The low word of a 64-bit pair (R8, R354: INV_INCR is one). -/
def pairLow (a : Nat) : Bool := isLowWord a || a == Reg.INV_INCR_FRAC
/-- The high word of a pair. -/
def pairHigh (a : Nat) : Bool := decide (4 ≤ a) && pairLow (a - 4)
/-- The low word of a pair that is written under R9. -/
def pairRw (a : Nat) : Bool :=
  pairLow a && match regRow a with
    | some r => r.acc == .rw || r.acc == .rwl
    | none => false

/-- A key of a function and an address. -/
def fnKey (fn a : Nat) : Nat := fn * 2 ^ 50 + a

/-! ### Reads -/

/-- A word of an MSI-X table: an entry that has not been written is masked. -/
def State.msixWord (s : State) (fn w : Nat) : Nat :=
  if w / 4 < s.vectorCount fn then (s.host.msix.get (if w % 4 = 3 then 1 else 0) (fn * 2 ^ 13 + w)).toNat else if w % 4 = 3 then 1 else 0

/-- A read of a register: a low word captures the high word for the requesting function, and a high word returns what was captured
(R8); a read of INV_NOW_W0 captures words 1 and 2 (R354). -/
def State.readReg (s : State) (r : Requester) (a : Nat) : State × Nat :=
  let fn := s.regFn r
  if secureReg a && !s.regSecure r then (s.regViolation r false a, 0)
  else if a = Reg.INV_NOW_W0 then
    let put (t : Tab W32) (b : Nat) : Tab W32 := t.put (fnKey fn b) (BitVec.ofNat 32 (s.regWord b))
    ({ s with shadows := put (put s.shadows Reg.INV_NOW_W1) Reg.INV_NOW_W2 }, s.regWord a)
  else if a = Reg.INV_NOW_W1 ∨ a = Reg.INV_NOW_W2 ∨ pairHigh a then (s, (s.shadows.get 0 (fnKey fn a)).toNat)
  else if pairLow a then
    ({ s with shadows := s.shadows.put (fnKey fn (a + 4)) (BitVec.ofNat 32 (s.regWord (a + 4))) }, s.regWord a)
  else (s, s.regWord a)

/-- A 32-bit read by a requester. A mailbox buffer reads as the latest reply. -/
def State.regRead (s : State) (r : Requester) (a : Nat) : State × Nat :=
  match s.regTarget r a with
  | .reg b => s.readReg r b
  | .box fn m o => (s, if o = 4 then s.boxStatus fn m else if o = 8 then (s.func fn).gen
      else if o = 0xC then if fn = 0 then s.reg (Reg.SBD_MBX_IRQ m) else (s.box (.mbox fn m)).irq.toNat
      else 0)
  | .buf fn m w =>
    let b := s.box (.mbox fn m)
    (s, nth 0 (replyWords b (s.func fn).gen b.status b.detail b.reply) w % 2 ^ 32)
  | .msix fn w => (s, s.msixWord fn w)
  | .pba fn w => (s, bitsOf 32 fun i => s.host.pba.contains (fn * 2 ^ 11 + 32 * w + i))
  | .none => (s, 0)

/-! ### Writes -/

/-- The block of a register for R9. A block with no RW pair needs no number of its own (DEDUCED, log 11: a port of ETH and a MAC of
Hallstand are one block each, Invar with its triggers and timers another). -/
def blockOf (a : Nat) : Nat :=
  if decide (0x1000 ≤ a) && decide (a < 0x1100) then 1
  else if decide (0x400000 ≤ a) && decide (a < 0x410000) then 2
  else if decide (0x800000 ≤ a) && decide (a < 0xA00000) then 3 + (a - 0x800000) / 0x40000
  else if decide (0xA00000 ≤ a) && decide (a < 0xB00000) then 16 + (a - 0xA00000) / 0x4000
  else 0

/-- The block of an RWL register is in its configuration state (R5): Bureau's enable for Bureau and the NAND channels, a channel that
RST_BLOCK holds (R445), a port's enable, Solder's enable. -/
def State.configState (s : State) (a : Nat) : Bool :=
  if decide (0xC00000 ≤ a) && decide (a < 0xE00000) then !s.flag Reg.BUR_CTRL 0 || s.flag Reg.RST_BLK_NAND (blk 0xC00000 0x10000 a).1
  else if decide (0xE00000 ≤ a) && decide (a < 0xE10000) then !s.flag Reg.BUR_CTRL 0
  else if decide (0x800000 ≤ a) && decide (a < 0xA00000) then !s.flag (Reg.ETH_CTRL (blk 0x800000 0x40000 a).1) 0
  else if decide (0x700000 ≤ a) && decide (a < 0x710000) then !s.flag Reg.SLD_CTRL 0
  else true

/-- The word that a write of v leaves in a register under its access type. -/
def State.written (s : State) (a : Nat) (r : RegRow) (v : Nat) : Nat :=
  let m := r.wr ||| (if s.configState a then r.cfg else 0)
  let old := s.reg a
  ((old &&& (2 ^ 32 - 1 - m)) ||| (v &&& m)) &&& (2 ^ 32 - 1 - (v &&& r.clr))

/-- Power limits are clamped to 800 to 1,500 W. -/
def clampW (w : Nat) : Nat := max 800 (min 1500 w)

/-- A write of a class's shaper: credit earned so far is kept at the old rate, and enabling the shaper fills its bucket (R341). -/
def State.shaperWritten (old s : State) (m c : Nat) : State :=
  let b := old.shaper m c
  let on := s.flag (Reg.HST_TC_SHAPER m c) 20 && !old.flag (Reg.HST_TC_SHAPER m c) 20
  let b : Bucket := if on then { credit := Int.ofNat (s.field (Reg.HST_TC_BURST m c) 24 0 * 8000), at_ := s.clk } else b
  let v := s.mac m
  s.setMac m (v.setCls c { v.cls c with shaper := b })

/-- What a write of Invar's registers sets off. -/
def State.invWritten (old s : State) (a : Nat) : State :=
  if a = Reg.INV_CTRL then s.invCtrlWritten
  else if decide (0x401000 ≤ a) && decide (a < 0x402000) then old.ntSettings s (blk 0x401000 0x40 a).1
  else if decide (0x402000 ≤ a) && decide (a < 0x402400) then old.trgWritten s (blk 0x402000 0x40 a).1
  else s

/-- What the write that led from `old` to `s` sets off, by register. -/
def State.regWritten (old s : State) (a : Nat) : State :=
  if a = Reg.BIM_PKG_LIMIT_W ∨ a = Reg.BIM_I3C_CAP_W then s.setReg a (clampW (s.reg a))
  else if a = Reg.DMW_CTRL then s.runFills
  else if decide (0x1000000 ≤ a) && decide (a < 0x1C00000) && decide (0x40000 ≤ (a - 0x1000000) % 0x80000) && a % 0x1000 == 0 then
    s.tinResume (8 * (blk 0x1000000 0x80000 a).1 + (a - 0x1000000) % 0x80000 / 0x1000 % 64)
  else if decide (0x400000 ≤ a) && decide (a < 0x410000) then old.invWritten s a
  else if decide (0xB00004 ≤ a) && decide (a < 0xB00018) then s.polWritten
  else if decide (0xA00000 ≤ a) && decide (a < 0xB00000) then
    let (m, o) := blk 0xA00000 0x4000 a
    if decide (0x400 ≤ o) && decide (o < 0x800) && decide (o % 0x40 < 8) then old.shaperWritten s m ((o - 0x400) / 0x40) else s
  else if decide (0x800000 ≤ a) && decide (a < 0xA00000) && (a - 0x800000) % 0x40000 == 4 then
    let p := (blk 0x800000 0x40000 a).1
    if old.flag a 0 && !s.flag a 0 then s.portOff p else s
  else if (decide (0x500100 ≤ a) && decide (a < 0x500140)) || retWindow a then s.setField Reg.RET_STATUS 0 0 0
  else s

/-- A write of a register that performs an action; `none` for a register that holds what is written. -/
def State.regAct (s : State) (a : Nat) (v : W32) : Option State :=
  if a = Reg.INV_SET_GO then some (s.invSet v)
  else if a = Reg.HST_POL_SEL then some (s.polSel v)
  else if a = Reg.SLD_CTRL then some (s.sldCtrl v)
  else if a = Reg.SLD_PEER_SEL then some (s.sldPeerSel v)
  else if a = Reg.RST_FULL then some (s.rstFull v)
  else if a = Reg.CAB_STL_CHAIN_GO then
    let s := s.when (v.toNat.testBit 0) (·.chainGo)
    some (s.when (v.toNat.testBit 1) (·.chainCal))
  else if decide (0xA00000 ≤ a) && decide (a < 0xB00000) && (a - 0xA00000) % 0x4000 == 0x28 then some (s.gclGo (blk 0xA00000 0x4000 a).1 v)
  else none

/-- The function's held low word of a block, if any (R9). -/
def State.heldWord (s : State) (fn a : Nat) : Option (Nat × W32) := s.held.look (fnKey fn (blockOf a))

/-- A write of a high word of a pair: both words take effect together (R9). Where no low word is held the low word keeps its value.
INV_INCR ignores writes while the servo runs, and an unaligned PCI_BAR4_BASE is ignored (R354, R388). -/
def State.pairWrite (s : State) (a : Nat) (lo hi : W32) : State :=
  if a = Reg.INV_STEP then s.invStep lo hi
  else if a = Reg.INV_SERVO_OFF then s.servoOffer lo hi
  else
    match regRow a, regRow (a + 4) with
    | some r0, some r1 =>
      let v0 := s.written a r0 lo.toNat
      let v1 := s.written (a + 4) r1 hi.toNat
      if a = Reg.INV_INCR_FRAC ∧ s.servoOn then s
      else if a = Reg.PCI_BAR4_BASE ∧ (v0 + 2 ^ 32 * v1) % 2 ^ s.host.bar4Log ≠ 0 then s
      else s.regWritten ((s.setReg a v0).setReg (a + 4) v1) a
    | _, _ => s

/-- A write of a register (R4, R5, R9). -/
def State.putReg (s : State) (fn a : Nat) (v : W32) : State :=
  let mine := (s.heldWord fn a).bind fun h => if h.1 + 4 = a then some h.2 else none
  let s := { s with held := s.held.del (fnKey fn (blockOf a)) }
  if !s.blockPresent a then s
  else if retWindow a then (s.setReg a v.toNat).setField Reg.RET_STATUS 0 0 0
  else if pairRw a then { s with held := s.held.put (fnKey fn (blockOf a)) (a, v) }
  else if decide (4 ≤ a) && pairRw (a - 4) then s.pairWrite (a - 4) (mine.getD (BitVec.ofNat 32 (s.reg (a - 4)))) v
  else
    match regRow a with
    | none => s
    | some r =>
      match s.regAct a v with
      | some t => t
      | none =>
        if r.acc == .ro && r.clr == 0 || r.acc == .wo then s else s.regWritten (s.setReg a (s.written a r v.toNat)) a

/-- A write of a word of an MSI-X table. An interrupt that became pending while its entry was masked is sent when it is unmasked. -/
def State.msixWrite (s : State) (fn w : Nat) (v : W32) : State :=
  if s.vectorCount fn ≤ w / 4 then s
  else
    let x := if w % 4 = 3 then v &&& 1 else if w % 4 = 0 then v &&& 0xFFFFFFFC else v
    let s := { s with host := { s.host with msix := s.host.msix.put (fn * 2 ^ 13 + w) x } }
    let k := fn * 2 ^ 11 + w / 4
    if w % 4 == 3 && x == 0 && s.host.pba.contains k then
      ({ s with host := { s.host with pba := s.host.pba.erase k } }).fire fn (w / 4)
    else s

/-- A 32-bit write by a requester. The body and the doorbell of a mailbox command come with the commands' own rows of the table. -/
def State.regWrite (s : State) (r : Requester) (a : Nat) (v : W32) : State :=
  match s.regTarget r a with
  | .reg b => if secureReg b && !s.regSecure r then s.regViolation r true b else s.putReg (s.regFn r) b v
  | .box fn m o =>
    if o ≠ 0xC then s
    else if fn = 0 then s.setReg (Reg.SBD_MBX_IRQ m) (v.toNat % 2 ^ 12)
    else s.setBox (.mbox fn m) { s.box (.mbox fn m) with irq := v &&& 0xFFF }
  | .msix fn w => s.msixWrite fn w v
  | _ => s

/-! ### The commands -/

/-- What a requester's address names among the registers. -/
def State.regNamed (s : State) (r : Requester) (a : Nat) : Option Nat :=
  match s.regTarget r a with
  | .reg b => some b
  | _ => none

/-- Reads a register for a command: the value goes back to the requester. -/
def State.readFor (s : State) (r : Requester) (a : Nat) : State :=
  let (t, v) := s.regRead r a
  { t with lastRead := BitVec.ofNat 32 v }

/-- LOW_WORD_READ (R8). -/
def execLowWordRead (r : Requester) (a : Nat) (s : State) : Host.Outcome State Fault Refusal :=
  .next (if (s.regNamed r a).any pairLow then s.readFor r a else s)

/-- HIGH_WORD_READ (R8). -/
def execHighWordRead (r : Requester) (a : Nat) (s : State) : Host.Outcome State Fault Refusal :=
  .next (if (s.regNamed r a).any pairHigh then s.readFor r a else s)

/-- LOW_WORD_WRITE (R9): the word is held. -/
def execLowWordWrite (r : Requester) (a : Nat) (v : W32) (s : State) : Host.Outcome State Fault Refusal :=
  .next (if (s.regNamed r a).any pairRw then s.regWrite r a v else s)

/-- HIGH_WORD_WRITE (R9): both words take effect. -/
def execHighWordWrite (r : Requester) (a : Nat) (v : W32) (s : State) : Host.Outcome State Fault Refusal :=
  .next (if (s.regNamed r a).any (fun b => decide (4 ≤ b) && pairRw (b - 4)) then s.regWrite r a v else s)

/-- REGISTER_WRITE (R5): a write of any register that is no pair of R9. -/
def execRegisterWrite (r : Requester) (a : Nat) (v : W32) (s : State) : Host.Outcome State Fault Refusal :=
  .next (if (s.regNamed r a).any (fun b => pairRw b || decide (4 ≤ b) && pairRw (b - 4)) then s else s.regWrite r a v)

/-- INV_NOW_READ (R354): a read of INV_NOW_W0, which captures words 1 and 2. -/
def execInvNowRead (r : Requester) (s : State) : Host.Outcome State Fault Refusal :=
  .next (if s.regNamed r Reg.INV_NOW_W0 = some Reg.INV_NOW_W0 then s.readFor r Reg.INV_NOW_W0 else s)

end Sys2Proof.Machine
end

