-- ==== Sys2Proof/Machine/Dma.lean ====
section
/-! DEFINITION. The DMA engine of a cluster (R143, R167, R168, R197, R361, R362, R499): the tests before a transfer's first row, the
row copies, their acknowledgements and the ends of transfers. -/

namespace Sys2Proof.Machine

/-- DMA causes (R182). -/
def dmaAddr : Nat := 2
def dmaRange : Nat := 4

/-! ### Queues -/

def State.dmaQ (s : State) (c q : Nat) : List DmaXfer := if q = 0 then (s.dmaEng c).rq else (s.dmaEng c).tq
def State.setDmaQ (s : State) (c q : Nat) (xs : List DmaXfer) : State :=
  let e := s.dmaEng c
  s.setDma c (if q = 0 then { e with rq := xs } else { e with tq := xs })
def State.setXfer (s : State) (c q k : Nat) (x : DmaXfer) : State := s.setDmaQ c q (setNth (s.dmaQ c q) k x)

/-- The transfer of a queue whose next row comes next. -/
def State.dmaNext (s : State) (c q : Nat) : Option (Nat × DmaXfer) :=
  let live (x : DmaXfer) : Bool := !x.fin && x.err.isNone && (!x.started || decide (x.next < x.desc.rows))
  ((s.dmaQ c q).findIdx? live).bind fun k => ((s.dmaQ c q)[k]?).map fun x => (k, x)

/-- A transfer ends: a task's end goes to Cabinet, a push signals its latch whatever its status (R149, R150), and a share copy waits for
Cabinet (R499). -/
def State.dmaOver (s : State) (c q k : Nat) (x : DmaXfer) (status cause : Nat) : State :=
  match x.use with
  | .task => (s.setDmaQ c q ((s.dmaQ c q).eraseIdx k)).finish x.task status cause c
  | .push l n => ((s.setDmaQ c q ((s.dmaQ c q).eraseIdx k)).finish x.task status cause c).when (n != 0) (·.signal c l n)
  | _ => s.setXfer c q k { x with fin := true }

/-- No further row is read; the transfer ends when the rows written have been acknowledged (R181). -/
def State.dmaEnd (s : State) (c q k : Nat) (x : DmaXfer) (status cause : Nat) : State :=
  if x.unacked = 0 then s.dmaOver c q k x status cause else s.setXfer c q k { x with err := some (status, cause) }

/-! ### Addresses -/

/-- The exact address of row r (R167). -/
def rowAddr (base : Nat) (stride : Int) (r : Nat) : Int := Int.ofNat base + Int.ofNat r * stride
def DmaDesc.srcRow (d : DmaDesc) (r : Nat) : Int := rowAddr d.src d.srcStride r
def DmaDesc.dstRow (d : DmaDesc) (r : Nat) : Int := rowAddr d.dst d.dstStride r

/-- The space of one end: 2 for a share offset. -/
def dmaSpace (share : Bool) (base : Nat) : Nat := if share then 2 else spaceOf base

/-- The share offset of a row's address in space 2. -/
def dmaOff (share : Bool) (a : Nat) : Nat := if share then a else offOf a

/-- The 32-bit words of a range. -/
def wordsIn (a n : Nat) : List Nat := (List.range (n / 4)).map (a + 4 * ·)

/-- A row's bytes lie within the context's rights, in the space of the transfer's address (R143, R168, R255, R259, R357). -/
def State.dmaRight (s : State) (c : Nat) (t : TaskId) (share write : Bool) (base : Nat) (a : Int) (n : Nat) : Bool :=
  let b := a.toNat
  let x := t.ctx
  if a < 0 then false
  else if share then decide (b + n ≤ s.shareSize c x)
  else if 2 ^ 57 < b + n ∨ spaceOf b ≠ spaceOf base ∨ spaceOf (b + n - 1) ≠ spaceOf base then false
  else
    let sp := spaceOf base
    let o := offOf b
    if sp = 0 then s.tierRight x t.cls o n write
    else if sp = 1 then true
    else if sp = 2 then decide (o + n ≤ s.shareSize c x)
    else if sp = 3 then (s.ctx x).l1 && decide (o + n ≤ 2 ^ 26) && (granulesOf o n).all fun g => (wordsIn (g * 64) 64).all fun w =>
      decide (w + 4 ≤ o) || decide (o + n ≤ w) || Config.l1Block x w
    else if sp = 256 then (s.func (s.ctx x).fn).domain != 0
    else false

/-- The test of both addresses of every row. -/
def State.dmaRights (s : State) (c : Nat) (x : DmaXfer) : Bool :=
  let d := x.desc
  (List.range d.rows).all fun r =>
    s.dmaRight c x.task d.srcShare false d.src (d.srcRow r) d.rowBytes && s.dmaRight c x.task d.dstShare true d.dst (d.dstRow r) d.rowBytes

/-- The addresses of every row and ROW_BYTES are multiples of w at the ends that lie in a space. -/
def DmaDesc.aligned (d : DmaDesc) (sp w : Nat) : Bool :=
  let ok (share : Bool) (base : Nat) (stride : Int) : Bool :=
    dmaSpace share base != sp || (List.range d.rows).all fun r => rowAddr base stride r % Int.ofNat w == 0
  let any := dmaSpace d.srcShare d.src == sp || dmaSpace d.dstShare d.dst == sp
  !any || d.rowBytes % w == 0 && ok d.srcShare d.src d.srcStride && ok d.dstShare d.dst d.dstStride

/-- The fault of a transfer before its first row, if any: a malformed descriptor (R167) before everything else, then the forms that the
spaces of Solder and of the digest do not support (R235, R361), then the rights (R168), then the alignment of registers (R143). -/
def State.dmaFault (s : State) (c : Nat) (x : DmaXfer) : Option Nat :=
  let d := x.desc
  let far (sp : Nat) : Bool := sp == 1 || sp == 3 || sp == 256
  if d.resv || 65536 < d.rowBytes then some dmaRange
  else if d.rowBytes = 0 ∨ d.rows = 0 then none
  else if !d.aligned 256 8 || d.digest && far (dmaSpace d.dstShare d.dst) then some dmaRange
  else if !s.dmaRights c x then some dmaAddr
  else if !d.aligned 3 4 then some dmaRange
  else none

/-! ### Solder rows (R361, R376) -/

/-- A range in pieces of at most 256 bytes, in address order. -/
def pieces256 (a n : Nat) : List (Nat × Nat) := (List.range (ceilDiv n 256)).map fun i => (a + 256 * i, min 256 (n - 256 * i))

/-- An operation of a DMA queue on a Solder address. -/
def State.dmaOp (s : State) (c q x opc a n : Nat) (data : List Byte) : SldOp :=
  { who := .dma c q, ctx := some x, node := bits a 55 42, opc := opc, len := n, off := bits a 41 0
    domain := (s.func (s.ctx x).fn).domain, source := 3072 + 2 * c + q, data := data, pc := 0 }

/-- The answer to one operation of a DMA queue that waits to be taken. -/
def State.dmaAns (s : State) (c q opc a : Nat) : Option SldAns :=
  s.sld.ans.find? fun r => r.op.who == .dma c q && r.op.opc == opc && r.op.node == bits a 55 42 && r.op.off == bits a 41 0

/-- Takes the answers to the operations of a row; `none` while one is missing. -/
def State.dmaAnswers (s : State) (c q opc : Nat) : List (Nat × Nat) → Option (State × List SldAns)
  | [] => some (s, [])
  | (a, _) :: t =>
    match s.dmaAns c q opc a with
    | none => none
    | some r =>
      match State.dmaAnswers { s with sld := { s.sld with ans := s.sld.ans.erase r } } c q opc t with
      | some (s', rs) => some (s', r :: rs)
      | none => none

/-- How a Solder status ends a transfer (R362). -/
def sldEnd (status : Nat) : Option (Nat × Nat) :=
  if status = 0 then none
  else if status = 4 then some (2, 0xFF)
  else if status = 1 ∨ status = 2 then some (1, dmaAddr)
  else some (1, dmaRange)

/-- The first answer in address order that is not OK. -/
def firstBad (rs : List SldAns) : Option (Nat × Nat) := (rs.filterMap fun r => sldEnd r.status).head?

/-! ### Reading a row -/

/-- What a row's reads gave. -/
inductive RowRead where
  /-- the data has not come yet -/
  | wait
  /-- the transfer ends, with a status and a cause -/
  | bad (s : State) (status cause : Nat)
  | data (s : State) (bytes : List Byte)

/-- Reads registers as 32-bit words in ascending order. -/
def State.regsRead (s : State) (x : Nat) : List Nat → State × List Byte
  | [] => (s, [])
  | a :: t =>
    let (s, v) := s.regRead (.ctx x) a
    let (s, bs) := State.regsRead s x t
    (s, toLE 4 v ++ bs)

/-- Writes registers as 32-bit words in ascending order. -/
def State.regsWrite (s : State) (x : Nat) (bs : List Byte) : List Nat → State
  | [] => s
  | a :: t => State.regsWrite (s.regWrite (.ctx x) a (BitVec.ofNat 32 (fromLE (bs.take 4)))) x (bs.drop 4) t

/-- The lines of a range that are poisoned. -/
def State.poisonLines (s : State) (a n : Nat) : List Nat := (granulesOf a n).filter fun l => (s.tiers.poison.look l).isSome

/-- Reads a row of a transfer. `ext` is what the host memory answered, once it has. -/
def State.dmaRead (s : State) (c q : Nat) (x : DmaXfer) (ext : Option ExtData) : RowRead :=
  let d := x.desc
  let n := d.rowBytes
  let a := (d.srcRow x.next).toNat
  let sp := dmaSpace d.srcShare d.src
  if sp = 2 then
    match s.shareRead c x.task.ctx (dmaOff d.srcShare a) n with
    | some bs => .data s bs
    | none => .bad s 1 dmaAddr
  else if sp = 0 then
    let o := offOf a
    if !s.dataReady o n then .wait
    else
      match s.poisonIn o n with
      | some l => .bad ((s.poisonRead l).dropReader (.dma c q)) 2 (s.poisonCause l)
      | none =>
        let (s, bs) := s.worldRead whoDma x.task.ctx o n
        .data (s.dropReader (.dma c q)) bs
  else if sp = 1 then
    match ext with
    | some (.data bs) => if bs.length = n then .data s bs else .wait
    | some .error => .bad s 1 dmaAddr
    | none => .wait
  else if sp = 3 then
    let (s, bs) := s.regsRead x.task.ctx (wordsIn (offOf a) n)
    .data s bs
  else
    match s.dmaAnswers c q 0 (pieces256 a n) with
    | none => .wait
    | some (s, rs) =>
      match firstBad rs with
      | some (st, cause) => .bad s st cause
      | none => .data s (rs.flatMap (·.data))

/-- Writes a row of a transfer and marks its bytes for the digest (R233). -/
def State.dmaWrite (s : State) (c q : Nat) (x : DmaXfer) (bs : List Byte) : State :=
  let d := x.desc
  let a := (d.dstRow x.next).toNat
  let n := bs.length
  let sp := dmaSpace d.dstShare d.dst
  let mark (key : Nat) (s : State) : State := if d.digest then s.mark x.task key n else s
  if sp = 2 then
    let o := dmaOff d.dstShare a
    mark (shareMark o) ((s.shareWrite c x.task.ctx o bs).getD s)
  else if sp = 0 then mark a (s.worldWrite whoDma x.task.ctx (offOf a) bs)
  else if sp = 1 then s.hostWrite (s.ctx x.task.ctx).fn (offOf a) bs
  else if sp = 3 then s.regsWrite x.task.ctx bs (wordsIn (offOf a) n)
  else (pieces256 a n).foldl (fun s p => s.sldIssue (s.dmaOp c q x.task.ctx 1 p.1 p.2 ((bs.drop (p.1 - a)).take p.2))) s

/-! ### Share copies (R203, R205, R499) -/

/-- A row of a SAVE: share lines that cannot be read are written as poisoned lines, and counted. -/
def State.saveRow (s : State) (c k : Nat) (x : DmaXfer) : State × Nat :=
  let r := (s.cluster c).slots.get {} k
  let o := (x.desc.srcRow x.next).toNat
  let a := offOf (x.desc.dstRow x.next).toNat
  let n := x.desc.rowBytes
  let bad := (List.range (n / 64)).filter fun i => s.spadBad.contains (r.key c (o + 64 * i) / 64)
  let s := s.worldWrite whoDma x.task.ctx a (s.slotRead c r o n)
  let poison := bad.foldl (fun (t : Tab Bool) i => t.put (a / 64 + i) false) s.tiers.poison
  ({ s with tiers := { s.tiers with poison := poison } }, bad.length)

/-- A row of a RESTORE: poisoned lines are not copied and their share lines are written zero, and counted. -/
def State.restoreRow (s : State) (c k : Nat) (x : DmaXfer) : State × Nat :=
  let r := (s.cluster c).slots.get {} k
  let a := offOf (x.desc.srcRow x.next).toNat
  let o := (x.desc.dstRow x.next).toNat
  let n := x.desc.rowBytes
  let bad := s.poisonLines a n
  let (s, bs) := s.worldRead whoDma x.task.ctx a n
  let clean := bad.foldl (fun bs l => patch bs (64 * l - a) (List.replicate 64 0)) bs
  (s.slotWrite c r o clean, bad.length)

/-! ### The commands -/

/-- Makes the tests of a queue's next transfer and issues the Solder loads of its next row. Nothing new starts while the region waits to
switch clocks (R23). -/
def State.dmaBegin (s : State) (c q : Nat) : State :=
  match s.dmaNext c q with
  | none => s
  | some (k, x) =>
    let copy := match x.use with
      | .save _ => true
      | .restore _ => true
      | _ => false
    let d := x.desc
    if !x.started && !copy && (s.dmaFault c x).isSome then s.dmaEnd c q k x 1 ((s.dmaFault c x).getD 0)
    else if !x.started && (d.rowBytes == 0 || d.rows == 0) then s.dmaEnd c q k x 0 0
    else
      let ask := dmaSpace d.srcShare d.src == 256 && !x.asked
      let s := s.setXfer c q k { x with started := true, asked := x.asked || ask }
      if ask then
        let a := (d.srcRow x.next).toNat
        (pieces256 a d.rowBytes).foldl (fun s p => s.sldIssue (s.dmaOp c q x.task.ctx 0 p.1 p.2 [])) s
      else s

/-- Writes out the next row of a queue; `none` where it has none whose data has come. -/
def State.dmaRow (s : State) (c q : Nat) (ext : Option ExtData) : Option State :=
  match s.dmaNext c q with
  | none => none
  | some (k, x) =>
    if !x.started then none
    else
      let put (s : State) (b : Nat) : State :=
        s.setXfer c q k { x with next := x.next + 1, unacked := x.unacked + 1, asked := false, bad := x.bad + b }
      match x.use with
      | .save i =>
        let (s, b) := s.saveRow c i x
        some (put s b)
      | .restore i =>
        let (s, b) := s.restoreRow c i x
        some (put s b)
      | _ =>
        match s.dmaRead c q x ext with
        | .wait => none
        | .bad s st cause => some (s.dmaEnd c q k x st cause)
        | .data s bs => some (put (s.dmaWrite c q x bs) 0)

/-- DMA_ROW (R168, R197): the engine of cluster c reads its queues' next rows into their buffers and writes one whole row out, the radio
queue's ahead of the tenant queue's. `radio` and `tenant` are what host memory has answered to each queue's row. -/
def execDmaRow (c : Nat) (radio tenant : Option ExtData) (s : State) : Host.Outcome State Fault Refusal :=
  .next (
    if !s.clusterOn c || s.holding c then s
    else
      let s := (s.dmaBegin c 0).dmaBegin c 1
      match s.dmaRow c 0 radio with
      | some t => t
      | none => (s.dmaRow c 1 tenant).getD s)

/-- DMA_ROW_ACK (R150, R181): the oldest unacknowledged row of transfer k of a queue has been acknowledged at its destination; the last one
ends the transfer. A row written to Solder is acknowledged by the answers to its stores. -/
def execDmaRowAck (c q k : Nat) (s : State) : Host.Outcome State Fault Refusal :=
  .next (
    match (s.dmaQ c q)[k]? with
    | none => s
    | some x =>
      let d := x.desc
      let a := (d.dstRow (x.next - x.unacked)).toNat
      let got : Option (State × List SldAns) :=
        if dmaSpace d.dstShare d.dst = 256 then s.dmaAnswers c q 1 (pieces256 a d.rowBytes) else some (s, [])
      if x.unacked = 0 then s
      else
        match got with
        | none => s
        | some (s, rs) =>
          let err := match x.err with
            | some e => some e
            | none => firstBad rs
          let x := { x with unacked := x.unacked - 1, err := err }
          let s := s.setXfer c q k x
          if x.unacked ≠ 0 then s
          else
            match err with
            | some (st, cause) => s.dmaOver c q k x st cause
            | none => if d.rows ≤ x.next then s.dmaOver c q k x 0 0 else s)

end Sys2Proof.Machine
end

