-- ==== Sys2Proof/Machine/Serving.lean ====
section
/-! DEFINITION. The fronthaul classifier (R294, R295) and FAPI (R311 to R313). -/

namespace Sys2Proof.Machine

/-! ### The classifier -/

/-- The entry that the words K0 to K3 hold (R294). -/
def decodeFh (k0 k1 k2 : Nat) : FhEntry :=
  { mac := bits k0 5 0, tagged := bit k0 6, vid := bits k0 18 7, proto := bits k0 20 19, plane := bits k0 22 21
    eaxc := bits k1 15 0, mask := bits k1 31 16, queue := bits k2 17 0 }

/-- Two entries agree on what a frame must carry beside its eAxC. A VID counts only with a tag. -/
def FhEntry.sameKey (a b : FhEntry) : Bool :=
  a.mac == b.mac && a.tagged == b.tagged && (!a.tagged || a.vid == b.vid) && a.proto == b.proto && a.plane == b.plane

/-- Some eAxC matches both entries (R295). -/
def FhEntry.overlaps (a b : FhEntry) : Bool :=
  a.sameKey b && (a.eaxc &&& (a.mask &&& b.mask)) == (b.eaxc &&& (a.mask &&& b.mask))

/-- The words break a rule of R294. -/
def fhBad (k0 k1 k2 k3 : Nat) : Bool :=
  decide (2 ^ 23 ≤ k0) || decide (2 ^ 32 ≤ k1) || decide (2 ^ 18 ≤ k2) || k3 != 0 || decide (2 ≤ bits k0 20 19) || bits k0 22 21 == 3

/-- FH_CLASS_ADD (R294, R295): the four words of an entry, whose queue is a NIC receive queue of the physical function. -/
def execFhClassAdd (i : Issuer) (k0 k1 k2 k3 : Nat) (s : State) : Host.Outcome State Fault Refusal :=
  .next (s.command i 0x0401 fun _ _ =>
    let e := decodeFh k0 k1 k2
    let v := s.queue e.queue
    if fhBad k0 k1 k2 k3 || !(v.en && v.typ == 4 && v.fn == 0) || s.fh.any e.overlaps then .error stArgument
    else if 16384 ≤ s.fh.length then .error stResource
    else .ok ({ s with fh := s.fh ++ [e] }, []))

/-- FH_CLASS_DEL (R294): the four words of the entry to remove. -/
def execFhClassDel (i : Issuer) (k0 k1 k2 k3 : Nat) (s : State) : Host.Outcome State Fault Refusal :=
  .next (s.command i 0x0402 fun _ _ =>
    let e := decodeFh k0 k1 k2
    if fhBad k0 k1 k2 k3 || !s.fh.contains e then .error stArgument
    else .ok ({ s with fh := s.fh.erase e }, []))

/-! ### FAPI -/

/-- The first two words of a queue entry: PHY identifier, FIRST, LAST (R312). -/
def fapiHead (e : List Byte) : Nat := word32At e 0

/-- A message in its entries (R312): 256 bytes each, one PHY, FIRST on the first alone and LAST on the last alone. Answers the PHY
and the message bytes. -/
def fapiMessage (es : List (List Byte)) : Option (Nat × List Byte) :=
  match es with
  | [] => none
  | e :: _ =>
    let phy := bits (fapiHead e) 15 0
    let last := es.length - 1
    let ok (x : List Byte × Nat) : Bool :=
      x.1.length == 256 && bits (fapiHead x.1) 15 0 == phy && bit (fapiHead x.1) 16 == decide (x.2 = 0) &&
        bit (fapiHead x.1) 17 == decide (x.2 = last)
    if es.zipIdx.all ok then some (phy, es.flatMap (·.drop 8)) else none

def State.cell (s : State) (phy : Nat) : FapiCell := s.fapi.get {} phy
def State.setCell (s : State) (phy : Nat) (c : FapiCell) : State := { s with fapi := s.fapi.put phy c }
/-- L1 firmware posts a message to L2. -/
def State.fapiSend (s : State) (phy : Nat) (m : FapiMsg) : State := { s with fapiOut := s.fapiOut ++ [(phy, m)] }

/-- L1 firmware runs. -/
def State.l1Runs (s : State) : Bool := s.boot.phase == .running || s.boot.phase == .restarting || s.boot.phase == .awaiting

/-- Handles a message of a supported type whose entries are well formed. -/
def State.fapiTake (s : State) (es : List (List Byte)) (f : State → Nat → List Byte → State) : State :=
  match fapiMessage es with
  | some (phy, body) => if s.l1Runs then f s phy body else s
  | none => s

/-- PARAM_REQUEST (R311). -/
def execParamRequest (es : List (List Byte)) (s : State) : Host.Outcome State Fault Refusal :=
  .next (s.fapiTake es fun s phy _ => s.fapiSend phy .paramResponse)

/-- CONFIG_REQUEST (R311, R313): the message sets the cell's timer and DL lead, as its body says. -/
def execConfigRequest (es : List (List Byte)) (timer lead : Nat) (s : State) : Host.Outcome State Fault Refusal :=
  .next (s.fapiTake es fun s phy _ =>
    let c := s.cell phy
    if c.st == .running then s.fapiSend phy .invalidState
    else (s.setCell phy { c with st := .configured, timer := timer % 64, lead := lead }).fapiSend phy .configResponse)

/-- START_REQUEST (R311): the cell runs. PRESUMED from SCF 222: only a configured cell starts. -/
def execStartRequest (es : List (List Byte)) (s : State) : Host.Outcome State Fault Refusal :=
  .next (s.fapiTake es fun s phy _ =>
    let c := s.cell phy
    if c.st == .configured then s.setCell phy { c with st := .running, only := [] } else s.fapiSend phy .invalidState)

/-- STOP_REQUEST (R311). -/
def execStopRequest (es : List (List Byte)) (s : State) : Host.Outcome State Fault Refusal :=
  .next (s.fapiTake es fun s phy _ =>
    let c := s.cell phy
    if c.st == .running then
      let s := s.setCell phy { c with st := .configured, only := [] }
      ({ s with fapiWork := s.fapiWork.filter (·.phy != phy) }).fapiSend phy .stopIndication
    else s.fapiSend phy .invalidState)

/-- The boundary of the slot that a message names: the one nearest to now among the frames with that SFN. -/
def State.slotBoundary (s : State) (t sfn slot : Nat) : Int :=
  let v := s.nt t
  let per : Int := Int.ofNat (10 * 2 ^ v.mu)
  let f := frameIdx (s.ntTime v.delta)
  let d := (Int.ofNat (sfn % 1024) - f) % 1024
  let d := if 512 ≤ d then d - 1024 else d
  ((f + d) * per + Int.ofNat slot) * slotNs v.mu * nsUnit

/-- R313: the request is complete by the boundary of its slot minus the DL lead. -/
def State.fapiInTime (s : State) (c : FapiCell) (sfn slot : Nat) : Bool :=
  let v := s.nt c.timer
  decide (slot < 10 * 2 ^ v.mu) && decide (s.ntTime v.delta + Int.ofNat c.lead * nsUnit ≤ s.slotBoundary c.timer sfn slot)

/-- A request for a slot: accepted, or late (R313). -/
def State.ttiRequest (s : State) (phy : Nat) (kind : FapiReq) (sfn slot : Nat) (body : List Byte) : State :=
  let c := s.cell phy
  if c.st != .running then s.fapiSend phy .invalidState
  else if s.fapiInTime c sfn slot then { s with fapiWork := s.fapiWork ++ [⟨phy, kind, sfn, slot, body⟩] }
  else (s.setCell phy { c with only := c.only ++ [(sfn, slot)] }).fapiSend phy .invalidSfn

/-- DL_TTI_REQUEST (R313). -/
def execDlTtiRequest (es : List (List Byte)) (sfn slot : Nat) (s : State) : Host.Outcome State Fault Refusal :=
  .next (s.fapiTake es fun s phy body => s.ttiRequest phy .dlTti sfn slot body)

/-- UL_TTI_REQUEST (R313). -/
def execUlTtiRequest (es : List (List Byte)) (sfn slot : Nat) (s : State) : Host.Outcome State Fault Refusal :=
  .next (s.fapiTake es fun s phy body => s.ttiRequest phy .ulTti sfn slot body)

/-- UL_DCI_REQUEST (R311). -/
def execUlDciRequest (es : List (List Byte)) (sfn slot : Nat) (s : State) : Host.Outcome State Fault Refusal :=
  .next (s.fapiTake es fun s phy body =>
    if (s.cell phy).st == .running then { s with fapiWork := s.fapiWork ++ [⟨phy, .ulDci, sfn, slot, body⟩] }
    else s.fapiSend phy .invalidState)

/-- TX_DATA_REQUEST (R311): payloads are given by pointer to a PINNED object of the physical function or to the host window; a
message with another pointer is answered as one that is not supported. -/
def execTxDataRequest (es : List (List Byte)) (sfn slot : Nat) (ptrs : List (Nat × Nat)) (s : State) : Host.Outcome State Fault Refusal :=
  .next (s.fapiTake es fun s phy body =>
    if (s.cell phy).st == .running && ptrs.all (fun p => s.hostOrPinned 0 p.1 p.2) then
      { s with fapiWork := s.fapiWork ++ [⟨phy, .txData, sfn, slot, body⟩] }
    else s.fapiSend phy .invalidState)

/-- FAPI_OTHER_MESSAGE (R311): a message of any other type is answered with ERROR.indication MSG_INVALID_STATE. -/
def execFapiOtherMessage (es : List (List Byte)) (s : State) : Host.Outcome State Fault Refusal :=
  .next (s.fapiTake es fun s phy _ => s.fapiSend phy .invalidState)

end Sys2Proof.Machine
end

