-- ==== Sys2Proof/Machine/TinDecode.lean ====
section
/-! DEFINITION. Decoding of Tin instructions: RV64GC and V of the base profile (R130 to R132) and Umtia's custom instructions (R149). -/

namespace Sys2Proof.Machine

/-- The second operand of an integer operation. -/
inductive TinSrc where
  | reg (r : Nat)
  | imm (i : Int)
  deriving DecidableEq, Repr

/-- The integer operations of OP and OP-32, with their immediate forms: funct3 with funct7 of the register form. -/
inductive TinAlu where
  | add | sub | sll | slt | sltu | xor | srl | sra | or | and
  | mul | mulh | mulhsu | mulhu | div | divu | rem | remu
  deriving DecidableEq, Repr

/-- A Tin instruction. Register operands are numbers. -/
inductive TinInsn where
  | illegal
  | lui (rd : Nat) (imm : Int)
  | auipc (rd : Nat) (imm : Int)
  | jal (rd : Nat) (off : Int)
  | jalr (rd rs1 : Nat) (off : Int)
  | branch (f3 rs1 rs2 : Nat) (off : Int)
  /-- `f3` gives width and extension; `float` loads into or stores from a float register -/
  | load (f3 rd rs1 : Nat) (off : Int) (float : Bool)
  | store (f3 rs1 rs2 : Nat) (off : Int) (float : Bool)
  | alu (op : TinAlu) (word : Bool) (rd rs1 : Nat) (src : TinSrc)
  /-- a fused multiply-add with the signs of product and addend -/
  | fma (dbl negP negC : Bool) (rd rs1 rs2 rs3 rm : Nat)
  /-- OP-FP by the upper five bits of funct7 -/
  | fop (f5 : Nat) (dbl : Bool) (rd rs1 rs2 rm : Nat)
  | csr (f3 rd rs1 num : Nat)
  | lr (dbl : Bool) (rd rs1 : Nat)
  | sc (dbl : Bool) (rd rs1 rs2 : Nat)
  | amo (op : AmoOp) (dbl aq rl : Bool) (rd rs1 rs2 : Nat)
  | fence
  | fenceI
  | ecall
  | ebreak
  /-- a configuration, arithmetic or memory instruction of V -/
  | vset (w : Nat)
  | vop (w : Nat)
  | vload (w : Nat)
  | vstore (w : Nat)
  | lsig (rs1 rs2 : Nat)
  | lwait (rs1 rs2 : Nat)
  | ltry (rd rs1 rs2 : Nat)
  | lrd (rd rs1 : Nat)
  | trpush (rs1 rs2 : Nat)
  | dmaq (rs1 rs2 : Nat)
  | pwissue (rs1 rs2 rs3 : Nat)
  | tyield
  | texit
  | dgadd (rs1 rs2 : Nat)
  | rngw (rd rs1 rs2 : Nat)
  | rngd (rd rs1 rs2 : Nat)
  | trng (rd : Nat)
  | scas (rd rs1 rs2 rs3 : Nat)
  | faadd (dbl : Bool) (rd rs1 rs2 : Nat)
  | xld (l rs1 rs2 : Nat)
  | xst (l rs1 rs2 : Nat)
  | dinv
  deriving DecidableEq, Repr

/-! ### Fields and immediates -/

def immI (w : Nat) : Int := sext 12 (bits w 31 20)
def immS (w : Nat) : Int := sext 12 (bits w 31 25 * 32 + bits w 11 7)
def immB (w : Nat) : Int := sext 13 (bits w 31 31 * 4096 + bits w 7 7 * 2048 + bits w 30 25 * 32 + bits w 11 8 * 2)
def immU (w : Nat) : Int := sext 32 (bits w 31 12 * 4096)
def immJ (w : Nat) : Int := sext 21 (bits w 31 31 * 1048576 + bits w 19 12 * 4096 + bits w 20 20 * 2048 + bits w 30 21 * 2)

/-- Register forms by funct3: funct7 0. -/
def aluBase (f3 : Nat) : TinAlu :=
  match f3 with
  | 0 => .add | 1 => .sll | 2 => .slt | 3 => .sltu | 4 => .xor | 5 => .srl | 6 => .or | _ => .and
/-- The M extension by funct3. -/
def aluMul (f3 : Nat) : TinAlu :=
  match f3 with
  | 0 => .mul | 1 => .mulh | 2 => .mulhsu | 3 => .mulhu | 4 => .div | 5 => .divu | 6 => .rem | _ => .remu

/-- OP and OP-32. -/
def decodeOp (w : Nat) (word : Bool) : TinInsn :=
  let f3 := bits w 14 12
  let f7 := bits w 31 25
  let mk (o : TinAlu) : TinInsn := .alu o word (bits w 11 7) (bits w 19 15) (.reg (bits w 24 20))
  if f7 = 0 then (if word && !([0, 1, 5].contains f3) then .illegal else mk (aluBase f3))
  else if f7 = 0x20 then (if f3 = 0 then mk .sub else if f3 = 5 then mk .sra else .illegal)
  else if f7 = 1 then (if word && [1, 2, 3].contains f3 then .illegal else mk (aluMul f3))
  else .illegal

/-- OP-IMM and OP-IMM-32. -/
def decodeOpImm (w : Nat) (word : Bool) : TinInsn :=
  let f3 := bits w 14 12
  let mk (o : TinAlu) (i : Int) : TinInsn := .alu o word (bits w 11 7) (bits w 19 15) (.imm i)
  let hi := if word then bits w 31 25 * 2 else bits w 31 26 * 4
  let sh := Int.ofNat (if word then bits w 24 20 else bits w 25 20)
  if f3 = 1 then (if hi = 0 then mk .sll sh else .illegal)
  else if f3 = 5 then (if hi = 0 then mk .srl sh else if hi = 0x40 then mk .sra sh else .illegal)
  else if word && f3 != 0 then .illegal
  else mk (aluBase f3) (immI w)

/-- The rounding-mode field is one that the F extension defines. -/
def rmOk (rm : Nat) : Bool := rm != 5 && rm != 6

/-- OP-FP. -/
def decodeFop (w : Nat) : TinInsn :=
  let f7 := bits w 31 25
  let f5 := f7 / 4
  let f3 := bits w 14 12
  let rs2 := bits w 24 20
  let ok := match f5 with
    | 0 => rmOk f3
    | 1 => rmOk f3
    | 2 => rmOk f3
    | 3 => rmOk f3
    | 11 => rmOk f3 && rs2 == 0
    | 4 => decide (f3 < 3)
    | 5 => decide (f3 < 2)
    | 8 => rmOk f3 && rs2 == 1 - f7 % 2
    | 20 => decide (f3 < 3)
    | 24 => rmOk f3 && decide (rs2 < 4)
    | 26 => rmOk f3 && decide (rs2 < 4)
    | 28 => rs2 == 0 && decide (f3 < 2)
    | 30 => rs2 == 0 && f3 == 0
    | _ => false
  if f7 % 4 < 2 && ok then .fop f5 (f7 % 4 == 1) (bits w 11 7) (bits w 19 15) rs2 f3 else .illegal

/-- The operations of the A extension by funct5. -/
def amoOf : Nat → Option AmoOp
  | 0 => some .add
  | 1 => some .swap
  | 4 => some .xor
  | 8 => some .or
  | 12 => some .and
  | 16 => some .min
  | 20 => some .max
  | 24 => some .minu
  | 28 => some .maxu
  | _ => none

/-- AMO. -/
def decodeAmo (w : Nat) : TinInsn :=
  let f3 := bits w 14 12
  let f5 := bits w 31 27
  let dbl := f3 == 3
  let rd := bits w 11 7
  let rs1 := bits w 19 15
  let rs2 := bits w 24 20
  if f3 ≠ 2 ∧ f3 ≠ 3 then .illegal
  else if f5 = 2 then (if rs2 = 0 then .lr dbl rd rs1 else .illegal)
  else if f5 = 3 then .sc dbl rd rs1 rs2
  else
    match amoOf f5 with
    | some o => .amo o dbl (bit w 26) (bit w 25) rd rs1 rs2
    | none => .illegal

/-- SYSTEM (R131): there is no privileged instruction that Tin code can run. -/
def decodeSystem (w : Nat) : TinInsn :=
  let f3 := bits w 14 12
  if f3 = 0 then (if w = 0x73 then .ecall else if w = 0x100073 then .ebreak else .illegal)
  else if f3 = 4 then .illegal
  else .csr f3 (bits w 11 7) (bits w 19 15) (bits w 31 20)

/-- LOAD-FP and STORE-FP: widths 2 and 3 are the F and D extensions, 0 and 5 to 7 vector accesses. -/
def decodeFpMem (w : Nat) (isStore : Bool) : TinInsn :=
  let f3 := bits w 14 12
  if f3 = 2 ∨ f3 = 3 then
    if isStore then .store f3 (bits w 19 15) (bits w 24 20) (immS w) true else .load f3 (bits w 11 7) (bits w 19 15) (immI w) true
  else if f3 = 0 ∨ 5 ≤ f3 then (if bit w 28 then .illegal else if isStore then .vstore w else .vload w)
  else .illegal

/-! ### V (R130) -/

/-- funct6 values of OPIVV, OPIVX and OPIVI. -/
def intF6 (f3 f6 : Nat) : Bool :=
  match f3 with
  | 0 => [0, 2, 4, 5, 6, 7, 9, 10, 11, 12, 14, 16, 17, 18, 19, 23, 24, 25, 26, 27, 28, 29, 32, 33, 34, 35, 37, 39, 40, 41, 42, 43, 44, 45,
      46, 47, 48, 49].contains f6
  | 4 => [0, 2, 3, 4, 5, 6, 7, 9, 10, 11, 12, 14, 15, 16, 17, 18, 19, 23, 24, 25, 26, 27, 28, 29, 30, 31, 32, 33, 34, 35, 37, 39, 40, 41, 42,
      43, 44, 45, 46, 47].contains f6
  | _ => [0, 3, 9, 10, 11, 12, 14, 15, 16, 17, 23, 24, 25, 28, 29, 30, 31, 32, 33, 37, 39, 40, 41, 42, 43, 44, 45, 46, 47].contains f6

/-- funct6 values of OPMVV and OPMVX. -/
def mulF6 (f3 f6 : Nat) : Bool :=
  if f3 = 2 then
    [0, 1, 2, 3, 4, 5, 6, 7, 8, 9, 10, 11, 16, 18, 20, 23, 24, 25, 26, 27, 28, 29, 30, 31, 32, 33, 34, 35, 36, 37, 38, 39, 41, 43, 45, 47, 48,
      49, 50, 51, 52, 53, 54, 55, 56, 58, 59, 60, 61, 63].contains f6
  else
    [8, 9, 10, 11, 14, 15, 16, 32, 33, 34, 35, 36, 37, 38, 39, 41, 43, 45, 47, 48, 49, 50, 51, 52, 53, 54, 55, 56, 58, 59, 60, 61, 62,
      63].contains f6

/-- funct6 values of OPFVV and OPFVF. -/
def fltF6 (f3 f6 : Nat) : Bool :=
  if f3 = 1 then
    [0, 1, 2, 3, 4, 5, 6, 7, 8, 9, 10, 16, 18, 19, 24, 25, 27, 28, 32, 36, 40, 41, 42, 43, 44, 45, 46, 47, 48, 49, 50, 51, 52, 54, 56, 60, 61,
      62, 63].contains f6
  else
    [0, 2, 4, 6, 8, 9, 10, 14, 15, 16, 23, 24, 25, 27, 28, 29, 31, 32, 33, 36, 39, 40, 41, 42, 43, 44, 45, 46, 47, 48, 50, 52, 54, 56, 60, 61,
      62, 63].contains f6

/-- The vs1 or vs2 codes of the unary groups. -/
def unaryOk (f3 f6 vs1 vs2 : Nat) : Bool :=
  if f3 = 2 ∧ f6 = 16 then [0, 16, 17].contains vs1
  else if f3 = 6 ∧ f6 = 16 then vs2 == 0
  else if f3 = 2 ∧ f6 = 18 then [2, 3, 4, 5, 6, 7].contains vs1
  else if f3 = 2 ∧ f6 = 20 then [1, 2, 3, 16, 17].contains vs1
  else if f3 = 1 ∧ f6 = 16 then vs1 == 0
  else if f3 = 5 ∧ f6 = 16 then vs2 == 0
  else if f3 = 1 ∧ f6 = 18 then [0, 1, 2, 3, 6, 7, 8, 9, 10, 11, 12, 14, 15, 16, 17, 18, 19, 20, 21, 22, 23].contains vs1
  else if f3 = 1 ∧ f6 = 19 then [0, 4, 5, 16].contains vs1
  else true

/-- OP-V. -/
def decodeV (w : Nat) : TinInsn :=
  let f3 := bits w 14 12
  let f6 := bits w 31 26
  if f3 = 7 then (if bit w 31 && !bit w 30 && bits w 29 25 != 0 then .illegal else .vset w)
  else if (if f3 = 0 ∨ f3 = 3 ∨ f3 = 4 then intF6 f3 f6 else if f3 = 2 ∨ f3 = 6 then mulF6 f3 f6 else fltF6 f3 f6) &&
      unaryOk f3 f6 (bits w 19 15) (bits w 24 20) then .vop w
  else .illegal

/-! ### Umtia's instructions (R149) -/

/-- Custom-0. A field that an instruction does not use must be zero. -/
def decodeC0 (w : Nat) : TinInsn :=
  let rd := bits w 11 7
  let rs1 := bits w 19 15
  let rs2 := bits w 24 20
  let f7 := bits w 31 25
  let need (b : Bool) (i : TinInsn) : TinInsn := if b then i else .illegal
  match bits w 14 12 with
  | 0 =>
    match f7 with
    | 0 => need (rd == 0) (.lsig rs1 rs2)
    | 1 => need (rd == 0) (.lwait rs1 rs2)
    | 2 => .ltry rd rs1 rs2
    | 3 => need (rs2 == 0) (.lrd rd rs1)
    | _ => .illegal
  | 1 =>
    match f7 with
    | 0 => need (rd == 0) (.trpush rs1 rs2)
    | 1 => need (rd == 0) (.dmaq rs1 rs2)
    | _ => .illegal
  | 2 => need (f7 % 4 == 0 && rd == 0) (.pwissue rs1 rs2 (f7 / 4))
  | 3 =>
    match f7 with
    | 0 => need (rd == 0 && rs1 == 0 && rs2 == 0) .tyield
    | 1 => need (rd == 0 && rs1 == 0 && rs2 == 0) .texit
    | _ => .illegal
  | 4 =>
    match f7 with
    | 0 => need (rd == 0) (.dgadd rs1 rs2)
    | 1 => .rngw rd rs1 rs2
    | 2 => .rngd rd rs1 rs2
    | 3 => need (rs1 == 0 && rs2 == 0) (.trng rd)
    | _ => .illegal
  | _ => .illegal

/-- Custom-1. -/
def decodeC1 (w : Nat) : TinInsn :=
  let rd := bits w 11 7
  let rs1 := bits w 19 15
  let rs2 := bits w 24 20
  let f7 := bits w 31 25
  let need (b : Bool) (i : TinInsn) : TinInsn := if b then i else .illegal
  match bits w 14 12 with
  | 0 => need (f7 % 4 == 0) (.scas rd rs1 rs2 (f7 / 4))
  | 1 => need (f7 == 0 || f7 == 1) (.faadd (f7 == 0) rd rs1 rs2)
  | 2 => need (decide (f7 < 32) && rd == 0) (.xld f7 rs1 rs2)
  | 3 => need (decide (f7 < 32) && rd == 0) (.xst f7 rs1 rs2)
  | 4 => need (f7 == 0 && rd == 0 && rs1 == 0 && rs2 == 0) .dinv
  | _ => .illegal

/-- The instruction of a 32-bit word. -/
def decode32 (w : Nat) : TinInsn :=
  let rd := bits w 11 7
  let f3 := bits w 14 12
  let rs1 := bits w 19 15
  let rs2 := bits w 24 20
  match bits w 6 0 with
  | 0x37 => .lui rd (immU w)
  | 0x17 => .auipc rd (immU w)
  | 0x6F => .jal rd (immJ w)
  | 0x67 => if f3 = 0 then .jalr rd rs1 (immI w) else .illegal
  | 0x63 => if f3 = 2 ∨ f3 = 3 then .illegal else .branch f3 rs1 rs2 (immB w)
  | 0x03 => if f3 = 7 then .illegal else .load f3 rd rs1 (immI w) false
  | 0x23 => if 3 < f3 then .illegal else .store f3 rs1 rs2 (immS w) false
  | 0x13 => decodeOpImm w false
  | 0x1B => decodeOpImm w true
  | 0x33 => decodeOp w false
  | 0x3B => decodeOp w true
  | 0x0F => if f3 = 0 then .fence else if f3 = 1 then .fenceI else .illegal
  | 0x73 => decodeSystem w
  | 0x2F => decodeAmo w
  | 0x07 => decodeFpMem w false
  | 0x27 => decodeFpMem w true
  | 0x43 => if bits w 26 25 < 2 && rmOk f3 then .fma (bit w 25) false false rd rs1 rs2 (bits w 31 27) f3 else .illegal
  | 0x47 => if bits w 26 25 < 2 && rmOk f3 then .fma (bit w 25) false true rd rs1 rs2 (bits w 31 27) f3 else .illegal
  | 0x4B => if bits w 26 25 < 2 && rmOk f3 then .fma (bit w 25) true false rd rs1 rs2 (bits w 31 27) f3 else .illegal
  | 0x4F => if bits w 26 25 < 2 && rmOk f3 then .fma (bit w 25) true true rd rs1 rs2 (bits w 31 27) f3 else .illegal
  | 0x53 => decodeFop w
  | 0x57 => decodeV w
  | 0x0B => decodeC0 w
  | 0x2B => decodeC1 w
  | _ => .illegal

/-! ### C -/

/-- Quadrant 0 of the C extension. -/
def decodeQ0 (w : Nat) : TinInsn :=
  let rd := 8 + bits w 4 2
  let rs1 := 8 + bits w 9 7
  let o4 := Int.ofNat (bits w 12 10 * 8 + bits w 6 6 * 4 + bits w 5 5 * 64)
  let o8 := Int.ofNat (bits w 12 10 * 8 + bits w 6 5 * 64)
  let sp := bits w 10 7 * 64 + bits w 12 11 * 16 + bits w 5 5 * 8 + bits w 6 6 * 4
  match bits w 15 13 with
  | 0 => if sp = 0 then .illegal else .alu .add false rd 2 (.imm (Int.ofNat sp))
  | 1 => .load 3 rd rs1 o8 true
  | 2 => .load 2 rd rs1 o4 false
  | 3 => .load 3 rd rs1 o8 false
  | 5 => .store 3 rs1 rd o8 true
  | 6 => .store 2 rs1 rd o4 false
  | 7 => .store 3 rs1 rd o8 false
  | _ => .illegal

/-- The register operations of quadrant 1. -/
def decodeQ1Alu (w : Nat) : TinInsn :=
  let rd := 8 + bits w 9 7
  let rs2 := 8 + bits w 4 2
  let sh := Int.ofNat (bits w 12 12 * 32 + bits w 6 2)
  let op (o : TinAlu) (word : Bool) : TinInsn := .alu o word rd rd (.reg rs2)
  match bits w 11 10 with
  | 0 => .alu .srl false rd rd (.imm sh)
  | 1 => .alu .sra false rd rd (.imm sh)
  | 2 => .alu .and false rd rd (.imm (sext 6 (bits w 12 12 * 32 + bits w 6 2)))
  | _ =>
    match bits w 12 12 * 4 + bits w 6 5 with
    | 0 => op .sub false
    | 1 => op .xor false
    | 2 => op .or false
    | 3 => op .and false
    | 4 => op .sub true
    | 5 => op .add true
    | _ => .illegal

/-- Quadrant 1. -/
def decodeQ1 (w : Nat) : TinInsn :=
  let rd := bits w 11 7
  let i6 := sext 6 (bits w 12 12 * 32 + bits w 6 2)
  let j := sext 12 (bits w 12 12 * 2048 + bits w 11 11 * 16 + bits w 10 9 * 256 + bits w 8 8 * 1024 + bits w 7 7 * 64 + bits w 6 6 * 128 +
    bits w 5 3 * 2 + bits w 2 2 * 32)
  let b := sext 9 (bits w 12 12 * 256 + bits w 11 10 * 8 + bits w 6 5 * 64 + bits w 4 3 * 2 + bits w 2 2 * 32)
  let sp := sext 10 (bits w 12 12 * 512 + bits w 6 6 * 16 + bits w 5 5 * 64 + bits w 4 3 * 128 + bits w 2 2 * 32)
  match bits w 15 13 with
  | 0 => .alu .add false rd rd (.imm i6)
  | 1 => if rd = 0 then .illegal else .alu .add true rd rd (.imm i6)
  | 2 => .alu .add false rd 0 (.imm i6)
  | 3 =>
    if rd = 2 then (if sp = 0 then .illegal else .alu .add false 2 2 (.imm sp))
    else if i6 = 0 then .illegal
    else .lui rd (i6 * 4096)
  | 4 => decodeQ1Alu w
  | 5 => .jal 0 j
  | 6 => .branch 0 (8 + bits w 9 7) 0 b
  | _ => .branch 1 (8 + bits w 9 7) 0 b

/-- Quadrant 2. -/
def decodeQ2 (w : Nat) : TinInsn :=
  let rd := bits w 11 7
  let rs2 := bits w 6 2
  let l4 := Int.ofNat (bits w 12 12 * 32 + bits w 6 4 * 4 + bits w 3 2 * 64)
  let l8 := Int.ofNat (bits w 12 12 * 32 + bits w 6 5 * 8 + bits w 4 2 * 64)
  let s4 := Int.ofNat (bits w 12 9 * 4 + bits w 8 7 * 64)
  let s8 := Int.ofNat (bits w 12 10 * 8 + bits w 9 7 * 64)
  match bits w 15 13 with
  | 0 => .alu .sll false rd rd (.imm (Int.ofNat (bits w 12 12 * 32 + bits w 6 2)))
  | 1 => .load 3 rd 2 l8 true
  | 2 => if rd = 0 then .illegal else .load 2 rd 2 l4 false
  | 3 => if rd = 0 then .illegal else .load 3 rd 2 l8 false
  | 4 =>
    if bit w 12 then
      if rs2 = 0 then (if rd = 0 then .ebreak else .jalr 1 rd 0)
      else .alu .add false rd rd (.reg rs2)
    else if rs2 = 0 then (if rd = 0 then .illegal else .jalr 0 rd 0)
    else .alu .add false rd 0 (.reg rs2)
  | 5 => .store 3 2 rs2 s8 true
  | 6 => .store 2 2 rs2 s4 false
  | _ => .store 3 2 rs2 s8 false

/-- The length in bytes of an instruction by its lowest half-word. -/
def tinLen (h : Nat) : Nat := if h % 4 = 3 then 4 else 2

/-- The instruction of the bits fetched: 16 of them where the two lowest are not 11. -/
def decodeTin (w : Nat) : TinInsn :=
  match w % 4 with
  | 0 => decodeQ0 (w % 2 ^ 16)
  | 1 => decodeQ1 (w % 2 ^ 16)
  | 2 => decodeQ2 (w % 2 ^ 16)
  | _ => decode32 (w % 2 ^ 32)

/-- The rows of the command table that run instructions. -/
inductive TinKind where
  | base | csr | amo | lr | sc | fence | fenceI | ecall | ebreak | lsig | lwait | ltry | lrd | trpush | dmaq | pwissue | tyield | texit
  | dgadd | rngw | rngd | trng | scas | faaddD | faaddS | xld | xst | dinv | illegal
  deriving DecidableEq, Repr

/-- The row that runs an instruction. -/
def TinInsn.kind : TinInsn → TinKind
  | .illegal => .illegal
  | .csr _ _ _ _ => .csr
  | .lr _ _ _ => .lr
  | .sc _ _ _ _ => .sc
  | .amo _ _ _ _ _ _ _ => .amo
  | .fence => .fence
  | .fenceI => .fenceI
  | .ecall => .ecall
  | .ebreak => .ebreak
  | .lsig _ _ => .lsig
  | .lwait _ _ => .lwait
  | .ltry _ _ _ => .ltry
  | .lrd _ _ => .lrd
  | .trpush _ _ => .trpush
  | .dmaq _ _ => .dmaq
  | .pwissue _ _ _ => .pwissue
  | .tyield => .tyield
  | .texit => .texit
  | .dgadd _ _ => .dgadd
  | .rngw _ _ _ => .rngw
  | .rngd _ _ _ => .rngd
  | .trng _ => .trng
  | .scas _ _ _ _ => .scas
  | .faadd d _ _ _ => if d then .faaddD else .faaddS
  | .xld _ _ _ => .xld
  | .xst _ _ _ => .xst
  | .dinv => .dinv
  | _ => .base

end Sys2Proof.Machine
end

