-- ==== Sys2Proof/Machine/Flags.lean ====
section
/-! DEFINITION. The exception flags of Tin floating point (R130, R133): which flags a rounding and an operation raise. Tininess is detected
after rounding, and every NaN produced is the canonical NaN of R73. -/

namespace Sys2Proof.Machine

/-- Exception flags as fflags holds them. -/
def flagNX : Nat := 1
def flagUF : Nat := 2
def flagOF : Nat := 4
def flagDZ : Nat := 8
def flagNV : Nat := 16

/-- A result code with the flags raised. -/
abbrev FRes := Nat × Nat

/-! ### Classes of codes -/

def FFmt.isNan (f : FFmt) (c : Nat) : Bool := decodeF f c == .nan
def FFmt.isSnan (f : FFmt) (c : Nat) : Bool := f.isNan c && !bit c (f.mb - 1)
def FFmt.neg (f : FFmt) (c : Nat) : Bool := bit c (f.eb + f.mb)
/-- A code without its sign bit. -/
def FFmt.mag (f : FFmt) (c : Nat) : Nat := c % 2 ^ (f.eb + f.mb)

/-- The exact value of a nonzero finite value lies below the smallest normal one once it is rounded with an unbounded exponent. -/
def FFmt.tiny (f : FFmt) (r : Round) (neg : Bool) (m : Nat) (e : Int) : Bool :=
  let q : Int := Int.ofNat m.log2 + e - Int.ofNat f.mb
  if m = 0 ∨ f.minExp ≤ q then false
  else
    let n :=
      if q ≤ e then m * 2 ^ (e - q).toNat
      else
        let sh := (q - e).toNat
        let k := m / 2 ^ sh
        if roundAway r neg k (m % 2 ^ sh) sh then k + 1 else k
    decide (q + Int.ofNat n.log2 < f.minExp + Int.ofNat f.mb)

/-- Rounds an exact value into a format. -/
def FFmt.round (f : FFmt) (r : Round) (x : FNum) : FRes :=
  match x with
  | .num neg m e =>
    let c := roundMag f r neg m e
    if f.maxCode < c.1 then (encodeF f r x, flagOF + flagNX)
    else (f.signBit neg + c.1, if c.2 then (if f.tiny r neg m e then flagUF + flagNX else flagNX) else 0)
  | _ => (encodeF f r x, 0)

/-- Rounds to odd: towards zero, the last bit set where the result is inexact (vfncvt.rod.f.f.w). -/
def FFmt.roundOdd (f : FFmt) (x : FNum) : FRes :=
  let r := f.round .rtz x
  if r.2 % 2 = 1 then (r.1 ||| 1, r.2) else r

/-- The result of an operation with operand codes `ins`: NV for a signalling NaN, or where a NaN arises from operands that are none. -/
def FFmt.result (f : FFmt) (r : Round) (ins : List Nat) (z : FNum) : FRes :=
  let o := f.round r z
  (o.1, o.2 ||| (if ins.any f.isSnan || (z == .nan && !ins.any f.isNan) then flagNV else 0))

end Sys2Proof.Machine
end

