-- ==== Sys2Proof/Machine/TinFloat.lean ====
section
/-! DEFINITION. Floating point of the Tin base profile (R130, R133): the operations of the F, D and V extensions of RISC-V on binary32 and
binary64 codes, each answering its result and the exception flags it raises. -/

namespace Sys2Proof.Machine

/-! ### Arithmetic -/

/-- The exact sum, an exact zero from unlike signs taking the sign of the rounding mode. -/
def sumF (r : Round) (a b : FNum) : FNum :=
  match a, b with
  | .num na _ _, .num nb _ _ =>
    match addF a b with
    | .num _ 0 e => .num (if na = nb then na else r == .rdn) 0 e
    | x => x
  | _, _ => addF a b

/-- The exact quotient with enough bits for one rounding, its last bit sticky. -/
def FFmt.quo (f : FFmt) (a b : FNum) : FNum :=
  match a, b with
  | .nan, _ => .nan
  | _, .nan => .nan
  | .inf _, .inf _ => .nan
  | .inf n, .num k _ _ => .inf (n != k)
  | .num n _ _, .inf k => .num (n != k) 0 0
  | .num n ma ea, .num k mb eb =>
    if mb = 0 then (if ma = 0 then .nan else .inf (n != k))
    else
      let sh := f.mb + 4 + mb.log2
      let q := ma * 2 ^ sh / mb
      let st := if ma * 2 ^ sh % mb = 0 then 0 else 1
      .num (n != k) (2 * q + st) (ea - eb - Int.ofNat sh - 1)

/-- The integer square root, bit by bit from 2^k down. -/
def isqrtFrom (n : Nat) : Nat → Nat → Nat
  | 0, r => r
  | k + 1, r => isqrtFrom n k (if (r + 2 ^ k) * (r + 2 ^ k) ≤ n then r + 2 ^ k else r)

/-- The integer square root. -/
def isqrt (n : Nat) : Nat := isqrtFrom n (n.log2 / 2 + 1) 0

/-- The exact square root with enough bits for one rounding, its last bit sticky. -/
def FFmt.root (f : FFmt) : FNum → FNum
  | .nan => .nan
  | .inf neg => if neg then .nan else .inf false
  | .num neg m e =>
    if m = 0 then .num neg 0 e
    else if neg then .nan
    else
      let sh := 2 * (f.mb + 4) + (if e % 2 = 0 then 0 else 1)
      let n := m * 2 ^ sh
      let q := isqrt n
      .num false (2 * q + (if q * q = n then 0 else 1)) ((e - Int.ofNat sh) / 2 - 1)

def FFmt.add (f : FFmt) (r : Round) (a b : Nat) : FRes := f.result r [a, b] (sumF r (decodeF f a) (decodeF f b))
def FFmt.sub (f : FFmt) (r : Round) (a b : Nat) : FRes := f.result r [a, b] (sumF r (decodeF f a) (negF (decodeF f b)))
def FFmt.mul (f : FFmt) (r : Round) (a b : Nat) : FRes := f.result r [a, b] (mulF (decodeF f a) (decodeF f b))
/-- Division; a nonzero finite value divided by zero raises DZ. -/
def FFmt.div (f : FFmt) (r : Round) (a b : Nat) : FRes :=
  let x := decodeF f a
  let y := decodeF f b
  let o := f.result r [a, b] (f.quo x y)
  match x, y with
  | .num _ ma _, .num _ mb _ => if ma ≠ 0 ∧ mb = 0 then (o.1, flagDZ) else o
  | _, _ => o
def FFmt.sqrt (f : FFmt) (r : Round) (a : Nat) : FRes := f.result r [a] (f.root (decodeF f a))

/-- Fused multiply-add: ±(a × b) ± c with one rounding. NV is raised by infinity × 0 even where c is a quiet NaN. -/
def FFmt.fma (f : FFmt) (r : Round) (negP negC : Bool) (a b c : Nat) : FRes :=
  let p := mulF (decodeF f a) (decodeF f b)
  let p := if negP then negF p else p
  let z := decodeF f c
  let z := if negC then negF z else z
  let o := f.result r [a, b, c] (sumF r p z)
  (o.1, o.2 ||| (if p == .nan && !f.isNan a && !f.isNan b then flagNV else 0))

/-! ### Comparisons -/

/-- a ≤ b; false where one is a NaN. -/
def leF : FNum → FNum → Bool
  | .nan, _ => false
  | _, .nan => false
  | .inf true, _ => true
  | _, .inf false => true
  | .inf false, _ => false
  | _, .inf true => false
  | .num na ma ea, .num nb mb eb =>
    let e0 := min ea eb
    decide (scaled na ma ea e0 ≤ scaled nb mb eb e0)

/-- a < b. -/
def ltF (a b : FNum) : Bool := a != .nan && b != .nan && !leF b a

def FFmt.anySnan (f : FFmt) (a b : Nat) : Nat := if f.isSnan a || f.isSnan b then flagNV else 0
def FFmt.anyNan (f : FFmt) (a b : Nat) : Nat := if f.isNan a || f.isNan b then flagNV else 0

/-- The quiet comparison feq. -/
def FFmt.feq (f : FFmt) (a b : Nat) : FRes :=
  (b2n (leF (decodeF f a) (decodeF f b) && leF (decodeF f b) (decodeF f a)), f.anySnan a b)
/-- The signalling comparisons flt and fle. -/
def FFmt.flt (f : FFmt) (a b : Nat) : FRes := (b2n (ltF (decodeF f a) (decodeF f b)), f.anyNan a b)
def FFmt.fle (f : FFmt) (a b : Nat) : FRes := (b2n (leF (decodeF f a) (decodeF f b)), f.anyNan a b)

/-- minimumNumber and maximumNumber, −0 below +0. -/
def FFmt.minmax (f : FFmt) (mx : Bool) (a b : Nat) : FRes :=
  let x := decodeF f a
  let y := decodeF f b
  let lower :=
    if ltF x y then true else if ltF y x then false else f.neg a
  let c :=
    if x == .nan && y == .nan then f.nanCode
    else if x == .nan then b
    else if y == .nan then a
    else if lower = mx then b else a
  (c, f.anySnan a b)

/-- fclass: the ten classes. -/
def FFmt.classify (f : FFmt) (c : Nat) : Nat :=
  let neg := f.neg c
  let k := match decodeF f c with
    | .nan => if f.isSnan c then 8 else 9
    | .inf _ => if neg then 0 else 7
    | .num _ m _ =>
      if m = 0 then (if neg then 3 else 4)
      else if f.mag c < 2 ^ f.mb then (if neg then 2 else 5)
      else if neg then 1 else 6
  2 ^ k

/-- Sign injection: 0 the sign of b, 1 its opposite, 2 the exclusive or. -/
def FFmt.inject (f : FFmt) (how a b : Nat) : Nat :=
  let s := match how with
    | 0 => f.neg b
    | 1 => !f.neg b
    | _ => f.neg a != f.neg b
  f.signBit s + f.mag a

/-! ### Conversions -/

/-- The integer a finite magnitude m × 2^e rounds to, and whether it is inexact. -/
def fToIntExact (r : Round) (neg : Bool) (m : Nat) (e : Int) : Int × Bool :=
  let k : Nat × Bool :=
    if 0 ≤ e then (m * 2 ^ e.toNat, false)
    else
      let sh := (-e).toNat
      let n := m / 2 ^ sh
      (if roundAway r neg n (m % 2 ^ sh) sh then n + 1 else n, decide (m % 2 ^ sh ≠ 0))
  (if neg then -Int.ofNat k.1 else Int.ofNat k.1, k.2)

/-- Float to a w-bit integer; out of range saturates and raises NV, and a NaN counts as the largest value. -/
def FFmt.toInt (f : FFmt) (r : Round) (signed : Bool) (w c : Nat) : FRes :=
  let hi : Int := Int.ofNat (2 ^ (if signed then w - 1 else w)) - 1
  let lo : Int := if signed then -Int.ofNat (2 ^ (w - 1)) else 0
  match decodeF f c with
  | .nan => (wrap w hi, flagNV)
  | .inf neg => (wrap w (if neg then lo else hi), flagNV)
  | .num neg m e =>
    let k := fToIntExact r neg m e
    if k.1 < lo then (wrap w lo, flagNV)
    else if hi < k.1 then (wrap w hi, flagNV)
    else (wrap w k.1, if k.2 then flagNX else 0)

/-- A w-bit integer to float. -/
def FFmt.ofInt (f : FFmt) (r : Round) (signed : Bool) (w c : Nat) : FRes :=
  f.round r (numOfInt (if signed then sext w c else Int.ofNat (c % 2 ^ w)) 0)

/-- Float to float, from format f to format g. -/
def FFmt.convert (f g : FFmt) (r : Round) (c : Nat) : FRes := g.result r (if f.isSnan c then [g.infCode + 1] else if f.isNan c then [g.nanCode] else []) (decodeF f c)

/-! ### The 7-bit estimates of the V extension -/

/-- The significand field and exponent of a nonzero finite code, a subnormal normalised: exponents at or below 0 tell by how much. -/
def FFmt.normal (f : FFmt) (c : Nat) : Int × Nat :=
  let e := f.mag c / 2 ^ f.mb
  let m := c % 2 ^ f.mb
  if e = 0 then
    let lz := f.mb - 1 - m.log2
    (-Int.ofNat lz, m * 2 ^ (lz + 1) % 2 ^ f.mb)
  else (Int.ofNat e, m)

/-- vfrec7: seven bits of the reciprocal. -/
def FFmt.rec7 (f : FFmt) (r : Round) (c : Nat) : FRes :=
  let neg := f.neg c
  match decodeF f c with
  | .nan => (f.nanCode, if f.isSnan c then flagNV else 0)
  | .inf _ => (f.signBit neg, 0)
  | .num _ m _ =>
    let n := f.normal c
    if m = 0 then (f.signBit neg + f.infCode, flagDZ)
    else if n.1 < -1 then
      let down := match r with
        | .rtz => true
        | .rdn => !neg
        | .rup => neg
        | _ => false
      (f.signBit neg + (if down then f.maxCode else f.infCode), flagOF + flagNX)
    else
      let i := n.2 / 2 ^ (f.mb - 7)
      let sig := ((131072 / (257 + 2 * i) + 1) / 2 - 128) * 2 ^ (f.mb - 7)
      let e : Int := 2 * (Int.ofNat (2 ^ (f.eb - 1)) - 1) - 1 - n.1
      if e = 0 then (f.signBit neg + (2 ^ f.mb + sig) / 2, 0)
      else if e = -1 then (f.signBit neg + (2 ^ f.mb + sig) / 4, 0)
      else (f.signBit neg + e.toNat * 2 ^ f.mb + sig, 0)

/-- vfrsqrt7: seven bits of the reciprocal square root. -/
def FFmt.rsqrt7 (f : FFmt) (c : Nat) : FRes :=
  let neg := f.neg c
  match decodeF f c with
  | .nan => (f.nanCode, if f.isSnan c then flagNV else 0)
  | .inf _ => if neg then (f.nanCode, flagNV) else (0, 0)
  | .num _ m _ =>
    if m = 0 then (f.signBit neg + f.infCode, flagDZ)
    else if neg then (f.nanCode, flagNV)
    else
      let n := f.normal c
      let i := n.2 / 2 ^ (f.mb - 6)
      let x := if n.1 % 2 = 0 then 2 ^ 24 else 2 ^ 25
      let sig := ((isqrt (x / (129 + 2 * i)) + 1) / 2 - 128) * 2 ^ (f.mb - 7)
      let e : Int := (3 * (Int.ofNat (2 ^ (f.eb - 1)) - 1) - 1 - n.1) / 2
      (e.toNat * 2 ^ f.mb + sig, 0)

/-! ### Float registers -/

/-- The rounding mode of a 3-bit code; 5 to 7 name none. -/
def roundOf : Nat → Option Round
  | 0 => some .rne
  | 1 => some .rtz
  | 2 => some .rdn
  | 3 => some .rup
  | 4 => some .rmm
  | _ => none

/-- The format of a value of 4 or 8 bytes. -/
def fmtOf (dbl : Bool) : FFmt := if dbl then fp64 else fp32

/-- A 64-bit float register as a binary32 operand: the canonical NaN where it is not NaN-boxed. -/
def unbox (v : W64) : Nat := if v.toNat / 2 ^ 32 = 2 ^ 32 - 1 then v.toNat % 2 ^ 32 else fp32.nanCode

/-- A register operand in a format. -/
def operandF (dbl : Bool) (v : W64) : Nat := if dbl then v.toNat else unbox v

/-- A result in a register, NaN-boxed when it is binary32. -/
def boxF (dbl : Bool) (c : Nat) : W64 := if dbl then BitVec.ofNat 64 c else BitVec.ofNat 64 ((2 ^ 32 - 1) * 2 ^ 32 + c % 2 ^ 32)

end Sys2Proof.Machine
end

