-- ==== Sys2Proof/Machine/TinInt.lean ====
section
/-! DEFINITION. What the scalar instructions of the base profile compute (R130, R133): registers, integer operations, branches and
floating point. -/

namespace Sys2Proof.Machine

/-! ### Registers -/

/-- Integer register r; x0 reads zero. -/
def TinThread.getX (th : TinThread) (r : Nat) : W64 := if r = 0 then 0 else th.x.get 0 r
/-- Writes integer register r; a write of x0 is discarded. -/
def TinThread.setX (th : TinThread) (r : Nat) (v : W64) : TinThread := if r = 0 then th else { th with x := Tab.set 0 th.x r v }
/-- Float register r, 64 bits. -/
def TinThread.getF (th : TinThread) (r : Nat) : W64 := th.f.get 0 r
def TinThread.setF (th : TinThread) (r : Nat) (v : W64) : TinThread := { th with f := Tab.set 0 th.f r v }
/-- Raises floating-point exception flags. -/
def TinThread.raise (th : TinThread) (fl : Nat) : TinThread := { th with fcsr := th.fcsr ||| fl }
/-- frm. -/
def TinThread.frm (th : TinThread) : Nat := bits th.fcsr 7 5

/-- The low 64 bits of an integer. -/
def w64 (x : Int) : W64 := BitVec.ofNat 64 (wrap 64 x)
/-- The value of the low n bits, sign-extended to 64. -/
def sx64 (n x : Nat) : W64 := w64 (sext n x)

/-! ### Integer operations -/

/-- An integer operation on n-bit operands (n is 64, or 32 for the word forms), as an n-bit pattern. Division by zero and signed overflow
answer as the M extension states. -/
def TinAlu.run (o : TinAlu) (n a b : Nat) : Nat :=
  let a := a % 2 ^ n
  let b := b % 2 ^ n
  let sa := sext n a
  let sb := sext n b
  let sh := b % n
  match o with
  | .add => wrap n (Int.ofNat a + Int.ofNat b)
  | .sub => wrap n (Int.ofNat a - Int.ofNat b)
  | .sll => a * 2 ^ sh % 2 ^ n
  | .slt => b2n (decide (sa < sb))
  | .sltu => b2n (decide (a < b))
  | .xor => a ^^^ b
  | .srl => a / 2 ^ sh
  | .sra => wrap n (asr sa sh)
  | .or => a ||| b
  | .and => a &&& b
  | .mul => a * b % 2 ^ n
  | .mulh => wrap n (asr (sa * sb) n)
  | .mulhsu => wrap n (asr (sa * Int.ofNat b) n)
  | .mulhu => a * b / 2 ^ n
  | .div => if b = 0 then 2 ^ n - 1 else wrap n (sa.tdiv sb)
  | .divu => if b = 0 then 2 ^ n - 1 else a / b
  | .rem => if b = 0 then a else wrap n (sa.tmod sb)
  | .remu => if b = 0 then a else a % b

/-- The result of an integer instruction. -/
def TinAlu.result (o : TinAlu) (word : Bool) (a b : W64) : W64 :=
  if word then sx64 32 (o.run 32 a.toNat b.toNat) else BitVec.ofNat 64 (o.run 64 a.toNat b.toNat)

/-- The second operand. -/
def TinThread.src (th : TinThread) : TinSrc → W64
  | .reg r => th.getX r
  | .imm i => w64 i

/-- The condition of a branch. -/
def branchTaken (f3 : Nat) (a b : W64) : Bool :=
  match f3 with
  | 0 => a == b
  | 1 => a != b
  | 4 => decide (a.toInt < b.toInt)
  | 5 => decide (b.toInt ≤ a.toInt)
  | 6 => decide (a.toNat < b.toNat)
  | _ => decide (b.toNat ≤ a.toNat)

/-! ### Floating point -/

/-- The rounding mode that an instruction's rm field selects; 7 selects frm. -/
def TinThread.round (th : TinThread) (rm : Nat) : Option Round := roundOf (if rm = 7 then th.frm else rm)

/-- A float result with its flags. -/
def TinThread.putF (th : TinThread) (dbl : Bool) (rd : Nat) (r : FRes) : TinThread := (th.setF rd (boxF dbl r.1)).raise r.2
/-- An integer result of w bits, sign-extended, with its flags. -/
def TinThread.putX (th : TinThread) (w rd : Nat) (r : FRes) : TinThread := (th.setX rd (sx64 w r.1)).raise r.2

/-- OP-FP; `none` where frm names no rounding mode. -/
def TinThread.fop (th : TinThread) (f5 : Nat) (dbl : Bool) (rd rs1 rs2 rm : Nat) : Option TinThread :=
  let f := fmtOf dbl
  let a := operandF dbl (th.getF rs1)
  let b := operandF dbl (th.getF rs2)
  let w := if rs2 < 2 then 32 else 64
  let signed := rs2 % 2 == 0
  let rounded (k : Round → TinThread) : Option TinThread := (th.round rm).map k
  match f5 with
  | 0 => rounded fun r => th.putF dbl rd (f.add r a b)
  | 1 => rounded fun r => th.putF dbl rd (f.sub r a b)
  | 2 => rounded fun r => th.putF dbl rd (f.mul r a b)
  | 3 => rounded fun r => th.putF dbl rd (f.div r a b)
  | 11 => rounded fun r => th.putF dbl rd (f.sqrt r a)
  | 4 => some (th.putF dbl rd (f.inject rm a b, 0))
  | 5 => some (th.putF dbl rd (f.minmax (rm == 1) a b))
  | 8 => rounded fun r => th.putF dbl rd ((fmtOf !dbl).convert f r (operandF (!dbl) (th.getF rs1)))
  | 20 => some (th.putX 64 rd (if rm = 0 then f.fle a b else if rm = 1 then f.flt a b else f.feq a b))
  | 24 => rounded fun r => th.putX w rd (f.toInt r signed w a)
  | 26 => rounded fun r => th.putF dbl rd (f.ofInt r signed w (th.getX rs1).toNat)
  | 28 =>
    if rm = 1 then some (th.setX rd (BitVec.ofNat 64 (f.classify a)))
    else some (th.setX rd (if dbl then th.getF rs1 else sx64 32 (th.getF rs1).toNat))
  | _ => some (th.setF rd (boxF dbl (th.getX rs1).toNat))

/-- A fused multiply-add. -/
def TinThread.fmadd (th : TinThread) (dbl negP negC : Bool) (rd rs1 rs2 rs3 rm : Nat) : Option TinThread :=
  let x (r : Nat) : Nat := operandF dbl (th.getF r)
  (th.round rm).map fun r => th.putF dbl rd ((fmtOf dbl).fma r negP negC (x rs1) (x rs2) (x rs3))

/-! ### CSRs (R132) -/

/-- vtype, vl and the vector length in bytes. -/
def vlenBytes : Nat := 64

/-- A CSR of R132 that holds state; `none` for every other number. -/
def TinThread.csr (th : TinThread) (n : Nat) : Option Nat :=
  match n with
  | 0x001 => some (th.fcsr % 32)
  | 0x002 => some th.frm
  | 0x003 => some (th.fcsr % 256)
  | 0x008 => some th.vstart
  | 0x009 => some th.vxsat
  | 0x00A => some th.vxrm
  | 0x00F => some (th.vxsat + 2 * th.vxrm)
  | 0xC20 => some th.vl
  | 0xC21 => some th.vtype.toNat
  | 0xC22 => some vlenBytes
  | _ => none

/-- Writes a CSR; vl, vtype and vlenb are read-only (`none`). vstart holds element indexes up to VLMAX − 1 at the smallest SEW. -/
def TinThread.setCsr (th : TinThread) (n v : Nat) : Option TinThread :=
  match n with
  | 0x001 => some { th with fcsr := th.fcsr / 32 * 32 + v % 32 }
  | 0x002 => some { th with fcsr := th.fcsr % 32 + v % 8 * 32 }
  | 0x003 => some { th with fcsr := v % 256 }
  | 0x008 => some { th with vstart := v % 512 }
  | 0x009 => some { th with vxsat := v % 2 }
  | 0x00A => some { th with vxrm := v % 4 }
  | 0x00F => some { th with vxsat := v % 2, vxrm := v / 2 % 4 }
  | _ => none

end Sys2Proof.Machine
end

