-- ==== Sys2Proof/Machine/TinVector.lean ====
section
/-! DEFINITION. The V extension at VLEN 512 and ELEN 64 (R130, R133): configuration, register groups, masks, and the integer, fixed-point,
reduction, mask and permutation instructions. A form that the extension reserves is no instruction here and faults as ILLEGAL. -/

namespace Sys2Proof.Machine

/-! ### Configuration -/

/-- vtype's fields: SEW in bits and LMUL in eighths. -/
structure VCfg where
  sew : Nat
  l8 : Nat
  vl : Nat
  start : Nat
  ta : Bool
  ma : Bool

/-- LMUL in eighths by vlmul; `none` for the reserved code 4. -/
def lmulOf : Nat → Option Nat
  | 0 => some 8 | 1 => some 16 | 2 => some 32 | 3 => some 64 | 5 => some 1 | 6 => some 2 | 7 => some 4 | _ => none

/-- Elements of a group of l8 eighths of a register. -/
def vElems (sew l8 : Nat) : Nat := 64 * l8 / sew

/-- VLMAX of a vtype value; `none` where it sets vill: reserved codes and bits, and SEW beyond LMUL × ELEN for a fractional LMUL. -/
def vlmaxOf (vt : Nat) : Option Nat :=
  match lmulOf (vt % 8) with
  | none => none
  | some l8 =>
    let sew := 8 * 2 ^ bits vt 5 3
    if 64 < sew ∨ 256 ≤ vt ∨ (l8 < 8 ∧ 8 * l8 < sew) then none else some (vElems sew l8)

/-- The settings in force; `none` while vill is set. -/
def TinThread.vcfg (th : TinThread) : Option VCfg :=
  let vt := th.vtype.toNat
  if th.vtype.getLsbD 63 then none
  else (lmulOf (vt % 8)).map fun l8 => ⟨8 * 2 ^ bits vt 5 3, l8, th.vl, th.vstart, bit vt 6, bit vt 7⟩

/-- The vl that an AVL gives. -/
def vlFor (avl vlmax : Nat) : Nat :=
  if avl ≤ vlmax then avl
  else if 2 * vlmax ≤ avl then vlmax
  else max (ceilDiv avl 2) (min vlmax (Config.vlChoice avl vlmax))

/-- vsetvli, vsetivli and vsetvl. -/
def TinThread.vset (th : TinThread) (w : Nat) : TinThread :=
  let rd := bits w 11 7
  let rs1 := bits w 19 15
  let vt := if !bit w 31 then bits w 30 20 else if bit w 30 then bits w 29 20 else (th.getX (bits w 24 20)).toNat
  let bad := { th with vtype := BitVec.ofNat 64 (2 ^ 63), vl := 0, vstart := 0 }.setX rd 0
  let put (n : Nat) : TinThread := { th with vtype := BitVec.ofNat 64 vt, vl := n, vstart := 0 }.setX rd (BitVec.ofNat 64 n)
  match vlmaxOf vt with
  | none => bad
  | some mx =>
    if bit w 31 && bit w 30 then put (vlFor rs1 mx)
    else if rs1 ≠ 0 then put (vlFor (th.getX rs1).toNat mx)
    else if rd ≠ 0 then put mx
    else
      match th.vcfg with
      | some c => if vElems c.sew c.l8 = mx then put th.vl else bad
      | none => bad

/-! ### Elements -/

/-- Registers of a group of l8 eighths. -/
def vRegs (l8 : Nat) : Nat := max 1 (l8 / 8)

/-- Element i of the group from register r, of `eew` bits; eew 1 is a mask bit. -/
def TinThread.vGet (th : TinThread) (r eew i : Nat) : Nat :=
  if eew = 1 then b2n ((th.v.get 0 (64 * r + i / 8)).getLsbD (i % 8))
  else fromLE ((List.range (eew / 8)).map fun k => th.v.get 0 (64 * r + i * (eew / 8) + k))

/-- Writes consecutive vector bytes. -/
def vWrite (v : Tab Byte) (k : Nat) : List Byte → Tab Byte
  | [] => v
  | b :: bs => vWrite (Tab.set 0 v k b) (k + 1) bs

/-- Writes element i of a group. -/
def TinThread.vPut (th : TinThread) (r eew i x : Nat) : TinThread :=
  if eew = 1 then
    let k := 64 * r + i / 8
    let o := (th.v.get 0 k).toNat
    { th with v := Tab.set 0 th.v k (BitVec.ofNat 8 (setBits o (i % 8) (i % 8) x)) }
  else { th with v := vWrite th.v (64 * r + i * (eew / 8)) (toLE (eew / 8) x) }

/-- Element i is active: unmasked, or its bit of v0 is set. -/
def TinThread.vAct (th : TinThread) (w i : Nat) : Bool := bit w 25 || th.vGet 0 1 i == 1

/-! ### Reserved register operands -/

/-- A group is legal: 1/8 to 8 registers, its number a multiple of its size. -/
def vOk (r l8 : Nat) : Bool := decide (1 ≤ l8) && decide (l8 ≤ 64) && r % vRegs l8 == 0

/-- The destination group `d` may be written while the source group `r` of another element width is read: no overlap, equal widths, a
narrower destination in the lowest part, or a wider one in the highest part of a source of at least one register. -/
def vOver (d dl de r rl re : Nat) : Bool :=
  !(decide (d < r + vRegs rl) && decide (r < d + vRegs dl)) || de == re || (decide (de < re) && d == r) ||
    (decide (re < de) && decide (8 ≤ rl) && d + vRegs dl == r + vRegs rl)

/-- Groups without common register. -/
def vApart (d dl r rl : Nat) : Bool := !(decide (d < r + vRegs rl) && decide (r < d + vRegs dl))

/-- No register is read with two element widths, the mask's being 1: groups by register, size in eighths and width. -/
def vReads (w : Nat) (ops : List (Nat × Nat × Nat)) : Bool :=
  let all := if bit w 25 then ops else (0, 8, 1) :: ops
  all.all fun a => all.all fun b => a.2.2 == b.2.2 || vApart a.1 a.2.1 b.1 b.2.1

/-- A masked instruction does not write v0 with a result that is no mask or scalar. -/
def vMaskOk (w d : Nat) : Bool := bit w 25 || d != 0

/-! ### Element loops -/

/-- Sets element i to agnostic contents. -/
def TinThread.vAgn (th : TinThread) (w r eew i : Nat) : TinThread :=
  if Config.agnosticOnes w i then th.vPut r eew i (2 ^ eew - 1) else th

/-- Writes the elements from i: `f` gives the value and the flags (fflags, and vxsat in bit 5) of an active one; `tail` and `maskA` tell
whether the elements past vl and the masked ones are agnostic. Values come from the state before the instruction. -/
def vLoop (w d eew vl : Nat) (tail maskA : Bool) (act : Nat → Bool) (f : Nat → Nat × Nat) : Nat → Nat → TinThread → TinThread
  | 0, _, th => th
  | n + 1, i, th =>
    let th :=
      if vl ≤ i then (if tail then th.vAgn w d eew i else th)
      else if act i then
        let x := f i
        { (th.vPut d eew i x.1).raise (x.2 % 32) with vxsat := th.vxsat ||| x.2 / 32 }
      else if maskA then th.vAgn w d eew i
      else th
    vLoop w d eew vl tail maskA act f n (i + 1) th

/-- An instruction that writes the elements vstart to vl − 1 of the group `d`. With vstart at vl or beyond it writes none. -/
def TinThread.vEach (th : TinThread) (c : VCfg) (w d eew l8 : Nat) (act : Nat → Bool) (f : Nat → Nat × Nat) : TinThread :=
  let n := vElems eew (8 * vRegs l8)
  if c.vl ≤ c.start then { th with vstart := 0 }
  else { vLoop w d eew c.vl c.ta c.ma act f (n - c.start) c.start th with vstart := 0 }

/-- The same for a mask destination, whose tail is always agnostic. -/
def TinThread.vMask (th : TinThread) (c : VCfg) (w d : Nat) (act : Nat → Bool) (f : Nat → Nat × Nat) : TinThread :=
  if c.vl ≤ c.start then { th with vstart := 0 }
  else { vLoop w d 1 c.vl true c.ma act f (512 - c.start) c.start th with vstart := 0 }

/-- Writes element 0 of register d, the others being tail. -/
def TinThread.vScalar (th : TinThread) (c : VCfg) (w d eew : Nat) (x : Nat × Nat) : TinThread :=
  if c.vl ≤ c.start then { th with vstart := 0 }
  else { vLoop w d eew 1 c.ta false (fun _ => true) (fun _ => x) (512 / eew) 0 th with vstart := 0 }

/-- A value without flags. -/
def pure0 (x : Nat) : Nat × Nat := (x, 0)

/-! ### Fixed point -/

/-- v / 2^d rounded by vxrm: 0 nearest up, 1 nearest even, 2 down, 3 to odd. -/
def vRoundOff (vxrm : Nat) (v : Int) (d : Nat) : Int :=
  if d = 0 then v
  else
    let q := asr v d
    let rem := (v % Int.ofNat (2 ^ d)).toNat
    let half := 2 ^ (d - 1)
    let up := match vxrm with
      | 0 => decide (half ≤ rem)
      | 1 => decide (half < rem) || (rem == half && q % 2 == 1)
      | 2 => false
      | _ => rem != 0 && q % 2 == 0
    if up then q + 1 else q

/-- Clips to a signed n-bit range, telling vxsat in bit 5. -/
def vClipS (n : Nat) (x : Int) : Nat × Nat := (wrap n (satS n x), if satS n x = x then 0 else 32)
/-- Clips to an unsigned n-bit range. -/
def vClipU (n : Nat) (x : Int) : Nat × Nat :=
  if x < 0 then (0, 32) else if Int.ofNat (2 ^ n) ≤ x then (2 ^ n - 1, 32) else (x.toNat, 0)

/-! ### Single-width integer operations -/

/-- OPIVV, OPIVX and OPIVI operations on elements of n bits: `a` from vs2 and `b` the other operand. -/
def vIntOp (f6 n vxrm a b : Nat) : Nat × Nat :=
  let sa := sext n a
  let sb := sext n b
  let sh := b % n
  match f6 with
  | 0 => pure0 (TinAlu.run .add n a b)
  | 2 => pure0 (TinAlu.run .sub n a b)
  | 3 => pure0 (TinAlu.run .sub n b a)
  | 4 => pure0 (min a b)
  | 5 => pure0 (if sa < sb then a else b)
  | 6 => pure0 (max a b)
  | 7 => pure0 (if sa < sb then b else a)
  | 9 => pure0 (a &&& b)
  | 10 => pure0 (a ||| b)
  | 11 => pure0 (a ^^^ b)
  | 32 => vClipU n (Int.ofNat a + Int.ofNat b)
  | 33 => vClipS n (sa + sb)
  | 34 => vClipU n (Int.ofNat a - Int.ofNat b)
  | 35 => vClipS n (sa - sb)
  | 37 => pure0 (a * 2 ^ sh % 2 ^ n)
  | 39 => vClipS n (vRoundOff vxrm (sa * sb) (n - 1))
  | 40 => pure0 (a / 2 ^ sh)
  | 41 => pure0 (wrap n (asr sa sh))
  | 42 => pure0 (wrap n (vRoundOff vxrm (Int.ofNat a) sh))
  | _ => pure0 (wrap n (vRoundOff vxrm sa sh))

/-- Comparisons. -/
def vCompare (f6 n a b : Nat) : Bool :=
  let sa := sext n a
  let sb := sext n b
  match f6 with
  | 24 => a == b
  | 25 => a != b
  | 26 => decide (a < b)
  | 27 => decide (sa < sb)
  | 28 => decide (a ≤ b)
  | 29 => decide (sa ≤ sb)
  | 30 => decide (b < a)
  | _ => decide (sb < sa)

/-- OPMVV and OPMVX operations: averages, division, products and multiply-adds with the old destination `d`. -/
def vMulOp (f6 n vxrm a b d : Nat) : Nat × Nat :=
  let sa := sext n a
  let sb := sext n b
  let sd := sext n d
  match f6 with
  | 8 => pure0 (wrap n (vRoundOff vxrm (Int.ofNat a + Int.ofNat b) 1))
  | 9 => pure0 (wrap n (vRoundOff vxrm (sa + sb) 1))
  | 10 => pure0 (wrap n (vRoundOff vxrm (Int.ofNat a - Int.ofNat b) 1))
  | 11 => pure0 (wrap n (vRoundOff vxrm (sa - sb) 1))
  | 32 => pure0 (TinAlu.run .divu n a b)
  | 33 => pure0 (TinAlu.run .div n a b)
  | 34 => pure0 (TinAlu.run .remu n a b)
  | 35 => pure0 (TinAlu.run .rem n a b)
  | 36 => pure0 (TinAlu.run .mulhu n a b)
  | 37 => pure0 (TinAlu.run .mul n a b)
  | 38 => pure0 (TinAlu.run .mulhsu n a b)
  | 39 => pure0 (TinAlu.run .mulh n a b)
  | 41 => pure0 (wrap n (sb * sd + sa))
  | 43 => pure0 (wrap n (sa - sb * sd))
  | 45 => pure0 (wrap n (sb * sa + sd))
  | _ => pure0 (wrap n (sd - sb * sa))

/-- Widening operations to 2n bits. `a` is 2n bits wide already in the .w forms (52 to 55). -/
def vWideOp (f6 n a b d : Nat) : Nat :=
  let ua := Int.ofNat a
  let ub := Int.ofNat b
  let sa := sext n a
  let sb := sext n b
  let sd := sext (2 * n) d
  wrap (2 * n) (match f6 with
    | 48 => ua + ub
    | 49 => sa + sb
    | 50 => ua - ub
    | 51 => sa - sb
    | 52 => ua + ub
    | 53 => ua + sb
    | 54 => ua - ub
    | 55 => ua - sb
    | 56 => ua * ub
    | 58 => sa * ub
    | 59 => sa * sb
    | 60 => ub * ua + sd
    | 61 => sb * sa + sd
    | 62 => ub * sa + sd
    | _ => sb * ua + sd)

/-- Reduction operations. -/
def vRedOp (f6 n a b : Nat) : Nat :=
  match f6 with
  | 0 => (a + b) % 2 ^ n
  | 1 => a &&& b
  | 2 => a ||| b
  | 3 => a ^^^ b
  | 4 => min a b
  | 5 => if sext n a < sext n b then a else b
  | 6 => max a b
  | _ => if sext n a < sext n b then b else a

/-- Mask-register logic. -/
def vMaskOp (f6 a b : Nat) : Nat :=
  let x := a == 1
  let y := b == 1
  b2n (match f6 with
    | 24 => x && !y
    | 25 => x && y
    | 26 => x || y
    | 27 => x != y
    | 28 => x || !y
    | 29 => !(x && y)
    | 30 => !(x || y)
    | _ => x == y)

/-! ### The instructions -/

/-- The second operand of an element operation: vs1, x[rs1] or the immediate, as an n-bit pattern; `uimm` reads the immediate unsigned. -/
def TinThread.vSrc (th : TinThread) (w n i : Nat) (uimm : Bool) : Nat :=
  match bits w 14 12 with
  | 3 => if uimm then bits w 19 15 else wrap n (sext 5 (bits w 19 15))
  | 4 => (th.getX (bits w 19 15)).toNat % 2 ^ n
  | 6 => (th.getX (bits w 19 15)).toNat % 2 ^ n
  | _ => th.vGet (bits w 19 15) n i

/-- The vs1 field names a vector group. -/
def vHasVs1 (w : Nat) : Bool := let f3 := bits w 14 12; f3 == 0 || f3 == 1 || f3 == 2

/-- Operand groups of n-bit elements are legal. -/
def vGroups (w : Nat) (c : VCfg) : Bool :=
  let r := bits w 24 20
  let s1 := bits w 19 15
  vOk r c.l8 && (!vHasVs1 w || vOk s1 c.l8) && vReads w ((r, c.l8, c.sew) :: (if vHasVs1 w then [(s1, c.l8, c.sew)] else []))

/-- The active elements before vl from vstart on, in order. -/
def TinThread.vActive (th : TinThread) (c : VCfg) (w : Nat) : List Nat :=
  (List.range c.vl).filter fun i => decide (c.start ≤ i) && th.vAct w i

/-- Element i of an index operand taken from vs1 of width ie, or a scalar. -/
def TinThread.vIndex (th : TinThread) (w ie i : Nat) : Nat :=
  match bits w 14 12 with
  | 3 => bits w 19 15
  | 4 => (th.getX (bits w 19 15)).toNat
  | _ => th.vGet (bits w 19 15) ie i

/-- Slides and gathers: element i comes from element `j` of vs2, or is the value given. -/
def TinThread.vFrom (th : TinThread) (c : VCfg) (w : Nat) (src : Nat → Option Nat) (other : Nat) : TinThread :=
  th.vEach c w (bits w 11 7) c.sew c.l8 (th.vAct w) fun i =>
    match src i with
    | some j => pure0 (th.vGet (bits w 24 20) c.sew j)
    | none => pure0 other

/-- OPIVV, OPIVX and OPIVI; `none` for a reserved form. -/
def TinThread.vInt (th : TinThread) (c : VCfg) (w : Nat) : Option TinThread :=
  let f3 := bits w 14 12
  let f6 := bits w 31 26
  let d := bits w 11 7
  let r := bits w 24 20
  let n := c.sew
  let vm := bit w 25
  let a (i : Nat) : Nat := th.vGet r n i
  let b (i : Nat) : Nat := th.vSrc w n i (decide (37 ≤ f6))
  let legal := vGroups w c && vOk d c.l8
  let mx := vElems n c.l8
  let keep (ok : Bool) (t : TinThread) : Option TinThread := if ok then some t else none
  let wideOk := n ≤ 32 && decide (c.l8 ≤ 32)
  let maskDst := vOver d 8 1 r c.l8 n && (!vHasVs1 w || vOver d 8 1 (bits w 19 15) c.l8 n)
  if f6 = 12 ∨ (f6 = 14 ∧ f3 = 0) then
    let ie := if f6 = 14 then 16 else n
    let il := c.l8 * ie / n
    let apart := vApart d c.l8 r c.l8 && (f3 != 0 || vApart d c.l8 (bits w 19 15) il)
    let reads := vReads w ((r, c.l8, n) :: (if f3 = 0 then [(bits w 19 15, il, ie)] else []))
    keep (vOk r c.l8 && vOk d c.l8 && vMaskOk w d && apart && (f3 != 0 || vOk (bits w 19 15) il) && reads)
      (th.vFrom c w (fun i => if th.vIndex w ie i < mx then some (th.vIndex w ie i) else none) 0)
  else if f6 = 14 then
    let k := th.vIndex w n 0
    let s := max c.start k
    let c2 := { c with start := s }
    keep (vOk r c.l8 && vOk d c.l8 && vMaskOk w d && vApart d c.l8 r c.l8 && vReads w [(r, c.l8, n)])
      (if c.vl ≤ c.start then { th with vstart := 0 }
        else if c.vl ≤ s then
          { vLoop w d n c.vl c.ta c.ma (th.vAct w) pure0 (vElems n (8 * vRegs c.l8) - c.vl) c.vl th with vstart := 0 }
        else th.vFrom c2 w (fun i => some (i - k)) 0)
  else if f6 = 15 then
    let k := th.vIndex w n 0
    keep (vOk r c.l8 && vOk d c.l8 && vMaskOk w d && vReads w [(r, c.l8, n)]) (th.vFrom c w (fun i => if i + k < mx then some (i + k) else none) 0)
  else if f6 = 16 ∨ f6 = 18 then
    let carry (i : Nat) : Int := Int.ofNat (th.vGet 0 1 i)
    keep (legal && !vm && d != 0) (th.vEach c w d n c.l8 (fun _ => true) fun i =>
      pure0 (wrap n (if f6 = 16 then Int.ofNat (a i) + Int.ofNat (b i) + carry i else Int.ofNat (a i) - Int.ofNat (b i) - carry i)))
  else if f6 = 17 ∨ f6 = 19 then
    let carry (i : Nat) : Nat := if vm then 0 else th.vGet 0 1 i
    keep (vGroups w c && maskDst) (th.vMask c w d (fun _ => true) fun i =>
      pure0 (b2n (if f6 = 17 then decide (2 ^ n ≤ a i + b i + carry i) else decide (a i < b i + carry i))))
  else if f6 = 23 then
    if vm then
      keep (r == 0 && vOk d c.l8 && (!vHasVs1 w || vOk (bits w 19 15) c.l8)) (th.vEach c w d n c.l8 (fun _ => true) fun i => pure0 (b i))
    else keep (legal && d != 0) (th.vEach c w d n c.l8 (fun _ => true) fun i => pure0 (if th.vGet 0 1 i = 1 then b i else a i))
  else if 24 ≤ f6 ∧ f6 ≤ 31 then
    keep (vGroups w c && maskDst) (th.vMask c w d (th.vAct w) fun i => pure0 (b2n (vCompare f6 n (a i) (b i))))
  else if f6 = 39 ∧ f3 = 3 then
    let k := bits w 19 15 + 1
    keep (vm && [1, 2, 4, 8].contains k && d % k == 0 && r % k == 0)
      (th.vEach { c with vl := k * 512 / n } w d n (8 * k) (fun _ => true) fun i => pure0 (a i))
  else if 44 ≤ f6 ∧ f6 ≤ 47 then
    let a2 (i : Nat) : Nat := th.vGet r (2 * n) i
    let sh (i : Nat) : Nat := b i % (2 * n)
    let vs1 := bits w 19 15
    let s1 := (!vHasVs1 w || vOk vs1 c.l8) && vReads w ((r, 2 * c.l8, 2 * n) :: (if vHasVs1 w then [(vs1, c.l8, n)] else []))
    keep (wideOk && vOk d c.l8 && vOk r (2 * c.l8) && s1 && vMaskOk w d && vOver d c.l8 n r (2 * c.l8) (2 * n))
      (th.vEach c w d n c.l8 (th.vAct w) fun i =>
        match f6 with
        | 44 => pure0 (a2 i / 2 ^ sh i % 2 ^ n)
        | 45 => pure0 (wrap n (asr (sext (2 * n) (a2 i)) (sh i)))
        | 46 => vClipU n (vRoundOff th.vxrm (Int.ofNat (a2 i)) (sh i))
        | _ => vClipS n (vRoundOff th.vxrm (sext (2 * n) (a2 i)) (sh i)))
  else if f6 = 48 ∨ f6 = 49 then
    let ext (x : Nat) : Nat := if f6 = 48 then x else wrap (2 * n) (sext n x)
    keep (n ≤ 32 && vOk r c.l8 && c.start == 0 && vReads w [(r, c.l8, n), (bits w 19 15, 8, 2 * n)])
      (th.vScalar c w d (2 * n) (pure0 ((th.vActive c w).foldl (fun s i => (s + ext (a i)) % 2 ^ (2 * n)) (th.vGet (bits w 19 15) (2 * n) 0))))
  else keep (legal && vMaskOk w d) (th.vEach c w d n c.l8 (th.vAct w) fun i => vIntOp f6 n th.vxrm (a i) (b i))

/-- vmsbf (1), vmsof (2) and vmsif (3): set before, only and including the first set bit. -/
def TinThread.vFirsts (th : TinThread) (c : VCfg) (w how : Nat) : TinThread :=
  let r := bits w 24 20
  let hit := (th.vActive c w).find? fun i => th.vGet r 1 i == 1
  th.vMask c w (bits w 11 7) (th.vAct w) fun i =>
    pure0 (b2n (match hit with
      | none => how != 2
      | some k => if how = 1 then decide (i < k) else if how = 2 then i == k else decide (i ≤ k)))

/-- OPMVV and OPMVX; `none` for a reserved form. -/
def TinThread.vMul (th : TinThread) (c : VCfg) (w : Nat) : Option TinThread :=
  let f3 := bits w 14 12
  let f6 := bits w 31 26
  let d := bits w 11 7
  let s1 := bits w 19 15
  let r := bits w 24 20
  let n := c.sew
  let vm := bit w 25
  let a (i : Nat) : Nat := th.vGet r n i
  let b (i : Nat) : Nat := th.vSrc w n i false
  let keep (ok : Bool) (t : TinThread) : Option TinThread := if ok then some t else none
  let vv := f3 == 2
  let x := (th.getX s1).toNat
  if vv && decide (f6 < 8) then
    keep (vOk r c.l8 && c.start == 0 && vReads w [(r, c.l8, n), (s1, 8, n)])
      (th.vScalar c w d n (pure0 ((th.vActive c w).foldl (fun s i => vRedOp f6 n s (a i)) (th.vGet s1 n 0))))
  else if f6 = 16 ∧ vv then
    match s1 with
    | 0 => keep vm ({ th with vstart := 0 }.setX d (sx64 n (th.vGet r n 0)))
    | 16 =>
      keep (c.start == 0) (th.setX d (BitVec.ofNat 64 ((th.vActive c w).filter fun i => th.vGet r 1 i == 1).length))
    | _ =>
      keep (c.start == 0) (th.setX d (match (th.vActive c w).find? fun i => th.vGet r 1 i == 1 with
        | some i => BitVec.ofNat 64 i
        | none => w64 (-1)))
  else if f6 = 16 then keep vm (th.vScalar c w d n (pure0 (x % 2 ^ n)))
  else if f6 = 14 then
    keep (vOk r c.l8 && vOk d c.l8 && vMaskOk w d && vApart d c.l8 r c.l8 && vReads w [(r, c.l8, n)])
      (th.vFrom c w (fun i => if i = 0 then none else some (i - 1)) (x % 2 ^ n))
  else if f6 = 15 then
    keep (vOk r c.l8 && vOk d c.l8 && vMaskOk w d && vReads w [(r, c.l8, n)]) (th.vFrom c w (fun i => if i + 1 = c.vl then none else some (i + 1)) (x % 2 ^ n))
  else if f6 = 18 then
    let k := if s1 < 4 then 8 else if s1 < 6 then 4 else 2
    let e := n / k
    let l := c.l8 / k
    keep (8 ≤ e && c.l8 % k == 0 && vOk r l && vOk d c.l8 && vMaskOk w d && vOver d c.l8 n r l e && vReads w [(r, l, e)])
      (th.vEach c w d n c.l8 (th.vAct w) fun i =>
        let y := th.vGet r e i
        pure0 (if s1 % 2 = 0 then y else wrap n (sext e y)))
  else if f6 = 20 then
    if s1 = 17 then keep (r == 0 && vOk d c.l8 && vMaskOk w d) (th.vEach c w d n c.l8 (th.vAct w) pure0)
    else if s1 = 16 then
      let set (i : Nat) : Bool := th.vGet r 1 i == 1
      keep (c.start == 0 && vOk d c.l8 && vMaskOk w d && vApart d c.l8 r 8)
        (th.vEach c w d n c.l8 (th.vAct w) fun i => pure0 (((th.vActive c w).filter fun j => decide (j < i) && set j).length % 2 ^ n))
    else keep (c.start == 0 && d != r && vMaskOk w d) (th.vFirsts c w s1)
  else if f6 = 23 then
    let xs := (List.range c.vl).filter fun i => th.vGet s1 1 i == 1
    let c2 := { c with vl := if c.vl = 0 then 0 else xs.length }
    keep (vm && c.start == 0 && vOk r c.l8 && vOk d c.l8 && vApart d c.l8 r c.l8 && vApart d c.l8 s1 8 && vReads w [(r, c.l8, n), (s1, 8, 1)])
      (if c.vl = 0 then { th with vstart := 0 }
        else { vLoop w d n c2.vl c.ta false (fun _ => true) (fun i => pure0 (th.vGet r n (nth 0 xs i))) (vElems n (8 * vRegs c.l8)) 0 th with vstart := 0 })
  else if 24 ≤ f6 ∧ f6 ≤ 31 then
    keep vm (th.vMask c w d (fun _ => true) fun i => pure0 (vMaskOp f6 (th.vGet r 1 i) (th.vGet s1 1 i)))
  else if 48 ≤ f6 then
    let isW := decide (52 ≤ f6) && decide (f6 ≤ 55)
    let rl := if isW then 2 * c.l8 else c.l8
    let re := if isW then 2 * n else n
    let reads := vReads w ((r, rl, re) :: ((if vv then [(s1, c.l8, n)] else []) ++ if 60 ≤ f6 then [(d, 2 * c.l8, 2 * n)] else []))
    let srcs := reads && vOk r rl && vOver d (2 * c.l8) (2 * n) r rl re && (!vv || vOk s1 c.l8 && vOver d (2 * c.l8) (2 * n) s1 c.l8 n)
    keep (n ≤ 32 && decide (c.l8 ≤ 32) && vOk d (2 * c.l8) && srcs && vMaskOk w d)
      (th.vEach c w d (2 * n) (2 * c.l8) (th.vAct w) fun i => pure0 (vWideOp f6 n (th.vGet r re i) (b i) (th.vGet d (2 * n) i)))
  else
    keep (vGroups w c && vOk d c.l8 && vMaskOk w d)
      (th.vEach c w d n c.l8 (th.vAct w) fun i => vMulOp f6 n th.vxrm (a i) (b i) (th.vGet d n i))

end Sys2Proof.Machine
end

