-- ==== Sys2Proof/Machine/TinVFloat.lean ====
section
/-! DEFINITION. The float instructions of the V extension (R130, R133), at SEW 32 and 64. -/

namespace Sys2Proof.Machine

/-- The scalar or vector second operand as a code of n bits. -/
def TinThread.vfSrc (th : TinThread) (w n i : Nat) : Nat :=
  if bits w 14 12 = 5 then operandF (n == 64) (th.getF (bits w 19 15)) else th.vGet (bits w 19 15) n i

/-- The element format of n bits. -/
def vFmt (n : Nat) : FFmt := fmtOf (n == 64)

/-- Single-width operations: `a` from vs2, `b` the other operand, `d` the old destination of a multiply-add. -/
def vfOp (f6 : Nat) (f : FFmt) (r : Round) (a b d : Nat) : FRes :=
  match f6 with
  | 0 => f.add r a b
  | 2 => f.sub r a b
  | 4 => f.minmax false a b
  | 6 => f.minmax true a b
  | 8 => (f.inject 0 a b, 0)
  | 9 => (f.inject 1 a b, 0)
  | 10 => (f.inject 2 a b, 0)
  | 32 => f.div r a b
  | 33 => f.div r b a
  | 36 => f.mul r a b
  | 39 => f.sub r b a
  | 40 => f.fma r false false d b a
  | 41 => f.fma r true true d b a
  | 42 => f.fma r false true d b a
  | 43 => f.fma r true false d b a
  | 44 => f.fma r false false b a d
  | 45 => f.fma r true true b a d
  | 46 => f.fma r false true b a d
  | _ => f.fma r true false b a d

/-- Comparisons: the result bit and flags. -/
def vfCompare (f6 : Nat) (f : FFmt) (a b : Nat) : FRes :=
  match f6 with
  | 24 => f.feq a b
  | 25 => f.fle a b
  | 27 => f.flt a b
  | 28 => (1 - (f.feq a b).1, (f.feq a b).2)
  | 29 => f.flt b a
  | _ => f.fle b a

/-- A value in the doubled width: an exact conversion, which raises NV for a signalling NaN. -/
def widenF (c : Nat) : FRes := fp32.convert fp64 .rne c

/-- Widening operations; `wa` tells that `a` is wide already. -/
def vfWide (f6 : Nat) (r : Round) (wa : Bool) (a b d : Nat) : FRes :=
  let x := if wa then (a, 0) else widenF a
  let y := widenF b
  let z := match f6 with
    | 48 => fp64.add r x.1 y.1
    | 50 => fp64.sub r x.1 y.1
    | 52 => fp64.add r x.1 y.1
    | 54 => fp64.sub r x.1 y.1
    | 56 => fp64.mul r x.1 y.1
    | 60 => fp64.fma r false false y.1 x.1 d
    | 61 => fp64.fma r true true y.1 x.1 d
    | 62 => fp64.fma r false true y.1 x.1 d
    | _ => fp64.fma r true false y.1 x.1 d
  (z.1, z.2 ||| x.2 ||| y.2)

/-- A reduction step with its flags. -/
def vfRed (f6 : Nat) (f : FFmt) (r : Round) (s : FRes) (x : Nat) : FRes :=
  let y := match f6 with
    | 5 => f.minmax false s.1 x
    | 7 => f.minmax true s.1 x
    | _ => f.add r s.1 x
  (y.1, s.2 ||| y.2)

/-- The conversions of VFUNARY0 by code: single-width 0 to 7, widening 8 to 15, narrowing 16 to 23. `n` is SEW; the answer gives source
width, destination width and the function, or `none` where SEW has no such form. -/
def vfConvert (k n : Nat) (r : Round) : Option (Nat × Nat × (Nat → FRes)) :=
  let q := k % 8
  let rm := if q = 6 ∨ q = 7 then .rtz else r
  let signed := q % 2 == 1
  if k < 8 then
    if n < 32 then none
    else if q = 2 ∨ q = 3 then some (n, n, fun x => (vFmt n).ofInt r signed n x)
    else some (n, n, fun x => (vFmt n).toInt rm signed n x)
  else if k < 16 then
    if q = 2 ∨ q = 3 then
      if n = 16 ∨ n = 32 then some (n, 2 * n, fun x => (vFmt (2 * n)).ofInt r signed n x) else none
    else if n ≠ 32 then none
    else if q = 4 then some (n, 2 * n, widenF)
    else some (n, 2 * n, fun x => fp32.toInt rm signed 64 x)
  else
    if q = 2 ∨ q = 3 then
      if n = 32 then some (2 * n, n, fun x => fp32.ofInt r signed 64 x) else none
    else if q = 4 then
      if n = 32 then some (2 * n, n, fun x => fp64.convert fp32 r x) else none
    else if q = 5 then
      if n = 32 then some (2 * n, n, fun x => ((fp32.roundOdd (decodeF fp64 x)).1, (fp32.roundOdd (decodeF fp64 x)).2 ||| (if fp64.isSnan x then flagNV else 0)))
      else none
    else if n = 16 ∨ n = 32 then some (2 * n, n, fun x => (vFmt (2 * n)).toInt rm signed n x)
    else none

/-- OPFVV and OPFVF under rounding mode r; `none` for a reserved form. -/
def TinThread.vFlt (th : TinThread) (c : VCfg) (r : Round) (w : Nat) : Option TinThread :=
  let f6 := bits w 31 26
  let d := bits w 11 7
  let s1 := bits w 19 15
  let s2 := bits w 24 20
  let n := c.sew
  let f := vFmt n
  let vm := bit w 25
  let vv := bits w 14 12 == 1
  let a (i : Nat) : Nat := th.vGet s2 n i
  let b (i : Nat) : Nat := th.vfSrc w n i
  let keep (ok : Bool) (t : TinThread) : Option TinThread := if ok then some t else none
  let l2 := 2 * c.l8
  let sewOk := n == 32 || n == 64
  let maskDst := vOver d 8 1 s2 c.l8 n && (!vv || vOver d 8 1 s1 c.l8 n)
  if f6 = 18 then
    match vfConvert s1 n r with
    | none => none
    | some (se, de, g) =>
      let sl := if n < se then l2 else c.l8
      let dl := if n < de then l2 else c.l8
      keep (vOk s2 sl && vOk d dl && vMaskOk w d && vOver d dl de s2 sl se && vReads w [(s2, sl, se)])
        (th.vEach c w d de dl (th.vAct w) fun i => g (th.vGet s2 se i))
  else if !sewOk then none
  else if vv && [1, 3, 5, 7].contains f6 then
    let z := (th.vActive c w).foldl (fun s i => vfRed f6 f r s (a i)) (th.vGet s1 n 0, 0)
    keep (vOk s2 c.l8 && c.start == 0 && vReads w [(s2, c.l8, n), (s1, 8, n)]) (th.vScalar c w d n z)
  else if f6 = 49 ∨ f6 = 51 then
    let one (s : FRes) (i : Nat) : FRes :=
      let x := widenF (a i)
      let y := fp64.add r s.1 x.1
      (y.1, s.2 ||| x.2 ||| y.2)
    let z := (th.vActive c w).foldl one (th.vGet s1 64 0, 0)
    keep (n == 32 && vOk s2 c.l8 && c.start == 0 && vReads w [(s2, c.l8, n), (s1, 8, 64)]) (th.vScalar c w d 64 z)
  else if f6 = 16 ∧ vv then
    keep vm ({ th with vstart := 0 }.setF d (boxF (n == 64) (th.vGet s2 n 0)))
  else if f6 = 16 then keep vm (th.vScalar c w d n (pure0 (b 0)))
  else if f6 = 14 then
    keep (vOk s2 c.l8 && vOk d c.l8 && vMaskOk w d && vApart d c.l8 s2 c.l8 && vReads w [(s2, c.l8, n)])
      (th.vFrom c w (fun i => if i = 0 then none else some (i - 1)) (b 0))
  else if f6 = 15 then
    keep (vOk s2 c.l8 && vOk d c.l8 && vMaskOk w d && vReads w [(s2, c.l8, n)]) (th.vFrom c w (fun i => if i + 1 = c.vl then none else some (i + 1)) (b 0))
  else if f6 = 19 then
    keep (vOk s2 c.l8 && vOk d c.l8 && vMaskOk w d && vReads w [(s2, c.l8, n)])
      (th.vEach c w d n c.l8 (th.vAct w) fun i =>
        match s1 with
        | 0 => f.sqrt r (a i)
        | 4 => f.rsqrt7 (a i)
        | 5 => f.rec7 r (a i)
        | _ => pure0 (f.classify (a i)))
  else if f6 = 23 then
    if vm then keep (s2 == 0 && vOk d c.l8) (th.vEach c w d n c.l8 (fun _ => true) fun i => pure0 (b i))
    else keep (vOk s2 c.l8 && vOk d c.l8 && d != 0 && vReads w [(s2, c.l8, n)])
      (th.vEach c w d n c.l8 (fun _ => true) fun i => pure0 (if th.vGet 0 1 i = 1 then b i else a i))
  else if 24 ≤ f6 ∧ f6 ≤ 31 then
    keep (vGroups w c && maskDst) (th.vMask c w d (th.vAct w) fun i => vfCompare f6 f (a i) (b i))
  else if 48 ≤ f6 then
    let wa := f6 == 52 || f6 == 54
    let rl := if wa then l2 else c.l8
    let re := if wa then 2 * n else n
    let reads := vReads w ((s2, rl, re) :: ((if vv then [(s1, c.l8, n)] else []) ++ if 60 ≤ f6 then [(d, l2, 2 * n)] else []))
    let srcs := reads && vOk s2 rl && vOver d l2 (2 * n) s2 rl re && (!vv || vOk s1 c.l8 && vOver d l2 (2 * n) s1 c.l8 n)
    keep (n == 32 && vOk d l2 && srcs && vMaskOk w d)
      (th.vEach c w d 64 l2 (th.vAct w) fun i => vfWide f6 r wa (th.vGet s2 re i) (b i) (th.vGet d 64 i))
  else
    keep (vGroups w c && vOk d c.l8 && vMaskOk w d)
      (th.vEach c w d n c.l8 (th.vAct w) fun i => vfOp f6 f r (a i) (b i) (th.vGet d n i))

/-- OP-V arithmetic; `none` for a form that is no instruction in the state it meets: vill set, a reserved group, a frm that names no
rounding mode. -/
def TinThread.vOp (th : TinThread) (w : Nat) : Option TinThread :=
  match th.vcfg with
  | none => none
  | some c =>
    match bits w 14 12 with
    | 2 => th.vMul c w
    | 6 => th.vMul c w
    | 1 => (th.round 7).bind fun r => th.vFlt c r w
    | 5 => (th.round 7).bind fun r => th.vFlt c r w
    | _ => th.vInt c w

end Sys2Proof.Machine
end

