-- ==== Sys2Proof/Machine/TinMem.lean ====
section
/-! DEFINITION. Memory accesses of Tin threads (R134, R140 to R148): parking, caches, rights, loads, stores and atomics, the fences, and how
a thread ends (R161). -/

namespace Sys2Proof.Machine

/-! ### Threads -/

def State.thread (s : State) (m t : Nat) : TinThread := (s.core m).threads.get {} t
def State.setThread (s : State) (m t : Nat) (th : TinThread) : State :=
  let core := s.core m
  s.setCore m { core with threads := core.threads.put t th }

/-- The task of a thread. -/
def TinThread.id (th : TinThread) : TaskId := th.task.getD {}
/-- The context of a thread's task. -/
def TinThread.ctx (th : TinThread) : Nat := th.id.ctx

/-- Past the instruction that has completed. -/
def TinThread.next (th : TinThread) : TinThread := { th with pc := th.pc + BitVec.ofNat 64 th.len, instret := th.instret + 1 }

/-- Thread t's instruction is no longer the one that issues. -/
def State.leave (s : State) (m t : Nat) : State :=
  let core := s.core m
  if core.cur = some t then s.setCore m { core with cur := none } else s

/-- An instruction completes at issue. -/
def State.retire (s : State) (m t : Nat) (th : TinThread) : State := (s.setThread m t th.next).leave m t

/-- An instruction parks its thread (R140). A reservation ends with it (R134). -/
def State.park (s : State) (m t : Nat) (th : TinThread) (st : TinSt) (w : TinWait) : State :=
  (s.setThread m t { th with st := st, wait := w, parkedAt := s.clk, resv := none }).leave m t

/-- A thread leaves PARKED_EXT: its C-cycles there are counted. -/
def State.parkTime (s : State) (m : Nat) (th : TinThread) : State :=
  s.when (th.st == .parkedExt) (·.bump (Reg.TIN_PARK_CYCLES (m / 8) (m % 8)) (s.cCycles (m / 8) (s.clk - th.parkedAt)))

/-- A parked thread's condition has cleared. -/
def State.unpark (s : State) (m t : Nat) (th : TinThread) : State :=
  (s.parkTime m th).setThread m t (th.wake (s.tinHalted m))

/-! ### Ends and faults (R148, R150, R161) -/

/-- A thread ends its task with a status and a cause: it issues nothing more and is reported once its accesses have been performed. -/
def State.tinEnd (s : State) (m t status cause : Nat) : State :=
  let th := s.thread m t
  let s := ((s.parkTime m th).dropReader (.tin m t)).leave m t
  let e := if status = 0 then (0, 0) else th.pushStat.getD (status, cause)
  s.setThread m t
    { th with st := .parkedFence, wait := .ending, ending := some e, parkedAt := s.clk, resv := none, woken := false }

/-- R161: the fault is recorded and ends the thread. -/
def State.tinFault (s : State) (m t cause addr pc : Nat) : State :=
  let c := m / 8
  let k := m % 8
  let s := s.setReg (Reg.TIN_FAULT c k) (1 + 2 * cause + 16 * t + 256 * (s.thread m t).ctx)
  ((s.setReg64 (Reg.TIN_FAULT_PC c k) pc).setReg64 (Reg.TIN_FAULT_ADDR c k) addr).tinEnd m t 1 cause

/-- A fault of the instruction at the thread's pc. -/
def State.insnFault (s : State) (m t cause addr : Nat) : State := s.tinFault m t cause addr (s.thread m t).pc.toNat

/-- A late fault of a posted store is raised (R362). -/
def State.raiseLate (s : State) (m t : Nat) (l : Nat × Nat × Nat) : State :=
  if l.1 = 0 then s.tinEnd m t 2 0xFF else s.tinFault m t l.1 l.2.1 l.2.2

/-- R361, R362: what a Solder status does at a Tin requester: none for OK, else a fault cause, or 0 for POISON. -/
def sldCause (status : Nat) : Option Nat :=
  match status with
  | 0 => none
  | 1 => some 2
  | 2 => some 2
  | 3 => some 3
  | 4 => some 0
  | _ => some 4

/-! ### Rights (R143, R255, R259, R357, R361) -/

/-- An access of `n` bytes, aligned to `al`: the cause of its fault, if any. `sld` tells that the form has a Solder operation (R361). -/
def State.tinCheck (s : State) (m : Nat) (id : TaskId) (write sld : Bool) (al a n : Nat) : Option Nat :=
  let sp := spaceOf a
  let o := offOf a
  let x := id.ctx
  let right (b : Bool) : Option Nat := if b then none else some 2
  if 2 ^ 57 ≤ a then some 2
  else if a % al ≠ 0 then some 3
  else if sp = 256 then (if !sld then some 4 else right ((s.func (s.ctx x).fn).domain != 0))
  else if sp = 0 then right (s.tierRight x id.cls o n write)
  else if sp = 1 then right (decide (o + n ≤ 2 ^ 48))
  else if sp = 2 then right (decide (o + n ≤ s.shareSize (m / 8) x))
  else if sp = 3 then
    if n % 4 ≠ 0 then some 4
    else right ((s.ctx x).l1 && decide (o + n ≤ 2 ^ 26) && (wordsIn o n).all (Config.l1Block x))
  else some 2

/-- The fault of the first of several accesses that has one: its cause and address. -/
def State.tinChecks (s : State) (m : Nat) (id : TaskId) (write sld : Bool) (al : Nat) : List (Nat × Nat) → Option (Nat × Nat)
  | [] => none
  | (a, n) :: t =>
    match s.tinCheck m id write sld al a n with
    | some c => some (c, a)
    | none => State.tinChecks s m id write sld al t

/-! ### Paths (R145) -/

/-- The path of an address: 0, 1 and 3 for the spaces, 4 + node for Solder, 2 inside the cluster. -/
def pathOf (a : Nat) : Nat := if spaceOf a = 256 then 4 + bits a 55 42 else spaceOf a

/-- The paths that leave the cluster among those of several addresses, each once. -/
def pathsOf (as : List Nat) : List Nat :=
  as.foldl (fun ps a => if pathOf a = 2 || ps.contains (pathOf a) then ps else ps ++ [pathOf a]) []

/-- Records the accesses of an instruction, one on each path. -/
def State.addOuts (s : State) (m t : Nat) (as : List Nat) (n : Nat) (st : Bool) : State :=
  let th := s.thread m t
  let ps := pathsOf as
  let outs := ps.map fun p => (⟨p, st, s.clk, (as.find? fun a => pathOf a == p).getD 0, n, false⟩ : TinOut)
  (s.setThread m t { th with outs := th.outs ++ outs }).bump (Reg.TIN_EXT_ACCESS (m / 8) (m % 8)) ps.length

/-- Posted stores that have not been acknowledged (R140). -/
def TinThread.posted (th : TinThread) : Nat := th.outs.countP (·.store)
/-- Stores that LSIG and the pushes wait for (R147). -/
def TinThread.pending (th : TinThread) : Bool := th.outs.any fun o => o.store && decide (o.path < 4)
/-- Every access has been performed (R146). -/
def TinThread.performed (th : TinThread) : Bool := th.outs.all (·.done)

/-- Global number of a thread: its SOURCE (R135). -/
def tinSource (m t : Nat) : Nat := 16 * m + t

/-- A Solder operation of a thread. -/
def State.tinOp (s : State) (m t opc a n : Nat) (data : List Byte) : SldOp :=
  let th := s.thread m t
  { who := .tin m t, ctx := some th.ctx, node := bits a 55 42, opc := opc, len := n, off := bits a 41 0
    domain := (s.func (s.ctx th.ctx).fn).domain, source := tinSource m t, data := data, pc := th.pc.toNat }

/-- The answer to an operation of a thread that waits to be taken. -/
def State.tinAns (s : State) (m t opc a : Nat) : Option SldAns :=
  s.sld.ans.find? fun r => r.op.who == .tin m t && r.op.opc == opc && r.op.node == bits a 55 42 && r.op.off == bits a 41 0

def State.takeAns (s : State) (r : SldAns) : State := { s with sld := { s.sld with ans := s.sld.ans.erase r } }

/-! ### Caches (R142) -/

/-- A line of a cache. -/
def lineOf (ls : List TinLine) (x l : Nat) : Option (List Byte) := (ls.find? fun e => e.ctx == x && e.line == l).map (·.data)
/-- A cache of n lines takes a line; the oldest leaves. -/
def fillLine (n : Nat) (ls : List TinLine) (x l : Nat) (bs : List Byte) : List TinLine :=
  let ls := ls.filter fun e => !(e.ctx == x && e.line == l)
  (if n ≤ ls.length then ls.drop 1 else ls) ++ [⟨x, l, bs⟩]

/-- Lines of the instruction cache of 64 KiB and of the data cache of 32 KiB. -/
def iLines : Nat := 1024
def dLines : Nat := 512

/-- Every line of a tier-range access is in the data cache of core m for context x. -/
def State.dHit (s : State) (m x a n : Nat) : Bool := (granulesOf (offOf a) n).all fun l => (lineOf (s.core m).dcache x l).isSome

/-- A store updates the bytes of lines that are present. -/
def State.dUpdate (s : State) (m x o : Nat) (bs : List Byte) : State :=
  let core := s.core m
  let one (e : TinLine) : TinLine :=
    let b := e.line * 64
    if e.ctx = x && decide (o < b + 64) && decide (b < o + bs.length) then
      { e with data := (List.range 64).map fun i => if o ≤ b + i ∧ b + i < o + bs.length then nth 0 bs (b + i - o) else nth 0 e.data i }
    else e
  if core.dcache.isEmpty then s else s.setCore m { core with dcache := core.dcache.map one }

/-- Reads tier-range bytes through the data cache, filling the lines that are missing. -/
def State.dRead (s : State) (m x o n : Nat) : State × List Byte :=
  let fill (s : State) (l : Nat) : State :=
    if (lineOf (s.core m).dcache x l).isSome then s
    else
      let r := s.worldRead whoTin x (l * 64) 64
      let core := r.1.core m
      r.1.setCore m { core with dcache := fillLine dLines core.dcache x l r.2 }
  let s := (granulesOf o n).foldl fill s
  let d := (s.core m).dcache
  (s, (List.range n).map fun i => nth 0 ((lineOf d x ((o + i) / 64)).getD []) ((o + i) % 64))

/-! ### Own writes -/

/-- A write that leaves the writing thread's own reservation as it is (R134: another agent's write ends it). -/
def State.keepResv (s : State) (m t : Nat) (f : State → State) : State :=
  let r := (s.thread m t).resv
  let s := f s
  if r.isSome then s.setThread m t { s.thread m t with resv := r } else s

/-- Writes a piece of a store at its home: the share, the tier range under the world map and the core's data cache, host memory, a
register as 32-bit words in ascending order. -/
def State.tinWrite (s : State) (m t a : Nat) (bs : List Byte) : State :=
  let x := (s.thread m t).ctx
  let o := offOf a
  let sp := spaceOf a
  if sp = 2 then s.keepResv m t fun s => (s.shareWrite (m / 8) x o bs).getD s
  else if sp = 0 then (s.keepResv m t fun s => s.worldWrite whoTin x o bs).dUpdate m x o bs
  else if sp = 1 then s.hostWrite (s.ctx x).fn o bs
  else if sp = 3 then s.regsWrite x bs (wordsIn o bs.length)
  else s.sldIssue (s.tinOp m t 1 a bs.length bs)

/-! ### Loads -/

/-- The value of loaded bytes in its register. -/
def TinThread.deliver (th : TinThread) (d : TinDest) (bs : List Byte) : TinThread :=
  match d with
  | .xreg rd n sx => th.setX rd (if sx then sx64 (8 * n) (fromLE bs) else BitVec.ofNat 64 (fromLE bs))
  | .freg rd n => th.setF rd (boxF (n == 8) (fromLE bs))
  | .vreg ks => { th with v := (ks.zip bs).foldl (fun v p => Tab.set 0 v p.1 p.2) th.v }
  | _ => th

/-- The data cache serves an access: its reads of the tier range into registers. -/
def TinDest.cached : TinDest → Bool
  | .share _ => false
  | .fetch => false
  | _ => true

/-- A piece of a load that needs nothing from outside the cluster. -/
def State.near (s : State) (m x : Nat) (d : TinDest) (p : Nat × Nat) : Bool :=
  spaceOf p.1 == 2 || (d.cached && spaceOf p.1 == 0 && s.dHit m x p.1 p.2)

/-- Reads the pieces in order. `host` holds the bytes that host memory answered. -/
def State.readPieces (s : State) (m t : Nat) (d : TinDest) (host : List Byte) : List (Nat × Nat) → State × List Byte
  | [] => (s, [])
  | (a, n) :: ps =>
    let x := (s.thread m t).ctx
    let o := offOf a
    let sp := spaceOf a
    let r : State × List Byte × List Byte :=
      if sp = 2 then (s, (s.shareRead (m / 8) x o n).getD [], host)
      else if sp = 0 then
        let r := if d.cached then s.dRead m x o n else s.worldRead whoTin x o n
        (r.1, r.2, host)
      else if sp = 1 then (s, host.take n, host.drop n)
      else if sp = 3 then
        let r := s.regsRead x (wordsIn o n)
        (r.1, r.2, host)
      else
        match s.tinAns m t 0 a with
        | some k => (s.takeAns k, k.data, host)
        | none => (s, [], host)
    let r2 := State.readPieces r.1 m t d r.2.2 ps
    (r2.1, r.2.1 ++ r2.2)

/-- The bytes reach their destination. -/
def State.tinDeliver (s : State) (m t : Nat) (d : TinDest) (ps : List (Nat × Nat)) (bs : List Byte) : State :=
  let th := s.thread m t
  match d with
  | .share o => s.keepResv m t fun s => (s.shareWrite (m / 8) th.ctx o bs).getD s
  | .fetch =>
    let core := s.core m
    let l := match ps with
      | p :: _ => p.1 / 64
      | [] => 0
    s.setCore m { core with icache := fillLine iLines core.icache th.ctx l bs }
  | _ => s.setThread m t (th.deliver d bs)

/-- Lines that a load misses in the data cache. -/
def State.misses (s : State) (m x : Nat) (d : TinDest) (ps : List (Nat × Nat)) : List Nat :=
  if d.cached then
    ps.foldl (fun ls p => if spaceOf p.1 = 0 then
      (granulesOf (offOf p.1) p.2).foldl (fun ls l => if ls.contains l || (lineOf (s.core m).dcache x l).isSome then ls else ls ++ [l]) ls
      else ls) []
  else []

/-- A load whose accesses are all allowed: it completes inside the cluster or parks until its data arrives (R140). A fetch stays at its
pc. -/
def State.tinLoad (s : State) (m t : Nat) (ps : List (Nat × Nat)) (d : TinDest) : State :=
  let th := s.thread m t
  if ps.all (s.near m th.ctx d) then
    let r := s.readPieces m t d [] ps
    let s := r.1.tinDeliver m t d ps r.2
    s.retire m t (s.thread m t)
  else
    let far := (ps.filter fun p => !s.near m th.ctx d p).map (·.1)
    let s := s.bump (Reg.TIN_DMISS (m / 8) (m % 8)) (s.misses m th.ctx d ps).length
    let s := s.addOuts m t far ((ps.map (·.2)).sum) false
    let s := ps.foldl (fun s p => if spaceOf p.1 = 256 then s.sldIssue (s.tinOp m t 0 p.1 p.2 []) else s) s
    s.park m t (s.thread m t) .parkedExt (.load ps d)

/-- The first poisoned line that a load reads at its home. -/
def State.loadPoison (s : State) (m x : Nat) (d : TinDest) (ps : List (Nat × Nat)) : Option Nat :=
  ps.findSome? fun p =>
    if spaceOf p.1 = 0 then
      (granulesOf (offOf p.1) p.2).find? fun l =>
        (s.tiers.poison.look l).isSome && !(d.cached && (lineOf (s.core m).dcache x l).isSome)
    else none

/-- A thread consumes a poisoned line (R286, R287). -/
def State.tinPoison (s : State) (m t l : Nat) : State := (s.poisonRead l).tinEnd m t 2 (s.poisonCause l)

/-! ### Stores -/

/-- A store whose accesses are all allowed: inside the cluster it is performed at once; outside, the thread parks until the outbound buffer
accepts it. -/
def State.tinStore (s : State) (m t : Nat) (ps : List (Nat × List Byte)) : State :=
  if ps.all fun p => spaceOf p.1 == 2 then
    let s := ps.foldl (fun s p => s.tinWrite m t p.1 p.2) s
    s.retire m t (s.thread m t)
  else s.park m t (s.thread m t) .parkedExt (.accept ps)

/-! ### Fences (R146) -/

/-- The core sends a Solder fence to each node with unacknowledged stores of the thread. -/
def State.sendFences (s : State) (m t : Nat) : State :=
  let th := s.thread m t
  let ns := (th.outs.filter fun o => o.store && decide (4 ≤ o.path) && !o.done).foldl
    (fun ns o => if ns.contains (o.path - 4) then ns else ns ++ [o.path - 4]) []
  ns.foldl (fun s n =>
    let a := 2 ^ 56 + n * 2 ^ 42
    let th := s.thread m t
    let s := s.setThread m t { th with outs := th.outs ++ [⟨4 + n, false, s.clk, a, 0, false⟩] }
    s.sldIssue (s.tinOp m t 12 a 0 [])) s

/-! ### Atomics (R134, R149, R361) -/

/-- The new value of an atomic on n bits. -/
def AmoOp.run (o : AmoOp) (n old v : Nat) : Nat :=
  match o with
  | .add => (old + v) % 2 ^ n
  | .swap => v
  | .xor => old ^^^ v
  | .and => old &&& v
  | .or => old ||| v
  | .min => if sext n v < sext n old then v else old
  | .max => if sext n old < sext n v then v else old
  | .minu => Nat.min old v
  | .maxu => Nat.max old v
  | .cas e => if old = e.toNat then v else old
  | .fadd => sldFAdd (if n = 64 then fp64 else fp32) old v
  | .lr => old
  | .sc => v

/-- The Solder operation of an atomic (R360, R361); `none` where it has none. -/
def AmoOp.sldOpc (o : AmoOp) (n : Nat) : Option Nat :=
  match o with
  | .add => if n = 8 then some 2 else none
  | .swap => if n = 8 then some 3 else none
  | .cas _ => some 4
  | .min => if n = 8 then some 5 else none
  | .max => if n = 8 then some 6 else none
  | .and => if n = 8 then some 7 else none
  | .or => if n = 8 then some 8 else none
  | .xor => if n = 8 then some 9 else none
  | .fadd => some (if n = 8 then 10 else 11)
  | _ => none

/-- SCAS and FAADD do not work on the scratchpad. -/
def AmoOp.umtia : AmoOp → Bool
  | .cas _ => true
  | .fadd => true
  | _ => false

/-- The fault of an atomic, if any: the forms that a space does not support are RANGE (R134, R149). -/
def State.amoCheck (s : State) (m : Nat) (id : TaskId) (o : AmoOp) (a n : Nat) : Option Nat :=
  let sp := spaceOf a
  if 2 ^ 57 ≤ a then some 2
  else if a % n ≠ 0 then some 3
  else if sp = 1 ∨ sp = 3 ∨ (sp = 2 ∧ o.umtia) ∨ (sp = 256 ∧ (o.sldOpc n).isNone) then some 4
  else s.tinCheck m id true true n a n

/-- The register result of an atomic that found `old`: SC answers 0 where it stores, 1 where it fails. -/
def AmoOp.answer (o : AmoOp) (n old : Nat) (sx won : Bool) : W64 :=
  match o with
  | .sc => if won then 0 else 1
  | _ => if sx then sx64 (8 * n) old else BitVec.ofNat 64 old

/-- The granule number that a reservation on an address holds. -/
def State.resvKey (s : State) (m x a : Nat) : Nat :=
  if spaceOf a = 2 then
    match s.resSlot (m / 8) x with
    | some (_, r) => 2 ^ 50 + r.key (m / 8) (offOf a / 64 * 64) / 64
    | none => 0
  else offOf a / 64

/-- Performs an atomic in the scratchpad or at its home HBM controller: the state after it and its register result. An access that the
world map forbids is not performed and finds zero (R449). -/
def State.amoDo (s : State) (m t : Nat) (o : AmoOp) (a n : Nat) (v : W64) (sx : Bool) : State × W64 :=
  let th := s.thread m t
  let x := th.ctx
  let off := offOf a
  let k := s.resvKey m x a
  let won := th.resv == some k
  let stores := match o with
    | .lr => false
    | .sc => won
    | _ => true
  let resv := match o with
    | .lr => some k
    | .sc => none
    | _ => th.resv
  let keep (s : State) : State := s.setThread m t { s.thread m t with resv := resv }
  if spaceOf a = 2 then
    let old := fromLE ((s.shareRead (m / 8) x off n).getD [])
    let new := toLE n (o.run (8 * n) old (v.toNat % 2 ^ (8 * n)))
    (keep (s.when stores fun s => (s.shareWrite (m / 8) x off new).getD s), o.answer n old sx won)
  else
    let fs := if s.secureCtx x then [] else s.filtersOn off n (o != .lr)
    if fs.isEmpty then
      let old := fromLE (s.tierRead off n)
      let new := toLE n (o.run (8 * n) old (v.toNat % 2 ^ (8 * n)))
      (keep (s.when stores fun s => (s.tierWrite off new).dUpdate m x off new), o.answer n old sx won)
    else (keep (s.violation whoTin (s.ctx x).fn x (o != .lr) off fs), o.answer n 0 sx won)

/-- An atomic whose access is allowed and whose rl fence, if any, is done. -/
def State.amoGo (s : State) (m t : Nat) (o : AmoOp) (a n : Nat) (v : W64) (rd : Nat) (aq sx : Bool) : State :=
  let sp := spaceOf a
  if sp = 2 then
    let r := s.amoDo m t o a n v sx
    r.1.retire m t ((r.1.thread m t).setX rd r.2)
  else if sp = 0 then
    match s.poisonIn (offOf a) n with
    | some l => (s.addOuts m t [a] n false).park m t ((s.addOuts m t [a] n false).thread m t) .parkedExt (.poison l)
    | none =>
      let r := s.amoDo m t o a n v sx
      let k := (r.1.thread m t).resv
      let s := r.1.addOuts m t [a] n false
      let s := s.park m t (s.thread m t) .parkedExt (.result rd r.2 aq)
      s.setThread m t { s.thread m t with resv := if o == .lr then k else none }
  else
    let opc := (o.sldOpc n).getD 0
    let old := match o with
      | .cas e => toLE 8 e.toNat
      | _ => []
    let s := s.sldIssue (s.tinOp m t opc a n (old ++ toLE n v.toNat))
    let s := s.addOuts m t [a] n false
    s.park m t (s.thread m t) .parkedExt (.solder opc n rd aq sx)

/-- An atomic: its fault, the fence of its rl bit where it leaves the cluster, or the access. -/
def State.tinAmo (s : State) (m t : Nat) (o : AmoOp) (a n : Nat) (v : W64) (rd : Nat) (aq rl sx : Bool) : State :=
  let th := s.thread m t
  match s.amoCheck m th.id o a n with
  | some c => s.insnFault m t c a
  | none =>
    if rl && spaceOf a != 2 && !th.performed then
      let s := s.sendFences m t
      s.park m t (s.thread m t) .parkedFence (.fenceAmo o a n v rd aq sx)
    else s.amoGo m t o a n v rd aq sx

/-! ### Pushes (R147, R150) -/

/-- The queue that a thread's class uses. -/
def TinThread.pushQueue (th : TinThread) : Nat := queueOf th.id.cls

/-- A queue of the Trestle holds records that threads have pushed. -/
def TrsQueue.stagedRecs (q : TrsQueue) : Nat := ((q.items.filter (·.staged)).map fun i => i.recs.length - i.pc).sum

/-- The whole push fits now. -/
def State.pushFits (s : State) (m : Nat) (th : TinThread) (p : TinPush) : Bool :=
  let c := m / 8
  let q := th.pushQueue
  match p with
  | .lsig _ _ => true
  | .trpush recs => decide (((s.trestle c).qu q).stagedRecs + recs.length ≤ 64)
  | .dmaq _ _ _ => decide ((s.dmaQ c q).length < 16)
  | .pwissue _ _ _ _ _ => decide (0 < s.pwtRoom (4 * c + m % 8 / 2) q)

/-- The push takes effect: context, class, epoch and task are the thread's. -/
def State.pushEnter (s : State) (m : Nat) (th : TinThread) (p : TinPush) : State :=
  let c := m / 8
  let q := th.pushQueue
  let id := { th.id with thread := true }
  match p with
  | .lsig l n => s.signal c l n
  | .trpush recs =>
    let s := s.modQu c q fun v => { v with items := v.items ++ [{ task := id, recs := recs, staged := true }] }
    s.setTrestle c { s.trestle c with pushRr := (2 + m % 8) % 9 }
  | .dmaq desc l n => s.setDmaQ c q (s.dmaQ c q ++ [{ task := id, use := .push l n, desc := decodeDma desc }])
  | .pwissue ka p0 p1 p2 p3 =>
    let u := 4 * c + m % 8 / 2
    let w := s.pewter u
    s.setPewter u { w with offers := w.offers ++ [⟨1 + m % 2, q, ⟨id, ka, p0, p1, p2, p3⟩⟩] }

/-- An LSIG or an engine push: it waits for the stores of R147, then for room. -/
def State.tinPush (s : State) (m t : Nat) (p : TinPush) : State :=
  let th := s.thread m t
  if th.pending then s.park m t th .parkedFence (.order p)
  else if s.pushFits m th p then (s.pushEnter m th p).retire m t th
  else s.park m t th .parkedQueue (.room p)

/-! ### What a parked thread does when something it waits for happens -/

/-- A parked thread goes on where the accesses it waits for have been performed. A late fault of a store is raised at a fence (R362). -/
def State.tinPoll (s : State) (m t : Nat) : State :=
  let th := s.thread m t
  match th.wait with
  | .fence =>
    if !th.performed then s
    else
      match th.late with
      | some l => s.raiseLate m t l
      | none => s.unpark m t th
  | .fenceAmo o a n v rd aq sx =>
    if !th.performed then s
    else
      match th.late with
      | some l => s.raiseLate m t l
      | none =>
        let s := s.setThread m t { th with wait := .none }
        let s := s.amoGo m t o a n v rd aq sx
        s
  | .order p =>
    if th.pending then s
    else if s.pushFits m th p then (s.pushEnter m th p).unpark m t th.next
    else s.setThread m t { th with st := .parkedQueue, wait := .room p, parkedAt := s.clk }
  | _ => s

/-- The result of an atomic arrives: the register is written, and the aq bit acts as a fence after it. -/
def State.amoResult (s : State) (m t rd : Nat) (v : W64) (aq : Bool) : State :=
  let th := s.thread m t
  let th := ({ th with outs := th.outs.filter (·.store) }.setX rd v).next
  if aq && !th.performed then
    let s := ((s.parkTime m th).setThread m t { th with st := .parkedFence, wait := .fence, parkedAt := s.clk }).sendFences m t
    s
  else s.unpark m t th

end Sys2Proof.Machine
end

