-- ==== Sys2Proof/Machine/TinVMem.lean ====
section
/-! DEFINITION. The loads and stores of the V extension (R130, R133): which elements they access at which addresses, in element order, and
which register bytes they move. -/

namespace Sys2Proof.Machine

/-- One element access: element number, address, bytes, and the key of its first register byte. -/
structure VPiece where
  elem : Nat
  addr : Nat
  bytes : Nat
  key : Nat

/-- What a vector memory instruction does: its accesses, the settings under which its destination's tail is written, the destination
groups (first register of each field, size in eighths), their element width, and whether it is fault-only-first. -/
structure VAccess where
  pieces : List VPiece
  cfg : VCfg
  dests : List Nat
  l8 : Nat
  eew : Nat
  fof : Bool

/-- Element width of a width field. -/
def vWidth (f3 : Nat) : Nat := if f3 = 0 then 8 else if f3 = 5 then 16 else if f3 = 6 then 32 else 64

/-- The accesses of the active elements: `addr i f` is the address of field f of element i. -/
def TinThread.vPieces (th : TinThread) (c : VCfg) (w d regs eew nf : Nat) (addr : Nat → Nat → Nat) : List VPiece :=
  (th.vActive c w).flatMap fun i => (List.range nf).map fun f =>
    ⟨i, addr i f % 2 ^ 64, eew / 8, 64 * (d + f * regs) + i * (eew / 8)⟩

/-- The accesses of a vector load or store; `none` for a form that is no instruction in the state it meets. -/
def TinThread.vMem (th : TinThread) (w : Nat) (isStore : Bool) : Option VAccess :=
  let mop := bits w 27 26
  let nf := bits w 31 29 + 1
  let vm := bit w 25
  let d := bits w 11 7
  let r := bits w 24 20
  let eew := vWidth (bits w 14 12)
  let base := (th.getX (bits w 19 15)).toNat
  let keep (ok : Bool) (v : VAccess) : Option VAccess := if ok then some v else none
  if mop = 0 ∧ r = 8 then
    let c : VCfg := ⟨eew, 8 * nf, nf * 512 / eew, th.vstart, false, false⟩
    keep (vm && [1, 2, 4, 8].contains nf && d % nf == 0 && (!isStore || eew == 8))
      ⟨th.vPieces c w d nf eew 1 (fun i _ => base + i * (eew / 8)), c, [d], 8 * nf, eew, false⟩
  else
    match th.vcfg with
    | none => none
    | some c =>
      if mop = 0 ∧ r = 11 then
        let c := { c with vl := ceilDiv c.vl 8, ta := true }
        keep (vm && nf == 1 && eew == 8) ⟨th.vPieces c w d 1 8 1 (fun i _ => base + i), c, [d], 8, 8, false⟩
      else if mop = 0 ∨ mop = 2 then
        let l8 := c.l8 * eew / c.sew
        let regs := vRegs l8
        let step : Int := if mop = 2 then (th.getX r).toInt else Int.ofNat (nf * (eew / 8))
        let addr (i f : Nat) : Nat := wrap 64 (Int.ofNat base + Int.ofNat i * step + Int.ofNat (f * (eew / 8)))
        let ok := vOk d l8 && l8 * c.sew == c.l8 * eew && decide (nf * l8 ≤ 64) && decide (d + nf * regs ≤ 32)
        let kind := mop == 2 || r == 0 || (r == 16 && !isStore)
        let mask := if isStore then vReads w [(d, 8 * nf * regs, eew)] else vMaskOk w d
        keep (ok && kind && mask)
          ⟨th.vPieces c w d regs eew nf addr, c, (List.range nf).map (fun f => d + f * regs), l8, eew, mop == 0 && r == 16⟩
      else
        let il := c.l8 * eew / c.sew
        let regs := vRegs c.l8
        let addr (i f : Nat) : Nat := base + th.vGet r eew i + f * (c.sew / 8)
        let ok := vOk d c.l8 && vOk r il && il * c.sew == c.l8 * eew && decide (nf * c.l8 ≤ 64) && decide (d + nf * regs ≤ 32)
        let overflow :=
          if isStore then vReads w [(r, il, eew), (d, 8 * nf * regs, c.sew)]
          else vMaskOk w d && vReads w [(r, il, eew)] &&
            if nf = 1 then vOver d c.l8 c.sew r il eew else vApart d (8 * nf * regs) r il
        keep (ok && overflow) ⟨th.vPieces c w d regs c.sew nf addr, c, (List.range nf).map (fun f => d + f * regs), c.l8, c.sew, false⟩

/-- The thread of a vector load before its data arrives: the agnostic elements of the destinations, and vstart 0. -/
def TinThread.vTails (th : TinThread) (v : VAccess) (w : Nat) : TinThread :=
  let one (t : TinThread) (d : Nat) : TinThread :=
    { t.vEach { v.cfg with start := th.vstart } w d v.eew v.l8 (th.vAct w) (fun i => pure0 (t.vGet d v.eew i)) with vstart := 0 }
  v.dests.foldl one th

/-- The register bytes of an element. -/
def VPiece.keys (p : VPiece) : List Nat := (List.range p.bytes).map (p.key + ·)

end Sys2Proof.Machine
end

