-- ==== Sys2Proof/Machine/Tin.lean ====
section
/-! DEFINITION. Tin threads: start, issue and the instructions of the base profile (R130 to R148), the responses and acknowledgements that
parked threads wait for, and the end of a thread (R161, R162). -/

namespace Sys2Proof.Machine

/-- Fault codes of R161. -/
def tinIllegal : Nat := 1
def tinAddr : Nat := 2
def tinAlign : Nat := 3
def tinRange : Nat := 4
def tinLatch : Nat := 5
def tinNd : Nat := 6
def tinEcall : Nat := 7

/-! ### Start and issue -/

/-- Both caches of a core without the lines of a context (R142). -/
def TinCore.forget (v : TinCore) (x : Nat) : TinCore :=
  { v with icache := v.icache.filter (·.ctx != x), dcache := v.dcache.filter (·.ctx != x) }

/-- TIN_ENTRY_START (R136, R142): thread t of core m starts the entry task that Cabinet has assigned to it. The instret counter starts at a
free value: no rule states one. -/
def execTinEntryStart (m t : Nat) (s : State) : Host.Outcome State Fault Refusal :=
  .next (
    let th := s.thread m t
    match th.entry with
    | none => s
    | some (pc, args) =>
      if !s.clusterOn (m / 8) then s
      else
        let s := s.setCore m ((s.core m).forget th.ctx)
        let a (i : Nat) : W64 := nth 0 args i
        let x : Tab W64 := Tab.set 0 (Tab.set 0 (Tab.set 0 (Tab.set 0 [] 10 (a 0)) 11 (a 1)) 12 (a 2)) 13 (a 3)
        (s.setThread m t { task := th.task, st := .ready, pc := BitVec.ofNat 64 pc, x := x, instret := Config.freeValue s.nonce }).tickNonce)

/-- The thread can issue in this C-cycle (R138). -/
def TinThread.canIssue (th : TinThread) : Bool := th.task.isSome && th.st == .ready && th.entry.isNone && !th.yielded

/-- The tier of thread t (R138). -/
def tinTier (t : Nat) (th : TinThread) : Nat := if t < 12 then 2 else if th.id.cls = 0 then 0 else 1

/-- The thread that issues: the highest tier that holds a ready thread, the next one at or after the tier's pointer. -/
def State.tinPick (s : State) (m : Nat) : Option (Nat × Nat) :=
  [0, 1, 2].findSome? fun k =>
    let p := s.field (Reg.TIN_ISSUE_RR (m / 8) (m % 8)) (4 * k + 3) (4 * k)
    (((List.range 16).map fun i => (p + i) % 16).find? fun t =>
      let th := s.thread m t
      th.canIssue && tinTier t th == k).map fun t => (k, t)

/-- A half-word of an instruction: a fault, a line that must be fetched, or its value. -/
inductive TinFetch where
  | fault
  | miss (line : Nat)
  | got (v : Nat)

/-- Code may be fetched from a READY object of the function under any policy that the class may read, and from the context's share (R136,
R143, R259). -/
def State.fetchOk (s : State) (m : Nat) (id : TaskId) (a : Nat) : Bool :=
  let sp := spaceOf a
  let o := offOf a
  decide (a < 2 ^ 57) && a % 2 == 0 &&
    (if sp = 0 then s.tierRight id.ctx id.cls o 2 false else sp == 2 && decide (o + 2 ≤ s.shareSize (m / 8) id.ctx))

/-- Fetches a half-word through the instruction cache; a line of the share fills at once. -/
def State.fetchHalf (s : State) (m : Nat) (id : TaskId) (a : Nat) : State × TinFetch :=
  let x := id.ctx
  let l := a / 64
  let word (bs : List Byte) : Nat := fromLE ((bs.drop (a % 64)).take 2)
  if !s.fetchOk m id a then (s, .fault)
  else
    match lineOf (s.core m).icache x l with
    | some bs => (s, .got (word bs))
    | none =>
      if spaceOf a = 2 then
        let bs := (s.shareRead (m / 8) x (offOf a / 64 * 64) 64).getD []
        let core := s.core m
        (s.setCore m { core with icache := fillLine iLines core.icache x l bs }, .got (word bs))
      else (s, .miss l)

/-- Fetches the instruction at a thread's pc. -/
def State.fetchInsn (s : State) (m : Nat) (th : TinThread) : State × TinFetch :=
  let pc := th.pc.toNat
  match s.fetchHalf m th.id pc with
  | (s, .got h) =>
    if tinLen h = 2 then (s, .got h)
    else
      match s.fetchHalf m th.id (pc + 2) with
      | (s, .got k) => (s, .got (h + 65536 * k))
      | r => r
  | r => r

/-- Thread t issues the instruction at its pc. -/
def State.issueThread (s : State) (m t : Nat) : State :=
  let th := s.thread m t
  match th.late with
  | some l => s.raiseLate m t l
  | none =>
    match s.fetchInsn m th with
    | (s, .fault) => s.insnFault m t tinAddr 0
    | (s, .miss l) => s.tinLoad m t [(l * 64, 64)] .fetch
    | (s, .got w) =>
      let s := s.setThread m t { s.thread m t with len := tinLen w }
      let core := s.core m
      (s.setCore m { core with cur := some t, word := w }).bump (Reg.TIN_INSNS (m / 8) (m % 8)) 1

/-- A C-cycle has passed for the threads that had yielded. -/
def State.unyield (s : State) (m : Nat) : State :=
  let core := s.core m
  if core.threads.any (·.2.yielded) then
    s.setCore m { core with threads := core.threads.map fun e => (e.1, { e.2 with yielded := false }) }
  else s

/-- TIN_ISSUE (R138): core m issues one instruction of one ready thread. It issues none while one issues, under HALT, or while its region
waits to switch clocks (R23). -/
def execTinIssue (m : Nat) (s : State) : Host.Outcome State Fault Refusal :=
  .next (
    if !s.clusterOn (m / 8) || s.tinHalted m || s.holding (m / 8) || (s.core m).cur.isSome then s
    else
      match s.tinPick m with
      | none => s.unyield m
      | some (k, t) =>
        let s := (s.unyield m).setField (Reg.TIN_ISSUE_RR (m / 8) (m % 8)) (4 * k + 3) (4 * k) ((t + 1) % 16)
        s.issueThread m t)

/-- The instruction that core m issues, when it is of the row's kind. -/
def State.insn (s : State) (m : Nat) (k : TinKind) (f : Nat → TinThread → TinInsn → State) : State :=
  let core := s.core m
  match core.cur with
  | none => s
  | some t =>
    let i := decodeTin core.word
    if i.kind == k && s.clusterOn (m / 8) then f t (s.thread m t) i else s

/-! ### The base profile -/

/-- A jump or a branch taken. -/
def State.jump (s : State) (m t : Nat) (th : TinThread) (pc : W64) : State :=
  (s.setThread m t { th with pc := pc, instret := th.instret + 1 }).leave m t

/-- A scalar load. -/
def State.loadInsn (s : State) (m t : Nat) (th : TinThread) (f3 rd rs1 : Nat) (off : Int) (fl : Bool) : State :=
  let n := 2 ^ (f3 % 4)
  let a := (th.getX rs1 + w64 off).toNat
  match s.tinCheck m th.id false (!fl && f3 == 3) n a n with
  | some c => s.insnFault m t c a
  | none => s.tinLoad m t [(a, n)] (if fl then .freg rd n else .xreg rd n (decide (f3 < 4)))

/-- A scalar store. -/
def State.storeInsn (s : State) (m t : Nat) (th : TinThread) (f3 rs1 rs2 : Nat) (off : Int) (fl : Bool) : State :=
  let n := 2 ^ f3
  let a := (th.getX rs1 + w64 off).toNat
  match s.tinCheck m th.id true (!fl && f3 == 3) n a n with
  | some c => s.insnFault m t c a
  | none => s.tinStore m t [(a, toLE n (if fl then th.getF rs2 else th.getX rs2).toNat)]

/-- The accesses of a vector load, its destinations' tails written. -/
def State.vloadGo (s : State) (m t : Nat) (th : TinThread) (w : Nat) (v : VAccess) : State :=
  let th := { th.vTails v w with vl := if v.fof then v.cfg.vl else th.vl }
  (s.setThread m t th).tinLoad m t (v.pieces.map fun p => (p.addr, p.bytes)) (.vreg (v.pieces.flatMap VPiece.keys))

/-- A vector load. A fault-only-first load whose first fault is not at element 0 ends before that element. -/
def State.vloadInsn (s : State) (m t : Nat) (th : TinThread) (w : Nat) : State :=
  match th.vMem w false with
  | none => s.insnFault m t tinIllegal 0
  | some v =>
    let bad (p : VPiece) : Option Nat := s.tinCheck m th.id false false (v.eew / 8) p.addr p.bytes
    match v.pieces.find? fun p => (bad p).isSome with
    | none => s.vloadGo m t th w v
    | some p =>
      if v.fof && p.elem != 0 then
        s.vloadGo m t th w { v with pieces := v.pieces.filter (fun q => decide (q.elem < p.elem)), cfg := { v.cfg with vl := p.elem } }
      else s.insnFault m t ((bad p).getD 0) p.addr

/-- A vector store. -/
def State.vstoreInsn (s : State) (m t : Nat) (th : TinThread) (w : Nat) : State :=
  match th.vMem w true with
  | none => s.insnFault m t tinIllegal 0
  | some v =>
    match s.tinChecks m th.id true false (v.eew / 8) (v.pieces.map fun p => (p.addr, p.bytes)) with
    | some f => s.insnFault m t f.1 f.2
    | none =>
      (s.setThread m t { th with vstart := 0 }).tinStore m t
        (v.pieces.map fun p => (p.addr, (List.range p.bytes).map fun k => th.v.get 0 (p.key + k)))

/-- An instruction of the base profile other than those with rows of their own. -/
def State.baseInsn (s : State) (m t : Nat) (th : TinThread) (i : TinInsn) : State :=
  let opt (o : Option TinThread) : State := match o with
    | some th => s.retire m t th
    | none => s.insnFault m t tinIllegal 0
  let link := th.pc + BitVec.ofNat 64 th.len
  match i with
  | .lui rd imm => s.retire m t (th.setX rd (w64 imm))
  | .auipc rd imm => s.retire m t (th.setX rd (th.pc + w64 imm))
  | .jal rd off => s.jump m t (th.setX rd link) (th.pc + w64 off)
  | .jalr rd rs1 off => s.jump m t (th.setX rd link) ((th.getX rs1 + w64 off) &&& w64 (-2))
  | .branch f3 rs1 rs2 off =>
    if branchTaken f3 (th.getX rs1) (th.getX rs2) then s.jump m t th (th.pc + w64 off) else s.retire m t th
  | .load f3 rd rs1 off fl => s.loadInsn m t th f3 rd rs1 off fl
  | .store f3 rs1 rs2 off fl => s.storeInsn m t th f3 rs1 rs2 off fl
  | .alu op word rd rs1 src => s.retire m t (th.setX rd (op.result word (th.getX rs1) (th.src src)))
  | .fma dbl np nc rd rs1 rs2 rs3 rm => opt (th.fmadd dbl np nc rd rs1 rs2 rs3 rm)
  | .fop f5 dbl rd rs1 rs2 rm => opt (th.fop f5 dbl rd rs1 rs2 rm)
  | .vset w => s.retire m t (th.vset w)
  | .vop w => opt (th.vOp w)
  | .vload w => s.vloadInsn m t th w
  | .vstore w => s.vstoreInsn m t th w
  | _ => s

/-- TIN_BASE_INSTRUCTION (R130). -/
def execTinBaseInstruction (m : Nat) (s : State) : Host.Outcome State Fault Refusal :=
  .next (s.insn m .base fun t th i => s.baseInsn m t th i)

/-- Operations that Sterling-mode contexts may not issue (R152). -/
def State.ndFault (s : State) (th : TinThread) : Bool := s.sterling th.ctx

/-- A CSR instruction (R132). The counters cycle, time and instret are read-only ND operations; the cycle count is a free value. -/
def State.csrInsn (s : State) (m t : Nat) (th : TinThread) (f3 rd rs1 num : Nat) : State :=
  let ill := s.insnFault m t tinIllegal 0
  let writes := f3 % 4 == 1 || rs1 != 0
  if num = 0xC00 ∨ num = 0xC01 ∨ num = 0xC02 then
    if writes then ill
    else if s.ndFault th then s.insnFault m t tinNd 0
    else if num = 0xC00 then (s.retire m t (th.setX rd (BitVec.ofNat 64 (Config.freeValue s.nonce)))).tickNonce
    else s.retire m t (th.setX rd (BitVec.ofNat 64 (if num = 0xC01 then s.now else th.instret)))
  else
    match th.csr num with
    | none => ill
    | some old =>
      let v := if f3 < 4 then (th.getX rs1).toNat else rs1
      let new := match f3 % 4 with
        | 1 => v
        | 2 => old ||| v
        | _ => old &&& (2 ^ 64 - 1 - v)
      match (if writes then th.setCsr num new else some th) with
      | none => ill
      | some th => s.retire m t (th.setX rd (BitVec.ofNat 64 old))

/-- TIN_CSR_ACCESS (R132). -/
def execTinCsrAccess (m : Nat) (s : State) : Host.Outcome State Fault Refusal :=
  .next (s.insn m .csr fun t th i =>
    match i with
    | .csr f3 rd rs1 num => s.csrInsn m t th f3 rd rs1 num
    | _ => s)

/-- TIN_AMO (R134). -/
def execTinAmo (m : Nat) (s : State) : Host.Outcome State Fault Refusal :=
  .next (s.insn m .amo fun t th i =>
    match i with
    | .amo o dbl aq rl rd rs1 rs2 => s.tinAmo m t o (th.getX rs1).toNat (if dbl then 8 else 4) (th.getX rs2) rd aq rl true
    | _ => s)

/-- TIN_LR (R134): loads and reserves the 64-byte granule. -/
def execTinLr (m : Nat) (s : State) : Host.Outcome State Fault Refusal :=
  .next (s.insn m .lr fun t th i =>
    match i with
    | .lr dbl rd rs1 => s.tinAmo m t .lr (th.getX rs1).toNat (if dbl then 8 else 4) 0 rd false false true
    | _ => s)

/-- TIN_SC (R134): stores if the thread still holds its reservation on the granule. -/
def execTinSc (m : Nat) (s : State) : Host.Outcome State Fault Refusal :=
  .next (s.insn m .sc fun t th i =>
    match i with
    | .sc dbl rd rs1 rs2 => s.tinAmo m t .sc (th.getX rs1).toNat (if dbl then 8 else 4) (th.getX rs2) rd false false true
    | _ => s)

/-- FENCE (R146): FENCE and FENCE.TSO, their sets full. -/
def execFence (m : Nat) (s : State) : Host.Outcome State Fault Refusal :=
  .next (s.insn m .fence fun t th _ =>
    if th.performed then s.retire m t th
    else
      let s := s.sendFences m t
      s.park m t (s.thread m t).next .parkedFence .fence)

/-- FENCE_I (R142): the instruction-cache lines of the thread's context are invalidated. -/
def execFenceI (m : Nat) (s : State) : Host.Outcome State Fault Refusal :=
  .next (s.insn m .fenceI fun t th _ =>
    let core := s.core m
    (s.setCore m { core with icache := core.icache.filter (·.ctx != th.ctx) }).retire m t th)

/-- ECALL (R131). -/
def execEcall (m : Nat) (s : State) : Host.Outcome State Fault Refusal :=
  .next (s.insn m .ecall fun t _ _ => s.insnFault m t tinEcall 0)

/-- EBREAK (R131). -/
def execEbreak (m : Nat) (s : State) : Host.Outcome State Fault Refusal :=
  .next (s.insn m .ebreak fun t _ _ => s.insnFault m t tinEcall 0)

/-- TIN_ILLEGAL_INSTRUCTION (R161). -/
def execTinIllegalInstruction (m : Nat) (s : State) : Host.Outcome State Fault Refusal :=
  .next (s.insn m .illegal fun t _ _ => s.insnFault m t tinIllegal 0)

/-! ### Responses -/

/-- A response to an access of a thread that has been freed is discarded and counted (R141). -/
def State.lateDrop (s : State) (m : Nat) : State :=
  let core := s.core m
  if core.stray = 0 then s
  else (s.setCore m { core with stray := core.stray - 1 }).bump (Reg.TIN_LATE_DROP (m / 8) (m % 8)) 1

/-- A response belongs to the thread's task: its context and the epoch of its dispatch. -/
def TinThread.owns (th : TinThread) (x e : Nat) : Bool := th.task.isSome && th.ctx == x && th.id.epoch == e

/-- The stores that precede a parked access on its paths have been performed (R145). -/
def TinThread.turn (th : TinThread) : Bool :=
  th.outs.all fun o => !o.store || o.done || !(th.outs.any fun p => !p.store && p.path == o.path)

/-- The parked access has been answered. -/
def State.answered (s : State) (m t : Nat) : State :=
  let th := s.thread m t
  s.setThread m t { th with outs := th.outs.filter (·.store) }

/-- The answers of a load's Solder piece: the address and the status of one that is not OK. -/
def State.sldBad (s : State) (m t : Nat) (ps : List (Nat × Nat)) : Option (Nat × Nat) :=
  ps.findSome? fun p =>
    if spaceOf p.1 = 256 then (s.tinAns m t 0 p.1).bind fun r => if r.status = 0 then none else some (p.1, r.status) else none

/-- A Solder status other than OK ends the thread (R362). -/
def State.sldFault (s : State) (m t a status : Nat) : State :=
  match sldCause status with
  | none => s
  | some 0 => s.tinEnd m t 2 0xFF
  | some c => s.insnFault m t c a

/-- The data of a load or a fetch arrives. -/
def State.loadArrive (s : State) (m t : Nat) (ps : List (Nat × Nat)) (d : TinDest) (ext : Option ExtData) : State :=
  let th := s.thread m t
  let x := th.ctx
  let waits := ps.any fun p => !s.near m x d p && (if spaceOf p.1 = 0 then !s.dataReady (offOf p.1) p.2
    else if spaceOf p.1 = 256 then (s.tinAns m t 0 p.1).isNone else false)
  let hostPs := ps.filter fun p => spaceOf p.1 == 1
  let host : Option (List Byte) := match ext with
    | some (.data bs) => some bs
    | _ => none
  if waits || !th.turn then s
  else if !hostPs.isEmpty && ext == some .error then (s.answered m t).insnFault m t tinAddr ((hostPs.map (·.1)).headD 0)
  else if !hostPs.isEmpty && (host.map List.length) != some ((hostPs.map (·.2)).sum) then s
  else
    match s.loadPoison m x d ps with
    | some l => (s.answered m t).tinPoison m t l
    | none =>
      match s.sldBad m t ps with
      | some b => ((s.readPieces m t d [] ps).1.answered m t).sldFault m t b.1 b.2
      | none =>
        let r := s.readPieces m t d (host.getD []) ps
        let s := ((r.1.answered m t).tinDeliver m t d ps r.2).dropReader (.tin m t)
        let th := s.thread m t
        s.unpark m t (if d == .fetch then th else th.next)

/-- The answer to a Solder atomic arrives. -/
def State.sldAmoArrive (s : State) (m t opc n rd : Nat) (aq sx : Bool) : State :=
  let th := s.thread m t
  match th.outs.find? fun o => !o.store with
  | none => s
  | some o =>
    match s.tinAns m t opc o.addr with
    | none => s
    | some r =>
      if !th.turn then s
      else
        let s := s.takeAns r
        if r.status ≠ 0 then (s.answered m t).sldFault m t o.addr r.status
        else
          let v := fromLE (r.data.take n)
          s.amoResult m t rd (if sx then sx64 (8 * n) v else BitVec.ofNat 64 v) aq

/-- The answer to a Solder fence arrives: the stores before it on its path have been performed. -/
def State.fenceArrive (s : State) (m t : Nat) : State :=
  let th := s.thread m t
  match th.outs.findSome? fun o => if o.store then none else (s.tinAns m t 12 o.addr).map fun r => (o, r) with
  | none => s
  | some (o, r) =>
    let outs := (th.outs.erase o).map fun q => if q.path = o.path then { q with done := true } else q
    let late := match th.late, sldCause r.status with
      | some l, _ => some l
      | none, some c => some (c, o.addr, r.op.pc)
      | none, none => none
    ((s.takeAns r).setThread m t { th with outs := outs, late := late }).tinPoll m t

/-- EXT_RESPONSE_ARRIVE (R140, R141): the response to a cluster-external access of thread t of core m, with the context and the epoch it
carries and the data that came from outside the package. A response for a thread that has been freed is dropped. -/
def execExtResponseArrive (m t x e : Nat) (ext : Option ExtData) (s : State) : Host.Outcome State Fault Refusal :=
  .next (
    let th := s.thread m t
    if !th.owns x e then s.lateDrop m
    else
      match th.wait with
      | .load ps d => s.loadArrive m t ps d ext
      | .result rd v aq => if th.turn then s.amoResult m t rd v aq else s
      | .poison l => if th.turn then (s.answered m t).tinPoison m t l else s
      | .solder opc n rd aq sx => s.sldAmoArrive m t opc n rd aq sx
      | .fence => s.fenceArrive m t
      | .fenceAmo _ _ _ _ _ _ _ => s.fenceArrive m t
      | _ => s)

/-- STORE_ACK (R146): the home of the oldest posted store of thread t on a path acknowledges it; on a Solder path its response has come. A
store that failed faults its thread at its next issue, FENCE or TEXIT (R362). -/
def execStoreAck (m t x e path : Nat) (s : State) : Host.Outcome State Fault Refusal :=
  .next (
    let th := s.thread m t
    if !th.owns x e then s.when (decide (path < 4)) (·.lateDrop m)
    else if path < 4 then
      match th.outs.find? fun o => o.store && o.path == path with
      | none => s
      | some o => (s.setThread m t { th with outs := th.outs.erase o }).tinPoll m t
    else
      match th.outs.findSome? fun o => if o.store && o.path == path then (s.tinAns m t 1 o.addr).map fun r => (o, r) else none with
      | none => s
      | some (o, r) =>
        let s := (s.takeAns r).setThread m t { th with outs := th.outs.erase o }
        match sldCause r.status with
        | none => s.tinPoll m t
        | some c =>
          let l := (c, o.addr, r.op.pc)
          if th.ending == some (0, 0) then s.raiseLate m t l
          else if th.ending.isSome || th.late.isSome then s.tinPoll m t
          else (s.setThread m t { s.thread m t with late := some l }).tinPoll m t)

/-- OUTBOUND_BUFFER_ACCEPT (R140): the outbound buffer accepts the store of a parked thread, which has fewer than 16 unacknowledged. -/
def execOutboundBufferAccept (m t : Nat) (s : State) : Host.Outcome State Fault Refusal :=
  .next (
    let th := s.thread m t
    match th.wait with
    | .accept ps =>
      let as := ps.map (·.1)
      if 16 < th.posted + (pathsOf as).length then s
      else
        let s := ps.foldl (fun s p => s.tinWrite m t p.1 p.2) s
        if (s.thread m t).task.isNone then s
        else
          let s := s.addOuts m t as ((ps.map (·.2.length)).sum) true
          s.unpark m t (s.thread m t).next
    | _ => s)

/-- QUEUE_ROOM (R140): the push of a parked thread fits whole and enters. -/
def execQueueRoom (m t : Nat) (s : State) : Host.Outcome State Fault Refusal :=
  .next (
    let th := s.thread m t
    match th.wait with
    | .room p => if s.clusterOn (m / 8) && s.pushFits m th p then (s.pushEnter m th p).unpark m t th.next else s
    | _ => s)

/-! ### The end of a thread -/

/-- TEXIT (R148): the thread's task ends. -/
def execTexit (m : Nat) (s : State) : Host.Outcome State Fault Refusal :=
  .next (s.insn m .texit fun t th _ => (s.setThread m t th.next).tinEnd m t 0 0)

/-- TIN_TASK_REPORT (R148, R150): every access of an ended thread has been performed. Its task is reported, with the first status other than OK
that its pushed work left where it ended without a fault of its own, and the thread is FREE. -/
def execTinTaskReport (m t : Nat) (s : State) : Host.Outcome State Fault Refusal :=
  .next (
    let th := s.thread m t
    match th.ending with
    | none => s
    | some e =>
      if !th.outs.isEmpty then s
      else
        let e := if e.1 = 0 then th.pushStat.getD (0, 0) else e
        let core := s.core m
        (s.setCore m { core with threads := core.threads.del t }).finish th.id e.1 e.2 (m / 8))

/-- TIN_HALT (R162): a write of TIN_CTRL.HALT of core m. -/
def execTinHalt (m : Nat) (on : Bool) (s : State) : Host.Outcome State Fault Refusal :=
  .next (
    if s.clusterPresent (m / 8) then (s.setField (Reg.TIN_CTRL (m / 8) (m % 8)) 2 2 (b2n on)).tinResume m else s)

end Sys2Proof.Machine
end

