-- ==== Sys2Proof/Machine/TinUmtia.lean ====
section
/-! DEFINITION. Umtia's own Tin instructions (R149 to R152): latches, engine pushes, digests, random words, Solder-capable atomics and the
copies between the share and memory outside the cluster. -/

namespace Sys2Proof.Machine

/-! ### Latches -/

/-- The fault of a latch operation: a count of 2^32 or more is RANGE, a latch not granted to the context LATCH. -/
def State.latchFault (s : State) (m : Nat) (th : TinThread) (l n : Nat) : Option Nat :=
  if 2 ^ 32 ≤ n then some tinRange else if !s.latchOwned (m / 8) l th.ctx then some tinLatch else none

/-- LSIG (R147, R149). -/
def execLsig (m : Nat) (s : State) : Host.Outcome State Fault Refusal :=
  .next (s.insn m .lsig fun t th i =>
    match i with
    | .lsig rs1 rs2 =>
      let l := (th.getX rs1).toNat % 256
      let n := (th.getX rs2).toNat
      match s.latchFault m th l n with
      | some c => s.insnFault m t c 0
      | none => s.tinPush m t (.lsig l n)
    | _ => s)

/-- LWAIT (R149, R154): WAIT(0) completes at once; else the thread parks until the latch releases it. -/
def execLwait (m : Nat) (s : State) : Host.Outcome State Fault Refusal :=
  .next (s.insn m .lwait fun t th i =>
    match i with
    | .lwait rs1 rs2 =>
      let l := (th.getX rs1).toNat % 256
      let n := (th.getX rs2).toNat
      match s.latchFault m th l n with
      | some c => s.insnFault m t c 0
      | none =>
        let s := if n = 0 then s.retire m t th else s.park m t th.next .parkedLatch .latch
        s.waitOn (m / 8) l (tinWaiter m t) n
    | _ => s)

/-- LTRY (R149): an ND operation. -/
def execLtry (m : Nat) (s : State) : Host.Outcome State Fault Refusal :=
  .next (s.insn m .ltry fun t th i =>
    match i with
    | .ltry rd rs1 rs2 =>
      let c := m / 8
      let l := (th.getX rs1).toNat % 256
      let n := (th.getX rs2).toNat
      if s.ndFault th then s.insnFault m t tinNd 0
      else
        match s.latchFault m th l n with
        | some k => s.insnFault m t k 0
        | none =>
          let count := s.reg (Reg.LAT_COUNT c l)
          if n ≤ count then (s.setReg (Reg.LAT_COUNT c l) (count - n)).retire m t (th.setX rd 1) else s.retire m t (th.setX rd 0)
    | _ => s)

/-- LRD (R149): an ND operation. -/
def execLrd (m : Nat) (s : State) : Host.Outcome State Fault Refusal :=
  .next (s.insn m .lrd fun t th i =>
    match i with
    | .lrd rd rs1 =>
      let l := (th.getX rs1).toNat % 256
      if s.ndFault th then s.insnFault m t tinNd 0
      else
        match s.latchFault m th l 0 with
        | some k => s.insnFault m t k 0
        | none => s.retire m t (th.setX rd (BitVec.ofNat 64 (s.reg (Reg.LAT_COUNT (m / 8) l))))
    | _ => s)

/-! ### Pushes -/

/-- The 64-byte records of a push. -/
def records (bs : List Byte) (n : Nat) : List (List Byte) := (List.range n).map fun k => (bs.drop (64 * k)).take 64

/-- TRPUSH (R149, R150): 1 to 64 records. -/
def execTrpush (m : Nat) (s : State) : Host.Outcome State Fault Refusal :=
  .next (s.insn m .trpush fun t th i =>
    match i with
    | .trpush rs1 rs2 =>
      let o := (th.getX rs1).toNat
      let n := (th.getX rs2).toNat
      if n = 0 ∨ 64 < n then s.insnFault m t tinRange 0
      else
        match s.shareRead (m / 8) th.ctx o (64 * n) with
        | none => s.insnFault m t tinAddr o
        | some bs => s.tinPush m t (.trpush (records bs n))
    | _ => s)

/-- DMAQ (R149, R150): the descriptor reaches the engine unchecked. -/
def execDmaq (m : Nat) (s : State) : Host.Outcome State Fault Refusal :=
  .next (s.insn m .dmaq fun t th i =>
    match i with
    | .dmaq rs1 rs2 =>
      let o := (th.getX rs1).toNat
      let v := (th.getX rs2).toNat
      let l := v % 256
      let n := v / 2 ^ 32
      if n ≠ 0 ∧ ¬ s.latchOwned (m / 8) l th.ctx then s.insnFault m t tinLatch 0
      else
        match s.shareRead (m / 8) th.ctx o 32 with
        | none => s.insnFault m t tinAddr o
        | some bs => s.tinPush m t (.dmaq bs l n)
    | _ => s)

/-- PWISSUE (R149): an issue record for the core's Pewter unit. -/
def execPwissue (m : Nat) (s : State) : Host.Outcome State Fault Refusal :=
  .next (s.insn m .pwissue fun t th i =>
    match i with
    | .pwissue rs1 rs2 rs3 =>
      let a := th.getX rs2
      let b := th.getX rs3
      let w (v : W64) (h : Nat) : W32 := BitVec.ofNat 32 (v.toNat / 2 ^ h)
      s.tinPush m t (.pwissue (th.getX rs1).toNat (w a 0) (w a 32) (w b 0) (w b 32))
    | _ => s)

/-- TYIELD (R149). -/
def execTyield (m : Nat) (s : State) : Host.Outcome State Fault Refusal :=
  .next (s.insn m .tyield fun t th _ => s.retire m t { th with yielded := true })

/-! ### Digests and random words -/

/-- DGADD (R149, R234, R235): marks bytes for the task's digest. A length of 0 enters nothing. -/
def execDgadd (m : Nat) (s : State) : Host.Outcome State Fault Refusal :=
  .next (s.insn m .dgadd fun t th i =>
    match i with
    | .dgadd rs1 rs2 =>
      let a := (th.getX rs1).toNat
      let n := (th.getX rs2).toNat
      let sp := spaceOf a
      if n = 0 then s.retire m t th
      else if 2 ^ 57 ≤ a then s.insnFault m t tinAddr a
      else if sp = 1 ∨ sp = 3 ∨ sp = 256 then s.insnFault m t tinRange a
      else
        match s.tinCheck m th.id false false 1 a n with
        | some c => s.insnFault m t c a
        | none => (s.mark th.id (if sp = 2 then shareMark (offOf a) else a) n).retire m t th
    | _ => s)

/-- RNGW (R231, R232). -/
def execRngw (m : Nat) (s : State) : Host.Outcome State Fault Refusal :=
  .next (s.insn m .rngw fun t th i =>
    match i with
    | .rngw rd rs1 rs2 =>
      let st := (th.getX rs1).toNat % 2 ^ 16
      let w := (th.getX rs2).toNat
      if 2 ^ 50 ≤ w then s.insnFault m t tinRange 0 else s.retire m t (th.setX rd (BitVec.ofNat 64 (s.taskWord th.id st w)))
    | _ => s)

/-- RNGD (R231, R232): word 2n + 1 above word 2n. -/
def execRngd (m : Nat) (s : State) : Host.Outcome State Fault Refusal :=
  .next (s.insn m .rngd fun t th i =>
    match i with
    | .rngd rd rs1 rs2 =>
      let st := (th.getX rs1).toNat % 2 ^ 16
      let n := (th.getX rs2).toNat
      if 2 ^ 49 ≤ n then s.insnFault m t tinRange 0
      else s.retire m t (th.setX rd (BitVec.ofNat 64 (s.taskWord th.id st (2 * n) + 2 ^ 32 * s.taskWord th.id st (2 * n + 1))))
    | _ => s)

/-- TRNG (R149): 64 bits of a true random source are a free value; an ND operation. -/
def execTrng (m : Nat) (s : State) : Host.Outcome State Fault Refusal :=
  .next (s.insn m .trng fun t th i =>
    match i with
    | .trng rd =>
      if s.ndFault th then s.insnFault m t tinNd 0
      else (s.retire m t (th.setX rd (BitVec.ofNat 64 (Config.freeValue s.nonce)))).tickNonce
    | _ => s)

/-! ### Atomics and copies -/

/-- SCAS (R149, R360). -/
def execScas (m : Nat) (s : State) : Host.Outcome State Fault Refusal :=
  .next (s.insn m .scas fun t th i =>
    match i with
    | .scas rd rs1 rs2 rs3 => s.tinAmo m t (.cas (th.getX rs2)) (th.getX rs1).toNat 8 (th.getX rs3) rd false false false
    | _ => s)

/-- A float atomic add: an ND operation. -/
def State.faaddInsn (s : State) (m t : Nat) (th : TinThread) (i : TinInsn) : State :=
  match i with
  | .faadd dbl rd rs1 rs2 =>
    if s.ndFault th then s.insnFault m t tinNd 0
    else s.tinAmo m t .fadd (th.getX rs1).toNat (if dbl then 8 else 4) (th.getX rs2) rd false false false
  | _ => s

/-- FAADD_D (R149). -/
def execFaaddD (m : Nat) (s : State) : Host.Outcome State Fault Refusal :=
  .next (s.insn m .faaddD fun t th i => s.faaddInsn m t th i)

/-- FAADD_S (R149). -/
def execFaaddS (m : Nat) (s : State) : Host.Outcome State Fault Refusal :=
  .next (s.insn m .faaddS fun t th i => s.faaddInsn m t th i)

/-- The fault of a copy of n bytes between share offset o and address a (R149): its cause and address. -/
def State.copyFault (s : State) (m : Nat) (th : TinThread) (write : Bool) (o a n : Nat) : Option (Nat × Nat) :=
  let sp := spaceOf a
  if o % 8 ≠ 0 then some (tinAlign, o)
  else if 2 ^ 57 ≤ a then some (tinAddr, a)
  else if a % 8 ≠ 0 then some (tinAlign, a)
  else if sp = 2 ∨ sp = 3 then some (tinRange, a)
  else
    match s.tinCheck m th.id write true 8 a n with
    | some c => some (c, a)
    | none => if s.shareSize (m / 8) th.ctx < o + n then some (tinAddr, o) else none

/-- XLD (R149). -/
def execXld (m : Nat) (s : State) : Host.Outcome State Fault Refusal :=
  .next (s.insn m .xld fun t th i =>
    match i with
    | .xld l rs1 rs2 =>
      let o := (th.getX rs1).toNat
      let a := (th.getX rs2).toNat
      match s.copyFault m th false o a (8 * (l + 1)) with
      | some f => s.insnFault m t f.1 f.2
      | none => s.tinLoad m t [(a, 8 * (l + 1))] (.share o)
    | _ => s)

/-- XST (R149). -/
def execXst (m : Nat) (s : State) : Host.Outcome State Fault Refusal :=
  .next (s.insn m .xst fun t th i =>
    match i with
    | .xst l rs1 rs2 =>
      let a := (th.getX rs1).toNat
      let o := (th.getX rs2).toNat
      match s.copyFault m th true o a (8 * (l + 1)) with
      | some f => s.insnFault m t f.1 f.2
      | none => s.tinStore m t [(a, (s.shareRead (m / 8) th.ctx o (8 * (l + 1))).getD [])]
    | _ => s)

/-- DINV (R142): the data-cache lines of the thread's context are invalidated. -/
def execDinv (m : Nat) (s : State) : Host.Outcome State Fault Refusal :=
  .next (s.insn m .dinv fun t th _ =>
    let core := s.core m
    (s.setCore m { core with dcache := core.dcache.filter (·.ctx != th.ctx) }).retire m t th)

end Sys2Proof.Machine
end

