-- ==== Sys2Proof/Machine/Dispatch.lean ====
section
/-! DEFINITION. One arm per command: a direct call of its meaning. -/

namespace Sys2Proof.Machine

def exec (i : Instr) (s : State) : Host.Outcome State Fault Refusal :=
  match i with
  | .lowWordRead r a => Sys2Proof.Machine.execLowWordRead r a s
  | .highWordRead r a => Sys2Proof.Machine.execHighWordRead r a s
  | .lowWordWrite r a v => Sys2Proof.Machine.execLowWordWrite r a v s
  | .highWordWrite r a v => Sys2Proof.Machine.execHighWordWrite r a v s
  | .registerWrite r a v => Sys2Proof.Machine.execRegisterWrite r a v s
  | .invNowRead r => Sys2Proof.Machine.execInvNowRead r s
  | .sizeTablePublish => Sys2Proof.Machine.execSizeTablePublish s
  | .pllRetuneDone r => Sys2Proof.Machine.execPllRetuneDone r s
  | .regionStepSwitch r => Sys2Proof.Machine.execRegionStepSwitch r s
  | .stepChangeAbandon r => Sys2Proof.Machine.execStepChangeAbandon r s
  | .vrmInRange d => Sys2Proof.Machine.execVrmInRange d s
  | .gatingEntry c => Sys2Proof.Machine.execGatingEntry c s
  | .gatingRetentionPoint c => Sys2Proof.Machine.execGatingRetentionPoint c s
  | .regionPllStop r permitted => Sys2Proof.Machine.execRegionPllStop r permitted s
  | .wakeRequest c => Sys2Proof.Machine.execWakeRequest c s
  | .wakeDone c => Sys2Proof.Machine.execWakeDone c s
  | .feederCycle c late => Sys2Proof.Machine.execFeederCycle c late s
  | .tileBoundary c => Sys2Proof.Machine.execTileBoundary c s
  | .rowLands c flips => Sys2Proof.Machine.execRowLands c flips s
  | .loadBegin c => Sys2Proof.Machine.execLoadBegin c s
  | .drainRowConvert c => Sys2Proof.Machine.execDrainRowConvert c s
  | .checkEvaluate c => Sys2Proof.Machine.execCheckEvaluate c s
  | .checkRerunOutcome c => Sys2Proof.Machine.execCheckRerunOutcome c s
  | .trsNop c => Sys2Proof.Machine.execTrsNop c s
  | .trsConfig c => Sys2Proof.Machine.execTrsConfig c s
  | .trsLoad c => Sys2Proof.Machine.execTrsLoad c s
  | .trsStream c => Sys2Proof.Machine.execTrsStream c s
  | .trsDrain c => Sys2Proof.Machine.execTrsDrain c s
  | .trsWait c => Sys2Proof.Machine.execTrsWait c s
  | .trsSignal c => Sys2Proof.Machine.execTrsSignal c s
  | .trsEnd c => Sys2Proof.Machine.execTrsEnd c s
  | .trsHalt c set => Sys2Proof.Machine.execTrsHalt c set s
  | .pewterIssuePush u => Sys2Proof.Machine.execPewterIssuePush u s
  | .kernelStart u => Sys2Proof.Machine.execKernelStart u s
  | .pewterQueueChange u => Sys2Proof.Machine.execPewterQueueChange u s
  | .insnLineFetch u wait => Sys2Proof.Machine.execInsnLineFetch u wait s
  | .tileLimit u => Sys2Proof.Machine.execTileLimit u s
  | .pwtNop u => Sys2Proof.Machine.execPwtNop u s
  | .pwtTile u => Sys2Proof.Machine.execPwtTile u s
  | .pwtEnd u => Sys2Proof.Machine.execPwtEnd u s
  | .pwtWait u => Sys2Proof.Machine.execPwtWait u s
  | .pwtSignal u => Sys2Proof.Machine.execPwtSignal u s
  | .loop u => Sys2Proof.Machine.execLoop u s
  | .jmp u => Sys2Proof.Machine.execJmp u s
  | .rdtime u => Sys2Proof.Machine.execRdtime u s
  | .rdcyc u => Sys2Proof.Machine.execRdcyc u s
  | .sli u => Sys2Proof.Machine.execSli u s
  | .slih u => Sys2Proof.Machine.execSlih u s
  | .saddi u => Sys2Proof.Machine.execSaddi u s
  | .sadd u => Sys2Proof.Machine.execSadd u s
  | .ssub u => Sys2Proof.Machine.execSsub u s
  | .sget u => Sys2Proof.Machine.execSget u s
  | .vbcast u => Sys2Proof.Machine.execVbcast u s
  | .setvl u => Sys2Proof.Machine.execSetvl u s
  | .agset u => Sys2Proof.Machine.execAgset u s
  | .asetp u => Sys2Proof.Machine.execAsetp u s
  | .pwtLd u => Sys2Proof.Machine.execPwtLd u s
  | .pwtSt u => Sys2Proof.Machine.execPwtSt u s
  | .bfpu u => Sys2Proof.Machine.execBfpu u s
  | .bfpk u => Sys2Proof.Machine.execBfpk u s
  | .llr u => Sys2Proof.Machine.execLlr u s
  | .cmac u => Sys2Proof.Machine.execCmac u s
  | .accr u => Sys2Proof.Machine.execAccr u s
  | .acc32 u => Sys2Proof.Machine.execAcc32 u s
  | .accsum u => Sys2Proof.Machine.execAccsum u s
  | .cmulh u => Sys2Proof.Machine.execCmulh u s
  | .cadd u => Sys2Proof.Machine.execCadd u s
  | .csub u => Sys2Proof.Machine.execCsub u s
  | .vshf u => Sys2Proof.Machine.execVshf u s
  | .cmag2 u => Sys2Proof.Machine.execCmag2 u s
  | .vperm u => Sys2Proof.Machine.execVperm u s
  | .norm u => Sys2Proof.Machine.execNorm u s
  | .expb u => Sys2Proof.Machine.execExpb u s
  | .bfly2 u => Sys2Proof.Machine.execBfly2 u s
  | .bfly4 u => Sys2Proof.Machine.execBfly4 u s
  | .pwtHalt u set => Sys2Proof.Machine.execPwtHalt u set s
  | .tinEntryStart m t => Sys2Proof.Machine.execTinEntryStart m t s
  | .tinIssue m => Sys2Proof.Machine.execTinIssue m s
  | .tinBaseInstruction m => Sys2Proof.Machine.execTinBaseInstruction m s
  | .tinCsrAccess m => Sys2Proof.Machine.execTinCsrAccess m s
  | .tinAmo m => Sys2Proof.Machine.execTinAmo m s
  | .tinLr m => Sys2Proof.Machine.execTinLr m s
  | .tinSc m => Sys2Proof.Machine.execTinSc m s
  | .fence m => Sys2Proof.Machine.execFence m s
  | .fenceI m => Sys2Proof.Machine.execFenceI m s
  | .ecall m => Sys2Proof.Machine.execEcall m s
  | .ebreak m => Sys2Proof.Machine.execEbreak m s
  | .extResponseArrive m t x e ext => Sys2Proof.Machine.execExtResponseArrive m t x e ext s
  | .storeAck m t x e path => Sys2Proof.Machine.execStoreAck m t x e path s
  | .outboundBufferAccept m t => Sys2Proof.Machine.execOutboundBufferAccept m t s
  | .queueRoom m t => Sys2Proof.Machine.execQueueRoom m t s
  | .lsig m => Sys2Proof.Machine.execLsig m s
  | .lwait m => Sys2Proof.Machine.execLwait m s
  | .ltry m => Sys2Proof.Machine.execLtry m s
  | .lrd m => Sys2Proof.Machine.execLrd m s
  | .trpush m => Sys2Proof.Machine.execTrpush m s
  | .dmaq m => Sys2Proof.Machine.execDmaq m s
  | .pwissue m => Sys2Proof.Machine.execPwissue m s
  | .tyield m => Sys2Proof.Machine.execTyield m s
  | .texit m => Sys2Proof.Machine.execTexit m s
  | .tinTaskReport m t => Sys2Proof.Machine.execTinTaskReport m t s
  | .dgadd m => Sys2Proof.Machine.execDgadd m s
  | .rngw m => Sys2Proof.Machine.execRngw m s
  | .rngd m => Sys2Proof.Machine.execRngd m s
  | .trng m => Sys2Proof.Machine.execTrng m s
  | .scas m => Sys2Proof.Machine.execScas m s
  | .faaddD m => Sys2Proof.Machine.execFaaddD m s
  | .faaddS m => Sys2Proof.Machine.execFaaddS m s
  | .xld m => Sys2Proof.Machine.execXld m s
  | .xst m => Sys2Proof.Machine.execXst m s
  | .dinv m => Sys2Proof.Machine.execDinv m s
  | .tinHalt m on => Sys2Proof.Machine.execTinHalt m on s
  | .latchEvaluation c l => Sys2Proof.Machine.execLatchEvaluation c l s
  | .cabCtxCreate j owner slots floor weight evq => Sys2Proof.Machine.execCabCtxCreate j owner slots floor weight evq s
  | .cabCtxSetWeight j x weight => Sys2Proof.Machine.execCabCtxSetWeight j x weight s
  | .cabCtxTeardown j x => Sys2Proof.Machine.execCabCtxTeardown j x s
  | .teardownEnginesStopped x => Sys2Proof.Machine.execTeardownEnginesStopped x s
  | .cabBarAlloc j p => Sys2Proof.Machine.execCabBarAlloc j p s
  | .cabBarFree j b => Sys2Proof.Machine.execCabBarFree j b s
  | .descriptorAccept data => Sys2Proof.Machine.execDescriptorAccept data s
  | .commit q value => Sys2Proof.Machine.execCommit q value s
  | .dispatchDecision => Sys2Proof.Machine.execDispatchDecision s
  | .taskComplete => Sys2Proof.Machine.execTaskComplete s
  | .arrive b => Sys2Proof.Machine.execArrive b s
  | .completionRecordPost q fault => Sys2Proof.Machine.execCompletionRecordPost q fault s
  | .deadlineMiss => Sys2Proof.Machine.execDeadlineMiss s
  | .extAlarm x => Sys2Proof.Machine.execExtAlarm x s
  | .dmaRow c radio tenant => Sys2Proof.Machine.execDmaRow c radio tenant s
  | .dmaRowAck c q k => Sys2Proof.Machine.execDmaRowAck c q k s
  | .cabResGrant j x c grans lats restore wait => Sys2Proof.Machine.execCabResGrant j x c grans lats restore wait s
  | .cabResRelease j c k save => Sys2Proof.Machine.execCabResRelease j c k save s
  | .shareCopyDone c k => Sys2Proof.Machine.execShareCopyDone c k s
  | .shareScrubDone c k => Sys2Proof.Machine.execShareScrubDone c k s
  | .allBlocked c => Sys2Proof.Machine.execAllBlocked c s
  | .slackUpdate => Sys2Proof.Machine.execSlackUpdate s
  | .energyRefill temps => Sys2Proof.Machine.execEnergyRefill temps s
  | .telemetrySample watts => Sys2Proof.Machine.execTelemetrySample watts s
  | .cabCtxSetSeed j x seed => Sys2Proof.Machine.execCabCtxSetSeed j x seed s
  | .cabCtxSterling j x seed ring e => Sys2Proof.Machine.execCabCtxSterling j x seed ring e s
  | .cabStlArm j x form t => Sys2Proof.Machine.execCabStlArm j x form t s
  | .startBarrierFire x => Sys2Proof.Machine.execStartBarrierFire x s
  | .syncInPulse width ring => Sys2Proof.Machine.execSyncInPulse width ring s
  | .chainGo => Sys2Proof.Machine.execChainGo s
  | .chainCal => Sys2Proof.Machine.execChainCal s
  | .digestReadback j => Sys2Proof.Machine.execDigestReadback j s
  | .digestAppend j => Sys2Proof.Machine.execDigestAppend j s
  | .ringConsRecheck x => Sys2Proof.Machine.execRingConsRecheck x s
  | .burObjCreate j owner base size policy spread stack mirror class0 ahead => Sys2Proof.Machine.execBurObjCreate j owner base size policy spread stack mirror class0 ahead s
  | .burObjQuery j k ogen => Sys2Proof.Machine.execBurObjQuery j k ogen s
  | .burObjInstall j k ogen src => Sys2Proof.Machine.execBurObjInstall j k ogen src s
  | .installComplete k data => Sys2Proof.Machine.execInstallComplete k data s
  | .burObjReinstall j k ogen first count src => Sys2Proof.Machine.execBurObjReinstall j k ogen first count src s
  | .reinstallStored k data => Sys2Proof.Machine.execReinstallStored k data s
  | .burObjDestroy j k ogen => Sys2Proof.Machine.execBurObjDestroy j k ogen s
  | .destroyDone k => Sys2Proof.Machine.execDestroyDone k s
  | .dmwPromote j rs hold => Sys2Proof.Machine.execDmwPromote j rs hold s
  | .dmwEvict j rs => Sys2Proof.Machine.execDmwEvict j rs s
  | .dmwUnhold j rs => Sys2Proof.Machine.execDmwUnhold j rs s
  | .dmwAllowance j fn' allow => Sys2Proof.Machine.execDmwAllowance j fn' allow s
  | .demandRead who a => Sys2Proof.Machine.execDemandRead who a s
  | .streamRead who a blk bits => Sys2Proof.Machine.execStreamRead who a blk bits s
  | .codewordWritten sh k blk bits => Sys2Proof.Machine.execCodewordWritten sh k blk bits s
  | .fillComplete sh => Sys2Proof.Machine.execFillComplete sh s
  | .referenceDrop who a => Sys2Proof.Machine.execReferenceDrop who a s
  | .hardDecodeFail page blk => Sys2Proof.Machine.execHardDecodeFail page blk s
  | .ladderDone page ok => Sys2Proof.Machine.execLadderDone page ok s
  | .softDecodeDone page ok => Sys2Proof.Machine.execSoftDecodeDone page ok s
  | .stripeRebuildDone page blk ok => Sys2Proof.Machine.execStripeRebuildDone page blk ok s
  | .flashPatrolRead blk bits ladder => Sys2Proof.Machine.execFlashPatrolRead blk bits ladder s
  | .blockRelocateDone blk => Sys2Proof.Machine.execBlockRelocateDone blk s
  | .nandDieFailure n die => Sys2Proof.Machine.execNandDieFailure n die s
  | .nandRebuildDone n die => Sys2Proof.Machine.execNandRebuildDone n die s
  | .hbmUe a pc both => Sys2Proof.Machine.execHbmUe a pc both s
  | .hbmPatrolRead t corrected => Sys2Proof.Machine.execHbmPatrolRead t corrected s
  | .mirrorPartnerLost k => Sys2Proof.Machine.execMirrorPartnerLost k s
  | .mirrorCopyDone k => Sys2Proof.Machine.execMirrorCopyDone k s
  | .bar4Read off n => Sys2Proof.Machine.execBar4Read off n s
  | .bar4Write off bs => Sys2Proof.Machine.execBar4Write off bs s
  | .fhClassAdd j k0 k1 k2 k3 => Sys2Proof.Machine.execFhClassAdd j k0 k1 k2 k3 s
  | .fhClassDel j k0 k1 k2 k3 => Sys2Proof.Machine.execFhClassDel j k0 k1 k2 k3 s
  | .sfnTick t => Sys2Proof.Machine.execSfnTick t s
  | .slotTick t => Sys2Proof.Machine.execSlotTick t s
  | .symbolTick t => Sys2Proof.Machine.execSymbolTick t s
  | .cabTplRegister j addr => Sys2Proof.Machine.execCabTplRegister j addr s
  | .cabTplUnregister j k => Sys2Proof.Machine.execCabTplUnregister j k s
  | .bronzeJobStart u => Sys2Proof.Machine.execBronzeJobStart u s
  | .bronzeInputFetched u q => Sys2Proof.Machine.execBronzeInputFetched u q s
  | .bronzeComputeDone u q => Sys2Proof.Machine.execBronzeComputeDone u q s
  | .bronzeJobDone u q => Sys2Proof.Machine.execBronzeJobDone u q s
  | .paramRequest es => Sys2Proof.Machine.execParamRequest es s
  | .configRequest es timer lead => Sys2Proof.Machine.execConfigRequest es timer lead s
  | .startRequest es => Sys2Proof.Machine.execStartRequest es s
  | .stopRequest es => Sys2Proof.Machine.execStopRequest es s
  | .dlTtiRequest es sfn slot => Sys2Proof.Machine.execDlTtiRequest es sfn slot s
  | .ulTtiRequest es sfn slot => Sys2Proof.Machine.execUlTtiRequest es sfn slot s
  | .ulDciRequest es sfn slot => Sys2Proof.Machine.execUlDciRequest es sfn slot s
  | .txDataRequest es sfn slot ptrs => Sys2Proof.Machine.execTxDataRequest es sfn slot ptrs s
  | .invSet v => Sys2Proof.Machine.execInvSet v s
  | .invStep lo hi => Sys2Proof.Machine.execInvStep lo hi s
  | .servoSample lo hi => Sys2Proof.Machine.execServoSample lo hi s
  | .servoHoldover => Sys2Proof.Machine.execServoHoldover s
  | .refInLoss => Sys2Proof.Machine.execRefInLoss s
  | .refInRestore => Sys2Proof.Machine.execRefInRestore s
  | .ppsInEdge skew => Sys2Proof.Machine.execPpsInEdge skew s
  | .generalTriggerFire g => Sys2Proof.Machine.execGeneralTriggerFire g s
  | .txDescriptorFetch q entry frame => Sys2Proof.Machine.execTxDescriptorFetch q entry frame s
  | .frameSelect m => Sys2Proof.Machine.execFrameSelect m s
  | .frameSent m => Sys2Proof.Machine.execFrameSent m s
  | .gclGo m w => Sys2Proof.Machine.execGclGo m w s
  | .gclChange m => Sys2Proof.Machine.execGclChange m s
  | .hstTxqSet j q drop => Sys2Proof.Machine.execHstTxqSet j q drop s
  | .linkChange m up => Sys2Proof.Machine.execLinkChange m up s
  | .frameReceive m bs fcsOk rings => Sys2Proof.Machine.execFrameReceive m bs fcsOk rings s
  | .hstPolSel w => Sys2Proof.Machine.execHstPolSel w s
  | .portDisable p => Sys2Proof.Machine.execPortDisable p s
  | .hstRxfAdd j mac addr vid base count default_ => Sys2Proof.Machine.execHstRxfAdd j mac addr vid base count default_ s
  | .hstRxfDel j k => Sys2Proof.Machine.execHstRxfDel j k s
  | .solderRequestReceive bs ce sumOk => Sys2Proof.Machine.execSolderRequestReceive bs ce sumOk s
  | .solderOpPerform k => Sys2Proof.Machine.execSolderOpPerform k s
  | .solderResponseReceive bs sumOk => Sys2Proof.Machine.execSolderResponseReceive bs sumOk s
  | .solderNakReceive bs sumOk => Sys2Proof.Machine.execSolderNakReceive bs sumOk s
  | .retransmitTimeout n => Sys2Proof.Machine.execRetransmitTimeout n s
  | .windowIncrease n => Sys2Proof.Machine.execWindowIncrease n s
  | .solderControlReceive bs v6 ip port sumOk => Sys2Proof.Machine.execSolderControlReceive bs v6 ip port sumOk s
  | .quorumVerifyDone => Sys2Proof.Machine.execQuorumVerifyDone s
  | .sldLocalSet j mac ip => Sys2Proof.Machine.execSldLocalSet j mac ip s
  | .sldPeerSet j n ps => Sys2Proof.Machine.execSldPeerSet j n ps s
  | .sldPeerReopen j n => Sys2Proof.Machine.execSldPeerReopen j n s
  | .sldFuncDomain j fn domain => Sys2Proof.Machine.execSldFuncDomain j fn domain s
  | .sldExportAdd j xs => Sys2Proof.Machine.execSldExportAdd j xs s
  | .sldExportDel j k => Sys2Proof.Machine.execSldExportDel j k s
  | .sldQuorumKeys j threshold keys => Sys2Proof.Machine.execSldQuorumKeys j threshold keys s
  | .sldFence j cmd => Sys2Proof.Machine.execSldFence j cmd s
  | .sldPeerSel v => Sys2Proof.Machine.execSldPeerSel v s
  | .sldCtrlEn v => Sys2Proof.Machine.execSldCtrlEn v s
  | .doorbellCount fn j value => Sys2Proof.Machine.execDoorbellCount fn j value s
  | .doorbellArm fn j a => Sys2Proof.Machine.execDoorbellArm fn j a s
  | .coalTimer q => Sys2Proof.Machine.execCoalTimer q s
  | .recordPost q fault => Sys2Proof.Machine.execRecordPost q fault s
  | .queueEntryFetch q data wbOk => Sys2Proof.Machine.execQueueEntryFetch q data wbOk s
  | .queCreate j idx typ kind logSize base wb pair vector coalCount coalUs typeCfg persist => Sys2Proof.Machine.execQueCreate j idx typ kind logSize base wb pair vector coalCount coalUs typeCfg persist s
  | .queDestroy j idx => Sys2Proof.Machine.execQueDestroy j idx s
  | .queQuery j idx => Sys2Proof.Machine.execQueQuery j idx s
  | .solderQueueEntry q entry src => Sys2Proof.Machine.execSolderQueueEntry q entry src s
  | .mailboxQueueEntry q entry h => Sys2Proof.Machine.execMailboxQueueEntry q entry h s
  | .vfCreate j n queues vectors contexts share lat hbm cache objects jobs macMask txRate rxFilters => Sys2Proof.Machine.execVfCreate j n queues vectors contexts share lat hbm cache objects jobs macMask txRate rxFilters s
  | .vfDestroy j n => Sys2Proof.Machine.execVfDestroy j n s
  | .vfQuery j n => Sys2Proof.Machine.execVfQuery j n s
  | .vfFlr fn => Sys2Proof.Machine.execVfFlr fn s
  | .pfFlr => Sys2Proof.Machine.execPfFlr s
  | .hotReset => Sys2Proof.Machine.execHotReset s
  | .mbxDoorbell fn m seq h => Sys2Proof.Machine.execMbxDoorbell fn m seq h s
  | .mbxNop j => Sys2Proof.Machine.execMbxNop j s
  | .mbxVersion j => Sys2Proof.Machine.execMbxVersion j s
  | .powerOn => Sys2Proof.Machine.execPowerOn s
  | .resetNAssert samples => Sys2Proof.Machine.execResetNAssert samples s
  | .perstNAssert samples => Sys2Proof.Machine.execPerstNAssert samples s
  | .rstFull v => Sys2Proof.Machine.execRstFull v s
  | .resetRelease code stackNos dies => Sys2Proof.Machine.execResetRelease code stackNos dies s
  | .fwLoadBegin j total names => Sys2Proof.Machine.execFwLoadBegin j total names s
  | .fwLoadChunk j off len mode data => Sys2Proof.Machine.execFwLoadChunk j off len mode data s
  | .fwLoadEnd j gib cert => Sys2Proof.Machine.execFwLoadEnd j gib cert s
  | .cfgQuery j items => Sys2Proof.Machine.execCfgQuery j items s
  | .rstBlock j b hold => Sys2Proof.Machine.execRstBlock j b hold s
  | .secRegionSet j f action flags base limit => Sys2Proof.Machine.execSecRegionSet j f action flags base limit s
  | .attReport j nonce first count => Sys2Proof.Machine.execAttReport j nonce first count s
  | .identityDerivation ok => Sys2Proof.Machine.execIdentityDerivation ok s
  | .debugAccess => Sys2Proof.Machine.execDebugAccess s
  | .getVersion req => Sys2Proof.Machine.execGetVersion req s
  | .getCapabilities req => Sys2Proof.Machine.execGetCapabilities req s
  | .negotiateAlgorithms req => Sys2Proof.Machine.execNegotiateAlgorithms req s
  | .getDigests req => Sys2Proof.Machine.execGetDigests req s
  | .getCertificate req => Sys2Proof.Machine.execGetCertificate req s
  | .challenge req => Sys2Proof.Machine.execChallenge req s
  | .getMeasurements req => Sys2Proof.Machine.execGetMeasurements req s
  | .setCertificate req => Sys2Proof.Machine.execSetCertificate req s
  | .svcFence j kind n col => Sys2Proof.Machine.execSvcFence j kind n col s
  | .svcTest j kind n col => Sys2Proof.Machine.execSvcTest j kind n col s
  | .svcReturn j kind n col => Sys2Proof.Machine.execSvcReturn j kind n col s
  | .svcRetire j kind n col => Sys2Proof.Machine.execSvcRetire j kind n col s
  | .unitTestDone kind n pass => Sys2Proof.Machine.execUnitTestDone kind n pass s
  | .autoFence => Sys2Proof.Machine.execAutoFence s
  | .sramUe c line slot => Sys2Proof.Machine.execSramUe c line slot s
  | .d2dLinkFailure d => Sys2Proof.Machine.execD2dLinkFailure d s
  | .portFailure p => Sys2Proof.Machine.execPortFailure p s
  | .stackMoveDone t => Sys2Proof.Machine.execStackMoveDone t s
  | .fwRestart j mode => Sys2Proof.Machine.execFwRestart j mode s
  | .watchdogExpiry => Sys2Proof.Machine.execWatchdogExpiry s
  | .thermalTrip => Sys2Proof.Machine.execThermalTrip s
  | .tripHoldEnd hot code stackNos dies => Sys2Proof.Machine.execTripHoldEnd hot code stackNos dies s
  | .railUndervoltage k uv ns => Sys2Proof.Machine.execRailUndervoltage k uv ns s
  | .hbmRefresh t => Sys2Proof.Machine.execHbmRefresh t s
  | .programOrEraseFailure blk gib => Sys2Proof.Machine.execProgramOrEraseFailure blk gib s
  | .pcieLinkTrained speed width flit => Sys2Proof.Machine.execPcieLinkTrained speed width flit s
  | .doeDiscovery index => Sys2Proof.Machine.execDoeDiscovery index s
  | .spdmUnsupportedRequest req => Sys2Proof.Machine.execSpdmUnsupportedRequest req s
  | .fapiOtherMessage es => Sys2Proof.Machine.execFapiOtherMessage es s
  | .pewterIllegalOp u => Sys2Proof.Machine.execPewterIllegalOp u s
  | .trestleIllegalOp c => Sys2Proof.Machine.execTrestleIllegalOp c s
  | .tinIllegalInstruction m => Sys2Proof.Machine.execTinIllegalInstruction m s

end Sys2Proof.Machine
end

