-- ==== Sys2Proof/WellFormed.lean ====
section
/-! DEFINITION. Which commands are well formed: every instance number names an instance that the device has, and every operand fits the field
that carries it. The range of an argument that a mailbox command checks itself is the width of its field in the body (R415, R420). No meaning
rests on it: `exec` answers for any operands. -/

namespace Sys2Proof

/-- The value of a 32-bit field. -/
def w32 (n : Nat) : Bool := decide (n < 2 ^ 32)
/-- The value of a 64-bit field. -/
def w64 (n : Nat) : Bool := decide (n < 2 ^ 64)

/-- A condition on an operand that may be absent. -/
def optWf {α : Type} (f : α → Bool) : Option α → Bool
  | none => true
  | some x => f x

/-- Functions 0 to 1,023 (R386), contexts 0 to 4,095 (R163). -/
def Requester.wf : Requester → Bool
  | .firmware => true
  | .func n => decide (n < 1024)
  | .ctx x => decide (x < 4096)
  | .bmc => true

/-- A mailbox of a function (R414) or a queue of the pool (R391). -/
def Issuer.wf : Issuer → Bool
  | .mbox fn m => decide (fn < 1024) && decide (m < 4)
  | .queue q => decide (q < 2 ^ 18)
  | .firmware => true

/-- An answer of at most 4 GiB. -/
def ExtData.wf : ExtData → Bool
  | .data bs => w32 bs.length
  | .error => true

def Reader.wf : Reader → Bool
  | .tin m t => decide (m < 192) && decide (t < 16)
  | .dma c q => decide (c < 24) && decide (q < 2)
  | .bronze u => decide (u < 48)
  | .solder n _ => decide (n < 16384)

/-- A block that RST_BLOCK can name (R445). -/
def RstBlock.wf : RstBlock → Bool
  | .cluster c => decide (c < 24)
  | .bronze u => decide (u < 48)
  | .nand n => decide (n < 32)
  | .port p => decide (p < 8)
  | .stack t => decide (t < 12)
  | _ => true

/-- A range of a promote, evict or release command (R274): object, generation, first shelf, count. -/
def rangeWf (r : Nat × Nat × Nat × Nat) : Bool := w32 r.1 && w32 r.2.1 && w32 r.2.2.1 && w32 r.2.2.2

/-- A well-formed command. -/
def Instr.wf (i : Instr) : Bool :=
  match i with
  | .lowWordRead r a => r.wf && decide (a < 2 ^ 26)
  | .highWordRead r a => r.wf && decide (a < 2 ^ 26)
  | .lowWordWrite r a _ => r.wf && decide (a < 2 ^ 26)
  | .highWordWrite r a _ => r.wf && decide (a < 2 ^ 26)
  | .registerWrite r a _ => r.wf && decide (a < 2 ^ 26)
  | .invNowRead r => r.wf
  | .sizeTablePublish => true
  | .pllRetuneDone r => decide (r < 12)
  | .regionStepSwitch r => decide (r < 12)
  | .stepChangeAbandon r => decide (r < 12)
  | .vrmInRange d => decide (d < 4)
  | .gatingEntry c => decide (c < 24)
  | .gatingRetentionPoint c => decide (c < 24)
  | .regionPllStop r _ => decide (r < 12)
  | .wakeRequest c => decide (c < 24)
  | .wakeDone c => decide (c < 24)
  | .feederCycle c late => decide (c < 24) && late.all (fun n => decide (n < 8))
  | .tileBoundary c => decide (c < 24)
  | .rowLands c flips => decide (c < 24) && flips.all (fun p => decide (p.1 < 256))
  | .loadBegin c => decide (c < 24)
  | .drainRowConvert c => decide (c < 24)
  | .checkEvaluate c => decide (c < 24)
  | .checkRerunOutcome c => decide (c < 24)
  | .trsNop c => decide (c < 24)
  | .trsConfig c => decide (c < 24)
  | .trsLoad c => decide (c < 24)
  | .trsStream c => decide (c < 24)
  | .trsDrain c => decide (c < 24)
  | .trsWait c => decide (c < 24)
  | .trsSignal c => decide (c < 24)
  | .trsEnd c => decide (c < 24)
  | .trsHalt c _ => decide (c < 24)
  | .pewterIssuePush u => decide (u < 96)
  | .kernelStart u => decide (u < 96)
  | .pewterQueueChange u => decide (u < 96)
  | .insnLineFetch u wait => decide (u < 96) && w32 wait
  | .tileLimit u => decide (u < 96)
  | .pwtNop u => decide (u < 96)
  | .pwtTile u => decide (u < 96)
  | .pwtEnd u => decide (u < 96)
  | .pwtWait u => decide (u < 96)
  | .pwtSignal u => decide (u < 96)
  | .loop u => decide (u < 96)
  | .jmp u => decide (u < 96)
  | .rdtime u => decide (u < 96)
  | .rdcyc u => decide (u < 96)
  | .sli u => decide (u < 96)
  | .slih u => decide (u < 96)
  | .saddi u => decide (u < 96)
  | .sadd u => decide (u < 96)
  | .ssub u => decide (u < 96)
  | .sget u => decide (u < 96)
  | .vbcast u => decide (u < 96)
  | .setvl u => decide (u < 96)
  | .agset u => decide (u < 96)
  | .asetp u => decide (u < 96)
  | .pwtLd u => decide (u < 96)
  | .pwtSt u => decide (u < 96)
  | .bfpu u => decide (u < 96)
  | .bfpk u => decide (u < 96)
  | .llr u => decide (u < 96)
  | .cmac u => decide (u < 96)
  | .accr u => decide (u < 96)
  | .acc32 u => decide (u < 96)
  | .accsum u => decide (u < 96)
  | .cmulh u => decide (u < 96)
  | .cadd u => decide (u < 96)
  | .csub u => decide (u < 96)
  | .vshf u => decide (u < 96)
  | .cmag2 u => decide (u < 96)
  | .vperm u => decide (u < 96)
  | .norm u => decide (u < 96)
  | .expb u => decide (u < 96)
  | .bfly2 u => decide (u < 96)
  | .bfly4 u => decide (u < 96)
  | .pwtHalt u _ => decide (u < 96)
  | .tinEntryStart m t => decide (m < 192) && decide (t < 16)
  | .tinIssue m => decide (m < 192)
  | .tinBaseInstruction m => decide (m < 192)
  | .tinCsrAccess m => decide (m < 192)
  | .tinAmo m => decide (m < 192)
  | .tinLr m => decide (m < 192)
  | .tinSc m => decide (m < 192)
  | .fence m => decide (m < 192)
  | .fenceI m => decide (m < 192)
  | .ecall m => decide (m < 192)
  | .ebreak m => decide (m < 192)
  | .extResponseArrive m t x e ext => decide (m < 192) && decide (t < 16) && decide (x < 4096) && w32 e && optWf ExtData.wf ext
  | .storeAck m t x e path => decide (m < 192) && decide (t < 16) && decide (x < 4096) && w32 e && decide (path < 16388)
  | .outboundBufferAccept m t => decide (m < 192) && decide (t < 16)
  | .queueRoom m t => decide (m < 192) && decide (t < 16)
  | .lsig m => decide (m < 192)
  | .lwait m => decide (m < 192)
  | .ltry m => decide (m < 192)
  | .lrd m => decide (m < 192)
  | .trpush m => decide (m < 192)
  | .dmaq m => decide (m < 192)
  | .pwissue m => decide (m < 192)
  | .tyield m => decide (m < 192)
  | .texit m => decide (m < 192)
  | .tinTaskReport m t => decide (m < 192) && decide (t < 16)
  | .dgadd m => decide (m < 192)
  | .rngw m => decide (m < 192)
  | .rngd m => decide (m < 192)
  | .trng m => decide (m < 192)
  | .scas m => decide (m < 192)
  | .faaddD m => decide (m < 192)
  | .faaddS m => decide (m < 192)
  | .xld m => decide (m < 192)
  | .xst m => decide (m < 192)
  | .dinv m => decide (m < 192)
  | .tinHalt m _ => decide (m < 192)
  | .latchEvaluation c l => decide (c < 24) && decide (l < 256)
  | .cabCtxCreate i owner slots floor weight evq => i.wf && w32 owner && w32 slots && w32 floor && w32 weight && w32 evq
  | .cabCtxSetWeight i x weight => i.wf && w32 x && w32 weight
  | .cabCtxTeardown i x => i.wf && w32 x
  | .teardownEnginesStopped x => decide (x < 4096)
  | .cabBarAlloc i p => i.wf && w32 p
  | .cabBarFree i b => i.wf && w32 b
  | .descriptorAccept data => data.wf
  | .commit q value => decide (q < 2 ^ 18) && w32 value
  | .dispatchDecision => true
  | .taskComplete => true
  | .arrive b => decide (b < 4096)
  | .completionRecordPost q fault => decide (q < 2 ^ 18) && decide (fault < 3)
  | .deadlineMiss => true
  | .extAlarm x => decide (x < 4096)
  | .dmaRow c radio tenant => decide (c < 24) && optWf ExtData.wf radio && optWf ExtData.wf tenant
  | .dmaRowAck c q k => decide (c < 24) && decide (q < 2) && decide (k < 16)
  | .cabResGrant i x c grans lats restore _ => i.wf && w32 x && w32 c && w32 grans && w32 lats && w64 restore
  | .cabResRelease i c k save => i.wf && w32 c && w32 k && w64 save
  | .shareCopyDone c k => decide (c < 24) && decide (k < 8)
  | .shareScrubDone c k => decide (c < 24) && decide (k < 8)
  | .allBlocked c => decide (c < 24)
  | .slackUpdate => true
  | .energyRefill temps => temps.all (fun p => decide (p.1 < 2 ^ 8) && decide (p.2 < 2 ^ 8))
  | .telemetrySample watts => decide (watts < 2048)
  | .cabCtxSetSeed i x seed => i.wf && w32 x && w64 seed
  | .cabCtxSterling i x seed ring e => i.wf && w32 x && w64 seed && w64 ring && w32 e
  | .cabStlArm i x form t => i.wf && w32 x && w32 form && w64 t
  | .startBarrierFire x => decide (x < 4096)
  | .syncInPulse width ring => w32 width && w32 ring
  | .chainGo => true
  | .chainCal => true
  | .digestReadback i => decide (i < 2 ^ 20)
  | .digestAppend i => decide (i < 2 ^ 20)
  | .ringConsRecheck x => decide (x < 4096)
  | .burObjCreate i owner base size policy _ stack _ _ ahead => i.wf && w32 owner && w64 base && w64 size && w32 policy && w32 stack && w32 ahead
  | .burObjQuery i k ogen => i.wf && w32 k && w32 ogen
  | .burObjInstall i k ogen src => i.wf && w32 k && w32 ogen && src.all (fun p => w64 p.1 && w32 p.2)
  | .installComplete k data => decide (k < 2 ^ 20) && data.wf
  | .burObjReinstall i k ogen first count src => i.wf && w32 k && w32 ogen && w32 first && w32 count && src.all (fun p => w64 p.1 && w32 p.2)
  | .reinstallStored k data => decide (k < 2 ^ 20) && data.wf
  | .burObjDestroy i k ogen => i.wf && w32 k && w32 ogen
  | .destroyDone k => decide (k < 2 ^ 20)
  | .dmwPromote i rs _ => i.wf && rs.all rangeWf
  | .dmwEvict i rs => i.wf && rs.all rangeWf
  | .dmwUnhold i rs => i.wf && rs.all rangeWf
  | .dmwAllowance i fn' allow => i.wf && w32 fn' && w32 allow
  | .demandRead who a => who.wf && decide (a < 2 ^ 48)
  | .streamRead who a blk bits => who.wf && decide (a < 2 ^ 48) && decide (blk < 2 ^ 25) && w32 bits
  | .codewordWritten sh k blk bits => decide (sh < 2 ^ 27) && decide (k < 512) && decide (blk < 2 ^ 25) && w32 bits
  | .fillComplete sh => decide (sh < 2 ^ 27)
  | .referenceDrop who a => who.wf && decide (a < 2 ^ 48)
  | .hardDecodeFail page blk => decide (page < 2 ^ 34) && decide (blk < 2 ^ 25)
  | .ladderDone page _ => decide (page < 2 ^ 34)
  | .softDecodeDone page _ => decide (page < 2 ^ 34)
  | .stripeRebuildDone page blk _ => decide (page < 2 ^ 34) && decide (blk < 2 ^ 25)
  | .flashPatrolRead blk bits _ => decide (blk < 2 ^ 25) && w32 bits
  | .blockRelocateDone blk => decide (blk < 2 ^ 25)
  | .nandDieFailure n die => decide (n < 32) && decide (die < 65)
  | .nandRebuildDone n die => decide (n < 32) && decide (die < 65)
  | .hbmUe a pc _ => decide (a < 2 ^ 48 + 2) && decide (pc < 32)
  | .hbmPatrolRead t corrected => decide (t < 12) && w32 corrected
  | .mirrorPartnerLost k => decide (k < 2 ^ 20)
  | .mirrorCopyDone k => decide (k < 2 ^ 20)
  | .bar4Read off n => decide (off < 2 ^ 44) && decide (n < 4097)
  | .bar4Write off bs => decide (off < 2 ^ 44) && decide (bs.length ≤ 4096)
  | .fhClassAdd i k0 k1 k2 k3 => i.wf && w32 k0 && w32 k1 && w32 k2 && w32 k3
  | .fhClassDel i k0 k1 k2 k3 => i.wf && w32 k0 && w32 k1 && w32 k2 && w32 k3
  | .sfnTick t => decide (t < 64)
  | .slotTick t => decide (t < 64)
  | .symbolTick t => decide (t < 64)
  | .cabTplRegister i addr => i.wf && w64 addr
  | .cabTplUnregister i k => i.wf && w32 k
  | .bronzeJobStart u => decide (u < 48)
  | .bronzeInputFetched u q => decide (u < 48) && decide (q < 2)
  | .bronzeComputeDone u q => decide (u < 48) && decide (q < 2)
  | .bronzeJobDone u q => decide (u < 48) && decide (q < 2)
  | .paramRequest es => decide (es.length ≤ 256)
  | .configRequest es timer lead => decide (es.length ≤ 256) && decide (timer < 64) && decide (lead < 2 ^ 16)
  | .startRequest es => decide (es.length ≤ 256)
  | .stopRequest es => decide (es.length ≤ 256)
  | .dlTtiRequest es sfn slot => decide (es.length ≤ 256) && decide (sfn < 2 ^ 16) && decide (slot < 2 ^ 16)
  | .ulTtiRequest es sfn slot => decide (es.length ≤ 256) && decide (sfn < 2 ^ 16) && decide (slot < 2 ^ 16)
  | .ulDciRequest es sfn slot => decide (es.length ≤ 256) && decide (sfn < 2 ^ 16) && decide (slot < 2 ^ 16)
  | .txDataRequest es sfn slot ptrs => decide (es.length ≤ 256) && decide (sfn < 2 ^ 16) && decide (slot < 2 ^ 16) && ptrs.all (fun p => w64 p.1 && w32 p.2)
  | .invSet _ => true
  | .invStep _ _ => true
  | .servoSample _ _ => true
  | .servoHoldover => true
  | .refInLoss => true
  | .refInRestore => true
  | .ppsInEdge _ => true
  | .generalTriggerFire g => decide (g < 16)
  | .txDescriptorFetch q entry frame => decide (q < 2 ^ 18) && entry.wf && frame.wf
  | .frameSelect m => decide (m < 64)
  | .frameSent m => decide (m < 64)
  | .gclGo m _ => decide (m < 64)
  | .gclChange m => decide (m < 64)
  | .hstTxqSet i q _ => i.wf && w32 q
  | .linkChange m _ => decide (m < 64)
  | .frameReceive m bs _ rings => decide (m < 64) && decide (bs.length ≤ 65536) && rings.all ExtData.wf
  | .hstPolSel _ => true
  | .portDisable p => decide (p < 8)
  | .hstRxfAdd i mac addr vid base count _ => i.wf && w32 mac && decide (addr < 2 ^ 48) && optWf (fun n => decide (n < 4096)) vid && w32 base && w32 count
  | .hstRxfDel i k => i.wf && w32 k
  | .solderRequestReceive bs _ _ => decide (bs.length ≤ 65536)
  | .solderOpPerform k => decide (k < 65536)
  | .solderResponseReceive bs _ => decide (bs.length ≤ 65536)
  | .solderNakReceive bs _ => decide (bs.length ≤ 65536)
  | .retransmitTimeout n => decide (n < 16384)
  | .windowIncrease n => decide (n < 16384)
  | .solderControlReceive bs _ ip port _ => decide (bs.length ≤ 65536) && decide (ip < 2 ^ 128) && decide (port < 2 ^ 16)
  | .quorumVerifyDone => true
  | .sldLocalSet i mac ip => i.wf && w32 mac && decide (ip < 2 ^ 128)
  | .sldPeerSet i n ps => i.wf && w32 n && decide (ps.length ≤ 16)
  | .sldPeerReopen i n => i.wf && w32 n
  | .sldFuncDomain i fn domain => i.wf && w32 fn && w32 domain
  | .sldExportAdd i xs => i.wf && decide (xs.length ≤ 16)
  | .sldExportDel i k => i.wf && w32 k
  | .sldQuorumKeys i threshold keys => i.wf && w32 threshold && decide (keys.length ≤ 256)
  | .sldFence i cmd => i.wf && decide (cmd.length ≤ 65536)
  | .sldPeerSel _ => true
  | .sldCtrlEn _ => true
  | .doorbellCount fn i value => decide (fn < 1024) && decide (i < 2 ^ 18) && w32 value
  | .doorbellArm fn i a => decide (fn < 1024) && decide (i < 2 ^ 18) && w32 a
  | .coalTimer q => decide (q < 2 ^ 18)
  | .recordPost q fault => decide (q < 2 ^ 18) && decide (fault < 3)
  | .queueEntryFetch q data _ => decide (q < 2 ^ 18) && data.wf
  | .queCreate i idx typ kind logSize base wb pair vector coalCount coalUs typeCfg _ => i.wf && w32 idx && decide (typ < 8) && decide (kind < 8) && decide (logSize < 32) && w64 base && w64 wb && w32 pair && w32 vector && decide (coalCount < 2 ^ 16) && decide (coalUs < 2 ^ 16) && w32 typeCfg
  | .queDestroy i idx => i.wf && w32 idx
  | .queQuery i idx => i.wf && w32 idx
  | .solderQueueEntry q entry src => decide (q < 2 ^ 18) && entry.wf && src.wf
  | .mailboxQueueEntry q entry _ => decide (q < 2 ^ 18) && entry.wf
  | .vfCreate i n queues vectors contexts share lat hbm cache objects jobs macMask txRate rxFilters => i.wf && w32 n && w32 queues && w32 vectors && w32 contexts && w32 share && w32 lat && w32 hbm && w32 cache && w32 objects && w32 jobs && w64 macMask && w32 txRate && w32 rxFilters
  | .vfDestroy i n => i.wf && w32 n
  | .vfQuery i n => i.wf && w32 n
  | .vfFlr fn => optWf (fun n => decide (n < 1024)) fn
  | .pfFlr => true
  | .hotReset => true
  | .mbxDoorbell fn m seq _ => decide (fn < 1024) && decide (m < 4) && w32 seq
  | .mbxNop i => i.wf
  | .mbxVersion i => i.wf
  | .powerOn => true
  | .resetNAssert samples => w32 samples
  | .perstNAssert samples => w32 samples
  | .rstFull _ => true
  | .resetRelease code stackNos dies => decide (code < 1024) && stackNos.all (fun n => decide (n < 12)) && dies.all (fun n => decide (n < 4))
  | .fwLoadBegin i total names => i.wf && w32 total && names.all (fun n => w32 n)
  | .fwLoadChunk i off len mode data => i.wf && w32 off && w32 len && w32 mode && data.wf
  | .fwLoadEnd i gib cert => i.wf && w32 gib && decide (cert.length ≤ 65536)
  | .cfgQuery i items => i.wf && items.all (fun n => w32 n)
  | .rstBlock i b _ => i.wf && b.wf
  | .secRegionSet i f action flags base limit => i.wf && w32 f && w32 action && w32 flags && w64 base && w64 limit
  | .attReport i nonce first count => i.wf && decide (nonce.length ≤ 65536) && w32 first && w32 count
  | .identityDerivation _ => true
  | .debugAccess => true
  | .getVersion req => decide (req.length ≤ 65536)
  | .getCapabilities req => decide (req.length ≤ 65536)
  | .negotiateAlgorithms req => decide (req.length ≤ 65536)
  | .getDigests req => decide (req.length ≤ 65536)
  | .getCertificate req => decide (req.length ≤ 65536)
  | .challenge req => decide (req.length ≤ 65536)
  | .getMeasurements req => decide (req.length ≤ 65536)
  | .setCertificate req => decide (req.length ≤ 65536)
  | .svcFence i kind n col => i.wf && w32 kind && w32 n && w32 col
  | .svcTest i kind n col => i.wf && w32 kind && w32 n && w32 col
  | .svcReturn i kind n col => i.wf && w32 kind && w32 n && w32 col
  | .svcRetire i kind n col => i.wf && w32 kind && w32 n && w32 col
  | .unitTestDone kind n _ => decide (kind < 16) && w32 n
  | .autoFence => true
  | .sramUe c line slot => decide (c < 24) && optWf (fun n => decide (n < 2 ^ 19)) line && decide (slot < 2 ^ 20)
  | .d2dLinkFailure d => decide (d < 4)
  | .portFailure p => decide (p < 8)
  | .stackMoveDone t => decide (t < 12)
  | .fwRestart i mode => i.wf && w32 mode
  | .watchdogExpiry => true
  | .thermalTrip => true
  | .tripHoldEnd _ code stackNos dies => decide (code < 1024) && stackNos.all (fun n => decide (n < 12)) && dies.all (fun n => decide (n < 4))
  | .railUndervoltage k uv ns => decide (k < 16) && w32 uv && w32 ns
  | .hbmRefresh t => decide (t < 12)
  | .programOrEraseFailure blk gib => decide (blk < 2 ^ 25) && w32 gib
  | .pcieLinkTrained speed width _ => decide (speed < 8) && decide (width < 32)
  | .doeDiscovery index => decide (index < 256)
  | .spdmUnsupportedRequest req => decide (req.length ≤ 65536)
  | .fapiOtherMessage es => decide (es.length ≤ 256)
  | .pewterIllegalOp u => decide (u < 96)
  | .trestleIllegalOp c => decide (c < 24)
  | .tinIllegalInstruction m => decide (m < 192)

end Sys2Proof
end

