-- ==== Sys2Proof/Safety.lean ====
section
/-! DEFINITION. What counts as a safe run: the block never stops, and every memory it holds keeps its canonical form. -/

namespace Sys2Proof.Machine

/-- The byte contents that the state holds are in canonical form: equal contents are equal lists. -/
def State.memWf (s : State) : Bool := Mem.wf s.spad && Mem.wf s.tier && Mem.wf s.hostOut

/-- A step that takes a next state, rather than a fault or a refusal. -/
def State.goesOn (s : State) : Bool :=
  match step s with
  | .next _ => true
  | .fault _ => false
  | .refused _ => false

/-- `n` steps in a row go on. -/
def State.safeFor : Nat → State → Bool
  | 0, _ => true
  | n + 1, s =>
    match step s with
    | .next t => State.safeFor n t
    | .fault _ => false
    | .refused _ => false

end Sys2Proof.Machine
end

