-- ==== Sys2Proof/Certificates/Slice0/Obligations.lean ====
section
/-! DEFINITION. The obligations: what the commands and the step do, from the numbered rules of the spec. Each statement of a command's effect has as its
conclusion the next state that exec answers. The record and named updates of Machine/Ops.lean name everything that changes, so what they do not
name is unchanged. -/

open Sys2Proof Sys2Proof.Machine

/-! ### Registers (R4 to R9, R19, R354) -/

/-- A requester of the world that the register belongs to reaches register `b` at address `a` (R143, R390, R448). -/
def Reaches (s : State) (r : Requester) (a b : Nat) : Prop := s.regNamed r a = some b ∧ (secureReg b && !s.regSecure r) = false

/-- R8, R354: reads of 64-bit pairs and of Invar time. -/
def Obligations.RegisterReadsCapture : Prop :=
  (∀ (s : State) (r : Requester) (a b : Nat), Reaches s r a b → pairLow b = true → pairHigh b = false →
    b ≠ Reg.INV_NOW_W0 → b ≠ Reg.INV_NOW_W1 → b ≠ Reg.INV_NOW_W2 →
    exec (.lowWordRead r a) s = .next { s with
      lastRead := BitVec.ofNat 32 (s.regWord b)
      shadows := s.shadows.put (fnKey (s.regFn r) (b + 4)) (BitVec.ofNat 32 (s.regWord (b + 4))) }) ∧
  (∀ (s : State) (r : Requester) (a b : Nat), Reaches s r a b → pairHigh b = true → b ≠ Reg.INV_NOW_W0 →
    exec (.highWordRead r a) s = .next { s with lastRead := s.shadows.get 0 (fnKey (s.regFn r) b) }) ∧
  (∀ (s : State) (r : Requester), Reaches s r Reg.INV_NOW_W0 Reg.INV_NOW_W0 →
    ∃ t, exec (.invNowRead r) s = .next t ∧ t.lastRead = BitVec.ofNat 32 (s.regWord Reg.INV_NOW_W0) ∧
      t = { s with lastRead := t.lastRead, shadows := t.shadows } ∧
      (∀ k : Nat, k ∈ [Reg.INV_NOW_W1, Reg.INV_NOW_W2] →
        t.shadows.look (fnKey (s.regFn r) k) = some (BitVec.ofNat 32 (s.regWord k))) ∧
      ∀ k : Nat, k ∉ [fnKey (s.regFn r) Reg.INV_NOW_W1, fnKey (s.regFn r) Reg.INV_NOW_W2] → t.shadows.look k = s.shadows.look k)

/-- R8: a shadow keeps its value until the same function next reads the same low word. -/
def Obligations.ShadowKeepsCapture : Prop :=
  ∀ (s t u : State) (r : Requester) (a b : Nat), Reaches s r a b → pairLow b = true → pairHigh b = false →
    b ≠ Reg.INV_NOW_W0 → b ≠ Reg.INV_NOW_W1 → b ≠ Reg.INV_NOW_W2 → exec (.lowWordRead r a) s = .next t →
    u.shadows = t.shadows → u.regFn r = s.regFn r → Reaches u r (a + 4) (b + 4) → b + 4 ≠ Reg.INV_NOW_W0 →
    exec (.highWordRead r (a + 4)) u = .next { u with lastRead := BitVec.ofNat 32 (s.regWord (b + 4)) }

/-- R5, R9: writes of registers. -/
def Obligations.RegisterWritesComplete : Prop :=
  (∀ (s : State) (r : Requester) (a b : Nat) (v : W32), Reaches s r a b → s.blockPresent b = true → retWindow b = false → pairRw b = true →
    exec (.lowWordWrite r a v) s = .next { s with
      held := (s.held.del (fnKey (s.regFn r) (blockOf b))).put (fnKey (s.regFn r) (blockOf b)) (b, v) }) ∧
  (∀ (s : State) (r : Requester) (a b : Nat) (v lo : W32), Reaches s r a b → s.blockPresent b = true → retWindow b = false →
    pairRw b = false → 4 ≤ b → pairRw (b - 4) = true →
    lo = (match s.heldWord (s.regFn r) b with
      | some (h, w) => if h + 4 = b then w else BitVec.ofNat 32 (s.reg (b - 4))
      | none => BitVec.ofNat 32 (s.reg (b - 4))) →
    exec (.highWordWrite r a v) s =
      .next (({ s with held := s.held.del (fnKey (s.regFn r) (blockOf b)) } : State).pairWrite (b - 4) lo v)) ∧
  (∀ (s : State) (r : Requester) (a b : Nat) (v : W32) (row : RegRow), Reaches s r a b → s.blockPresent b = true → retWindow b = false →
    pairRw b = false → ¬ (4 ≤ b ∧ pairRw (b - 4) = true) → regRow b = some row → row.acc ≠ .wo → ¬ (row.acc = .ro ∧ row.clr = 0) →
    ∀ s₁ : State, s₁ = { s with held := s.held.del (fnKey (s.regFn r) (blockOf b)) } → s₁.regAct b v = none →
      exec (.registerWrite r a v) s = .next (s₁.regWritten (s₁.setReg b (s₁.written b row v.toNat)) b))

/-- R5: the access types RW, RWL, W1C and RO, bit by bit. -/
def Obligations.AccessTypesOfAWrite : Prop :=
  (∀ (s : State) (a v i : Nat) (row : RegRow), i < 32 → row.wr < 2 ^ 32 → row.cfg < 2 ^ 32 → row.clr < 2 ^ 32 →
    (s.written a row v).testBit i =
      ((if row.wr.testBit i || (s.configState a && row.cfg.testBit i) then v.testBit i else (s.reg a).testBit i) &&
        !(v.testBit i && row.clr.testBit i))) ∧
  (∀ (s : State) (r : Requester) (a b : Nat) (v : W32) (row : RegRow), Reaches s r a b → pairRw b = false →
    ¬ (4 ≤ b ∧ pairRw (b - 4) = true) → retWindow b = false → regRow b = some row → row.acc = .ro → row.clr = 0 →
    (∀ s₁ : State, s₁ = { s with held := s.held.del (fnKey (s.regFn r) (blockOf b)) } → s₁.regAct b v = none) →
      exec (.registerWrite r a v) s = .next { s with held := s.held.del (fnKey (s.regFn r) (blockOf b)) })

/-! ### Clusters and regions (R19, R23, R26 to R28, R217, R485) -/

/-- R19: the size table and its counter. -/
def Obligations.SizeTablePublished : Prop :=
  ∀ s : State, s.boot.phase = .running →
    exec .sizeTablePublish s = .next ((s.publishTable s.sizeWords).pfEvent 0x011E ((s.publishTable s.sizeWords).reg Reg.SBD_SIZE_SEQ) 0 0 0) ∧
    (s.publishTable s.sizeWords).reg Reg.SBD_SIZE_SEQ =
      (if (s.reg Reg.SBD_SIZE_SEQ + 2) % 2 ^ 32 = 0 then 2 else (s.reg Reg.SBD_SIZE_SEQ + 2) % 2 ^ 32) ∧
    (∀ w ∈ s.sizeWords, (s.publishTable s.sizeWords).reg w.1 = w.2 % 2 ^ 32) ∧
    (∀ a, a ≠ Reg.SBD_SIZE_SEQ → a ∉ s.sizeWords.map (·.1) → (s.publishTable s.sizeWords).reg a = s.reg a) ∧
    s.publishTable s.sizeWords = { s with regs := (s.publishTable s.sizeWords).regs }

/-- R23, R485: a region's step change. -/
def Obligations.RegionStepChanges : Prop :=
  (∀ (s : State) (r : Nat), (s.region r).target.isSome = true → (s.region r).retuned = false →
    exec (.pllRetuneDone r) s = .next (s.setRegion r { s.region r with retuned := true })) ∧
  (∀ (s : State) (r k : Nat), (s.region r).target = some k → (s.region r).retuned = true → s.railCarries r k = true →
    (∀ c ∈ [2 * r, 2 * r + 1], s.clusterOn c = true → s.enginesStopped c = true) →
    ∃ t, exec (.regionStepSwitch r) s = .next t ∧
      t = (((((s.setField (Reg.BIM_REG_STEP r) 1 0 k).setField (Reg.BIM_REG_STEP r) 3 3 0).setRegion r
        { s.region r with target := none, retuned := false, heat := (s.region r).heat && k != 0 }).switchBubbles (2 * r)).switchBubbles
          (2 * r + 1)).lowerRail (r / 3)) ∧
  (∀ (s : State) (r k : Nat), (s.region r).target = some k → (s.region r).retuned = true → s.railCarries r k = false →
    exec (.stepChangeAbandon r) s = .next (((s.setField (Reg.BIM_REG_STEP r) 3 3 0).setRegion r
      { s.region r with target := none, retuned := false }).lowerRail (r / 3))) ∧
  (∀ (s : State) (d : Nat), (s.rail d).changing = true →
    exec (.vrmInRange d) s = .next { s with rails := s.rails.put d { s.rail d with prev := (s.rail d).mv, changing := false } })

/-- R26 to R28, R217: gating and waking. -/
def Obligations.ClustersGateAndWake : Prop :=
  (∀ (s : State) (c : Nat), s.clusterOn c = true → s.clusterTask c = false → s.engineWork c = false → s.warm c = false →
    s.sterlingOn c = false → s.wanted c = false → exec (.gatingEntry c) s = .next (s.setCluster c { s.cluster c with power := .entering })) ∧
  (∀ (s : State) (c : Nat), (s.cluster c).power = .entering →
    ∃ t, exec (.gatingRetentionPoint c) s = .next t ∧ (t.cluster c).power = .gated ∧ t.spad = s.spad ∧ t.tier = s.tier ∧
      (∀ l, l < 256 → t.reg (Reg.LAT_COUNT c l) = 0 ∧ t.latch c l = {}) ∧ t.dmaEng c = {} ∧ (t.trestle c).rq = {} ∧ (t.trestle c).tq = {} ∧
      (∀ m, m / 8 = c → (t.core m).threads = []) ∧ ∀ d, d ≠ c → t.cluster d = s.cluster d ∧ t.trestle d = s.trestle d) ∧
  (∀ (s : State) (r : Nat), s.regionPresent r = true →
    (∀ c ∈ [2 * r, 2 * r + 1], s.clusterPresent c = true → (s.cluster c).power = .gated) →
    (∀ e ∈ s.tiers.objs, e.2.st ≠ .none → e.2.class0 = true → e.2.stack ≠ r ∧ (e.2.mirror = true → e.2.partner ≠ r) ∧
      (e.2.spread = true → r ∉ e.2.stackNos)) →
    exec (.regionPllStop r true) s = .next (s.setRegion r { s.region r with pllStopped := true })) ∧
  (∀ (s : State) (c : Nat), s.clusterPresent c = true → s.wanted c = true → (s.cluster c).power = .entering →
    exec (.wakeRequest c) s = .next (s.setCluster c { s.cluster c with power := .on })) ∧
  (∀ (s : State) (c : Nat), s.clusterPresent c = true → s.wanted c = true → (s.cluster c).power = .gated →
    exec (.wakeRequest c) s = .next ((s.setCluster c { s.cluster c with power := .waking }).setRegion (c / 2)
      { s.region (c / 2) with pllStopped := false })) ∧
  (∀ (s : State) (c : Nat), (s.cluster c).power = .waking →
    exec (.wakeDone c) s = .next (((s.setCluster c { s.cluster c with power := .on }).newEpoch c).bump (Reg.CAB_RES_WAKES c) 1))

/-! ### Trestle (R33 to R62, R84, R246 to R250, R496) -/

/-- The op `op` heads the queue being served and may run now (R46, R61): `it` is its program, `bs` its record. -/
def TrsReady (s : State) (c : Nat) (it : TrsItem) (op : TileOp) (bs : List Byte) : Prop :=
  s.trsRuns c (s.trestle c).serving = true ∧ (s.trestle c).change = 0 ∧ (s.trestle c).rerunning (s.trestle c).serving = false ∧
    s.trsHead c (s.trestle c).serving = some (it, op, bs) ∧ (s.trestle c).canGo (s.trestle c).serving op = true

/-- R55 to R62: the tile ops that do not fault, the illegal ones, and HALT. -/
def Obligations.TileOpsComplete : Prop :=
  (∀ (s : State) (c : Nat) (it : TrsItem) (bs : List Byte), TrsReady s c it .nop bs →
    exec (.trsNop c) s = .next (s.trsAdvance c (s.trestle c).serving)) ∧
  (∀ (s : State) (c w : Nat) (it : TrsItem) (bs : List Byte), TrsReady s c it (.config w) bs → configFault w = none →
    exec (.trsConfig c) s = .next ((s.modQu c (s.trestle c).serving fun q => { q with
      layout := bits w 1 0, ksplit := bit w 2, fmtA := bits w 7 4, fmtB := bits w 11 8, bdLog := bits w 13 12
      latest := [], blkOf := [], checked := [] }).trsAdvance c (s.trestle c).serving)) ∧
  (∀ (s : State) (c p : Nat) (l : TrsLoad) (it : TrsItem) (bs : List Byte) (t : Trestle) (i : Nat) (q : TrsQueue),
    TrsReady s c it (.load p l) bs → t = s.trestle c → i = t.serving → q = t.qu i →
    q.loadFault (s.shareSize c it.task.ctx) p l = none →
    exec (.trsLoad c) s = .next ((s.setTrestle c { t.setQu i { q with
      latest := q.latest.put p (t.nextBank i p)
      blkOf := q.blkOf.put p t.nextId
      loads := q.loads ++ [⟨p, t.nextId, q.bankKeys p (t.nextBank i p), l, it.task, t.seq, false, false⟩] } with nextId := t.nextId + 1, seq := t.seq + 1 }).trsAdvance c i)) ∧
  (∀ (s : State) (c p : Nat) (st : TrsStream) (it : TrsItem) (bs : List Byte) (t : Trestle) (i : Nat) (q : TrsQueue) (chk : Bool),
    TrsReady s c it (.stream p st) bs → t = s.trestle c → i = t.serving → q = t.qu i →
    chk = (st.chk || it.task.cls == 0 || (i == 1 && s.flag (Reg.TRS_CHK_CTRL c) 0)) → (q.blkOf.look p).isSome = true →
    q.streamFault (s.shareSize c it.task.ctx) i p chk (t.loadOf i (q.blkOf.get 0 p)) st = none → st.m ≠ 0 →
    ∃ t' : State, exec (.trsStream c) s = .next t' ∧ t' = s.setTrestle c (t'.trestle c) ∧
      ((t'.trestle c).qu i).acts.look p = some { p := p, op := st, task := it.task, seq := t.seq, blk := q.blkOf.get 0 p, chk := chk
                                                 banks := q.bankKeys p (q.latest.get 0 p), tag := recTag bs } ∧
      (∀ k, k ≠ p → ((t'.trestle c).qu i).acts.look k = q.acts.look k) ∧
      ((t'.trestle c).qu i).items = q.advance.items ∧ (t'.trestle c).seq = t.seq + 1 ∧
      (chk = true → p ∈ ((t'.trestle c).qu i).checked)) ∧
  (∀ (s : State) (c p : Nat) (d : TrsDrain) (it : TrsItem) (bs : List Byte) (t : Trestle) (i : Nat) (q : TrsQueue),
    TrsReady s c it (.drain p d) bs → t = s.trestle c → i = t.serving → q = t.qu i →
    q.drainFault (s.shareSize c it.task.ctx) i p d = none → d.m ≠ 0 → d.nCols ≠ 0 →
    exec (.trsDrain c) s = .next ((s.setTrestle c { t.setQu i { q with
      convs := q.convs ++ [{ p := p, op := d, task := it.task, seq := t.seq }] } with seq := t.seq + 1 }).trsAdvance c i)) ∧
  (∀ (s : State) (c l n : Nat) (it : TrsItem) (bs : List Byte), TrsReady s c it (.wait l n) bs → s.latchOwned c l it.task.ctx = true →
    exec (.trsWait c) s = .next ((s.waitOn c l (s.trestle c).serving n).trsAdvance c (s.trestle c).serving)) ∧
  (∀ (s : State) (c l n : Nat) (it : TrsItem) (bs : List Byte), TrsReady s c it (.signal l n) bs → s.latchOwned c l it.task.ctx = true →
    exec (.trsSignal c) s = .next ((s.signal c l n).trsAdvance c (s.trestle c).serving)) ∧
  (∀ (s : State) (c : Nat) (it : TrsItem) (bs : List Byte), TrsReady s c it .fin bs → it.staged = false →
    exec (.trsEnd c) s = .next (((s.trsAdvance c (s.trestle c).serving).modQu c (s.trestle c).serving
      fun q => { q with items := q.items.drop 1 }).finish it.task 0 0 c)) ∧
  (∀ (s : State) (c n : Nat) (it : TrsItem) (bs : List Byte), TrsReady s c it (.illegal n) bs →
    ∃ t, exec (.trestleIllegalOp c) s = .next t ∧ t = s.trsFault c (s.trestle c).serving n (recTag bs) trsIllegal ∧
      t.reg (Reg.TRS_FAULT c) = (1 + 2 * 1 + 16 * (s.trestle c).serving + 256 * n) % 2 ^ 32 ∧
      t.reg (Reg.TRS_FAULT_TAG c) = recTag bs % 2 ^ 32) ∧
  (∀ (s : State) (c : Nat) (on : Bool), s.clusterPresent c = true →
    exec (.trsHalt c on) s = .next (s.setField (Reg.TRS_CTRL c) 2 2 (b2n on)))

/-- R33 to R53, R246 to R249: what moves in the array. -/
def Obligations.TrestleArrayComplete : Prop :=
  (∀ (s : State) (c p : Nat) (a : TrsAct) (t : Trestle) (i : Nat), s.clusterOn c = true → t = s.trestle c → i = t.serving →
    t.change = 0 → t.rerun = [] → (t.qu i).loads = [] → p < 8 → (t.qu i).acts = [(p, a)] → a.p = p →
    (t.offer i false [] a = .row → (t.qu i).rowBytes a.op.k ≤ 512 →
      ∃ (u : State) (r : TrsRow), exec (.feederCycle c []) s = .next u ∧ (u.trestle c).flight = t.flight ++ [r] ∧ r.q = i ∧ r.p = p ∧
        r.t = t.cyc ∧ r.blk = a.blk ∧ r.accRow = a.op.accRow + a.next ∧ r.extra = false ∧ r.a = s.readRow c a.task.ctx (t.qu i) a.op a.next ∧
        u.reg64 (Reg.TRS_ROWS_VALID c) = (s.reg64 (Reg.TRS_ROWS_VALID c) + 1) % 2 ^ 64 ∧ (u.trestle c).cyc = t.cyc + 1 ∧
        u = { s with trs := u.trs, regs := u.regs }) ∧
    (t.offer i false [] a ∈ [Offer.dry, .drain, .layout] →
      ∃ u : State, exec (.feederCycle c []) s = .next u ∧ (u.trestle c).flight = t.flight ∧ (u.trestle c).cyc = t.cyc + 1 ∧
        u = { s with trs := u.trs, regs := u.regs } ∧
        u.reg64 (bubbleReg c [t.offer i false [] a]) = (s.reg64 (bubbleReg c [t.offer i false [] a]) + 1) % 2 ^ 64)) ∧
  (∀ (s : State) (c : Nat), s.clusterOn c = true → (s.trestle c).change = 0 → (s.trestle c).serving = 1 → s.trsCan c 0 = true →
    (s.trestle c).boundary = true → (s.trestle c).rerun = [] →
    (∀ e ∈ (s.trestle c).tq.acts, e.2.edge = true ∨ e.2.tileCyc = 0) →
    ∃ t, exec (.tileBoundary c) s = .next t ∧ (t.trestle c).serving = 0 ∧ (t.trestle c).change = 128 ∧
      t.reg64 (Reg.TRS_PREEMPT c) = (s.reg64 (Reg.TRS_PREEMPT c) + 1) % 2 ^ 64 ∧ (t.trestle c).acc = (s.trestle c).acc ∧
      t = { s with trs := t.trs, regs := t.regs }) ∧
  (∀ (s : State) (c : Nat) (r : TrsRow) (rest : List TrsRow) (b : TrsBlock), s.clusterOn c = true → (s.trestle c).flight = r :: rest →
    r.t + 258 ≤ (s.trestle c).cyc → (s.trestle c).blocks.look r.blk = some b → r.tile = 0 → r.extra = false → r.rerun = false → s.mapped c = none →
    ∃ t, exec (.rowLands c []) s = .next t ∧ (t.trestle c).flight = rest ∧
      (t.trestle c).acc.look (accKey r.q r.p r.accRow) = some
        (((if r.init = 1 then List.replicate (b.passes r.a).length 0 else if r.init = 2 then r.c
          else accRow (s.trestle c).acc r.q r.p r.accRow (b.passes r.a).length).zip (b.passes r.a)).map fun x => accAdd b.kind x.1 x.2) ∧
      (∀ k, k ≠ accKey r.q r.p r.accRow → (t.trestle c).acc.look k = (s.trestle c).acc.look k) ∧ ∀ d, d ≠ c → t.trestle d = s.trestle d) ∧
  (∀ (s : State) (c : Nat) (l : TrsPend) (rest : List TrsPend) (t : Trestle) (i : Nat), s.clusterOn c = true → t = s.trestle c →
    i = t.serving → t.change = 0 → (t.qu i).loads = l :: rest → (∀ x ∈ l :: rest, x.begun = false) → l.reload = false →
    (∀ k ∈ l.banks, (t.banks.get {} k).inflight = 0 ∧ (t.banks.get {} k).loading = 0) →
    (∀ e ∈ (t.qu i).acts, e.2.seq < l.seq → ∀ k ∈ e.2.banks, k ∉ l.banks) →
    ∃ u, exec (.loadBegin c) s = .next u ∧
      (u.trestle c).blocks.look l.blk = some (s.readBlock c i (t.qu i) l.p l.task l.load) ∧
      (∀ k ∈ l.banks, ((u.trestle c).banks.get {} k).blk = l.blk ∧ ((u.trestle c).banks.get {} k).loading = (t.qu i).loadCycles l.load) ∧
      (∀ k, k ∉ l.banks → (u.trestle c).banks.get {} k = t.banks.get {} k) ∧ u = s.setTrestle c (u.trestle c)) ∧
  (∀ (s t : State) (c : Nat), s.clusterOn c = true → s.convertRow c 0 = some t → exec (.drainRowConvert c) s = .next t) ∧
  (∀ (s : State) (c : Nat) (d : TrsConv) (rest : List TrsConv) (f : Fmt) (o : List Byte), s.clusterOn c = true → (s.trestle c).rq.convs = [] →
    (s.trestle c).tq.convs = d :: rest → (s.trestle c).rowSettled 1 d.p (d.op.accRow + d.next) d.seq = true → Fmt.ofCode d.op.dFmt = some f →
    d.op.digest = false → drainRow f d.op (s.taskWord d.task d.op.rng) d.next
      (accRow (s.trestle c).acc 1 d.p (d.op.accRow + d.next) (s.trestle c).tq.width) = (o, []) →
    exec (.drainRowConvert c) s = .next ((((s.shareWrite c d.task.ctx (d.op.dAddr + d.next * d.op.dStride) o).getD s).modQu c 1
      fun q => { q with convs := if d.next + 1 = d.op.m then rest else { d with next := d.next + 1 } :: rest }).trsSettle c 1)) ∧
  (∀ (s : State) (c : Nat) (x : TrsTile), (s.trestle c).tiles.find? (fun x => x.extraLanded && x.phase == 0) = some x →
    (s.judge c x = ([], false) → exec (.checkEvaluate c) s = .next ((s.setTrestle c ((s.trestle c).accept x)).trsSettle c x.q)) ∧
    (s.judge c x ≠ ([], false) →
      ∃ t, exec (.checkEvaluate c) s = .next t ∧ t.reg64 (Reg.TRS_CHK_MISMATCH c) = (s.reg64 (Reg.TRS_CHK_MISMATCH c) + 1) % 2 ^ 64 ∧
        (t.trestle c).boundary = true ∧ (t.trestle c).acc = (s.trestle c).acc ∧ t = { s with trs := t.trs, regs := t.regs } ∧
        (t.trestle c).tiles = (s.trestle c).tiles.map fun z => if z.id = x.id then { x with
          phase := 1
          suspect := suspectOf (s.tileCol0 c x) (s.judge c x).1 (s.judge c x).2
          useSpare := s.flag (Reg.TRS_CHK_CTRL c) 1 && (s.mapped c).isNone &&
            (suspectOf (s.tileCol0 c x) (s.judge c x).1 (s.judge c x).2).isSome } else z)) ∧
  (∀ (s : State) (c : Nat) (x : TrsTile), (s.trestle c).tiles.find? (fun x => x.extraLanded && x.phase == 2) = some x →
    (s.judge c x = ([], false) → x.useSpare = false → exec (.checkRerunOutcome c) s =
      .next (((s.setTrestle c ((s.trestle c).accept x)).bump (Reg.TRS_CHK_TRANSIENT c) 1).trsSettle c x.q)) ∧
    (∀ n : Nat, n < 256 → s.judge c x = ([], false) → x.useSpare = true → x.suspect = some n → x.spareSums ≠ x.suspectSums →
      ∃ t, exec (.checkRerunOutcome c) s = .next t ∧ t.mapped c = some n ∧
        t.reg64 (Reg.TRS_CHK_SPARE_MAPS c) = (s.reg64 (Reg.TRS_CHK_SPARE_MAPS c) + 1) % 2 ^ 64) ∧
    (s.judge c x ≠ ([], false) → exec (.checkRerunOutcome c) s = .next (s.unresolved c x)))

/-! ### Pewter (R92 to R129) -/

/-- The state after an instruction that leaves its queue as `r.1` with `r.2` saturations: the next instruction, SAT and INSNS counted. -/
def PwtAfter (s : State) (u i : Nat) (r : PwtQueue × Nat) : State :=
  ((s.setPq u i r.1.step).bump (Reg.PWT_SAT (u / 4) (u % 4)) r.2).bump (Reg.PWT_INSNS (u / 4) (u % 4)) 1

/-- R97, R98: what a vector instruction writes. -/
def Obligations.LanesWriteTheActiveLanes : Prop :=
  ∀ (q : PwtQueue) (vd : Nat) (f : Nat → Nat × Nat),
    (∀ l, l < q.vl → (q.lanes vd f).1.lane vd l = (f l).1 % 2 ^ 32) ∧
    (∀ k, ¬ (32 * vd ≤ k ∧ k < 32 * vd + q.vl) → (q.lanes vd f).1.v.get 0 k = q.v.get 0 k) ∧
    (q.lanes vd f).2 = ((List.range q.vl).map fun l => (f l).2).sum ∧ (q.lanes vd f).1 = { q with v := (q.lanes vd f).1.v }

/-- R118 to R126: the vector instructions. -/
def Obligations.PewterVectorInstructions : Prop :=
  ∀ (s : State) (u i : Nat) (r : PwtRec) (w : PwtInsn) (q : PwtQueue), s.pwtHead u = some (i, r, some w) → q = s.pq u i →
    (w.op = 0x16 → exec (.vbcast u) s = .next (PwtAfter s u i (q.lanes w.vd fun _ => (q.s w.sa, 0)))) ∧
    (w.op = 0x31 → w.sh ≤ 47 → exec (.accr u) s = .next (PwtAfter s u i
      (q.lanes w.vd fun l => narrowCi w.sh (q.accPart w.acc l 0, q.accPart w.acc l 1)))) ∧
    (w.op = 0x32 → exec (.acc32 u) s = .next (PwtAfter s u i
      (q.lanes w.vd fun l => narrow 32 (asr (q.accPart w.acc l (w.imm % 2)) w.sh)))) ∧
    (w.op = 0x34 → w.sh ≤ 31 → exec (.cmulh u) s = .next (PwtAfter s u i (q.lanes w.vd fun l =>
      narrowCi w.sh (cmulC (conjC (bit w.imm 0) (q.ci w.va l)) (conjC (bit w.imm 1) (q.ci w.vb l)))))) ∧
    (w.op = 0x35 → exec (.cadd u) s = .next (PwtAfter s u i (q.lanes w.vd fun l =>
      narrowCi (w.imm % 2) ((q.ci w.va l).1 + (q.ci w.vb l).1, (q.ci w.va l).2 + (q.ci w.vb l).2)))) ∧
    (w.op = 0x36 → exec (.csub u) s = .next (PwtAfter s u i (q.lanes w.vd fun l =>
      narrowCi (w.imm % 2) ((q.ci w.va l).1 - (q.ci w.vb l).1, (q.ci w.va l).2 - (q.ci w.vb l).2)))) ∧
    (w.op = 0x37 → bit w.imm 8 = true → -32 ≤ sext 8 w.imm → sext 8 w.imm ≤ 32 → exec (.vshf u) s = .next (PwtAfter s u i
      (q.lanes w.vd fun l => shiftBy 32 (sext 8 w.imm) (q.si w.va l)))) ∧
    (w.op = 0x37 → bit w.imm 8 = false → -16 ≤ sext 8 w.imm → sext 8 w.imm ≤ 16 → exec (.vshf u) s = .next (PwtAfter s u i
      (q.lanes w.vd fun l => ci16Of (shiftBy 16 (sext 8 w.imm) (q.ci w.va l).1) (shiftBy 16 (sext 8 w.imm) (q.ci w.va l).2)))) ∧
    (w.op = 0x38 → exec (.cmag2 u) s = .next (PwtAfter s u i
      (q.lanes w.vd fun l => narrow 32 ((q.ci w.va l).1 ^ 2 + (q.ci w.va l).2 ^ 2)))) ∧
    (w.op = 0x39 → exec (.vperm u) s = .next (PwtAfter s u i (q.lanes w.vd fun l => (q.lane w.va (q.lane w.vb l % 32), 0)))) ∧
    (w.op = 0x3A → w.vc ≠ w.vd → bit w.imm 0 = true → exec (.norm u) s = .next (PwtAfter s u i
      (((q.lanes w.vd fun l => (q.lane w.va l * 2 ^ redundantSigns 32 (q.lane w.va l) % 2 ^ 32, 0)).1.lanes w.vc
        fun l => (redundantSigns 32 (q.lane w.va l), 0)).1, 0))) ∧
    (w.op = 0x3A → w.vc ≠ w.vd → bit w.imm 0 = false → exec (.norm u) s = .next (PwtAfter s u i
      (((q.lanes w.vd fun l => (q.lane w.va l % 2 ^ 16 * 2 ^ q.rsCi w.va l % 2 ^ 16 +
        2 ^ 16 * (q.lane w.va l / 2 ^ 16 * 2 ^ q.rsCi w.va l % 2 ^ 16), 0)).1.lanes w.vc fun l => (q.rsCi w.va l, 0)).1, 0))) ∧
    (∀ g, w.op = 0x3B → expbGroup (w.imm % 8) = some g → q.vl % g = 0 → exec (.expb u) s = .next (PwtAfter s u i
      (q.lanes w.vd fun l => ((List.range g).foldl (fun m k => min m (q.rsCi w.va (l / g * g + k))) 15, 0)))) ∧
    (∀ x y : Nat → Int × Int, w.op = 0x3C → w.vd % 2 = 0 → (∀ l, x l = ((q.ci w.va l).1 * 2 ^ 15, (q.ci w.va l).2 * 2 ^ 15)) →
      (∀ l, y l = cmulC (q.ci w.vc l) (q.ci w.vb l)) →
      exec (.bfly2 u) s = .next (PwtAfter s u i
        (((q.lanes w.vd fun l => narrowCi (15 + w.imm % 2) ((x l).1 + (y l).1, (x l).2 + (y l).2)).1.lanes (w.vd + 1)
            fun l => narrowCi (15 + w.imm % 2) ((x l).1 - (y l).1, (x l).2 - (y l).2)).1,
          (q.lanes w.vd fun l => narrowCi (15 + w.imm % 2) ((x l).1 + (y l).1, (x l).2 + (y l).2)).2 +
          ((q.lanes w.vd fun l => narrowCi (15 + w.imm % 2) ((x l).1 + (y l).1, (x l).2 + (y l).2)).1.lanes (w.vd + 1)
            fun l => narrowCi (15 + w.imm % 2) ((x l).1 - (y l).1, (x l).2 - (y l).2)).2))) ∧
    (w.op = 0x3D → w.imm % 4 ≠ 3 → w.vd % 4 = 0 → w.va % 4 = 0 → w.vc ≤ 29 →
      ∃ t : State, exec (.bfly4 u) s = .next t ∧ (t.pq u i).pc = q.pc + 8 ∧
        (∀ l, l < q.vl → l < 32 → ∀ y : Nat → Int × Int, y 0 = ((q.ci w.va l).1 * 2 ^ 15, (q.ci w.va l).2 * 2 ^ 15) →
          (∀ k, k ∈ [1, 2, 3] → y k = cmulC (q.ci (w.vc + k - 1) l) (q.ci (w.va + k) l)) →
          q.vl ≤ 32 → (t.pq u i).lane w.vd l = (narrowCi (15 + w.imm % 4)
            ((y 0).1 + (y 1).1 + (y 2).1 + (y 3).1, (y 0).2 + (y 1).2 + (y 2).2 + (y 3).2)).1 % 2 ^ 32 ∧
          (t.pq u i).lane (w.vd + 2) l = (narrowCi (15 + w.imm % 4)
            ((y 0).1 - (y 1).1 + (y 2).1 - (y 3).1, (y 0).2 - (y 1).2 + (y 2).2 - (y 3).2)).1 % 2 ^ 32) ∧
        (∀ k, ¬ (32 * w.vd ≤ k ∧ k < 32 * w.vd + 96 + q.vl) → (t.pq u i).v.get 0 k = q.v.get 0 k) ∧ t = { s with pwt := t.pwt, regs := t.regs })

/-- R95, R113, R126: the scalar and set-up instructions and the accumulators. -/
def Obligations.PewterScalarInstructions : Prop :=
  ∀ (s : State) (u i : Nat) (r : PwtRec) (w : PwtInsn) (q : PwtQueue), s.pwtHead u = some (i, r, some w) → q = s.pq u i →
    (w.op = 0x00 → exec (.pwtNop u) s = .next (PwtAfter s u i (q, 0))) ∧
    (w.op = 0x10 → exec (.sli u) s = .next (PwtAfter s u i (q.setS w.sd (wrap 32 (sext 24 w.imm)), 0))) ∧
    (w.op = 0x11 → exec (.slih u) s = .next (PwtAfter s u i (q.setS w.sd (q.s w.sd % 2 ^ 16 + 2 ^ 16 * (w.imm % 2 ^ 16)), 0))) ∧
    (w.op = 0x12 → exec (.saddi u) s = .next (PwtAfter s u i (q.setS w.sd (wrap 32 (Int.ofNat (q.s w.sa) + sext 24 w.imm)), 0))) ∧
    (w.op = 0x13 → exec (.sadd u) s = .next (PwtAfter s u i (q.setS w.sd (q.s w.sa + q.s (w.imm % 16)), 0))) ∧
    (w.op = 0x14 → exec (.ssub u) s = .next (PwtAfter s u i (q.setS w.sd (q.s w.sa + 2 ^ 32 - q.s (w.imm % 16)), 0))) ∧
    (w.op = 0x15 → exec (.sget u) s = .next (PwtAfter s u i (q.setS w.sd (q.lane w.va (w.imm % 32)), 0))) ∧
    (w.op = 0x17 → 1 ≤ w.imm % 64 → w.imm % 64 ≤ 32 → exec (.setvl u) s = .next (PwtAfter s u i ({ q with vl := w.imm % 64 }, 0))) ∧
    (w.op = 0x18 → w.imm % 8 = 0 → q.s w.sa ≤ 4 →
      exec (.agset u) s = .next (PwtAfter s u i (q.setGen w.ag { q.gen w.ag with mode := q.s w.sa }, 0))) ∧
    (w.op = 0x18 → w.imm % 8 = 1 → q.s w.sa < 2 ^ 25 →
      exec (.agset u) s = .next (PwtAfter s u i (q.setGen w.ag { q.gen w.ag with base := q.s w.sa }, 0))) ∧
    (w.op = 0x18 → w.imm % 8 = 2 →
      exec (.agset u) s = .next (PwtAfter s u i (q.setGen w.ag { q.gen w.ag with s := BitVec.ofNat 32 (q.s w.sa) }, 0))) ∧
    (w.op = 0x18 → w.imm % 8 = 3 →
      exec (.agset u) s = .next (PwtAfter s u i (q.setGen w.ag { q.gen w.ag with modl := BitVec.ofNat 32 (q.s w.sa) }, 0))) ∧
    (w.op = 0x18 → w.imm % 8 = 4 →
      exec (.agset u) s = .next (PwtAfter s u i (q.setGen w.ag { q.gen w.ag with p := BitVec.ofNat 32 (q.s w.sa) }, 0))) ∧
    (w.op = 0x19 → exec (.asetp u) s = .next (PwtAfter s u i ({ q with preset := BitVec.ofInt 48 (sext 32 (q.s w.sa)) }, 0))) ∧
    (w.op = 0x30 → ∃ t : State, exec (.cmac u) s = .next t ∧ (t.pq u i).pc = q.pc + 8 ∧ (t.pq u i).v = q.v ∧ t = { s with pwt := t.pwt, regs := t.regs } ∧
      ∀ (l : Nat) (p : Int × Int), l < q.vl → p = cmulC (conjC (bit w.imm 0) (q.ci w.va l)) (conjC (bit w.imm 1) (q.ci w.vb l)) →
        (t.pq u i).a.get 0 (2 * (32 * w.acc + l)) =
          BitVec.ofInt 48 ((if bit w.imm 2 then q.preset.toInt else q.accPart w.acc l 0) + p.1) ∧
        (t.pq u i).a.get 0 (2 * (32 * w.acc + l) + 1) =
          BitVec.ofInt 48 ((if bit w.imm 2 then q.preset.toInt else q.accPart w.acc l 1) + p.2)) ∧
    (w.op = 0x33 → ∃ t : State, exec (.accsum u) s = .next t ∧ (t.pq u i).pc = q.pc + 8 ∧ (t.pq u i).v = q.v ∧ t = { s with pwt := t.pwt, regs := t.regs } ∧
      ∀ p, p < 2 → (0 < q.vl → (t.pq u i).a.get 0 (2 * (32 * w.acc) + p) =
          BitVec.ofInt 48 (((List.range q.vl).map fun l => q.accPart w.acc l p).sum)) ∧
        ∀ l, 0 < l → l < q.vl → (t.pq u i).a.get 0 (2 * (32 * w.acc + l) + p) = 0)

/-- R102 to R128: control and memory instructions. The count of RDCYC and the store that wins at one address are free values. -/
def Obligations.PewterControlInstructions : Prop :=
  ∀ (s : State) (u i : Nat) (r : PwtRec) (w : PwtInsn) (q : PwtQueue), s.pwtHead u = some (i, r, some w) → q = s.pq u i →
    (w.op = 0x01 → exec (.pwtTile u) s = .next ((s.setPq u i q.edge).bump (Reg.PWT_INSNS (u / 4) (u % 4)) 1)) ∧
    (w.op = 0x02 → exec (.pwtEnd u) s = .next ((s.pwtEnd u i 0 0).bump (Reg.PWT_INSNS (u / 4) (u % 4)) 1)) ∧
    (w.op = 0x03 → s.latchOwned (u / 4) (w.imm % 256) r.task.ctx = true → exec (.pwtWait u) s = .next
      (((s.setPq u i q.edge).waitOn (u / 4) (w.imm % 256) (pwtWaiter u i) (q.s w.sa)).bump (Reg.PWT_INSNS (u / 4) (u % 4)) 1)) ∧
    (w.op = 0x04 → s.latchOwned (u / 4) (w.imm % 256) r.task.ctx = true → exec (.pwtSignal u) s = .next
      (((s.setPq u i q.step).signal (u / 4) (w.imm % 256) (q.s w.sa)).bump (Reg.PWT_INSNS (u / 4) (u % 4)) 1)) ∧
    (∀ n, w.op = 0x05 → n = (q.s w.sd + 2 ^ 32 - 1) % 2 ^ 32 → exec (.loop u) s = .next ((s.setPq u i
      (if n = 0 then (q.setS w.sd n).step else (q.setS w.sd n).branch (sext 24 w.imm))).bump (Reg.PWT_INSNS (u / 4) (u % 4)) 1)) ∧
    (w.op = 0x06 → exec (.jmp u) s = .next ((s.setPq u i (q.branch (sext 24 w.imm))).bump (Reg.PWT_INSNS (u / 4) (u % 4)) 1)) ∧
    (w.op = 0x08 → s.sterling r.task.ctx = false →
      exec (.rdtime u) s = .next ((s.setPq u i (q.setS w.sd s.ns).step).bump (Reg.PWT_INSNS (u / 4) (u % 4)) 1)) ∧
    (w.op = 0x09 → s.sterling r.task.ctx = false → ∃ (t : State) (n : Nat), exec (.rdcyc u) s = .next t ∧ t.pq u i = (q.setS w.sd n).step ∧
      t = { s with pwt := t.pwt, regs := t.regs, nonce := s.nonce + 1 }) ∧
    (∀ e, w.op = 0x20 → elemOf w.imm = some e → q.accessFault w e (s.shareSize (u / 4) r.task.ctx) = none → exec (.pwtLd u) s = .next
      ((s.setPq u i ((q.lanes w.vd fun l => (nth 0 ((q.addrs w e).map fun a =>
        wrap 32 (sext (8 * e) (fromLE ((s.shareRead (u / 4) r.task.ctx a e).getD [])))) l, 0)).1.setGen w.ag ((q.gen w.ag).after e q.vl)).step).bump
          (Reg.PWT_INSNS (u / 4) (u % 4)) 1)) ∧
    (∀ (e : Nat) (vs : List (Nat × Nat)), w.op = 0x21 → elemOf w.imm = some e → q.accessFault w e (s.shareSize (u / 4) r.task.ctx) = none →
      vs = ((List.range q.vl).map fun l => if e = 4 then (q.lane w.va l, 0) else narrow (8 * e) (q.si w.va l)) →
      exec (.pwtSt u) s = .next (((((s.storeLanes (u / 4) r.task.ctx r.task (bit w.imm 2) ((q.addrs w e).zip (vs.map fun v => toLE e v.1)) [] 0).setPq u i
        (q.setGen w.ag ((q.gen w.ag).after e q.vl)).step).bump (Reg.PWT_SAT (u / 4) (u % 4)) (vs.map (·.2)).sum)).bump
          (Reg.PWT_INSNS (u / 4) (u % 4)) 1)) ∧
    (∀ wd a, w.op = 0x22 → bfpWidth w.imm = some wd → (q.vl = 12 ∨ q.vl = 24) → bit w.imm 4 = false →
      q.linear w (q.vl / 12 * (1 + 3 * wd)) (s.shareSize (u / 4) r.task.ctx) = .ok a →
      ∃ t, exec (.bfpu u) s = .next t ∧ (t.pq u i).pc = q.pc + 8 ∧
        ((t.pq u i).gen w.ag).p = BitVec.ofNat 32 ((q.gen w.ag).p.toNat + q.vl / 12 * (1 + 3 * wd)) ∧
        (∀ (l : Nat) (bs : List Byte) (part : Nat → Int), l < q.vl →
          bs = (s.shareRead (u / 4) r.task.ctx (a + l / 12 * (1 + 3 * wd)) (1 + 3 * wd)).getD [] →
          (∀ k, part k = bfpMant bs wd (2 * (l % 12) + k) * Int.ofNat (2 ^ ((nth 0 bs 0).toNat % 16))) →
          (t.pq u i).lane w.vd l = (ci16Of (narrow 16 (part 0)) (narrow 16 (part 1))).1 % 2 ^ 32) ∧
        (∀ k, ¬ (32 * w.vd ≤ k ∧ k < 32 * w.vd + q.vl) → (t.pq u i).v.get 0 k = q.v.get 0 k)) ∧
    (∀ (wd a : Nat) (bl : List (List Byte × Nat)), w.op = 0x23 → bfpWidth w.imm = some wd → (q.vl = 12 ∨ q.vl = 24) →
      q.linear w (q.vl / 12 * (1 + 3 * wd)) (s.shareSize (u / 4) r.task.ctx) = .ok a →
      bl = ((List.range (q.vl / 12)).map fun b => q.bfpPack w.va b wd (if bit w.imm 4 then some (q.lane w.vb (12 * b) % 16) else none)) →
      exec (.bfpk u) s = .next ((((s.pwtWrite u r a (bl.flatMap (·.1)) (bit w.imm 5)).setPq u i
        (q.setGen w.ag { q.gen w.ag with p := BitVec.ofNat 32 ((q.gen w.ag).p.toNat + q.vl / 12 * (1 + 3 * wd)) }).step).bump
          (Reg.PWT_SAT (u / 4) (u % 4)) (bl.map (·.2)).sum).bump (Reg.PWT_INSNS (u / 4) (u % 4)) 1)) ∧
    (∀ (a : Nat) (out : List (Byte × Nat)), w.op = 0x24 → w.sh ≤ 31 →
      q.linear w (2 * (w.imm % 4 + 1) * q.vl) (s.shareSize (u / 4) r.task.ctx) = .ok a →
      out = ((List.range q.vl).flatMap fun l =>
        llrLane (w.imm % 4 + 1) (q.s w.sa % 2 ^ 16) (q.lane w.vb l % 2 ^ 16) w.sh (q.ci w.va l)) →
      exec (.llr u) s = .next ((((s.pwtWrite u r a (out.map (·.1)) (bit w.imm 2)).setPq u i
        (q.setGen w.ag { q.gen w.ag with p := BitVec.ofNat 32 ((q.gen w.ag).p.toNat + 2 * (w.imm % 4 + 1) * q.vl) }).step).bump
          (Reg.PWT_SAT (u / 4) (u % 4)) (out.map (·.2)).sum).bump (Reg.PWT_INSNS (u / 4) (u % 4)) 1)) ∧
    (pwtDefined w.op = false → ∃ t, exec (.pewterIllegalOp u) s = .next t ∧ t = s.pwtFault u i w.op pwtIllegal ∧
      t.reg (Reg.PWT_FAULT (u / 4) (u % 4)) = (1 + 2 * 1 + 16 * i + 256 * w.op) % 2 ^ 32 ∧
      t.reg (Reg.PWT_FAULT_PC (u / 4) (u % 4)) = q.pc % 2 ^ 25)

/-- R99 to R105, R128, R129: queues and kernels. -/
def Obligations.PewterQueuesAndKernels : Prop :=
  (∀ (s : State) (u : Nat) (o : PwtOffer), s.clusterOn (u / 4) = true → (s.pewter u).offers = [o] → o.src < 3 → o.q < 2 →
    s.pwtEnabled u o.q = true → (s.pq u o.q).recs.length < pwtDepth →
    ∃ t, exec (.pewterIssuePush u) s = .next t ∧ t.pq u o.q = { s.pq u o.q with recs := (s.pq u o.q).recs ++ [o.issue] } ∧
      t.pq u (1 - o.q) = s.pq u (1 - o.q) ∧ (t.pewter u).offers = [] ∧ t.reg (Reg.PWT_PUSH_RR (u / 4) (u % 4)) = (o.src + 1) % 3 ∧
      (∀ v, v ≠ u → t.pewter v = s.pewter v) ∧ t = { s with pwt := t.pwt, regs := t.regs }) ∧
  (∀ (s : State) (u i : Nat) (r : PwtRec) (rest : List PwtRec), s.pwtReap u = s → i = (s.pewter u).serving → (s.pq u i).recs = r :: rest →
    (s.pq u i).run = false → s.pwtChoice u = some i → r.kaddr % 8 = 0 →
    ∃ t, exec (.kernelStart u) s = .next t ∧ t = s.setPq u i (t.pq u i) ∧ (t.pq u i).recs = r :: rest ∧ (t.pq u i).run = true ∧
      (t.pq u i).pc = r.kaddr ∧ (t.pq u i).vl = 32 ∧ (t.pq u i).v = [] ∧ (t.pq u i).a = [] ∧ (t.pq u i).ag = [] ∧ (t.pq u i).preset = 0 ∧
      (t.pq u i).s 0 = r.p0.toNat ∧ (t.pq u i).s 1 = r.p1.toNat ∧ (t.pq u i).s 2 = r.p2.toNat ∧ (t.pq u i).s 3 = r.p3.toNat ∧
      ∀ k, 4 ≤ k → (t.pq u i).s k = 0) ∧
  (∀ (s : State) (u i : Nat), s.pwtReap u = s → s.pwtChoice u = some i → i ≠ (s.pewter u).serving →
    exec (.pewterQueueChange u) s = .next ((s.setPewter u { s.pewter u with serving := i }).when (i == 0)
      (·.bump (Reg.PWT_PREEMPT (u / 4) (u % 4)) 1))) ∧
  (∀ (s : State) (u i wait l : Nat), i = (s.pewter u).serving → (s.pq u i).fetch = some l → s.clusterOn (u / 4) = true → 20 ≤ wait →
    exec (.insnLineFetch u wait) s = .next ((s.setPq u i ({ s.pq u i with fetch := none }.buffer l)).bump
      (Reg.PWT_STALL_MEM (u / 4) (u % 4)) wait)) ∧
  (∀ (s : State) (u i : Nat) (r : PwtRec) (rest : List PwtRec) (bs : List Byte), i = (s.pewter u).serving → (s.pq u i).recs = r :: rest →
    (s.pq u i).inTile = true → (s.pq u i).run = true → s.clusterOn (u / 4) = true → r.task.cls ≠ 0 →
    s.shareRead (u / 4) r.task.ctx (s.pq u i).pc 8 = some bs →
    exec (.tileLimit u) s = .next ((s.bump (Reg.PWT_TILE_LIMIT (u / 4) (u % 4)) 1).pwtFault u i (decodePwt (fromLE bs)).op pwtTileLimit)) ∧
  (∀ (s : State) (u : Nat) (on : Bool), s.clusterPresent (u / 4) = true →
    exec (.pwtHalt u on) s = .next (s.setField (Reg.PWT_CTRL (u / 4) (u % 4)) 2 2 (b2n on)))

/-! ### Tin and latches (R130 to R162) -/

/-- Core m of a cluster that is on issues instruction `i` of thread `t`, whose state is `th`. -/
def TinReady (s : State) (m t : Nat) (th : TinThread) (i : TinInsn) : Prop :=
  s.clusterOn (m / 8) = true ∧ (s.core m).cur = some t ∧ decodeTin (s.core m).word = i ∧ th = s.thread m t

/-- R130, R140, R143: the base profile. -/
def Obligations.TinBaseProfile : Prop :=
  (∀ (th : TinThread) (r k : Nat) (v : W64), th.setX 0 v = th ∧ th.getX 0 = 0 ∧ (r ≠ 0 → (th.setX r v).getX r = v) ∧
    (k ≠ r → (th.setX r v).getX k = th.getX k) ∧ th.setX r v = { th with x := (th.setX r v).x }) ∧
  ∀ (s : State) (m t : Nat) (th : TinThread) (i : TinInsn), TinReady s m t th i →
    (∀ rd imm, i = .lui rd imm → exec (.tinBaseInstruction m) s = .next (s.retire m t (th.setX rd (w64 imm)))) ∧
    (∀ rd imm, i = .auipc rd imm → exec (.tinBaseInstruction m) s = .next (s.retire m t (th.setX rd (th.pc + w64 imm)))) ∧
    (∀ rd off, i = .jal rd off →
      exec (.tinBaseInstruction m) s = .next (s.jump m t (th.setX rd (th.pc + BitVec.ofNat 64 th.len)) (th.pc + w64 off))) ∧
    (∀ rd rs1 off, i = .jalr rd rs1 off → exec (.tinBaseInstruction m) s =
      .next (s.jump m t (th.setX rd (th.pc + BitVec.ofNat 64 th.len)) ((th.getX rs1 + w64 off) &&& w64 (-2)))) ∧
    (∀ f3 rs1 rs2 off, i = .branch f3 rs1 rs2 off → branchTaken f3 (th.getX rs1) (th.getX rs2) = true →
      exec (.tinBaseInstruction m) s = .next (s.jump m t th (th.pc + w64 off))) ∧
    (∀ f3 rs1 rs2 off, i = .branch f3 rs1 rs2 off → branchTaken f3 (th.getX rs1) (th.getX rs2) = false →
      exec (.tinBaseInstruction m) s = .next (s.retire m t th)) ∧
    (∀ op word rd rs1 src, i = .alu op word rd rs1 src → exec (.tinBaseInstruction m) s =
      .next (s.retire m t (th.setX rd (op.result word (th.getX rs1) (th.src src))))) ∧
    (∀ dbl np nc rd rs1 rs2 rs3 rm v, i = .fma dbl np nc rd rs1 rs2 rs3 rm → th.fmadd dbl np nc rd rs1 rs2 rs3 rm = some v →
      exec (.tinBaseInstruction m) s = .next (s.retire m t v)) ∧
    (∀ f5 dbl rd rs1 rs2 rm v, i = .fop f5 dbl rd rs1 rs2 rm → th.fop f5 dbl rd rs1 rs2 rm = some v →
      exec (.tinBaseInstruction m) s = .next (s.retire m t v)) ∧
    (∀ w, i = .vset w → exec (.tinBaseInstruction m) s = .next (s.retire m t (th.vset w))) ∧
    (∀ w v, i = .vop w → th.vOp w = some v → exec (.tinBaseInstruction m) s = .next (s.retire m t v)) ∧
    (∀ (f3 rd rs1 : Nat) (off : Int) (n a : Nat) (bs : List Byte), i = .load f3 rd rs1 off false → n = 2 ^ (f3 % 4) →
      a = (th.getX rs1 + w64 off).toNat → spaceOf a = 2 → s.tinCheck m th.id false (f3 == 3) n a n = none →
      s.shareRead (m / 8) th.ctx (offOf a) n = some bs → exec (.tinBaseInstruction m) s = .next
        (s.tinDeliver m t (.xreg rd n (decide (f3 < 4))) [(a, n)] bs |>.retire m t (th.deliver (.xreg rd n (decide (f3 < 4))) bs))) ∧
    (∀ (f3 rd rs1 : Nat) (off : Int) (fl : Bool) (n a c : Nat), i = .load f3 rd rs1 off fl → n = 2 ^ (f3 % 4) →
      a = (th.getX rs1 + w64 off).toNat → s.tinCheck m th.id false (!fl && f3 == 3) n a n = some c →
      exec (.tinBaseInstruction m) s = .next (s.insnFault m t c a)) ∧
    (∀ (f3 rs1 rs2 : Nat) (off : Int) (fl : Bool) (n a : Nat) (bs : List Byte), i = .store f3 rs1 rs2 off fl → n = 2 ^ f3 →
      a = (th.getX rs1 + w64 off).toNat → s.tinCheck m th.id true (!fl && f3 == 3) n a n = none →
      bs = toLE n (if fl then th.getF rs2 else th.getX rs2).toNat →
      (spaceOf a = 2 → exec (.tinBaseInstruction m) s = .next
        ((s.tinWrite m t a bs).retire m t ((s.tinWrite m t a bs).thread m t))) ∧
      (spaceOf a ≠ 2 → exec (.tinBaseInstruction m) s = .next (s.park m t th .parkedExt (.accept [(a, bs)])))) ∧
    (∀ (w : Nat) (v : VAccess), i = .vload w → th.vMem w false = some v →
      (∀ p ∈ v.pieces, s.tinCheck m th.id false false (v.eew / 8) p.addr p.bytes = none) →
      exec (.tinBaseInstruction m) s = .next (s.vloadGo m t th w v)) ∧
    (∀ (w : Nat) (v : VAccess), i = .vstore w → th.vMem w true = some v →
      s.tinChecks m th.id true false (v.eew / 8) (v.pieces.map fun p => (p.addr, p.bytes)) = none →
      exec (.tinBaseInstruction m) s = .next ((s.setThread m t { th with vstart := 0 }).tinStore m t
        (v.pieces.map fun p => (p.addr, (List.range p.bytes).map fun k => th.v.get 0 (p.key + k)))))

/-- R131, R132, R142, R146, R148, R161, R162: system instructions. -/
def Obligations.TinSystemInstructions : Prop :=
  (∀ (s : State) (m t : Nat) (th : TinThread) (i : TinInsn), TinReady s m t th i →
    (∀ (f3 rd rs1 num old new : Nat) (th' : TinThread), i = .csr f3 rd rs1 num → num ≠ 0xC00 → num ≠ 0xC01 → num ≠ 0xC02 → th.csr num = some old →
      new = (if f3 % 4 = 1 then (if f3 < 4 then (th.getX rs1).toNat else rs1)
        else if f3 % 4 = 2 then old ||| (if f3 < 4 then (th.getX rs1).toNat else rs1)
        else old &&& (2 ^ 64 - 1 - (if f3 < 4 then (th.getX rs1).toNat else rs1))) →
      (if f3 % 4 = 1 ∨ rs1 ≠ 0 then th.setCsr num new else some th) = some th' →
      exec (.tinCsrAccess m) s = .next (s.retire m t (th'.setX rd (BitVec.ofNat 64 old)))) ∧
    (∀ f3 rd : Nat, i = .csr f3 rd 0 0xC01 → f3 % 4 ≠ 1 → s.sterling th.ctx = false →
      exec (.tinCsrAccess m) s = .next (s.retire m t (th.setX rd (BitVec.ofNat 64 s.now)))) ∧
    (i = .fence → th.performed = true → exec (.fence m) s = .next (s.retire m t th)) ∧
    (i = .fence → th.performed = false → ∃ u, exec (.fence m) s = .next u ∧
      u = (s.sendFences m t).park m t ((s.sendFences m t).thread m t).next .parkedFence .fence) ∧
    (i = .fenceI → exec (.fenceI m) s =
      .next ((s.setCore m { s.core m with icache := (s.core m).icache.filter (·.ctx != th.ctx) }).retire m t th)) ∧
    (i = .dinv → exec (.dinv m) s =
      .next ((s.setCore m { s.core m with dcache := (s.core m).dcache.filter (·.ctx != th.ctx) }).retire m t th)) ∧
    (i = .ecall → exec (.ecall m) s = .next (s.tinFault m t 7 0 th.pc.toNat)) ∧
    (i = .ebreak → exec (.ebreak m) s = .next (s.tinFault m t 7 0 th.pc.toNat)) ∧
    (i = .illegal → exec (.tinIllegalInstruction m) s = .next (s.tinFault m t 1 0 th.pc.toNat)) ∧
    (i = .tyield → exec (.tyield m) s = .next (s.retire m t { th with yielded := true })) ∧
    (i = .texit → ∃ u, exec (.texit m) s = .next u ∧ (u.thread m t).ending = some (0, 0) ∧ (u.thread m t).wait = .ending ∧
      (u.thread m t).outs = th.outs ∧ (u.thread m t).x = th.x ∧ (u.core m).cur = none)) ∧
  (∀ (s : State) (m t cause addr pc : Nat), t < 16 → (s.thread m t).ctx < 4096 → cause < 8 → addr < 2 ^ 64 → pc < 2 ^ 64 →
    (s.tinFault m t cause addr pc).reg (Reg.TIN_FAULT (m / 8) (m % 8)) = 1 + 2 * cause + 16 * t + 256 * (s.thread m t).ctx ∧
    (s.tinFault m t cause addr pc).reg64 (Reg.TIN_FAULT_PC (m / 8) (m % 8)) = pc ∧
    (s.tinFault m t cause addr pc).reg64 (Reg.TIN_FAULT_ADDR (m / 8) (m % 8)) = addr ∧
    ((s.tinFault m t cause addr pc).thread m t).wait = .ending) ∧
  (∀ (s : State) (m : Nat) (on : Bool), s.clusterPresent (m / 8) = true →
    exec (.tinHalt m on) s = .next ((s.setField (Reg.TIN_CTRL (m / 8) (m % 8)) 2 2 (b2n on)).tinResume m))

/-- R136, R138, R148: a thread's start, issue and end. -/
def Obligations.TinThreadsStartIssueAndReport : Prop :=
  (∀ (s : State) (m t pc : Nat) (args : List W64), (s.thread m t).entry = some (pc, args) → s.clusterOn (m / 8) = true →
    ∃ u, exec (.tinEntryStart m t) s = .next u ∧ (u.thread m t).st = .ready ∧ (u.thread m t).entry = none ∧
      (u.thread m t).task = (s.thread m t).task ∧ (u.thread m t).pc = BitVec.ofNat 64 pc ∧
      (∀ k, (u.thread m t).getX k = if 10 ≤ k ∧ k < 14 then nth 0 args (k - 10) else 0) ∧ (u.thread m t).f = [] ∧ (u.thread m t).v = [] ∧
      (∀ e ∈ (u.core m).icache ++ (u.core m).dcache, e.ctx ≠ (s.thread m t).ctx) ∧
      (∀ k, k ≠ t → u.thread m k = s.thread m k) ∧ u = { s with tin := u.tin, nonce := s.nonce + 1 }) ∧
  (∀ (s v : State) (m k t : Nat) (bs : List Byte) (h : Nat), s.clusterOn (m / 8) = true → s.tinHalted m = false → s.holding (m / 8) = false →
    (s.core m).cur = none → s.tinPick m = some (k, t) → k < 3 → t < 16 →
    v = (s.unyield m).setField (Reg.TIN_ISSUE_RR (m / 8) (m % 8)) (4 * k + 3) (4 * k) ((t + 1) % 16) → (v.thread m t).late = none →
    v.fetchOk m (v.thread m t).id (v.thread m t).pc.toNat = true →
    lineOf (v.core m).icache (v.thread m t).ctx ((v.thread m t).pc.toNat / 64) = some bs →
    h = fromLE ((bs.drop ((v.thread m t).pc.toNat % 64)).take 2) → tinLen h = 2 →
    ∃ u, exec (.tinIssue m) s = .next u ∧ (u.core m).cur = some t ∧ (u.core m).word = h ∧ (u.thread m t).len = 2 ∧
      u.reg64 (Reg.TIN_INSNS (m / 8) (m % 8)) = (s.reg64 (Reg.TIN_INSNS (m / 8) (m % 8)) + 1) % 2 ^ 64 ∧
      u.field (Reg.TIN_ISSUE_RR (m / 8) (m % 8)) (4 * k + 3) (4 * k) = (t + 1) % 16) ∧
  (∀ (s : State) (m t : Nat) (e : Nat × Nat), (s.thread m t).ending = some e → (s.thread m t).outs = [] →
    exec (.tinTaskReport m t) s = .next ((s.setCore m { s.core m with threads := (s.core m).threads.del t }).finish (s.thread m t).id
      (if e.1 = 0 then (s.thread m t).pushStat.getD (0, 0) else e).1 (if e.1 = 0 then (s.thread m t).pushStat.getD (0, 0) else e).2 (m / 8)))

/-- R147, R149, R231, R235: latches, pushes, digests and random words. -/
def Obligations.TinLatchesAndPushes : Prop :=
  ∀ (s : State) (m t : Nat) (th : TinThread) (i : TinInsn), TinReady s m t th i →
    (∀ rs1 rs2 l n, i = .lsig rs1 rs2 → l = (th.getX rs1).toNat % 256 → n = (th.getX rs2).toNat → s.latchFault m th l n = none →
      th.pending = false → exec (.lsig m) s = .next ((s.signal (m / 8) l n).retire m t th)) ∧
    (∀ rs1 rs2 l n, i = .lwait rs1 rs2 → l = (th.getX rs1).toNat % 256 → n = (th.getX rs2).toNat → s.latchFault m th l n = none → n ≠ 0 →
      exec (.lwait m) s = .next ((s.park m t th.next .parkedLatch .latch).waitOn (m / 8) l (tinWaiter m t) n)) ∧
    (∀ rs1 rs2 l, i = .lwait rs1 rs2 → l = (th.getX rs1).toNat % 256 → (th.getX rs2).toNat = 0 → s.latchFault m th l 0 = none →
      exec (.lwait m) s = .next ((s.retire m t th).bump (Reg.LAT_WAITS (m / 8)) 1)) ∧
    (∀ rd rs1 rs2 l n, i = .ltry rd rs1 rs2 → l = (th.getX rs1).toNat % 256 → n = (th.getX rs2).toNat → s.latchFault m th l n = none →
      s.sterling th.ctx = false → exec (.ltry m) s = .next (if n ≤ s.reg (Reg.LAT_COUNT (m / 8) l) then
        (s.setReg (Reg.LAT_COUNT (m / 8) l) (s.reg (Reg.LAT_COUNT (m / 8) l) - n)).retire m t (th.setX rd 1)
      else s.retire m t (th.setX rd 0))) ∧
    (∀ rd rs1 l, i = .lrd rd rs1 → l = (th.getX rs1).toNat % 256 → s.latchFault m th l 0 = none → s.sterling th.ctx = false →
      exec (.lrd m) s = .next (s.retire m t (th.setX rd (BitVec.ofNat 64 (s.reg (Reg.LAT_COUNT (m / 8) l)))))) ∧
    (∀ (rs1 rs2 n : Nat) (bs : List Byte), i = .trpush rs1 rs2 → n = (th.getX rs2).toNat → 1 ≤ n → n ≤ 64 →
      s.shareRead (m / 8) th.ctx (th.getX rs1).toNat (64 * n) = some bs → th.pending = false → s.pushFits m th (.trpush (records bs n)) = true →
      exec (.trpush m) s = .next ((s.pushEnter m th (.trpush (records bs n))).retire m t th)) ∧
    (∀ (rs1 rs2 v : Nat) (bs : List Byte), i = .dmaq rs1 rs2 → v = (th.getX rs2).toNat →
      (v / 2 ^ 32 ≠ 0 → s.latchOwned (m / 8) (v % 256) th.ctx = true) → s.shareRead (m / 8) th.ctx (th.getX rs1).toNat 32 = some bs →
      th.pending = false → s.pushFits m th (.dmaq bs (v % 256) (v / 2 ^ 32)) = true →
      exec (.dmaq m) s = .next ((s.pushEnter m th (.dmaq bs (v % 256) (v / 2 ^ 32))).retire m t th)) ∧
    (∀ (rs1 rs2 rs3 : Nat) (p : TinPush), i = .pwissue rs1 rs2 rs3 →
      p = .pwissue (th.getX rs1).toNat (BitVec.ofNat 32 (th.getX rs2).toNat) (BitVec.ofNat 32 ((th.getX rs2).toNat / 2 ^ 32))
        (BitVec.ofNat 32 (th.getX rs3).toNat) (BitVec.ofNat 32 ((th.getX rs3).toNat / 2 ^ 32)) →
      th.pending = false → s.pushFits m th p = true → exec (.pwissue m) s = .next ((s.pushEnter m th p).retire m t th)) ∧
    (∀ rs1 rs2 a n, i = .dgadd rs1 rs2 → a = (th.getX rs1).toNat → n = (th.getX rs2).toNat → n ≠ 0 → a < 2 ^ 57 →
      spaceOf a ∉ [1, 3, 256] → s.tinCheck m th.id false false 1 a n = none →
      exec (.dgadd m) s = .next ((s.mark th.id (if spaceOf a = 2 then shareMark (offOf a) else a) n).retire m t th)) ∧
    (∀ rd rs1 rs2, i = .rngw rd rs1 rs2 → (th.getX rs2).toNat < 2 ^ 50 → exec (.rngw m) s = .next
      (s.retire m t (th.setX rd (BitVec.ofNat 64 (s.taskWord th.id ((th.getX rs1).toNat % 2 ^ 16) (th.getX rs2).toNat))))) ∧
    (∀ rd rs1 rs2 n, i = .rngd rd rs1 rs2 → n = (th.getX rs2).toNat → n < 2 ^ 49 → exec (.rngd m) s = .next
      (s.retire m t (th.setX rd (BitVec.ofNat 64 (s.taskWord th.id ((th.getX rs1).toNat % 2 ^ 16) (2 * n) +
        2 ^ 32 * s.taskWord th.id ((th.getX rs1).toNat % 2 ^ 16) (2 * n + 1)))))) ∧
    (∀ rd, i = .trng rd → s.sterling th.ctx = false →
      ∃ v : W64, exec (.trng m) s = .next ((s.retire m t (th.setX rd v)).tickNonce))

/-- R134, R149: atomics and copies. -/
def Obligations.TinAtomicsAndCopies : Prop :=
  (∀ (s : State) (m t : Nat) (th : TinThread) (i : TinInsn), TinReady s m t th i →
    (∀ (o : AmoOp) (dbl aq rl : Bool) (rd rs1 rs2 a n old : Nat) (bs : List Byte), i = .amo o dbl aq rl rd rs1 rs2 →
      o ≠ .lr → o ≠ .sc → rd ≠ 0 → a = (th.getX rs1).toNat → n = (if dbl then 8 else 4) → spaceOf a = 2 → s.amoCheck m th.id o a n = none →
      s.shareRead (m / 8) th.ctx (offOf a) n = some bs → old = fromLE bs →
      ∃ u, exec (.tinAmo m) s = .next u ∧ (u.thread m t).getX rd = sx64 (8 * n) old ∧ (u.thread m t).pc = th.next.pc ∧
        (s.shareWrite (m / 8) th.ctx (offOf a) (toLE n (o.run (8 * n) old ((th.getX rs2).toNat % 2 ^ (8 * n))))).map (·.spad) = some u.spad) ∧
    (∀ (dbl : Bool) (rd rs1 a n : Nat) (bs : List Byte), i = .lr dbl rd rs1 → rd ≠ 0 → a = (th.getX rs1).toNat → n = (if dbl then 8 else 4) →
      spaceOf a = 2 → s.amoCheck m th.id .lr a n = none → s.shareRead (m / 8) th.ctx (offOf a) n = some bs →
      ∃ u, exec (.tinLr m) s = .next u ∧ (u.thread m t).getX rd = sx64 (8 * n) (fromLE bs) ∧
        (u.thread m t).resv = some (s.resvKey m th.ctx a) ∧ u.spad = s.spad) ∧
    (∀ (dbl : Bool) (rd rs1 rs2 a n : Nat), i = .sc dbl rd rs1 rs2 → rd ≠ 0 → a = (th.getX rs1).toNat → n = (if dbl then 8 else 4) →
      spaceOf a = 2 → s.amoCheck m th.id .sc a n = none →
      ∃ u, exec (.tinSc m) s = .next u ∧ (u.thread m t).resv = none ∧
        (th.resv ≠ some (s.resvKey m th.ctx a) → (u.thread m t).getX rd = 1 ∧ u.spad = s.spad) ∧
        (th.resv = some (s.resvKey m th.ctx a) → (u.thread m t).getX rd = 0 ∧
          ((s.shareWrite (m / 8) th.ctx (offOf a) (toLE n ((th.getX rs2).toNat % 2 ^ (8 * n)))).getD s).spad = u.spad)) ∧
    (∀ (c : Instr) (o : AmoOp) (rd rs1 rs3 a n old : Nat) (sx : Bool),
      ((∃ rs2, i = .scas rd rs1 rs2 rs3 ∧ o = .cas (th.getX rs2) ∧ c = .scas m ∧ n = 8) ∨
        (i = .faadd true rd rs1 rs3 ∧ s.sterling th.ctx = false ∧ o = .fadd ∧ c = .faaddD m ∧ n = 8) ∨
        (i = .faadd false rd rs1 rs3 ∧ s.sterling th.ctx = false ∧ o = .fadd ∧ c = .faaddS m ∧ n = 4)) → sx = false →
      a = (th.getX rs1).toNat → spaceOf a = 0 → s.amoCheck m th.id o a n = none → s.poisonIn (offOf a) n = none →
      s.secureCtx th.ctx = true → old = fromLE (s.tierRead (offOf a) n) →
      ∃ u, exec c s = .next u ∧ (u.thread m t).wait = .result rd (BitVec.ofNat 64 old) false ∧ (u.thread m t).st = .parkedExt ∧
        u.tier = (s.tierWrite (offOf a) (toLE n (o.run (8 * n) old ((th.getX rs3).toNat % 2 ^ (8 * n))))).tier ∧ u.spad = s.spad) ∧
    (∀ l rs1 rs2 o a, i = .xld l rs1 rs2 → o = (th.getX rs1).toNat → a = (th.getX rs2).toNat → s.copyFault m th false o a (8 * (l + 1)) = none →
      spaceOf a = 0 → ∃ u, exec (.xld m) s = .next u ∧ (u.thread m t).wait = .load [(a, 8 * (l + 1))] (.share o) ∧
        (u.thread m t).st = .parkedExt ∧ (u.thread m t).pc = th.pc ∧ (u.core m).cur = none ∧ u.spad = s.spad ∧ u.tier = s.tier) ∧
    (∀ (l rs1 rs2 a : Nat) (bs : List Byte), i = .xst l rs1 rs2 → a = (th.getX rs1).toNat →
      s.copyFault m th true (th.getX rs2).toNat a (8 * (l + 1)) = none →
      s.shareRead (m / 8) th.ctx (th.getX rs2).toNat (8 * (l + 1)) = some bs →
      exec (.xst m) s = .next (s.park m t th .parkedExt (.accept [(a, bs)]))))

/-- R140, R141, R146, R147: what ends a park. -/
def Obligations.TinParkedThreadsGoOn : Prop :=
  (∀ (s : State) (m t x e rd : Nat) (v : W64), (s.thread m t).owns x e = true → (s.thread m t).wait = .result rd v false → (s.thread m t).turn = true →
    s.tinHalted m = false → rd ≠ 0 →
    ∃ u, exec (.extResponseArrive m t x e none) s = .next u ∧ (u.thread m t).getX rd = v ∧ (u.thread m t).st = .ready ∧ (u.thread m t).wait = .none ∧
      (u.thread m t).outs = (s.thread m t).outs.filter (·.store) ∧ (u.thread m t).pc = (s.thread m t).next.pc ∧
      u = { s with tin := u.tin, regs := u.regs }) ∧
  (∀ (s : State) (m t x e : Nat), (s.thread m t).owns x e = false → (s.core m).stray ≠ 0 →
    exec (.extResponseArrive m t x e none) s = .next ((s.setCore m { s.core m with stray := (s.core m).stray - 1 }).bump
      (Reg.TIN_LATE_DROP (m / 8) (m % 8)) 1)) ∧
  (∀ (s : State) (m t x e path : Nat) (o : TinOut), (s.thread m t).owns x e = true → path < 4 →
    (s.thread m t).outs.find? (fun o => o.store && o.path == path) = some o →
    exec (.storeAck m t x e path) s =
      .next ((s.setThread m t { s.thread m t with outs := (s.thread m t).outs.erase o }).tinPoll m t)) ∧
  (∀ (s : State) (m t a : Nat) (bs : List Byte), (s.thread m t).wait = .accept [(a, bs)] → spaceOf a = 0 → (s.thread m t).posted < 16 →
    (s.thread m t).task.isSome = true → s.secureCtx (s.thread m t).ctx = true → bs ≠ [] →
    ∃ u, exec (.outboundBufferAccept m t) s = .next u ∧ u.tier = (s.tierWrite (offOf a) bs).tier ∧ u.spad = s.spad ∧
      (u.thread m t).wait = .none ∧ (u.thread m t).posted = (s.thread m t).posted + 1) ∧
  (∀ (s : State) (m t : Nat) (p : TinPush), (s.thread m t).wait = .room p → s.clusterOn (m / 8) = true → s.pushFits m (s.thread m t) p = true →
    exec (.queueRoom m t) s = .next ((s.pushEnter m (s.thread m t) p).unpark m t (s.thread m t).next))

/-- R154 to R158: one evaluation of a latch. -/
def Obligations.LatchEvaluation : Prop :=
  (∀ (s : State) (c l : Nat) (sigs : List (Nat × Nat)), s.clusterOn c = true → l < 256 → s.latch c l = { arrived := sigs, waits := [] } →
    s.reg (Reg.LAT_COUNT c l) + (sigs.map (·.2)).sum < 2 ^ 32 →
    ∃ t, exec (.latchEvaluation c l) s = .next t ∧ t.reg (Reg.LAT_COUNT c l) = s.reg (Reg.LAT_COUNT c l) + (sigs.map (·.2)).sum ∧
      t.latch c l = {} ∧ t.reg64 (Reg.LAT_SIGNALS c) = (s.reg64 (Reg.LAT_SIGNALS c) + sigs.length) % 2 ^ 64 ∧
      t = { s with regs := t.regs, lat := t.lat }) ∧
  (∀ (s : State) (c l n : Nat), s.clusterOn c = true → l < 256 → s.latch c l = { arrived := [(0, n)], waits := [] } →
    2 ^ 32 ≤ s.reg (Reg.LAT_COUNT c l) + n → n < 2 ^ 32 →
    ∃ t, exec (.latchEvaluation c l) s = .next t ∧ t.reg (Reg.LAT_COUNT c l) = 2 ^ 32 - 1 ∧
      t.flag (Reg.LAT_OVERFLOW c (l / 32)) (l % 32) = true) ∧
  (∀ (s : State) (c l idx w n : Nat), s.clusterOn c = true → l < 256 → s.latch c l = { arrived := [], waits := [(idx, (w, n))] } → idx < 10 →
    n ≤ s.reg (Reg.LAT_COUNT c l) →
    ∃ t, exec (.latchEvaluation c l) s = .next t ∧ t.latch c l = {} ∧ t.reg (Reg.LAT_COUNT c l) = s.reg (Reg.LAT_COUNT c l) - n ∧
      t.reg64 (Reg.LAT_WAITS c) = (s.reg64 (Reg.LAT_WAITS c) + 1) % 2 ^ 64 ∧ t = { s with regs := t.regs, lat := t.lat }) ∧
  (∀ (s : State) (c l idx w n : Nat), s.clusterOn c = true → l < 256 → s.latch c l = { arrived := [], waits := [(idx, (w, n))] } →
    s.reg (Reg.LAT_COUNT c l) < n →
    ∃ t, exec (.latchEvaluation c l) s = .next t ∧ t.latch c l = s.latch c l ∧ t.regs = s.regs)

/-! ### Mailbox commands and Cabinet (R163 to R195, R416) -/

/-- The box of issuer `i` holds the taken command `code`, and something serves it (R416). -/
def Taken (s : State) (i : Issuer) (code : Nat) : Prop := (s.box i).busy = true ∧ (s.box i).command = code ∧ s.served i = true

/-- R163 to R165, R187, R220: what Cabinet creates. -/
def Obligations.CabinetCreatesContextsAndBarriers : Prop :=
  (∀ (s : State) (i : Issuer) (owner slots floor weight evq q x b w : Nat), i ≠ .firmware → Taken s i 0x0201 →
    (s.issuerFn i = 0 ∨ (owner = s.issuerFn i ∧ 2 ≤ floor)) → 64 ≤ slots → slots % 64 = 0 → floor ≤ 7 → 1 ≤ weight → weight ≤ 255 → owner < 1024 →
    s.poolQueue owner evq = some q → (s.queue q).en = true → (s.queue q).typ = 2 → (s.queue q).fn = owner →
    lowestFree 4096 (fun x => (s.ctx x).valid) = some x → s.freeRun slots = some b → s.ctxCount owner < s.ctxQuota owner →
    lowestFree 256 (fun w => s.liveCtxs.any fun c => c.2.fn == owner && c.2.window == w) = some w →
    ∃ t : State, exec (.cabCtxCreate i owner slots floor weight evq) s = .next (t.answer i 0 0 [x, b, w]) ∧
      t.ctx x = { valid := true, fn := owner, slotBase := b, slotCount := slots, floor := floor, weight := weight, evq := q, window := w, secure := floor == 0 && i == .mbox 0 0 } ∧
      (∀ y, y ≠ x → t.ctx y = s.ctx y) ∧ t.reg64 (Reg.CAB_CTX_REFUSED x) = 0 ∧
      t.slots = s.slots.filter (fun e => decide (e.1 < b) || decide (b + slots ≤ e.1)) ∧
      t = { s with ctxs := t.ctxs, slots := t.slots, regs := t.regs }) ∧
  (∀ (n : Nat) (used : Nat → Bool) (x : Nat), lowestFree n used = some x ↔ x < n ∧ used x = false ∧ ∀ y, y < x → used y = true) ∧
  (∀ (s : State) (n b : Nat), s.freeRun n = some b →
    (∀ e ∈ s.liveCtxs, b + n ≤ e.2.slotBase ∨ e.2.slotBase + e.2.slotCount ≤ b) ∧ b + n ≤ 131072 ∧
    ∀ k, (∀ e ∈ s.liveCtxs, k + n ≤ e.2.slotBase ∨ e.2.slotBase + e.2.slotCount ≤ k) → k + n ≤ 131072 → b ≤ k) ∧
  (∀ (s : State) (i : Issuer) (x weight : Nat), Taken s i 0x0202 → (s.ctx x).valid = true → (s.issuerFn i = 0 ∨ (s.ctx x).fn = s.issuerFn i) →
    1 ≤ weight → weight ≤ 255 →
    exec (.cabCtxSetWeight i x weight) s = .next ((s.setCtx x { s.ctx x with weight := weight }).answer i 0 0 [])) ∧
  (∀ (s : State) (i : Issuer) (x seed : Nat), Taken s i 0x0208 → (s.ctx x).valid = true → (s.issuerFn i = 0 ∨ (s.ctx x).fn = s.issuerFn i) →
    exec (.cabCtxSetSeed i x seed) s = .next ((s.setCtx x { s.ctx x with seed := seed % 2 ^ 64 }).answer i 0 0 [])) ∧
  (∀ (s : State) (i : Issuer) (p b : Nat), Taken s i 0x0204 → 1 ≤ p → p ≤ 65535 → lowestFree 4096 (fun b => (s.bar b).valid) = some b →
    exec (.cabBarAlloc i p) s = .next ((s.setBar b { valid := true, fn := s.issuerFn i, p := p }).answer i 0 0 [b]))

/-- R190, R191: teardown and the freeing of barriers. -/
def Obligations.CabinetTearsDownAndFrees : Prop :=
  (∀ (s : State) (i : Issuer) (x : Nat), Taken s i 0x0203 → (s.ctx x).valid = true → (s.issuerFn i = 0 ∨ (s.ctx x).fn = s.issuerFn i) →
    (s.ctx x).tearing = false →
    exec (.cabCtxTeardown i x) s = .next ((s.tearCtx x).answer i 0 0 []) ∧ ((s.tearCtx x).ctx x).tearing = true ∧
      ∀ m t, ((s.tearCtx x).thread m t).task.map (·.ctx) ≠ some x) ∧
  (∀ (s : State) (i : Issuer) (x : Nat), Taken s i 0x0203 → (s.ctx x).valid = true → (s.issuerFn i = 0 ∨ (s.ctx x).fn = s.issuerFn i) →
    (s.ctx x).tearing = true → exec (.cabCtxTeardown i x) s = .next (s.answer i 8 0 [])) ∧
  (∀ (s : State) (x : Nat), (s.ctx x).valid = true → (s.ctx x).tearing = true → s.stopped x = true →
    exec (.teardownEnginesStopped x) s = .next (s.tornDown x).vfSettle ∧ ((s.tornDown x).ctx x).valid = false ∧
      (∀ k, (s.ctx x).slotBase ≤ k → k < (s.ctx x).slotBase + (s.ctx x).slotCount → (s.tornDown x).slot k = {}) ∧
      (s.tornDown x).tier = s.tier ∧ (s.tornDown x).spad = s.spad) ∧
  (∀ (s : State) (i : Issuer) (b : Nat) (hs : List Nat), Taken s i 0x0205 → (s.bar b).valid = true → (s.issuerFn i = 0 ∨ (s.bar b).fn = s.issuerFn i) →
    hs = ((s.bar b).arrived ++ (s.bar b).early).filter s.atBarrier →
    exec (.cabBarFree i b) s = .next (((hs.foldl (fun s h => s.endTask (slotOf h) 4 0 0xFF) (s.setBar b {})).fnEvent (s.bar b).fn 0x0107 0xFFF b
      hs.length 0 0).answer i 0 0 []))

/-- R169 to R176, R182: acceptance and commit. -/
def Obligations.DescriptorsAreAcceptedAndCommitted : Prop :=
  (∀ (s v : State) (data : ExtData) (q : Nat) (bs : List Byte) (d : TaskDesc), s.flag Reg.CAB_CTRL 0 = true → s.nextSubmission = some q →
    s.ringEntry q (s.queue q).cons 128 data = some bs → d = decodeTask (wordsOf 32 bs) →
    v = ({ s with sched := { s.sched with fetchRr := q + 1 } } : State).consume q →
    (d.fgen = (s.func (s.queue q).fn).gen → v.refusal (s.queue q).fn d false = 0 →
      ∃ (t : State) (k : Task), exec (.descriptorAccept data) s = .next t ∧ (t.queue q).cons = ((s.queue q).cons + 1) % 2 ^ 32 ∧
        (t.slot (slotOf d.handle)).task = some k ∧ (t.slot (slotOf d.handle)).gen = genOf d.handle ∧ (t.slot (slotOf d.handle)).busy = true ∧
        k.desc = { d with cq := (v.cqOf (s.queue q).fn d.cq).getD d.cq } ∧ k.fn = (s.queue q).fn ∧ k.preds = d.preds.map s.resolvePred ∧
        k.committed = seqNewer 32 (s.queue q).commit (s.queue q).cons ∧ k.fin = none ∧
        (∀ j, j ≠ slotOf d.handle → t.slot j = s.slot j) ∧
        t = { s with host := t.host, slots := t.slots, sched := t.sched, marks := t.marks, done := t.done }) ∧
    (∀ cause, d.fgen = (s.func (s.queue q).fn).gen → v.refusal (s.queue q).fn d false = cause → cause ≠ 0 →
      exec (.descriptorAccept data) s = .next (v.refuseDesc (s.queue q).fn d cause)) ∧
    (d.fgen ≠ (s.func (s.queue q).fn).gen → exec (.descriptorAccept data) s = .next (v.bump Reg.CAB_STALE_FGEN_DROP 1))) ∧
  (∀ (s : State) (q value : Nat), (s.queue q).en = true → (s.queue q).typ = 0 → value < 2 ^ 32 → seqNewer 32 value (s.queue q).commit = true →
    seqNewer 32 value (s.queue q).prod = false →
    ∃ t, exec (.commit q value) s = .next t ∧ t.queue q = { s.queue q with commit := value } ∧
      (∀ (j : Nat) (k : Task), (s.slot j).task = some k → k.sq = q → k.fn = (s.queue q).fn → k.inst = none → seqNewer 32 value k.pos = true →
        ∃ k' : Task, (t.slot j).task = some k' ∧ k'.committed = true ∧ k'.desc = k.desc) ∧
      t = { s with host := t.host, slots := t.slots, sched := t.sched, done := t.done }) ∧
  (∀ (s : State) (q value : Nat), seqNewer 32 (value % 2 ^ 32) (s.queue q).commit = false → exec (.commit q value) s = .next s)

/-- R177 to R186, R215: dispatch, end and record of a task. -/
def Obligations.TasksDispatchEndAndPost : Prop :=
  (∀ (s v : State) (i p : Nat) (t : Task) (sch : Sched), s.flag Reg.CAB_CTRL 1 = true → s.nextDispatch = some (i, t, sch) →
    s.placeOf t.desc t.fn = some p →
    (∀ r, t.desc.op.region = some r → v = ({ s with sched := sch } : State).charge r t.desc.cls t.desc.energy) →
    (t.desc.op.region = none → v = { s with sched := sch }) →
    exec .dispatchDecision s = .next ((((v.setSlot i { v.slot i with task := some { t with st := .dispatched, place := p } }).bump
      Reg.CAB_DISPATCHED 1).bump (Reg.CAB_CTX_DISPATCHED t.desc.ctx) 1).deliver t p)) ∧
  (∀ (s : State) (i : Nat) (t : Task) (sch : Sched), s.nextDispatch = some (i, t, sch) →
    s.eligible t = true ∧ (i, t) ∈ s.eligibles ∧ ((∃ e ∈ s.eligibles, e.2.desc.cls = 0) → t.desc.cls = 0)) ∧
  (∀ (s : State) (d : Done) (rest : List Done) (t : Task), s.done = d :: rest → (s.slot (slotOf d.task.handle)).task = some t →
    t.desc.handle = d.task.handle → t.desc.ctx = d.task.ctx → t.fin = none →
    exec .taskComplete s = .next (({ s with done := rest } : State).endTask (slotOf d.task.handle) d.status d.cause d.place)) ∧
  (∀ (s : State) (d : Done) (rest : List Done), s.done = d :: rest →
    (∀ t, (s.slot (slotOf d.task.handle)).task = some t → t.desc.handle ≠ d.task.handle ∨ t.desc.ctx ≠ d.task.ctx ∨ t.fin ≠ none) →
    exec .taskComplete s = .next (({ s with done := rest } : State).bump Reg.CAB_LATE_DROP 1)) ∧
  (∀ (s : State) (i place : Nat) (t : Task), (s.slot i).task = some t → t.desc.digest = false → t.desc.cqEn = false → t.inst = none →
    ((s.endTask i 0 0 place).slot i).busy = false ∧ ((s.endTask i 0 0 place).slot i).last = 0 ∧ ((s.endTask i 0 0 place).slot i).task = none ∧
    ((s.endTask i 0 0 place).ctx t.desc.ctx).lastDone = t.desc.handle ∧
    (s.endTask i 0 0 place).reg64 Reg.CAB_COMPLETED = (s.reg64 Reg.CAB_COMPLETED + 1) % 2 ^ 64) ∧
  (∀ (s : State) (q i : Nat) (r : PostRec) (t : Task) (v : State), s.host.outbox.find? (fun r => r.queue == q) = some r → r.use = .task i →
    r.gen = (s.func r.fn).gen → (s.queue q).en = true → (s.queue q).fn = r.fn → (s.queue q).failed = false → (s.queue q).full = false →
    (s.slot i).task = some t → t.st = .recording → v = { s with host := { s.host with outbox := s.host.outbox.erase r } } →
    exec (.completionRecordPost q 0) s = .next (v.writeRec r) ∧ ((v.writeRec r).slot i).busy = false ∧
      ((v.writeRec r).queue q).prod = ((s.queue q).prod + 1) % 2 ^ 32)

/-- R188 to R190, R193, R194: barriers and ages. -/
def Obligations.BarriersReleaseAndTimesArePosted : Prop :=
  (∀ (s : State) (b : Nat), exec (.arrive b) s = .next ((s.readyArrives b).foldl (fun s i => s.arriveOne b i) (s.releaseBar b))) ∧
  (∀ (s : State) (b i ph : Nat) (t : Task), (s.slot i).task = some t → t.desc.op = .arrive b ph → (s.bar b).valid = true →
    (ph = (s.bar b).phase → (s.bar b).count + 1 < (s.bar b).p → ∃ u, s.arriveOne b i = u ∧ (u.bar b).count = (s.bar b).count + 1 ∧
      (u.bar b).arrived = (s.bar b).arrived ++ [t.desc.handle] ∧ (u.slot i).task = some { t with st := .atBarrier } ∧
      u = { s with bars := u.bars, slots := u.slots }) ∧
    (ph ≠ (s.bar b).phase → ph = ((s.bar b).phase + 1) % 2 ^ 16 → (s.bar b).early.length < (s.bar b).p → ∃ u, s.arriveOne b i = u ∧
      (u.bar b).early = (s.bar b).early ++ [t.desc.handle] ∧ (u.bar b).count = (s.bar b).count ∧ (u.slot i).task = some { t with st := .atBarrier } ∧
      u = { s with bars := u.bars, slots := u.slots }) ∧
    (ph ≠ (s.bar b).phase → ph ≠ ((s.bar b).phase + 1) % 2 ^ 16 → s.arriveOne b i = s.endTask i 1 1 0xFF)) ∧
  (∀ (s : State) (i : Nat) (v : Slot) (t : Task), s.slots = [(i, v)] → v.task = some t → t.desc.cls = 0 → t.st ≠ .recording → t.missed = false →
    reached s.now t.desc.deadline = true →
    exec .deadlineMiss s = .next (((s.setSlot i { v with task := some { t with missed := true } }).bump Reg.CAB_DEADLINE_MISS 1).fnEvent 0 0x0103
      t.desc.ctx t.desc.handle (t.desc.taskId % 2 ^ 32) 0 0)) ∧
  (∀ (s : State) (x : Nat), (s.ctx x).valid = true → s.alarmOn x = true → (s.ctx x).alarmed = false →
    exec (.extAlarm x) s = .next ((s.setCtx x { s.ctx x with alarmed := true }).ctxEvent x 0x0108 (s.extAge x).1 (s.extAge x).2 0 0)) ∧
  (∀ (s : State) (x : Nat), (s.ctx x).valid = true → s.alarmOn x = true → (s.ctx x).alarmed = true → exec (.extAlarm x) s = .next s)

/-! ### Transfers, residency, slack and energy (R167, R168, R200 to R219) -/

/-- R167, R168, R181: rows of a transfer. -/
def Obligations.DmaRowsMoveAndAcknowledge : Prop :=
  (∀ (s : State) (c a b n : Nat) (x : DmaXfer) (rest : List DmaXfer) (bs : List Byte) (ext ext' : Option ExtData), s.clusterOn c = true →
    s.holding c = false → (s.dmaEng c).rq = x :: rest → (s.dmaEng c).tq = [] → x.use = .task → x.started = true → x.fin = false → x.err = none →
    x.next < x.desc.rows → x.desc.srcShare = true → x.desc.dstShare = true → x.desc.digest = false → n = x.desc.rowBytes → n ≠ 0 →
    a = (x.desc.srcRow x.next).toNat → b = (x.desc.dstRow x.next).toNat → s.shareRead c x.task.ctx a n = some bs → b + n ≤ s.shareSize c x.task.ctx →
    ∃ t, exec (.dmaRow c ext ext') s = .next t ∧ t.dmaQ c 0 = { x with next := x.next + 1, unacked := x.unacked + 1, asked := false } :: rest ∧
      (s.shareWrite c x.task.ctx b bs).map (·.spad) = some t.spad ∧ t.tier = s.tier ∧ t.hostOut = s.hostOut) ∧
  (∀ (s : State) (c q k : Nat) (x : DmaXfer), (s.dmaQ c q)[k]? = some x → x.use = .task → x.task.thread = false → x.unacked = 1 → x.err = none →
    x.desc.rows ≤ x.next → dmaSpace x.desc.dstShare x.desc.dst ≠ 256 →
    ∃ t, exec (.dmaRowAck c q k) s = .next t ∧ t.done = s.done ++ [⟨x.task, 0, 0, c⟩] ∧ t.dmaQ c q = (s.dmaQ c q).eraseIdx k ∧
      t = { s with dma := t.dma, done := t.done }) ∧
  (∀ (s : State) (c q k : Nat) (x : DmaXfer), (s.dmaQ c q)[k]? = some x → 1 < x.unacked → dmaSpace x.desc.dstShare x.desc.dst ≠ 256 →
    exec (.dmaRowAck c q k) s = .next (s.setXfer c q k { x with unacked := x.unacked - 1 }))

/-- R200 to R207: residency. -/
def Obligations.ResidencyGrantsAndReleases : Prop :=
  (∀ (s : State) (i : Issuer) (x c grans lats restore : Nat) (wait : Bool) (q : ResReq), Taken s i 0x0206 → (s.ctx x).valid = true →
    (s.issuerFn i = 0 ∨ (s.ctx x).fn = s.issuerFn i) → s.clusterPresent c = true → 1 ≤ grans → grans ≤ 96 → lats ≤ 32 →
    (∀ e ∈ (s.cluster c).slots, e.2.holds = true → e.2.ctx = x → e.2.orphan = true ∨ e.2.st = .orphaned) → (∀ r ∈ (s.cluster c).pend, r.ctx ≠ x) →
    ((s.ctx x).stl.st = .off ∨ 2 ≤ s.field (Reg.BIM_REG_FLOOR (c / 2)) 1 0) →
    (restore = 0 ∨ s.copyRange (s.ctx x).fn restore (grans * shareGran) = true) →
    (s.issuerFn i = 0 ∨ ((s.fnGrans (s.ctx x).fn).1 + grans ≤ (s.func (s.ctx x).fn).shareGran ∧
      (s.fnGrans (s.ctx x).fn).2 + lats ≤ (s.func (s.ctx x).fn).latchGran)) →
    q = { ctx := x, fn := (s.ctx x).fn, grans := grans, lats := lats, restore := restore } →
    (s.fits c q = true → (s.cluster c).pend = [] → exec (.cabResGrant i x c grans lats restore wait) s = .next ((s.grant c q).answer i 0 0 [])) ∧
    ((s.fits c q = false ∨ (s.cluster c).pend ≠ []) → wait = true → (s.cluster c).pend.length < 8 →
      exec (.cabResGrant i x c grans lats restore wait) s =
        .next ((s.setCluster c { s.cluster c with pend := (s.cluster c).pend ++ [q] }).answer i 0 0 [])) ∧
    ((s.fits c q = false ∨ (s.cluster c).pend ≠ []) → wait = false →
      exec (.cabResGrant i x c grans lats restore wait) s = .next (s.answer i 7 0 []))) ∧
  (∀ (s : State) (c k : Nat) (q : ResReq), s.fits c q = true → q.restore = 0 → s.freeResSlot c = some k →
    (((s.grant c q).cluster c).slots.get {} k).st = .resident ∧ (((s.grant c q).cluster c).slots.get {} k).ctx = q.ctx ∧
    (((s.grant c q).cluster c).slots.get {} k).grans = (s.freeGrans c).take q.grans ∧
    (∀ g ∈ (s.freeGrans c).take q.grans, ∀ o, o < shareGran → Mem.byte (s.grant c q).spad (c * 2 ^ 25 + g * shareGran + o) = 0) ∧
    (s.grant c q).tier = s.tier) ∧
  (∀ (s : State) (i : Issuer) (c k : Nat) (r : ResSlot), Taken s i 0x0207 → s.clusterPresent c = true → k < 8 →
    (s.cluster c).slots.get {} k = r → r.st = .resident → (s.issuerFn i = 0 ∨ r.fn = s.issuerFn i) → s.resRun c r.ctx = 0 →
    ((s.ctx r.ctx).floor ≠ 0 ∨ s.warm c = false) →
    exec (.cabResRelease i c k 0) s = .next (((s.setCluster c { s.cluster c with
      slots := (s.cluster c).slots.put k { r with st := .releasing, orphan := false, saving := false }
      allBlk := false }).sterlingSync (c / 2)).answer i 0 0 [])) ∧
  (∀ (s : State) (c k : Nat) (r : ResSlot), (s.cluster c).slots.get {} k = r → r.st = .releasing → r.saving = false → (s.cluster c).pend = [] →
    exec (.shareScrubDone c k) s = .next (((r.lats.foldl (fun s g => s.setLatGran c g none) (s.scrubGrans c r.grans)).setCluster c
      { s.cluster c with slots := (s.cluster c).slots.del k }).resEvent r 0x010A c k 0 r.poisoned).vfSettle) ∧
  (∀ (s : State) (c k : Nat) (x : DmaXfer) (r : ResSlot), s.copyOf c k = some x → x.fin = true → (s.cluster c).slots.get {} k = r →
    r.st = .restoring → r.orphan = false → x.desc.srcShare = false →
    exec (.shareCopyDone c k) s = .next (((s.setDma c { s.dmaEng c with
      rq := (s.dmaEng c).rq.filter (· != x)
      tq := (s.dmaEng c).tq.filter (· != x) }).holdObj x.desc.src r.size (-1)).becomeResident c k { r with zeroed := x.bad })) ∧
  (∀ (s : State) (c : Nat), s.allBlocked c = true → (s.cluster c).allBlk = false → s.reg (Reg.CAB_RES_ALLBLK_US c) ≠ 0 →
    exec (.allBlocked c) s = .next (((s.setCluster c { s.cluster c with allBlk := true }).bump (Reg.CAB_RES_ALLBLK_CNT c) 1).pfEvent 0x0104 c 0 0 0))

/-- R211 to R215: slack and energy. -/
def Obligations.SlackAndEnergyAreComputed : Prop :=
  (∀ s : State, exec .slackUpdate s = .next (s.slack.foldl (fun s e => s.slackCheck e.1) s)) ∧
  (∀ (s : State) (g : Nat), s.flag (Reg.CAB_SLK_CTRL g) 0 = true → (s.slk g).active = true →
    Int.ofNat (s.reg (Reg.CAB_SLK_THRESH_NS g)) ≤ slackOf (s.slk g).deadline s.now (s.slk g).remain →
    s.slackCheck g = s.setSlk g { s.slk g with
      slackNs := slackOf (s.slk g).deadline s.now (s.slk g).remain
      low := false
      neg := false }) ∧
  (∀ d n r : Nat, n ≤ d → d < 2 ^ 63 → Int.ofNat (d - n) - Int.ofNat r < 2 ^ 31 → -(2 ^ 31) < Int.ofNat (d - n) - Int.ofNat r →
    slackOf d n r = Int.ofNat (d - n) - Int.ofNat r) ∧
  (∀ d n r : Nat, -(2 ^ 31 - 1) ≤ slackOf d n r ∧ slackOf d n r ≤ 2 ^ 31 - 1) ∧
  (∀ (s : State) (w : Nat), ∃ t, exec (.telemetrySample w) s = .next t ∧ t.reg Reg.BIM_I3C_POWER_W = (w + 45) % 2 ^ 11 ∧
    (s.pkgLimit < w + 45 → t.reg Reg.BIM_LAMBDA = max 128 (s.field Reg.BIM_LAMBDA 8 0 - 4)) ∧
    (100 * (w + 45) < 97 * s.pkgLimit → t.reg Reg.BIM_LAMBDA = min 256 (s.field Reg.BIM_LAMBDA 8 0 + 1)) ∧
    (∀ a, a ≠ Reg.BIM_LAMBDA → a ≠ Reg.BIM_I3C_POWER_W → t.reg a = s.reg a) ∧ t = { s with regs := t.regs }) ∧
  (∀ (s : State) (temps : List (Nat × Nat)), ∃ t, exec (.energyRefill temps) s = .next t ∧
    t = { s with regs := t.regs, rg := t.rg, rails := t.rails }) ∧
  (∀ (s : State) (r share : Nat), r < 12 → sext 32 (s.reg (Reg.BIM_REG_C0_BUCKET r)) = 0 →
    (s.refillRegion r share).reg (Reg.BIM_REG_C0_BUCKET r) = s.field (Reg.BIM_REG_C0_RESERVE r) 23 0 ∧
    (s.refillRegion r share).reg (Reg.BIM_REG_CREDIT r) =
      min (s.field (Reg.BIM_REG_CAP r) 23 0) (s.field (Reg.BIM_REG_CREDIT r) 23 0 + share)) ∧
  (∀ (s : State) (r cls e : Nat), cls ≠ 0 → s.flag Reg.BIM_CTRL 0 = true → s.creditOk r e = true →
    (s.charge r cls e).reg (Reg.BIM_REG_CREDIT r) = s.field (Reg.BIM_REG_CREDIT r) 23 0 - s.chargeOf r e ∧
    256 * s.chargeOf r e < e * s.kappa r + 256 ∧ e * s.kappa r ≤ 256 * s.chargeOf r e)

/-! ### Sterling mode and digests (R220 to R245) -/

/-- R221 to R227, R241 to R244: Sterling contexts and start barriers. -/
def Obligations.SterlingContextsArmAndFire : Prop :=
  (∀ (s : State) (i : Issuer) (x seed ring e : Nat), Taken s i 0x0209 → (s.ctx x).valid = true → (s.issuerFn i = 0 ∨ (s.ctx x).fn = s.issuerFn i) →
    2 ≤ (s.ctx x).floor → ringSizeOk e = true → ring % 64 = 0 → spaceOf ring = 0 → s.pinnedRange (s.ctx x).fn (offOf ring) (64 + 32 * e) = true →
    s.ctxIdle x = true → s.anyResidency x = false →
    exec (.cabCtxSterling i x seed ring e) s = .next (((s.setCtx x { s.ctx x with
      seed := seed % 2 ^ 64
      stl := { st := .held, ring := offOf ring, entries := e } }).tierWrite (offOf ring) (List.replicate 64 0)).answer i 0 0 [])) ∧
  (∀ e : Nat, ringSizeOk e = true ↔ ∃ k, k < 15 ∧ e = 2 ^ (6 + k)) ∧
  (∀ (s : State) (i : Issuer) (x t : Nat), Taken s i 0x020A → (s.ctx x).valid = true → (s.issuerFn i = 0 ∨ (s.ctx x).fn = s.issuerFn i) →
    (s.ctx x).stl.st = .held →
    exec (.cabStlArm i x 0 t) s = .next ((s.setCtx x { s.ctx x with stl :=
      { (s.ctx x).stl with st := .armed, form := .loc, late := false, pulsed := false } }).answer i 0 0 []) ∧
    exec (.cabStlArm i x 1 t) s = .next ((s.setCtx x { s.ctx x with stl :=
      { (s.ctx x).stl with st := .armed, form := .chain, late := false, pulsed := false } }).answer i 0 0 []) ∧
    exec (.cabStlArm i x 2 t) s = .next ((s.setCtx x { s.ctx x with stl :=
      { (s.ctx x).stl with st := .armed, form := .instant (t % 2 ^ 64), late := reached s.now t, pulsed := reached s.now t } }).answer i 0 0 [])) ∧
  (∀ (s : State) (x : Nat), s.mayFire x = true → ∃ t, exec (.startBarrierFire x) s = .next t ∧ (t.ctx x).stl.st = .running ∧
    (t.ctx x).stl.startT = s.now ∧ (∀ y, y ≠ x → t.ctx y = s.ctx y) ∧ t.sched.fetchRr = 0 ∧ t.sched.deficit = [] ∧ t.sched.ptr = [] ∧
    t.reg64 Reg.CAB_STL_STARTS = (s.reg64 Reg.CAB_STL_STARTS + 1) % 2 ^ 64 ∧
    (∀ r ∈ s.regionList, s.regSterling r = true → ∀ c ∈ [2 * r, 2 * r + 1], t.reg (Reg.TRS_PORT_RR c) = 0 ∧ (t.trestle c).pushRr = 0 ∧
      (∀ m, m < 8 → t.reg (Reg.TIN_ISSUE_RR c m) = 0 ∧ (t.core (8 * c + m)).icache = [] ∧ (t.core (8 * c + m)).dcache = [])) ∧
    t.spad = s.spad ∧ t.tier = s.tier) ∧
  (∀ (s : State) (x : Nat), s.mayFire x = true ↔ (s.ctx x).valid = true ∧ (s.ctx x).stl.st = .armed ∧ s.localReady x = true ∧
    ((s.ctx x).stl.form = .loc ∨ ((s.ctx x).stl.form = .chain ∧ (s.ctx x).stl.pulsed = true) ∨
      ∃ t, (s.ctx x).stl.form = .instant t ∧ ((s.ctx x).stl.pulsed = true ∨ reached s.now t = true))) ∧
  (∀ (s : State) (width ring : Nat), s.chainOn = true → s.chainMaster = false → 3 ≤ width → width ≤ 5 →
    exec (.syncInPulse width ring) s = .next { s.chainPulse with chain := { s.chain with starts := s.chain.starts + 1 } }) ∧
  (∀ (s : State) (width ring : Nat), s.chainOn = true → s.chainMaster = false → 7 ≤ width → width ≤ 9 →
    exec (.syncInPulse width ring) s = .next { s with chain := { s.chain with cals := s.chain.cals + 1 } }) ∧
  (∀ (s : State) (width ring : Nat), s.chainOn = true → s.chainMaster = true → 7 ≤ width → width ≤ 9 → s.chain.calOut = true → ring < 2 ^ 20 →
    exec (.syncInPulse width ring) s =
      .next (({ s with chain := { s.chain with calOut := false } } : State).setReg Reg.CAB_STL_CHAIN_RING (ring + 2 ^ 31))) ∧
  (∀ s : State, s.chainOn = true → s.chainMaster = true →
    exec .chainGo s = .next { s.chainPulse with chain := { s.chain with starts := s.chain.starts + 1 } } ∧
    exec .chainCal s = .next { s with chain := { s.chain with cals := s.chain.cals + 1, calOut := true } }) ∧
  (∀ (s : State) (x : Nat), (s.ctx x).valid = true → (s.ctx x).stl.st = .armed → (s.ctx x).stl.form = .chain → (s.ctx x).stl.pulsed = false →
    (s.chainPulse.ctx x).stl.pulsed = true ∧ (s.chainPulse.ctx x).stl.late = !s.localReady x)

/-- R234 to R239: digests. -/
def Obligations.DigestsAreReadAndAppended : Prop :=
  (∀ (s : State) (i : Nat) (t : Task) (bs : List Byte), (s.slot i).task = some t → t.st = .digesting → t.dig = none → t.fin = some (0, 0) →
    (s.marks.get {} i).overflow = false → s.markPoison (s.marks.get {} i).ranges = none →
    bs = (s.marks.get {} i).ranges.flatMap (fun r => s.markBytes t r.1 r.2) →
    ∃ u, exec (.digestReadback i) s = .next u ∧
      (u.slot i).task = some { t with fin := some (0, 0), dig := some ((crc64 bs).toNat, min (2 ^ 32 - 1) bs.length) } ∧
      (∀ j, j ≠ i → u.slot j = s.slot j) ∧ u = { s with slots := u.slots, marks := u.marks }) ∧
  (∀ (s : State) (i : Nat) (t : Task), (s.slot i).task = some t → t.st = .digesting → t.dig = none → t.fin = some (0, 0) →
    (s.marks.get {} i).overflow = true → ∃ u, exec (.digestReadback i) s = .next u ∧
      (u.slot i).task = some { t with fin := some (1, 4), dig := some (0, 0) } ∧ u = { s with slots := u.slots, marks := u.marks }) ∧
  (∀ (s v : State) (i x : Nat) (t : Task) (d : Nat × Nat) (g : Stl), (s.slot i).task = some t → t.st = .digesting → t.dig = some d → x = t.desc.ctx →
    g = (s.ctx x).stl → (g.prod + 2 ^ 32 - g.cons) % 2 ^ 32 ≠ g.entries → (g.stalled = [] ∨ g.stalled.head? = some i) →
    v = (s.tierWrite (g.ring + 64 + 32 * (g.prod % g.entries)) (words (digestWords t))).tierWrite g.ring (toLE 4 ((g.prod + 1) % 2 ^ 32)) →
    exec (.digestAppend i) s = .next ((v.setCtx x { s.ctx x with stl :=
      { g with prod := (g.prod + 1) % 2 ^ 32, stalled := g.stalled.erase i } }).recordTask i true)) ∧
  (∀ (s : State) (i x : Nat) (t : Task) (d : Nat × Nat) (g : Stl), (s.slot i).task = some t → t.st = .digesting → t.dig = some d → x = t.desc.ctx →
    g = (s.ctx x).stl → (g.prod + 2 ^ 32 - g.cons) % 2 ^ 32 = g.entries →
    (i ∉ g.stalled → exec (.digestAppend i) s = .next ((s.setCtx x { s.ctx x with stl := { g with stalled := g.stalled ++ [i] } }).bump
      Reg.CAB_STL_RING_STALL 1)) ∧
    (i ∈ g.stalled → exec (.digestAppend i) s = .next s)) ∧
  (∀ (s : State) (x v : Nat), (s.ctx x).valid = true → (s.ctx x).stl.st ≠ .off → (s.ctx x).stl.stalled ≠ [] →
    v = fromLE (s.tierRead ((s.ctx x).stl.ring + 32) 4) → seqNewer 32 v (s.ctx x).stl.prod = false →
    exec (.ringConsRecheck x) s = .next (s.setCtx x { s.ctx x with stl := { (s.ctx x).stl with cons := v } }))

/-! ### Memory tiers (R253 to R290) -/

/-- Function `fn` may name object `k` by generation `g` (R261, R495). -/
def ObjNamed (s : State) (fn k g : Nat) : Prop :=
  k < 2 ^ 20 ∧ (s.obj k).st ≠ .none ∧ (fn = 0 ∨ (s.obj k).fn = fn) ∧ g = (s.obj k).ogen ∧ g < 2 ^ 16

/-- R257, R258: creation of an object. -/
def Obligations.ObjectsAreCreated : Prop :=
  ∀ (s : State) (i : Issuer) (owner base size policy stack ahead k : Nat) (spread mirror class0 : Bool) (p : Policy) (o : Obj),
    Taken s i 0x0301 → (s.issuerFn i = 0 ∨ (owner = s.issuerFn i ∧ class0 = false)) → Policy.ofCode policy = some p →
    o = { st := if p == .pinned then .ready else .created, fn := owner, base := base, size := size, policy := p, spread := spread,
          stack := if spread then 0 else stack, mirror := mirror, partner := (s.partnerOf (if spread then 0 else stack) none).getD 0,
          class0 := class0, ahead := ahead, stackNos := s.stackNos } →
    base % 2 ^ 21 = 0 → 1 ≤ size → size ≤ 2 ^ 44 → base + o.shelves * 2 ^ 21 ≤ 2 ^ 48 → ahead ≤ 15 → owner < 1024 → (s.func owner).st ≠ .absent →
    (∀ e ∈ s.tiers.objs, e.2.st ≠ .none → e.2.base + e.2.shelves * 2 ^ 21 ≤ base ∨ base + o.shelves * 2 ^ 21 ≤ e.2.base) →
    (class0 = true ∨ mirror = true → p = .pinned ∧ spread = false) → (spread = true ∨ s.stackPresent stack = true) →
    execBurObjCreate.lowestFree20 s = some k →
    (owner = 0 ∨ (s.objCount owner < (s.func owner).objects ∧
      (p = .pinned → s.pinnedHeld owner + ((o.takes o.shelves).map (·.2)).sum ≤ (s.func owner).hbm))) →
    (p = .pinned → s.gransFit (o.takes o.shelves) = true ∧ (mirror = true → (s.partnerOf stack none).isSome = true)) →
    (p ≠ .pinned → s.flashHeld + o.pages ≤ s.flashCap) →
    ∃ t : State, exec (.burObjCreate i owner base size policy spread stack mirror class0 ahead) s =
        .next (t.answer i 0 0 [k, ((s.obj k).ogen + 1) % 2 ^ 16]) ∧
      t.obj k = { o with ogen := ((s.obj k).ogen + 1) % 2 ^ 16 } ∧ (∀ j, j ≠ k → t.obj j = s.obj j) ∧
      (∀ a, base ≤ a → a < base + o.shelves * 2 ^ 21 → Mem.byte t.tier a = 0) ∧
      (∀ a, a < base ∨ base + o.shelves * 2 ^ 21 ≤ a → Mem.byte t.tier a = Mem.byte s.tier a) ∧
      t = { s with tier := t.tier, tiers := t.tiers }

/-- R260 to R267, R282: commands on objects. -/
def Obligations.ObjectCommandsComplete : Prop :=
  (∀ (s : State) (i : Issuer) (k g : Nat), Taken s i 0x0302 → ObjNamed s (s.issuerFn i) k g →
    exec (.burObjQuery i k g) s = .next (s.answer i 0 0 (s.objWords k))) ∧
  (∀ (s : State) (i : Issuer) (k g : Nat), Taken s i 0x0302 → k < 2 ^ 20 → (s.obj k).st ≠ .none → (s.issuerFn i = 0 ∨ (s.obj k).fn = s.issuerFn i) →
    seqStale 16 g (s.obj k).ogen = true → seqNewer 16 g (s.obj k).ogen = false → exec (.burObjQuery i k g) s = .next (s.answer i 9 0 [])) ∧
  (∀ (s : State) (i : Issuer) (k g : Nat) (src : List (Nat × Nat)), Taken s i 0x0303 → ObjNamed s (s.issuerFn i) k g → (s.obj k).policy ≠ .pinned →
    srcListOk src (s.obj k).size = true → (s.obj k).st = .created → s.flashHeld ≤ s.flashCap →
    ∃ t : State, exec (.burObjInstall i k g src) s = .next (t.answer i 0 0 []) ∧ t.obj k = { s.obj k with st := .installing } ∧
      t.tiers.installs = s.tiers.installs ++ [⟨k, false, 0, (s.obj k).shelves, src, i == .mbox 0 0⟩] ∧ t = { s with tiers := t.tiers }) ∧
  (∀ (s : State) (i : Issuer) (k g first count : Nat) (src : List (Nat × Nat)), Taken s i 0x0304 → ObjNamed s (s.issuerFn i) k g →
    (s.obj k).policy ≠ .pinned → count ≠ 0 → first + count ≤ (s.obj k).shelves → srcListOk src (reinstallBytes (s.obj k) first count) = true →
    (s.obj k).st = .ready → s.installOf k true = none → (∀ j, j < count → (s.shelf ((s.obj k).base / 2 ^ 21 + first + j)).st = .poisoned) →
    exec (.burObjReinstall i k g first count src) s = .next (({ s with tiers := { s.tiers with
      installs := s.tiers.installs ++ [⟨k, true, first, count, src, i == .mbox 0 0⟩] } } : State).answer i 0 0 [])) ∧
  (∀ (s : State) (i : Issuer) (k g : Nat), Taken s i 0x0305 → ObjNamed s (s.issuerFn i) k g → s.objBusy k (s.obj k) = false →
    (s.obj k).st ≠ .destroying → exec (.burObjDestroy i k g) s = .next ((s.setObj k { s.obj k with st := .destroying }).answer i 0 0 [])) ∧
  (∀ (s : State) (k : Nat) (x : Install) (bs : List Byte), s.boot.phase = .running → s.installOf k false = some x → bs.length = (s.obj k).size → s.burOn = true →
    x.secure = true →
    ∃ t, exec (.installComplete k (.data bs)) s = .next t ∧ t.obj k = { s.obj k with st := .ready } ∧
      (∀ j, (h : j < bs.length) → Mem.byte t.tier ((s.obj k).base + j) = bs[j]) ∧
      (∀ a, a < (s.obj k).base ∨ (s.obj k).base + bs.length ≤ a → Mem.byte t.tier a = Mem.byte s.tier a) ∧
      t = { s with tier := t.tier, tiers := t.tiers, regs := t.regs, host := t.host }) ∧
  (∀ (s : State) (k : Nat) (x : Install), s.boot.phase = .running → s.installOf k false = some x →
    exec (.installComplete k .error) s =
      .next (((s.endInstall x).setObj k { s.obj k with st := .created }).fnEvent (s.obj k).fn 0x0114 0xFFF k (s.obj k).ogen 1 0)) ∧
  (∀ (s : State) (k : Nat) (x : Install) (bs : List Byte), s.boot.phase = .running → s.installOf k true = some x → bs.length = reinstallBytes (s.obj k) x.first x.count →
    s.burOn = true →
    exec (.reinstallStored k (.data bs)) s = .next ((((List.range x.count).foldl
      (fun s' j => s'.restoreShelf (s.obj k) ((s.obj k).base / 2 ^ 21 + x.first + j))
      (((s.endInstall x).storeData x.secure ((s.obj k).base + x.first * 2 ^ 21) bs bs.length).bump Reg.BUR_INSTALL_BYTES bs.length)).runFills).fnEvent
        (s.obj k).fn 0x0111 0xFFF k (s.obj k).ogen x.first x.count)) ∧
  (∀ (s : State) (k : Nat), (s.obj k).st = .destroying → s.objBusy k (s.obj k) = false →
    exec (.destroyDone k) s = .next ((s.freeObj k).retryCopies.runFills.vfSettle) ∧ (s.freeObj k).obj k = { ogen := (s.obj k).ogen } ∧
      (∀ a, (s.obj k).base ≤ a → a < (s.obj k).base + (s.obj k).shelves * 2 ^ 21 → Mem.byte (s.freeObj k).tier a = 0) ∧
      ∀ j, j ≠ k → (s.freeObj k).obj j = s.obj j)

/-- R265, R269, R274: the Dumbwaiter's commands. -/
def Obligations.DumbwaiterCommandsComplete : Prop :=
  (∀ (s : State) (i : Issuer) (rs : List (Nat × Nat × Nat × Nat)) (shs : List (Obj × Nat)), Taken s i 0x0310 →
    s.namedShelves (s.issuerFn i) rs = .ok shs →
    exec (.dmwPromote i rs false) s = .next ((shs.foldl (fun s e => s.promoteShelf e.1.fn e.2) s).runFills.answer i 0 0 []) ∧
    exec (.dmwPromote i rs true) s = .next ((shs.foldl (fun s e =>
      (s.promoteShelf e.1.fn e.2).setShelf e.2 { (s.promoteShelf e.1.fn e.2).shelf e.2 with
        holds := ((s.promoteShelf e.1.fn e.2).shelf e.2).holds + 1 }) s).runFills.answer i 0 0 [])) ∧
  (∀ (s : State) (i : Issuer) (rs : List (Nat × Nat × Nat × Nat)) (shs : List (Obj × Nat)), Taken s i 0x0311 →
    s.namedShelves (s.issuerFn i) rs = .ok shs →
    exec (.dmwEvict i rs) s = .next ((shs.foldl (fun s e => s.evictShelf e.2) s).runFills.answer i 0 0 [])) ∧
  (∀ (s : State) (i : Issuer) (rs : List (Nat × Nat × Nat × Nat)) (o : Obj) (sh : Nat), Taken s i 0x0312 →
    s.namedShelves (s.issuerFn i) rs = .ok [(o, sh)] → (s.shelf sh).holds ≠ 0 →
    exec (.dmwUnhold i rs) s = .next ((s.setShelf sh { s.shelf sh with holds := (s.shelf sh).holds - 1 }).answer i 0 0 [])) ∧
  (∀ (s : State) (i : Issuer) (fn allow : Nat), Taken s i 0x0313 → fn < 1024 → (s.func fn).st ≠ .absent →
    exec (.dmwAllowance i fn allow) s = .next ((s.setFunc fn { s.func fn with cacheAllow := some allow }).runFills.answer i 0 0 [])) ∧
  (∀ (s : State) (fn sh : Nat), ((s.shelf sh).st = .absent → s.promoteShelf fn sh = s.queueFill sh fn 0 false) ∧
    ((s.shelf sh).st = .evicting → s.promoteShelf fn sh =
      (s.setShelf sh { s.shelf sh with st := .present, lastUse := s.msTick }).bump Reg.DMW_CANCELS 1) ∧
    ((s.shelf sh).st = .present → s.promoteShelf fn sh = s.setShelf sh { s.shelf sh with lastUse := s.msTick }) ∧
    ((s.shelf sh).st = .filling → s.promoteShelf fn sh = s)) ∧
  (∀ (s : State) (fn sh first : Nat) (d : Bool), ((s.queueFill sh fn first d).shelf sh).st = .filling ∧
    (s.queueFill sh fn first d).tiers.fills = s.tiers.fills ++ [⟨sh, d, fn⟩] ∧ (∀ k, k ≠ sh → (s.queueFill sh fn first d).shelf k = s.shelf k) ∧
    s.queueFill sh fn first d = { s with tiers := (s.queueFill sh fn first d).tiers }) ∧
  (∀ (s : State) (sh : Nat), (s.shelf sh).st = .present →
    ((s.shelf sh).holds ≠ 0 → s.evictShelf sh = s.bump Reg.DMW_IGNORED 1) ∧
    ((s.shelf sh).holds = 0 → (s.shelf sh).readers = [] → s.evictShelf sh = s.dropMapping sh ∧ ((s.dropMapping sh).shelf sh).st = .absent) ∧
    ((s.shelf sh).holds = 0 → (s.shelf sh).readers ≠ [] → s.evictShelf sh = s.setShelf sh { s.shelf sh with st := .evicting })) ∧
  (∀ (s : State) (sh : Nat), (s.shelf sh).st = .filling → s.evictShelf sh = s.bump Reg.DMW_IGNORED 1)

/-- R269 to R276: reads and fills. -/
def Obligations.ShelvesFillAndAreRead : Prop :=
  (∀ (s : State) (who : Reader) (a k sh : Nat) (o : Obj) (v : Shelf), s.objAt a 1 = some (k, o) → o.st = .ready → o.policy = .cached → sh = a / 2 ^ 21 →
    v = { s.shelf sh with readers := addReader (who, a) (s.shelf sh).readers, lastUse := s.msTick } →
    ((s.shelf sh).st = .present → exec (.demandRead who a) s = .next (s.setShelf sh v)) ∧
    ((s.shelf sh).st = .poisoned → exec (.demandRead who a) s = .next (s.setShelf sh v)) ∧
    ((s.shelf sh).st = .evicting → exec (.demandRead who a) s = .next ((s.setShelf sh { v with st := .present }).bump Reg.DMW_CANCELS 1)) ∧
    ((s.shelf sh).st = .absent → exec (.demandRead who a) s =
      .next ((((s.setShelf sh v).queueFill sh o.fn (a % 2 ^ 21 / 4096) true).promoteAhead o sh).runFills))) ∧
  (∀ (r : Reader × Nat) (rs : List (Reader × Nat)), r ∈ addReader r rs ∧ ∀ q, q ≠ r → (addReader r rs).count q = rs.count q) ∧
  (∀ (s : State) (sh k blk bits : Nat), (s.shelf sh).st = .filling → (s.shelf sh).granted = true → k < 512 → k ∉ (s.shelf sh).words → s.burOn = true →
    s.tiers.ladder.look (sh * 128 + k / 4) = none → ((s.shelf sh).words = [] → k / 4 = (s.shelf sh).first / 4) →
    ∃ t, exec (.codewordWritten sh k blk bits) s = .next t ∧ t.shelf sh = { s.shelf sh with words := (s.shelf sh).words ++ [k] } ∧
      (∀ j, j ≠ sh → t.shelf j = s.shelf j) ∧ t = { s with tiers := t.tiers, regs := t.regs }) ∧
  (∀ (s : State) (sh : Nat), (s.shelf sh).st = .filling → (s.shelf sh).granted = true → (s.shelf sh).words.length = 512 →
    exec (.fillComplete sh) s = .next ((s.setShelf sh { s.shelf sh with st := .present, words := [] }).bump Reg.DMW_FILLS 1)) ∧
  (∀ (s : State) (who : Reader) (a : Nat), s.dataReady a 1 = true → (s.shelf (a / 2 ^ 21)).readers = [(who, a)] → s.tiers.staged = [] →
    ((s.shelf (a / 2 ^ 21)).st = .present → exec (.referenceDrop who a) s =
      .next (s.setShelf (a / 2 ^ 21) { s.shelf (a / 2 ^ 21) with readers := [] })) ∧
    ((s.shelf (a / 2 ^ 21)).st = .evicting → exec (.referenceDrop who a) s =
      .next ((s.setShelf (a / 2 ^ 21) { s.shelf (a / 2 ^ 21) with readers := [] }).dropMapping (a / 2 ^ 21)).runFills)) ∧
  (∀ (s : State) (who : Reader) (a blk bits k : Nat) (o : Obj), s.objAt a 1 = some (k, o) → o.st = .ready → o.policy = .stream →
    (s.shelf (a / 2 ^ 21)).st ≠ .poisoned → s.burOn = true → s.tiers.ladder.look (a / 2 ^ 14) = none →
    (∀ p ∈ s.tiers.staged, p.page ≠ a / 2 ^ 14) → s.tiers.staged.length < s.stageCap →
    exec (.streamRead who a blk bits) s = .next (({ s with tiers := { s.tiers with
      stageWait := s.tiers.stageWait.erase (who, a)
      staged := s.tiers.staged ++ [⟨a / 2 ^ 14, true, [(who, a)]⟩] } } : State).flashRead blk bits))

/-- R279 to R284: flash. -/
def Obligations.FlashLadderAndMaintenance : Prop :=
  (∀ (s : State) (page blk : Nat), s.pageRead page = true → s.tiers.ladder.look page = none →
    ∃ t, exec (.hardDecodeFail page blk) s = .next t ∧ t.tiers.ladder.look page = some .levels ∧
      (∀ k, k ≠ page → t.tiers.ladder.look k = s.tiers.ladder.look k) ∧ t.reg64 Reg.BUR_RETRY = (s.reg64 Reg.BUR_RETRY + 1) % 2 ^ 64 ∧
      t = { s with tiers := t.tiers, regs := t.regs }) ∧
  (∀ (s : State) (page : Nat), s.tiers.ladder.look page = some .levels →
    exec (.ladderDone page true) s = .next (s.setLadder (s.tiers.ladder.del page)) ∧
    exec (.ladderDone page false) s = .next ((s.setLadder (s.tiers.ladder.put page .soft)).bump Reg.BUR_SOFT 1)) ∧
  (∀ (s : State) (page : Nat), s.tiers.ladder.look page = some .soft →
    exec (.softDecodeDone page true) s = .next (s.setLadder (s.tiers.ladder.del page)) ∧
    exec (.softDecodeDone page false) s = .next (s.setLadder (s.tiers.ladder.put page .rebuild))) ∧
  (∀ (s : State) (page blk : Nat), s.tiers.ladder.look page = some .rebuild →
    exec (.stripeRebuildDone page blk true) s = .next (({ s with tiers := { s.tiers with
      ladder := s.tiers.ladder.del page
      blocks := s.tiers.blocks.put blk { s.tiers.blocks.get {} blk with reloc := true } } } : State).bump Reg.BUR_REBUILT 1) ∧
    exec (.stripeRebuildDone page blk false) s =
      .next ((((s.setLadder (s.tiers.ladder.del page)).poisonShelf page).unrecoverable blk).runFills)) ∧
  (∀ (s : State) (page k : Nat) (o : Obj), s.shelfObj (page / 128) = some (k, o) →
    ((s.poisonShelf page).shelf (page / 128)).st = .poisoned ∧ ((s.poisonShelf page).shelf (page / 128)).lost = (s.shelf (page / 128)).lost + 1 ∧
    (s.poisonShelf page).reg64 Reg.BUR_POISONED_PAGES = (s.reg64 Reg.BUR_POISONED_PAGES + 1) % 2 ^ 64) ∧
  (∀ (s : State) (blk bits : Nat) (ladder : Bool), s.boot.phase = .running → s.burOn = true → s.flag Reg.BUR_CTRL 1 = true → blk / 2 ^ 20 < 32 →
    ∃ t, exec (.flashPatrolRead blk bits ladder) s = .next t ∧ (t.tiers.blocks.get {} blk).reads = (s.tiers.blocks.get {} blk).reads + 1 ∧
      ((ladder = true ∨ s.field Reg.BUR_REFRESH_BITS 7 0 < bits) → (t.tiers.blocks.get {} blk).reloc = true) ∧
      t = { s with tiers := t.tiers, regs := t.regs }) ∧
  (∀ (s : State) (blk : Nat), s.boot.phase = .running → s.burOn = true → s.flag Reg.BUR_CTRL 2 = true → (s.tiers.blocks.get {} blk).reloc = true →
    exec (.blockRelocateDone blk) s = .next (({ s with tiers := { s.tiers with blocks := s.tiers.blocks.put blk { s.tiers.blocks.get {} blk with
      reads := 0
      erases := (s.tiers.blocks.get {} blk).erases + 1
      reloc := false } } } : State).bump Reg.BUR_RELOC_BLOCKS 1)) ∧
  (∀ (s : State) (n die : Nat), n < 32 → die ≤ 64 → s.tiers.failed.look (n * 65 + die) = none →
    exec (.nandDieFailure n die) s = .next { s with tiers := { s.tiers with failed := s.tiers.failed.put (n * 65 + die) false } }) ∧
  (∀ (s : State) (n die : Nat), s.boot.phase = .running → s.tiers.failed.look (n * 65 + die) = some false →
    exec (.nandRebuildDone n die) s = .next { s with tiers := { s.tiers with failed := s.tiers.failed.put (n * 65 + die) true } }) ∧
  (∀ (s : State) (blk gib : Nat), s.boot.phase = .running → blk / 2 ^ 20 < 32 → (s.tiers.blocks.get {} blk).bad = false →
    ((s.growBad blk).tiers.blocks.get {} blk).bad = true ∧
    (s.reg Reg.SBD_SIZE_FLASH_GIB ≤ gib → exec (.programOrEraseFailure blk gib) s = .next (s.growBad blk)) ∧
    (gib < s.reg Reg.SBD_SIZE_FLASH_GIB → exec (.programOrEraseFailure blk gib) s =
      .next (((s.growBad blk).publish [(Reg.SBD_SIZE_FLASH_GIB, gib)]).pfEvent 0x0115 gib 0 0 0)))

/-- R226, R285 to R289: errors of HBM and mirrors. -/
def Obligations.HbmErrorsAndMirrors : Prop :=
  (∀ (s : State) (a pc k : Nat) (both : Bool) (o : Obj), s.flag (Reg.HBM_PC_PRESENT (pc / 32)) (pc % 32) = true → a < 2 ^ 48 → s.objAt a 1 = some (k, o) →
    o.onStack a (pc / 32) = true → o.policy = .pinned →
    ((o.mirror = false ∨ o.degraded = true ∨ both = true) → exec (.hbmUe a pc both) s =
      .next (((s.bump (Reg.HBM_UE (pc / 32)) 1).poisonLine (a / 64)).notePc pc)) ∧
    (o.mirror = true → o.degraded = false → both = false → exec (.hbmUe a pc both) s =
      .next (((s.bump (Reg.HBM_UE (pc / 32)) 1).bump (Reg.HBM_MIRROR_FIXES (pc / 32)) 1).notePc pc))) ∧
  (∀ (s : State) (l : Nat), ((s.poisonLine l).tiers.poison.look l).isSome = true ∧
    (∀ k, k ≠ l → (s.poisonLine l).tiers.poison.look k = s.tiers.poison.look k) ∧ (s.poisonLine l).tier = s.tier) ∧
  (∀ (s : State) (t n : Nat), s.stackPresent t = true → s.flag (Reg.BIM_REG_STEP t) 2 = false →
    exec (.hbmPatrolRead t n) s = .next (s.bump (Reg.HBM_CE t) n)) ∧
  (∀ (s : State) (t : Nat), s.stackPresent t = true → s.flag (Reg.BIM_REG_STEP t) 2 = true →
    ∃ u, exec (.hbmRefresh t) s = .next u ∧ u.tiers.refBank.get 0 t =
      (if s.tiers.refBank.get 0 t + 1 = Config.hbmBanks then 0 else s.tiers.refBank.get 0 t + 1) ∧
      (∀ k, k ≠ t → u.tiers.refBank.get 0 k = s.tiers.refBank.get 0 k) ∧ u = { s with tiers := { s.tiers with refBank := u.tiers.refBank } }) ∧
  (∀ (s : State) (k p : Nat), s.boot.phase = .running → (s.obj k).st = .ready → (s.obj k).mirror = true → (s.obj k).degraded = false →
    s.partnerOf (s.obj k).stack (some (s.obj k).partner) = some p → p ≠ (s.obj k).partner →
    512 * (s.obj k).shelves ≤ s.stackFree p →
    ∃ u, exec (.mirrorPartnerLost k) s = .next u ∧ u.obj k = { s.obj k with degraded := true, partner := p } ∧
      u.tiers.mcopy = s.tiers.mcopy ++ [(k, p)] ∧ (∀ j, j ≠ k → u.obj j = s.obj j) ∧ u.tier = s.tier) ∧
  (∀ (s : State) (k : Nat), s.boot.phase = .running → (s.obj k).st = .ready → (s.obj k).mirror = true → (s.obj k).degraded = false →
    s.partnerOf (s.obj k).stack (some (s.obj k).partner) = none →
    ∃ u, exec (.mirrorPartnerLost k) s = .next u ∧ u.obj k = { s.obj k with degraded := true, partner := (s.obj k).stack } ∧
      (∀ j, j ≠ k → u.obj j = s.obj j) ∧ u.tier = s.tier) ∧
  (∀ (s : State) (k p : Nat), s.boot.phase = .running → s.tiers.mcopy.find? (·.1 == k) = some (k, p) →
    exec (.mirrorCopyDone k) s = .next ((({ s with tiers := { s.tiers with mcopy := s.tiers.mcopy.filter (·.1 != k) } } : State).setObj k
      { s.obj k with degraded := false, partner := p }).pfEvent 0x0113 k p 0 0))

/-- R255, R268, R388: BAR4. -/
def Obligations.BarFourReadsAndWrites : Prop :=
  (∀ (s : State) (off a : Nat), a = s.bar4Addr off → a = s.reg64 Reg.PCI_BAR4_BASE + off % 2 ^ s.host.bar4Log) ∧
  (∀ (s : State) (off n a k : Nat) (o : Obj), a = s.bar4Addr off → s.objAt a n = some (k, o) → o.st = .ready →
    (o.policy = .pinned ∨ (o.policy = .cached ∧ (s.shelf (a / 2 ^ 21)).st = .present ∧ (s.shelf ((a + n - 1) / 2 ^ 21)).st = .present)) →
    s.filtersOn a n false = [] → s.poisonIn a n = none →
    exec (.bar4Read off n) s = .next { s with host := { s.host with bar4 := .data (s.tierRead a n) } }) ∧
  (∀ (s : State) (off n : Nat), s.objAt (s.bar4Addr off) n = none →
    exec (.bar4Read off n) s = .next ((s.bump Reg.BUR_UNMAPPED 1).bar4Reply (.data (List.replicate n 0)))) ∧
  (∀ (s : State) (off n k : Nat) (o : Obj), s.objAt (s.bar4Addr off) n = some (k, o) → o.st = .ready → o.policy = .stream →
    exec (.bar4Read off n) s = .next { s with host := { s.host with bar4 := .unsupported } }) ∧
  (∀ (s : State) (off a k : Nat) (bs : List Byte) (o : Obj), a = s.bar4Addr off → s.objAt a bs.length = some (k, o) → o.st = .ready → o.policy = .pinned →
    s.filtersOn a bs.length true = [] →
    exec (.bar4Write off bs) s = .next (s.tierWrite a bs) ∧ (∀ j, (h : j < bs.length) → Mem.byte (s.tierWrite a bs).tier (a + j) = bs[j]) ∧
      (∀ b, b < a ∨ a + bs.length ≤ b → Mem.byte (s.tierWrite a bs).tier b = Mem.byte s.tier b) ∧ (s.tierWrite a bs).spad = s.spad) ∧
  (∀ (s : State) (off : Nat) (bs : List Byte), (∀ k o, s.objAt (s.bar4Addr off) bs.length = some (k, o) → o.st ≠ .ready ∨ o.policy ≠ .pinned) →
    exec (.bar4Write off bs) s = .next (s.bump Reg.BUR_UNMAPPED 1))

/-! ### Serving cells (R294 to R313) -/

/-- R294, R295, R299 to R302: entries and templates. -/
def Obligations.ClassifierAndTemplatesAreKept : Prop :=
  (∀ (s : State) (i : Issuer) (k0 k1 k2 : Nat) (e : FhEntry), Taken s i 0x0401 → fhBad k0 k1 k2 0 = false → e = decodeFh k0 k1 k2 →
    (s.queue e.queue).en = true → (s.queue e.queue).typ = 4 → (s.queue e.queue).fn = 0 → (∀ x ∈ s.fh, e.overlaps x = false) → s.fh.length < 16384 →
    exec (.fhClassAdd i k0 k1 k2 0) s = .next (({ s with fh := s.fh ++ [e] } : State).answer i 0 0 [])) ∧
  (∀ (s : State) (i : Issuer) (k0 k1 k2 : Nat), Taken s i 0x0402 → fhBad k0 k1 k2 0 = false → decodeFh k0 k1 k2 ∈ s.fh →
    exec (.fhClassDel i k0 k1 k2 0) s = .next (({ s with fh := s.fh.erase (decodeFh k0 k1 k2) } : State).answer i 0 0 [])) ∧
  (∀ a b : FhEntry, a.overlaps b = true ↔ a.sameKey b = true ∧ (a.eaxc &&& (a.mask &&& b.mask)) = (b.eaxc &&& (a.mask &&& b.mask))) ∧
  (∀ (s : State) (i : Issuer) (addr a n k : Nat) (h : List Nat) (t : Template), Taken s i 0x0210 → spaceOf addr = 0 → a = offOf addr →
    s.pinnedRange 0 a 64 = true → h = wordsOf 16 (s.tierRead a 64) → headerBad h (s.box i).version = false → n = bits (wd h 0) 26 16 →
    s.pinnedRange 0 a (64 + 160 * n) = true → t = readTpl (s.tierRead a (64 + 160 * n)) → (s.ctx t.ctx).valid = true → (s.ctx t.ctx).tearing = false →
    (s.ctx t.ctx).fn = 0 → (s.ctx t.ctx).floor = 0 → (s.cqOf 0 t.cq).isSome = true →
    (∀ e ∈ t.entries.zipIdx, e.1.bad e.2 n t.clusters = false) → (s.ctx t.ctx).slotBase ≤ t.slotBase →
    t.slotBase + t.depth * n ≤ (s.ctx t.ctx).slotBase + (s.ctx t.ctx).slotCount → (∀ j ∈ t.slots, (s.slot j).busy = false ∧ s.tplSlot j = false) →
    (∀ c, c < 24 → t.clusters.testBit c = true → s.clusterPresent c = true) → lowestFree 512 (fun j => (s.tpls.look j).isSome) = some k →
    s.storeUsed + n ≤ 16384 → t.group < 256 →
    ∃ u : State, exec (.cabTplRegister i addr) s = .next (u.answer i 0 0 [k]) ∧ u.tpls = s.tpls.put k t ∧ u.reg (Reg.CAB_TPL_INSTANCE k) = 0 ∧
      u.reg64 (Reg.CAB_TPL_SKIPPED k) = 0 ∧ u.reg64 (Reg.CAB_TPL_LAST_TICK k) = 0 ∧ u = { s with tpls := u.tpls, regs := u.regs }) ∧
  (∀ (s : State) (i : Issuer) (k : Nat) (t : Template), Taken s i 0x0211 → s.tpls.look k = some t → t.retiring = false →
    exec (.cabTplUnregister i k) s = .next (((({ s with tpls := s.tpls.put k { t with retiring := true } } : State).tplReap).trackGroup t.group).answer i 0 0 [])) ∧
  (∀ s : State,
    (∀ e ∈ s.slots, e.2.busy = false) → ∀ e ∈ s.tplReap.tpls, e.2.retiring = false)

/-- R296 to R298, R303: ticks. -/
def Obligations.NumerologyTimersTick : Prop :=
  (∀ (s : State) (t : Nat) (n : Int), t < 64 → s.ntOn t 3 = true → (s.nt t).next = none → n = frameIdx (s.ntTime (s.nt t).delta) →
    ((s.nt t).frame < n → exec (.sfnTick t) s =
      .next (((s.setNt t { s.nt t with frame := n }).ntSkip t n (s.nt t).frame).setField (Reg.INV_NT_NOW t) 9 0 (wrap 10 n))) ∧
    (n ≤ (s.nt t).frame → exec (.sfnTick t) s = .next s)) ∧
  (∀ (s u : State) (t : Nat) (n : Int), t < 64 → s.ntOn t 5 = true → (s.nt t).next = none → n = symbolIdx (s.nt t).mu (s.ntTime (s.nt t).delta) →
    (s.nt t).symbol < n →
    u = ((s.setNt t { s.nt t with symbol := n }).ntSkip t n (s.nt t).symbol).setField (Reg.INV_NT_NOW t) 20 17 (n % 14).toNat →
    exec (.symbolTick t) s = .next (u.invarSignal (u.field (Reg.INV_NT_SYMLATCH t) 12 8) (u.field (Reg.INV_NT_SYMLATCH t) 7 0))) ∧
  (∀ (s : State) (t slot sfn boundary : Nat) (n : Int), t < 64 → s.ntOn t 4 = true → (s.nt t).next = none →
    n = slotIdx (s.nt t).mu (s.ntTime (s.nt t).delta) → (s.nt t).slot < n → slot = (n % Int.ofNat (10 * 2 ^ (s.nt t).mu)).toNat →
    sfn = wrap 10 (n / Int.ofNat (10 * 2 ^ (s.nt t).mu)) → boundary = wrap 64 ((s.nt t).delta + n * slotNs (s.nt t).mu) →
    exec (.slotTick t) s = .next ((((((s.setNt t { s.nt t with slot := n }).ntSkip t n (s.nt t).slot).setField (Reg.INV_NT_NOW t) 16 10 slot).bump
      (Reg.INV_NT_TICKS t) 1).tickTemplates t n.toNat boundary sfn slot).slotIndications t sfn slot)) ∧
  (∀ (s : State) (k key boundary sfn slot e : Nat) (t : Template), k < 512 → e < t.entries.length →
    (s.slot (t.slotBase + (s.reg (Reg.CAB_TPL_INSTANCE k) + 1) % 2 ^ 32 % t.depth * t.entries.length + e)).busy = true →
    ∃ u, s.instantiate k t key boundary sfn slot = (u, none) ∧ u.slots = s.slots ∧
      u.reg (Reg.CAB_TPL_INSTANCE k) = (s.reg (Reg.CAB_TPL_INSTANCE k) + 1) % 2 ^ 32 ∧
      u.reg64 (Reg.CAB_TPL_SKIPPED k) = (s.reg64 (Reg.CAB_TPL_SKIPPED k) + 1) % 2 ^ 64) ∧
  (∀ (s : State) (c l : Nat), s.clusterOn c = true → l < 256 → s.flag (Reg.LAT_OWNER c (l / 8)) 12 = true →
    s.invarSignal c l = s.signal c l 1) ∧
  (∀ mu l : Nat, mu ≤ 3 → l < 14 * 2 ^ mu → symStart mu l = l * (140288 / 2 ^ mu) + (if l = 0 then 0 else if l ≤ 7 * 2 ^ mu then 1024 else 2048))

/-- R305 to R310: Bronze jobs. -/
def Obligations.BronzeJobsRun : Prop :=
  (∀ (s : State) (u : Nat) (j : BrzJob) (rest : List BrzJob), s.bronzePresent u = true → s.flag (Reg.BRZ_CTRL (u / 4) (u % 4)) 2 = false →
    (s.bronze u).rq = j :: rest → (s.bronze u).rrun = none → s.flag (Reg.BRZ_CTRL (u / 4) (u % 4)) 0 = true →
    exec (.bronzeJobStart u) s = .next ((s.setBronze u { s.bronze u with rq := rest }).brzBegin u 0 j)) ∧
  (∀ (s : State) (u : Nat) (j : BrzJob) (rest : List BrzJob), s.bronzePresent u = true → s.flag (Reg.BRZ_CTRL (u / 4) (u % 4)) 2 = false →
    (s.bronze u).rq = [] → (s.bronze u).rrun = none → (s.bronze u).tq = j :: rest → (s.bronze u).trun = none →
    s.flag (Reg.BRZ_CTRL (u / 4) (u % 4)) 1 = true →
    exec (.bronzeJobStart u) s = .next ((s.setBronze u { s.bronze u with tq := rest }).brzBegin u 1 j)) ∧
  (∀ (s : State) (u : Nat), (s.bronze u).rq ≠ [] → (s.bronze u).rrun.isSome = true → exec (.bronzeJobStart u) s = .next s) ∧
  (∀ (s : State) (u q a : Nat) (j : BrzJob) (ws : List Nat), q < 2 → spaceOf j.job = 0 → a = offOf j.job → s.pinnedRange (s.ctx j.task.ctx).fn a 64 = true →
    s.poisonIn a 64 = none → s.secureCtx j.task.ctx = true → ws = wordsOf 16 (s.tierRead a 64) → j.task.thread = false → u < 48 → j.job < 2 ^ 64 →
    (decodeBrz ws).bad ws j.task.cls = true →
    ∃ t, s.brzBegin u q j = t ∧ (t.bronze u).run q = none ∧ t.done = s.done ++ [⟨j.task, 1, 4, u⟩] ∧
      t.reg (Reg.BRZ_FAULT (u / 4) (u % 4)) = 9 + 16 * q ∧ t.reg64 (Reg.BRZ_FAULT_JOB (u / 4) (u % 4)) = j.job ∧ t.tier = s.tier) ∧
  (∀ (s : State) (u q : Nat) (r : BrzRun), q < 2 → (s.bronze u).run q = some r → r.stage = .fetching → (s.bronze u).run (1 - q) = none →
    ((decodeBrz r.words).inBytes = 0 ∨ s.dataReady (offOf (decodeBrz r.words).inp) (decodeBrz r.words).inBytes = true) →
    s.poisonIn (offOf (decodeBrz r.words).inp) (decodeBrz r.words).inBytes = none → s.secureCtx r.job.task.ctx = true →
    exec (.bronzeInputFetched u q) s = .next (s.setBronze u ((s.bronze u).setRun q (some { r with
      stage := .computing
      input := s.tierRead (offOf (decodeBrz r.words).inp) (decodeBrz r.words).inBytes })))) ∧
  (∀ (s : State) (u q : Nat) (r : BrzRun), q < 2 → (s.bronze u).run q = some r → r.stage = .computing → (decodeBrz r.words).dec = false →
    ∃ t, exec (.bronzeComputeDone u q) s = .next t ∧
      t = (s.setBronze u ((s.bronze u).setRun q (some { r with stage := .writing }))).brzEncoded u r.job.task r.words r.input ∧
      (t.bronze u).run q = some { r with stage := .writing } ∧ t.spad = s.spad) ∧
  (∀ (s : State) (u q : Nat) (r : BrzRun), q < 2 → (s.bronze u).run q = some r → r.stage = .writing → r.job.task.thread = false →
    ∃ t, exec (.bronzeJobDone u q) s = .next t ∧ (t.bronze u).run q = none ∧ t.done = s.done ++ [⟨r.job.task, 0, 0, u⟩] ∧
      t = { s with brz := t.brz, done := t.done })

/-- R311 to R313: FAPI. -/
def Obligations.FapiMessagesAreHandled : Prop :=
  ∀ (s : State) (es : List (List Byte)) (phy : Nat) (body : List Byte), fapiMessage es = some (phy, body) → s.l1Runs = true →
    exec (.paramRequest es) s = .next (s.fapiSend phy .paramResponse) ∧
    exec (.fapiOtherMessage es) s = .next (s.fapiSend phy .invalidState) ∧
    (∀ timer lead, (s.cell phy).st ≠ .running → timer < 64 → exec (.configRequest es timer lead) s =
      .next ((s.setCell phy { s.cell phy with st := .configured, timer := timer, lead := lead }).fapiSend phy .configResponse)) ∧
    (∀ timer lead, (s.cell phy).st = .running → exec (.configRequest es timer lead) s = .next (s.fapiSend phy .invalidState)) ∧
    ((s.cell phy).st = .configured → exec (.startRequest es) s = .next (s.setCell phy { s.cell phy with st := .running, only := [] })) ∧
    ((s.cell phy).st = .running → ∃ t, exec (.stopRequest es) s = .next t ∧ (t.cell phy).st = .configured ∧
      t.fapiWork = s.fapiWork.filter (·.phy != phy) ∧ t.fapiOut = s.fapiOut ++ [(phy, .stopIndication)] ∧
      t = { s with fapi := t.fapi, fapiWork := t.fapiWork, fapiOut := t.fapiOut }) ∧
    (∀ sfn slot, (s.cell phy).st = .running → s.fapiInTime (s.cell phy) sfn slot = true →
      exec (.dlTtiRequest es sfn slot) s = .next { s with fapiWork := s.fapiWork ++ [⟨phy, .dlTti, sfn, slot, body⟩] } ∧
      exec (.ulTtiRequest es sfn slot) s = .next { s with fapiWork := s.fapiWork ++ [⟨phy, .ulTti, sfn, slot, body⟩] }) ∧
    (∀ sfn slot, (s.cell phy).st = .running → s.fapiInTime (s.cell phy) sfn slot = false →
      exec (.dlTtiRequest es sfn slot) s =
        .next ((s.setCell phy { s.cell phy with only := (s.cell phy).only ++ [(sfn, slot)] }).fapiSend phy .invalidSfn) ∧
      exec (.ulTtiRequest es sfn slot) s =
        .next ((s.setCell phy { s.cell phy with only := (s.cell phy).only ++ [(sfn, slot)] }).fapiSend phy .invalidSfn)) ∧
    (∀ sfn slot, (s.cell phy).st = .running →
      exec (.ulDciRequest es sfn slot) s = .next { s with fapiWork := s.fapiWork ++ [⟨phy, .ulDci, sfn, slot, body⟩] }) ∧
    (∀ (sfn slot : Nat) (ptrs : List (Nat × Nat)), (s.cell phy).st = .running → (∀ p ∈ ptrs, s.hostOrPinned 0 p.1 p.2 = true) →
      exec (.txDataRequest es sfn slot ptrs) s = .next { s with fapiWork := s.fapiWork ++ [⟨phy, .txData, sfn, slot, body⟩] })

/-! ### Invar, the ports and Hallstand (R318 to R354) -/

/-- R318 to R330: the time base. -/
def Obligations.InvarKeepsAndServesTime : Prop :=
  (∀ (s : State) (v : W32), v.toNat.testBit 0 = true → exec (.invSet v) s =
    .next (s.stepTime (Int.ofNat (fromStored (s.reg Reg.INV_SET_W0) (s.reg Reg.INV_SET_W1) (s.reg Reg.INV_SET_W2))) 0)) ∧
  (∀ (s : State) (lo hi : W32) (v : Nat), v = lo.toNat + 2 ^ 32 * hi.toNat →
    exec (.invStep lo hi) s = .next ((s.setReg64 Reg.INV_STEP v).stepTime (Int.ofNat s.time + sext 64 v * 2 ^ 16) 1)) ∧
  (∀ (s : State) (new : Int) (src : Nat), (s.stepTime new src).time = (new % (2 ^ 48 * 1000000000 * 2 ^ 32)).toNat ∧
    (s.stepTime new src).reg64 Reg.INV_STEPS = (s.reg64 Reg.INV_STEPS + 1) % 2 ^ 64 ∧
    ∃ u : State, s.stepTime new src = { s with time := u.time, net := u.net, regs := u.regs, host := u.host }) ∧
  (∀ (s : State) (lo hi : W32) (v : Nat), v = lo.toNat + 2 ^ 32 * (hi.toNat % 2 ^ 16) →
    (s.servoOn = true → exec (.servoSample lo hi) s = .next ((s.setReg64 Reg.INV_SERVO_OFF v).servoSample (sext 48 v))) ∧
    (s.servoOn = false → exec (.servoSample lo hi) s = .next (s.setReg64 Reg.INV_SERVO_OFF v))) ∧
  (∀ (s : State) (theta i : Int), theta.natAbs < s.reg Reg.INV_SERVO_STEP_NS * 2 ^ 16 →
    i = s.inv.i + Int.ofNat (s.reg Reg.INV_SERVO_KI) * theta / 2 ^ 32 →
    (s.servoSample theta).inv.i = i ∧ (s.servoSample theta).time = s.time ∧
    (s.servoSample theta).incr =
      wrap 36 (s.incrNom - max (-2147484) (min 2147484 (Int.ofNat (s.reg Reg.INV_SERVO_KP) * theta / 2 ^ 32 + i)))) ∧
  (∀ (s : State) (theta : Int), s.reg Reg.INV_SERVO_STEP_NS * 2 ^ 16 ≤ theta.natAbs →
    (s.servoSample theta).time = ((Int.ofNat s.time - theta * 2 ^ 16) % (2 ^ 48 * 1000000000 * 2 ^ 32)).toNat ∧ (s.servoSample theta).inv.i = s.inv.i) ∧
  (∀ s : State, s.servoOn = true → s.servoSt ≠ 2 → exec .servoHoldover s = .next ((s.setIncr (s.incrNom - s.inv.i)).setServo 2)) ∧
  (∀ s : State, s.flag Reg.INV_CTRL 1 = true → s.inv.onRef = true → exec .refInLoss s =
    .next ((({ s with inv := { s.inv with onRef := false } } : State).setField Reg.INV_CTRL 1 1 0).setField Reg.INV_STATUS 3 3 1)) ∧
  (∀ s : State, s.flag Reg.INV_CTRL 1 = true → s.inv.onRef = false → exec .refInRestore s =
    .next (({ s with inv := { s.inv with onRef := true } } : State).setField Reg.INV_STATUS 3 3 0)) ∧
  (∀ (s : State) (skew : Int) (t : Nat), t = ((Int.ofNat s.time + skew * 2 ^ 16) % (2 ^ 48 * 1000000000 * 2 ^ 32)).toNat →
    ∃ u, exec (.ppsInEdge skew) s = .next u ∧ u.reg Reg.INV_PPS_IN_W0 = t / 2 ^ 32 % 1000000000 ∧
      u.reg (Reg.INV_PPS_IN_W0 + 4) = t / (2 ^ 32 * 1000000000) % 2 ^ 32 ∧ u.reg64 Reg.INV_PPS_EDGES = (s.reg64 Reg.INV_PPS_EDGES + 1) % 2 ^ 64 ∧
      u = { s with regs := u.regs }) ∧
  (∀ (s : State) (g t p k : Nat) (late : Bool), g < 16 → t = s.reg64 (Reg.INV_TRG_T g) → p = s.reg (Reg.INV_TRG_PERIOD_NS g) →
    s.flag (Reg.INV_TRG_CTRL g) 0 = true → reached s.now t = true → g ∉ s.inv.spent → late = s.inv.late.contains g →
    k = (if late = true ∨ p = 0 then 1 else (s.now + 2 ^ 64 - t) % 2 ^ 64 / p + 1) →
    ∃ v : State, exec (.generalTriggerFire g) s = .next (v.trgAct g late) ∧ v.reg64 (Reg.INV_TRG_T g) = (t + k * p) % 2 ^ 64 ∧
      v.reg64 (Reg.INV_TRG_FIRED g) = (s.reg64 (Reg.INV_TRG_FIRED g) + 1) % 2 ^ 64 ∧
      v.reg64 (Reg.INV_TRG_SKIPPED g) = (s.reg64 (Reg.INV_TRG_SKIPPED g) + (k - 1)) % 2 ^ 64 ∧ (p = 0 → g ∈ v.inv.spent) ∧
      v = { s with regs := v.regs, inv := v.inv }) ∧
  (∀ (s : State) (g : Nat), reached s.now (s.reg64 (Reg.INV_TRG_T g)) = false ∨ g ∈ s.inv.spent → exec (.generalTriggerFire g) s = .next s)

/-- R334 to R346: transmit. -/
def Obligations.FramesAreSent : Prop :=
  (∀ (s v : State) (q : Nat) (entry frame : ExtData) (bs : List Byte) (d : TxDesc), (s.queue q).en = true → (s.queue q).typ = 3 →
    (s.queue q).failed = false → (s.queue q).blocked = false → (s.queue q).prod ≠ (s.queue q).cons → s.net.heads.look q = none →
    s.ringEntry q (s.queue q).cons 32 entry = some bs → d = decodeTx bs → v = s.consume q →
    ((s.queue q).txBad d = true → exec (.txDescriptorFetch q entry frame) s = .next (v.txDone q d (s.func (s.queue q).fn).gen 5 [])) ∧
    ((s.queue q).txBad d = false → v.mtu (s.queue q).mac < d.len + 4 →
      exec (.txDescriptorFetch q entry frame) s = .next (v.txDone q d (s.func (s.queue q).fn).gen 3 [])) ∧
    (∀ bytes, (s.queue q).txBad d = false → d.len + 4 ≤ v.mtu (s.queue q).mac → v.txBytes (s.queue q).fn d frame = .ok bytes → v.portOn (s.queue q).mac = true →
      exec (.txDescriptorFetch q entry frame) s = .next ((({ v with net := { v.net with heads := v.net.heads.put q { desc := d, gen := (s.func (s.queue q).fn).gen, bytes := bytes, past := none } } } : State).testHead q).baseTag
          (s.queue q).mac d.tc)) ∧
    (∀ bytes, (s.queue q).txBad d = false → d.len + 4 ≤ v.mtu (s.queue q).mac → v.txBytes (s.queue q).fn d frame = .ok bytes → v.portOn (s.queue q).mac = false →
      exec (.txDescriptorFetch q entry frame) s = .next (v.txDone q d (s.func (s.queue q).fn).gen 6 []))) ∧
  (∀ (s v : State) (m : Nat), v = s.net.heads.foldl (fun s e => if (s.queue e.1).mac = m then s.testHead e.1 else s) s →
    (v.pickFrame m = none → exec (.frameSelect m) s = .next v) ∧
    (∀ c q h u, v.pickFrame m = some (c, q, h, u) → exec (.frameSelect m) s = .next (v.startFrame m c q h u))) ∧
  (∀ (s : State) (m c q : Nat) (h : TxHead) (u : MacTx), s.pickFrame m = some (c, q, h, u) → s.txEligible m q h = true ∧ s.clsHead m c = some (q, h) ∧
    ∀ k, k < 4 → k < c → s.clsHead m k = none) ∧
  (∀ (s : State) (m : Nat) (l : TxLine), (s.mac m).line = some l → m < 64 → l.desc.tc < 16 → ∃ t, exec (.frameSent m) s = .next t ∧
    t.mac m = { s.mac m with line := none } ∧ t.net.out = s.net.out ++ [(m, l.bytes)] ∧
    t.reg64 (Reg.ETH_TX_FRAMES (m / 8) (m % 8)) = (s.reg64 (Reg.ETH_TX_FRAMES (m / 8) (m % 8)) + 1) % 2 ^ 64 ∧
    t.reg64 (Reg.HST_TC_TX_BYTES m l.desc.tc) = (s.reg64 (Reg.HST_TC_TX_BYTES m l.desc.tc) + l.counted) % 2 ^ 64 ∧
    t = { s with net := t.net, regs := t.regs, host := t.host }) ∧
  (∀ (s : State) (m : Nat) (w : W32), w.toNat.testBit 0 = true → m < 64 → (s.adminList m).entries ≠ [] → (s.adminList m).cycle ≠ 0 →
    exec (.gclGo m w) s = .next ((s.setMac m { s.mac m with next := some (s.adminList m, (s.adminList m).cycleStart
      (if reached s.now (s.reg64 (Reg.HST_GCL_CHANGE m)) then s.now else s.reg64 (Reg.HST_GCL_CHANGE m))) }).setField (Reg.HST_STATUS m) 1 1 1)) ∧
  (∀ (s : State) (m : Nat) (w : W32), w.toNat.testBit 0 = true → m < 64 → ((s.adminList m).entries = [] ∨ (s.adminList m).cycle = 0) →
    exec (.gclGo m w) s = .next (s.setField (Reg.HST_STATUS m) 12 12 1)) ∧
  (∀ (s : State) (m t : Nat) (l : GateList), (s.mac m).next = some (l, t) → reached s.now t = true → ∃ u, exec (.gclChange m) s = .next u ∧
    u.mac m = { s.mac m with oper := some l, next := none } ∧ (∀ k, k ≠ m → u.mac k = s.mac k) ∧ u = { s with net := u.net, regs := u.regs }) ∧
  (∀ (s : State) (i : Issuer) (q k : Nat) (drop : Bool), Taken s i 0x0410 → s.poolQueue (s.issuerFn i) q = some k → (s.queue k).en = true →
    (s.queue k).typ = 3 → (s.queue k).fn = s.issuerFn i → ((s.box i).version ≠ 1 ∨ drop = false) →
    exec (.hstTxqSet i q drop) s = .next ((s.setQueue k { s.queue k with dropLate := drop }).answer i 0 0 [])) ∧
  (∀ (s : State) (m : Nat), exec (.linkChange m false) s = .next (s.setLink m false)) ∧
  (∀ (s : State) (m : Nat), s.portOn m = true → exec (.linkChange m true) s = .next ((s.setLink m true).net.heads.foldl
    (fun s e => if (s.queue e.1).mac = m then s.testHead e.1 else s) (s.setLink m true))) ∧
  (∀ (s : State) (m : Nat) (up : Bool), ((s.setLink m up).mac m).up = up ∧ ∀ k, k ≠ m → (s.setLink m up).mac k = s.mac k) ∧
  (∀ (s : State) (p : Nat), s.portPresent p = true → exec (.portDisable p) s = .next (s.portOff p) ∧ (s.portOff p).flag (Reg.ETH_CTRL p) 0 = false ∧
    ∀ k, k < 8 → ((s.portOff p).mac (8 * p + k)).up = false)

/-- R349 to R351, R404: reception. -/
def Obligations.FramesAreReceived : Prop :=
  (∀ (s : State) (m : Nat) (bs : List Byte) (rings : List ExtData), s.portOn m = true → (s.mac m).up = true →
    exec (.frameReceive m bs false rings) s = .next (s.bump (Reg.ETH_RX_FCS_ERR (m / 8) (m % 8)) 1) ∧
    (s.mtu m < bs.length + 4 → exec (.frameReceive m bs true rings) s = .next (s.bump (Reg.ETH_RX_OVERSIZE (m / 8) (m % 8)) 1)) ∧
    (bs.length + 4 ≤ s.mtu m → etherType bs = 0x8808 → exec (.frameReceive m bs true rings) s =
      .next ((s.bump (Reg.ETH_RX_FRAMES (m / 8) (m % 8)) 1).bump (Reg.ETH_RX_DROP (m / 8) (m % 8)) 1)) ∧
    (bs.length + 4 ≤ s.mtu m → etherType bs ≠ 0x8808 → s.policerOf m bs = none → ∃ f : RxFrame, f.mac = m ∧ f.bytes = bs ∧ f.colour = 0 ∧
      f.stamp = storedForm (s.stampAt (s.reg (Reg.ETH_TS_INGRESS_ADJ (m / 8) (m % 8)))) ∧
      exec (.frameReceive m bs true rings) s = .next ((s.bump (Reg.ETH_RX_FRAMES (m / 8) (m % 8)) 1).steer f rings))) ∧
  (∀ (s : State) (f : RxFrame) (q a : Nat) (ring : ExtData) (bs : List Byte), (s.queue q).en = true → (s.queue q).typ = 4 → (s.queue q).failed = false →
    (s.queue q).prod ≠ (s.queue q).cons → f.bytes.length ≤ bits (s.queue q).typeCfg 19 6 → s.ringEntry q (s.queue q).cons 16 ring = some bs →
    a = word64At bs 0 % 2 ^ 57 → s.hostOrPinned (s.queue q).fn a f.bytes.length = true →
    ∃ t, s.rxDeliver f q ring = t ∧ (t.queue q).cons = ((s.queue q).cons + 1) % 2 ^ 32 ∧ t.host.outbox.length = s.host.outbox.length + 1) ∧
  (∀ (s : State) (f : RxFrame) (q : Nat) (ring : ExtData), (s.queue q).prod = (s.queue q).cons → s.rxDeliver f q ring = s.rxDrop q f.mac) ∧
  (∀ (s : State) (w : W32) (p : Policer), p = s.policer (w.toNat % 2 ^ 16) → ∃ t, exec (.hstPolSel w) s = .next t ∧
    t.reg Reg.HST_POL_SEL = w.toNat % 2 ^ 16 ∧ t.reg Reg.HST_POL_CFG = p.cfg % 2 ^ 32 ∧ t.reg Reg.HST_POL_CIR = p.cir % 2 ^ 32 ∧
    t.reg Reg.HST_POL_EBS_PBS = p.ebs % 2 ^ 32 ∧ t.reg64 Reg.HST_POL_GREEN = p.green % 2 ^ 64 ∧ t.reg64 Reg.HST_POL_RED = p.red % 2 ^ 64 ∧
    t = { s with regs := t.regs }) ∧
  (∀ (s : State) (i : Issuer) (mac addr base count q k : Nat) (vid : Option Nat), Taken s i 0x0411 →
    s.poolQueue (s.issuerFn i) base = some q → (s.issuerFn i = 0 ∨ (s.func (s.issuerFn i)).macMask.testBit mac = true) → mac < 64 → addr < 2 ^ 48 →
    (∀ v, vid = some v → v < 4096) → count ∈ [1, 2, 4, 8, 16, 32, 64] →
    (∀ j, j < count → ∃ r, s.poolQueue (s.issuerFn i) (base + j) = some r ∧ (s.queue r).en = true ∧ (s.queue r).typ = 4 ∧
      (s.queue r).fn = s.issuerFn i) →
    (s.issuerFn i = 0 ∨ s.filterCount (s.issuerFn i) < (s.func (s.issuerFn i)).rxFilters) →
    lowestFree 4096 (fun k => (s.net.filters.look k).isSome) = some k →
    exec (.hstRxfAdd i mac addr vid base count false) s = .next (({ s with net := { s.net with filters := s.net.filters.put k { mac := mac, addr := addr, vid := vid, fn := s.issuerFn i, base := q, count := count } } } : State).answer i 0 0 [k])) ∧
  (∀ (s : State) (i : Issuer) (k : Nat) (e : RxFilter), Taken s i 0x0412 → s.net.filters.look k = some e →
    (s.issuerFn i = 0 ∨ e.fn = s.issuerFn i) →
    exec (.hstRxfDel i k) s = .next (({ s with net := { s.net with filters := s.net.filters.del k } } : State).answer i 0 0 []))

/-! ### Solder (R355 to R385) -/

/-- R356, R357, R371, R372, R376, R383, R385: the requester. -/
def Obligations.SolderRequesterWorks : Prop :=
  (∀ (s : State) (bs : List Byte) (k : Nat), s.sldOn = true → 24 ≤ bs.length → (decodeSldHdr bs).version = 1 → (decodeSldHdr bs).kind = k →
    (decodeSldHdr bs).dst = s.ownNode → s.sld.selfFenced = false → (decodeSldHdr bs).src ∉ s.sld.expelled →
    s.sldTake bs k true = (s.bump Reg.SLD_RX_PKTS 1, some (decodeSldHdr bs)) ∧ s.sldTake bs k false = (s.bump Reg.SLD_CHECKSUM_DROP 1, none)) ∧
  (∀ (s v : State) (bs : List Byte) (ok : Bool) (h : SldHdr), s.sldTake bs 1 ok = (v, some h) → h.peer = v.ownInc →
    ((v.dest h.src).peerInc = 0 ∨ (v.dest h.src).peerInc = h.inc) → (v.dest h.src).lost = false →
    ∃ u : State, u = v.setDest h.src { v.dest h.src with peerInc := h.inc, rto := 0 } ∧ exec (.solderResponseReceive bs ok) s =
      .next ((((if h.echo = true then u.sldEcho h.src else u).sldAnswers h.src (bs.drop 24) h.ops).sldRunAll).hostDone)) ∧
  (∀ (s : State) (n : Nat), (s.dest n).echoAt = none →
    (s.sldEcho n).dest n = { s.dest n with w := max 1 ((s.dest n).w / 2), echoAt := some s.clk }) ∧
  (∀ (s : State) (n seq tag opc st : Nat) (data : List Byte) (p : SldPkt),
    (s.dest n).pkts.find? (fun p => p.seq == seq && p.op.tag == tag && p.op.opc == opc) = some p → p.op.who ≠ .gone →
    (s.sldAnswer n seq tag opc st data).sld.ans = s.sld.ans ++ [⟨p.op, st, data⟩] ∧
    (s.sldAnswer n seq tag opc st data).dest n = { s.dest n with pkts := (s.dest n).pkts.filter (·.seq != seq) }) ∧
  (∀ (s v : State) (bs : List Byte) (ok : Bool) (h : SldHdr), s.sldTake bs 2 ok = (v, some h) → h.peer = v.ownInc → (v.dest h.src).lost = false →
    (h.reason = 1 → exec (.solderNakReceive bs ok) s =
      .next (v.sldResend h.src (((v.dest h.src).pkts.filter fun p => !seqStale 24 p.seq h.seq).take (v.dest h.src).w))) ∧
    (h.reason = 2 → (v.dest h.src).pkts = [] → exec (.solderNakReceive bs ok) s =
      .next ((v.setDest h.src { v.dest h.src with peerInc := 0 }).sldRun h.src)) ∧
    (h.reason = 2 → (v.dest h.src).pkts ≠ [] → exec (.solderNakReceive bs ok) s =
      .next ((v.setDest h.src { v.dest h.src with lost := true }).pfEvent 0x011C h.src (v.dest h.src).pkts.length 0 0))) ∧
  (∀ (s r : State) (n : Nat), (s.dest n).pkts ≠ [] → s.sldClear n = true → n ≠ s.ownNode → r = s.sldResend n ((s.dest n).pkts.take (s.dest n).w) →
    exec (.retransmitTimeout n) s =
      .next (r.setDest n { r.dest n with w := 1, rto := min (2 * s.rtoOf (s.dest n)) (s.reg Reg.SLD_RTO_MAX_US) })) ∧
  (∀ (s : State) (n : Nat) (ps : List SldPkt) (p : SldPeer), s.sld.peers.look n = some p →
    (∃ fs, (s.sldResend n ps).sld.tx = s.sld.tx ++ fs ∧ fs.map (·.payload) = ps.map (s.sldRequest n · true)) ∧
    (s.sldResend n ps).reg64 Reg.SLD_RETX = (s.reg64 Reg.SLD_RETX + ps.length) % 2 ^ 64) ∧
  (∀ (s : State) (n : Nat), exec (.windowIncrease n) s = .next ((s.setDest n { s.dest n with w := min 1024 ((s.dest n).w + 1) }).sldRun n)) ∧
  (∀ (s : State) (v : W32) (n : Nat), n = v.toNat % 2 ^ 14 → ∃ t : State, exec (.sldPeerSel v) s = .next t ∧ t.reg Reg.SLD_PEER_SEL = n ∧
    t.field Reg.SLD_PEER_STATE 1 0 = (if (s.dest n).lost = true then 2 else if (s.dest n).peerInc = 0 then 0 else 1) ∧
    t.flag Reg.SLD_PEER_STATE 2 = s.expelled n ∧ t.reg Reg.SLD_PEER_UNRETIRED = (s.dest n).pkts.length % 2 ^ 32 ∧
    t.reg Reg.SLD_PEER_RTO_US = (if (s.dest n).rto = 0 then s.reg Reg.SLD_RTO_MIN_US else (s.dest n).rto) % 2 ^ 32 ∧ t = { s with regs := t.regs }) ∧
  (∀ (s : State) (v : W32), v.toNat.testBit 0 = true → s.sldOn = false → ∃ t : State, exec (.sldCtrlEn v) s = .next t ∧
    t.reg Reg.SLD_CTRL = 1 ∧ t.flag Reg.SLD_STATUS 0 = true ∧ t.reg Reg.SLD_INCARNATION ≠ 0) ∧
  (∀ (s : State) (v : W32), v.toNat.testBit 0 = false → s.sldOn = true → ∃ t : State, exec (.sldCtrlEn v) s = .next t ∧
    t.reg Reg.SLD_CTRL = 0 ∧ t.flag Reg.SLD_STATUS 0 = false ∧ t.sld.srcs = [] ∧ (∀ n, (t.dest n).peerInc = 0) ∧
    t = { s with regs := t.regs, sld := t.sld }) ∧
  (∀ (s : State) (i : Issuer) (m ip : Nat), Taken s i 0x0501 → m < 64 → exec (.sldLocalSet i m ip) s =
    .next (({ s with sld := { s.sld with locals := s.sld.locals.put m (ip % 2 ^ 128) } } : State).answer i 0 0 [])) ∧
  (∀ (s : State) (i : Issuer) (n p0 p1 p2 p4 : Nat), Taken s i 0x0502 → n < 2 ^ 14 → p0 < 2 ^ 24 → p1 < 2 ^ 32 → p2 < 2 ^ 16 → p4 < 2 ^ 32 →
    p0.testBit 6 = false → ∃ e : SldPeer, e.mac = p0 % 64 ∧ e.valid = p0.testBit 7 ∧ e.v6 = false ∧ e.hop = p1 + 2 ^ 32 * p2 ∧ e.ip = p4 ∧
    exec (.sldPeerSet i n [p0, p1, p2, 0, p4, 0, 0, 0]) s =
      .next ((({ s with sld := { s.sld with peers := s.sld.peers.put n e } } : State).sldRun n).answer i 0 0 [])) ∧
  (∀ (s : State) (i : Issuer) (n : Nat), Taken s i 0x0503 → n < 2 ^ 14 →
    ((∃ p ∈ (s.dest n).pkts, p.op.ctx.isSome = true) → exec (.sldPeerReopen i n) s = .next (s.refuse i 8)) ∧
    ((∀ p ∈ (s.dest n).pkts, p.op.ctx = none) → (s.dest n).lost = true → exec (.sldPeerReopen i n) s =
      .next (((s.setDest n { s.dest n with lost := false, peerInc := 0, pkts := [] }).sldRunAll).answer i 0 0 []))) ∧
  (∀ (s : State) (i : Issuer) (fn d : Nat), Taken s i 0x0504 → fn < 1024 → d < 2 ^ 16 →
    exec (.sldFuncDomain i fn d) s = .next ((s.setFunc fn { s.func fn with domain := d }).answer i 0 0 []))

/-- R358 to R360, R367, R370, R374, R378 to R382: the home and the quorum. -/
def Obligations.SolderHomeAndQuorumWork : Prop :=
  (∀ (s v : State) (bs : List Byte) (ce ok : Bool) (h : SldHdr) (rs : List SldRec) (r : SldSrc), s.sldTake bs 0 ok = (v, some h) →
    1 ≤ h.ops → h.ops ≤ 16 → decodeSldOps h.ops (bs.drop 24) = some rs → v.sld.srcs.look h.src = some r →
    (r.inc = h.inc → h.peer = v.ownInc → h.seq = r.expected → exec (.solderRequestReceive bs ce ok) s = .next (v.sldAccept h rs ce)) ∧
    (r.inc = h.inc → h.peer = v.ownInc → h.seq ≠ r.expected → seqNewer 24 h.seq r.expected = true →
      exec (.solderRequestReceive bs ce ok) s = .next (v.sldGap h.src)) ∧
    (r.inc = h.inc → h.peer = v.ownInc → h.seq ≠ r.expected → seqNewer 24 h.seq r.expected = false → exec (.solderRequestReceive bs ce ok) s =
      .next ((h.accs false 0 rs).foldl (fun s a => s.sldDup a) (v.bump Reg.SLD_DUP_RX 1))) ∧
    (h.isOpen = true → r.inc ≠ h.inc → exec (.solderRequestReceive bs ce ok) s =
      .next ((v.setSrc h.src { inc := h.inc, expected := h.seq }).sldAccept h rs ce)) ∧
    (h.isOpen = false → (r.inc ≠ h.inc ∨ h.peer ≠ v.ownInc) → exec (.solderRequestReceive bs ce ok) s = .next (v.sldNak h.src 2 h.inc))) ∧
  (∀ (s : State) (h : SldHdr) (rs : List SldRec) (ce : Bool),
    (s.sld.acc.length + rs.length ≤ 65536 → ((s.sldAccept h rs ce).src h.src).expected = ((s.src h.src).expected + 1) % 2 ^ 24 ∧
      (s.sldAccept h rs ce).sld.acc.length = s.sld.acc.length + rs.length) ∧
    (65536 < s.sld.acc.length + rs.length → s.sldAccept h rs ce = s.bump Reg.SLD_RX_OVERFLOW 1)) ∧
  (∀ (s : State) (a : SldAcc), (s.sldDup a).tier = s.tier) ∧
  (∀ (s v : State) (k : Nat) (a : SldAcc), s.sld.acc[k]? = some a → sldBehind a (s.sld.acc.take k) = false → (a.loc = false ∨ s.sld.selfFenced = false) →
    s.sldStalled a = none → v = { s with sld := { s.sld with acc := s.sld.acc.eraseIdx k } } →
    (∀ t, v.sldLocate a.opc a.len a.off a.domain = .ok t → exec (.solderOpPerform k) s = .next (((v.sldPerform a t).sldRunAll).hostDone)) ∧
    (∀ e, v.sldLocate a.opc a.len a.off a.domain = .error e →
      exec (.solderOpPerform k) s = .next ((((v.sldKeep a e 0).sldReply a e []).sldRunAll).hostDone))) ∧
  (∀ (s : State) (a : SldAcc) (t : Nat), a.opc < 12 → s.sldForbidden a t = [] →
    (a.opc = 1 → s.sldPerform a t = (s.tierWrite t a.data).sldReply a 0 []) ∧
    (a.opc = 0 → s.poisonIn t a.len = none → s.sldPerform a t = s.sldReply a 0 (s.tierRead t a.len)) ∧
    (2 ≤ a.opc → s.poisonIn t a.len = none → ∀ old, old = fromLE (s.tierRead t a.len) → s.sldPerform a t =
      ((s.tierWrite t (toLE a.len (sldNew a.opc old (fromLE (a.data.take 8)) (fromLE (a.data.drop 8))))).sldKeep a 0 old).sldReply a 0 (toLE 8 old))) ∧
  (∀ (s : State) (opc len off dom : Nat), (12 < opc → s.sldLocate opc len off dom = .error 5) ∧
    (opc < 12 → off % (if opc = 11 then 4 else 8) ≠ 0 → s.sldLocate opc len off dom = .error 3) ∧
    (opc < 12 → off % (if opc = 11 then 4 else 8) = 0 → (∀ e ∈ s.sld.exports, e.2.holds off len = false) →
      s.sldLocate opc len off dom = .error 1)) ∧
  (∀ (s : State) (i : Issuer) (xs : List W32) (e : SldExport) (o : Obj) (k : Nat), Taken s i 0x0505 →
    e = { base := bits (nth 0 xs 0).toNat 20 0, shelves := bits (nth 0 xs 1).toNat 21 0, obj := bits (nth 0 xs 2).toNat 19 0, ogen := bits (nth 0 xs 3).toNat 15 0, domain := bits (nth 0 xs 3).toNat 31 16, rd := bit (nth 0 xs 4).toNat 0, wr := bit (nth 0 xs 4).toNat 1, at_ := bit (nth 0 xs 4).toNat 2, objShelf := bits (nth 0 xs 5).toNat 26 0 } →
    s.objFor (s.issuerFn i) e.obj e.ogen = .ok o → (s.issuerFn i = 0 ∨ e.domain = (s.func (s.issuerFn i)).domain) → 1 ≤ e.shelves → e.shelves ≤ 2097152 →
    o.st = .ready → e.objShelf + e.shelves ≤ o.shelves → e.base + e.shelves ≤ 2097152 →
    s.sldOverlap e.base e.shelves = false → ((e.wr = false ∧ e.at_ = false) ∨ o.policy = .pinned) →
    lowestFree 1024 (fun k => (s.sld.exports.look k).isSome) = some k →
    exec (.sldExportAdd i xs) s = .next (({ s with sld := { s.sld with exports := s.sld.exports.put k e } } : State).answer i 0 0 [k])) ∧
  (∀ (s : State) (i : Issuer) (k : Nat) (e : SldExport), Taken s i 0x0506 → s.sld.exports.look k = some e →
    (s.issuerFn i = 0 ∨ (s.obj e.obj).fn = s.issuerFn i) → exec (.sldExportDel i k) s = .next ((s.sldDropExport k).answer i 0 0 []) ∧
    ((∀ a ∈ s.sld.acc, s.sldStalled a = none) → (s.sldDropExport k) = { s with sld := { s.sld with exports := s.sld.exports.del k } })) ∧
  (∀ (s : State) (i : Issuer) (n : Nat) (keys : List (List Byte)), Taken s i 0x0507 → keys.length ≤ 8 → 2 ≤ n → n ≤ keys.length → (∀ k ∈ keys, k.length = 57) →
    (s.sld.keys ≠ [] → exec (.sldQuorumKeys i n keys) s = .next (s.refuse i 5)) ∧
    (s.sld.keys = [] → exec (.sldQuorumKeys i n keys) s = .next ((((({ s with sld := { s.sld with keys := keys, threshold := n } } : State).setReg
      Reg.SLD_QUORUM_CFG (keys.length + 16 * n)).setField Reg.SLD_STATUS 2 2 1).measure 8 3 (keys.length + 16 * n)
        (shake256 (keys.flatten ++ toLE 1 n) 64)).answer i 0 0 []))) ∧
  (∀ (s : State) (fn m : Nat) (cmd : List Byte), (s.box (.mbox fn m)).busy = true → (s.box (.mbox fn m)).command = 0x0508 → s.served (.mbox fn m) = true →
    (∀ e ∈ s.sld.quorum, e.1 ≠ .mailbox fn m) →
    exec (.sldFence (.mbox fn m) cmd) s = .next { s with sld := { s.sld with quorum := s.sld.quorum ++ [(.mailbox fn m, cmd)] } }) ∧
  (∀ (s v : State) (bs : List Byte) (v6 ok : Bool) (ip port : Nat) (h : SldHdr), s.sldTake bs 3 ok = (v, some h) →
    (v.boot.phase = .running → exec (.solderControlReceive bs v6 ip port ok) s =
      .next { v with sld := { v.sld with quorum := v.sld.quorum ++ [(.packet h.src v6 ip port, bs.drop 24)] } }) ∧
    (v.boot.phase ≠ .running → exec (.solderControlReceive bs v6 ip port ok) s = .next (v.bump Reg.SLD_QUORUM_REJECT 1))) ∧
  (∀ (s v : State) (q : QuorumFrom) (bs : List Byte) (rest : List (QuorumFrom × List Byte)) (r op tgt c : Nat), s.sld.quorum = (q, bs) :: rest →
    v = { s with sld := { s.sld with quorum := rest } } → s.boot.phase = .running → r = v.quorumResult bs → op = (nth 0 bs 1).toNat → tgt = fromLE ((bs.drop 4).take 2) →
    c = fromLE ((bs.drop 8).take 8) →
    (s.sld.keys ≠ [] → bs = s.sld.lastCmd → exec .quorumVerifyDone s = .next (v.quorumReply q 0)) ∧
    ((s.sld.keys = [] ∨ bs ≠ s.sld.lastCmd) → r ≠ 0 → exec .quorumVerifyDone s = .next ((v.bump Reg.SLD_QUORUM_REJECT 1).quorumReply q r)) ∧
    ((s.sld.keys = [] ∨ bs ≠ s.sld.lastCmd) → r = 0 → exec .quorumVerifyDone s = .next ((((({ v with sld := { v.sld with lastCmd := bs } } : State).setReg64
      Reg.SLD_QUORUM_SEQ c).quorumReply q 0).quorumApply op tgt).pfEvent 0x011D op tgt (c % 2 ^ 32) (c / 2 ^ 32)))) ∧
  (∀ (s : State) (bs : List Byte), s.sld.keys = [] → s.quorumResult bs = 7) ∧
  (∀ (s : State) (x : Nat), (s.quorumApply 1 x).expelled x = true ∧ (s.quorumApply 2 x).expelled x = false ∧ (s.quorumApply 3 x).sld.selfFenced = true ∧
    (s.quorumApply 4 x).sld.selfFenced = false ∧ ∀ n, (s.quorumApply 5 x).expelled n = false)

/-! ### Queues, mailboxes and functions (R386 to R422) -/

/-- R391 to R399, R405, R406, R410: rings. -/
def Obligations.QueuesRingAndPost : Prop :=
  (∀ (s : State) (fn i q : Nat), s.poolQueue fn i = some q → q < 262144 → (s.queue q).en = true → (s.queue q).fn = fn → s.doorbell fn i = (s, some q)) ∧
  (∀ (s v : State) (fn i x y q : Nat), s.doorbell fn i = (v, some q) → (v.queue q).en = true → y = x % 2 ^ 32 →
    ((v.queue q).hostProduced = true → seqStale 32 y (v.queue q).prod = false → (y + 2 ^ 32 - (v.queue q).cons) % 2 ^ 32 ≤ 2 ^ (v.queue q).logSize →
      exec (.doorbellCount fn i x) s = .next (v.setQueue q { v.queue q with prod := y })) ∧
    ((v.queue q).hostProduced = false → seqStale 32 y (v.queue q).cons = false → ((v.queue q).prod + 2 ^ 32 - y) % 2 ^ 32 ≤ 2 ^ (v.queue q).logSize →
      exec (.doorbellCount fn i x) s = .next (v.setQueue q { v.queue q with cons := y })) ∧
    ((v.queue q).hostProduced = true → (seqStale 32 y (v.queue q).prod = true ∨ 2 ^ (v.queue q).logSize < (y + 2 ^ 32 - (v.queue q).cons) % 2 ^ 32) →
      exec (.doorbellCount fn i x) s = .next (v.bump (Reg.QUE_BAD_DOORBELL q) 1)) ∧
    ((v.queue q).hostProduced = false → seqNewer 32 (v.queue q).prod x = true →
      exec (.doorbellArm fn i x) s = .next ((v.setQueue q { v.queue q with armed := false }).fire (v.queue q).fn (v.queue q).vector)) ∧
    ((v.queue q).hostProduced = false → seqNewer 32 (v.queue q).prod x = false →
      exec (.doorbellArm fn i x) s = .next (v.setQueue q { v.queue q with armed := true, since := 0 }))) ∧
  (∀ (s : State) (q : Nat), (s.queue q).en = true → (s.queue q).armed = true → (s.queue q).since ≠ 0 → (s.queue q).coalUs ≠ 0 →
    exec (.coalTimer q) s = .next ((s.setQueue q { s.queue q with armed := false }).fire (s.queue q).fn (s.queue q).vector)) ∧
  (∀ (s : State) (q fault : Nat) (r : PostRec), s.host.outbox.find? (fun r => r.queue == q) = some r →
    (r.use.isTask = false → exec (.recordPost q fault) s = .next (s.postRec r fault)) ∧
    (r.use.isTask = true → exec (.completionRecordPost q fault) s = .next (s.postRec r fault))) ∧
  (∀ (s v : State) (r : PostRec), v = { s with host := { s.host with outbox := s.host.outbox.erase r } } → r.gen = (s.func r.fn).gen →
    (s.boot.phase = .running ∨ r.use ≠ .event) → (s.queue r.queue).en = true → (s.queue r.queue).fn = r.fn → (s.queue r.queue).failed = false →
    ((s.queue r.queue).held ≠ 2 ^ (s.queue r.queue).logSize → s.postRec r 0 = v.writeRec r) ∧
    ((s.queue r.queue).held = 2 ^ (s.queue r.queue).logSize → r.use = .event →
      s.postRec r 0 = (v.bump Reg.CAB_EVENT_DROP 1).bump (Reg.QUE_DROPS r.queue) 1)) ∧
  (∀ (s : State) (r : PostRec) (fault : Nat), r.gen ≠ (s.func r.fn).gen →
    s.postRec r fault = (({ s with host := { s.host with outbox := s.host.outbox.erase r } } : State).staleDrop r.fn).discard r) ∧
  (∀ (s u : State) (r : PostRec), u = (s.devWrite (s.queue r.queue).fn ((s.queue r.queue).base + (s.queue r.queue).prod % 2 ^ (s.queue r.queue).logSize * 32)
      (s.postBytes r)).devWrite (s.queue r.queue).fn (s.queue r.queue).wb (toLE 4 (((s.queue r.queue).prod + 1) % 2 ^ 32)) →
    (s.writeRec r).tier = u.tier ∧ (s.writeRec r).hostOut = u.hostOut ∧ ((s.writeRec r).queue r.queue).prod = ((s.queue r.queue).prod + 1) % 2 ^ 32) ∧
  (∀ (s : State) (q : Nat) (d : ExtData), (s.queue q).en = true → (s.queue q).hostProduced = true → (s.queue q).failed = false →
    ((s.queue q).prod = (s.queue q).cons → exec (.queueEntryFetch q d true) s =
      .next (s.devWrite (s.queue q).fn (s.queue q).wb (toLE 4 (s.queue q).cons))) ∧
    (∀ bs, s.ringEntry q (s.queue q).cons (entryBytes (s.queue q).typ) d = some bs → exec (.queueEntryFetch q d true) s =
      .next (s.devWrite (s.queue q).fn (s.queue q).wb (toLE 4 (s.queue q).cons))) ∧
    ((s.queue q).prod ≠ (s.queue q).cons → s.ringEntry q (s.queue q).cons (entryBytes (s.queue q).typ) d = none →
      exec (.queueEntryFetch q d true) s = .next (s.failQueue q 0)) ∧
    ((s.queue q).prod = (s.queue q).cons → exec (.queueEntryFetch q d false) s = .next (s.failQueue q 2))) ∧
  (∀ (s : State) (q : Nat) (entry src : ExtData) (bs : List Byte) (f : Func), (s.queue q).en = true → (s.queue q).typ = 5 → (s.queue q).failed = false →
    (s.queue q).blocked = false → (s.queue q).prod ≠ (s.queue q).cons → s.sldStores q < 16 → s.ringEntry q (s.queue q).cons 64 entry = some bs →
    f = s.func (s.queue q).fn → f.domain ≠ 0 → ∀ opc, opc = bits (word32At bs 0) 3 0 → 2 ≤ opc → ∃ (e : SldEntry) (o : SldOp), e.queue = q ∧ e.opc = opc ∧
      e.cookie = word64At bs 40 ∧ e.gen = f.gen ∧ o.who = .host q e.id ∧ o.node = word32At bs 1 % 2 ^ 14 ∧ o.off = word64At bs 8 % 2 ^ 42 ∧
      o.domain = f.domain ∧ o.opc = opc ∧ exec (.solderQueueEntry q entry src) s =
        .next (({ s.consume q with sld := { s.sld with entries := s.sld.entries ++ [e], nextEntry := s.sld.nextEntry + 1 } } : State).sldIssue o)) ∧
  (∀ (s : State) (q buf : Nat) (entry : ExtData) (h : MbxHeader) (bs : List Byte), (s.queue q).en = true → (s.queue q).typ = 6 → (s.queue q).failed = false →
    (s.queue q).blocked = false → (s.queue q).prod ≠ (s.queue q).cons → s.host.mbxq = none → s.boot.phase = .running →
    s.ringEntry q (s.queue q).cons 32 entry = some bs → buf = word64At bs 0 % 2 ^ 57 → spaceOf buf = 1 → offOf buf + 4096 ≤ 2 ^ 48 →
    ∃ e : MbxqEntry, e.queue = q ∧ e.buf = buf ∧ e.cookie = word64At bs 8 ∧ exec (.mailboxQueueEntry q entry h) s =
      .next ((({ s.consume q with host := { (s.consume q).host with mbxq := some e } } : State).setBox (.queue q) {}).takeCommand (.queue q) h
        (bits h.h1.toNat 15 0)))

/-- R401, R402, R414 to R422: commands of queues and mailboxes. -/
def Obligations.QueuesAndMailboxesAreServed : Prop :=
  (∀ (s : State) (i : Issuer) (idx q typ kind logSize base wb pair vec cc cu : Nat) (a : QueArgs), Taken s i 0x0101 → s.poolQueue (s.issuerFn i) idx = some q →
    typ < 3 → a = { typ := typ, kind := kind, logSize := logSize, base := base, wb := wb, pair := pair, vector := vec, coalCount := cc, coalUs := cu, typeCfg := 0, persist := false } →
    s.queBad (s.issuerFn i) (s.box i).version a = false → (s.issuerFn i = 0 → s.pfMay q = true) → (s.queue q).en = false → ∃ t : State,
      exec (.queCreate i idx typ kind logSize base wb pair vec cc cu 0 false) s = .next (t.answer i 0 0 []) ∧
      t.queue q = { en := true, typ := typ, kind := if typ = 1 then kind else 0, fn := s.issuerFn i, logSize := logSize, vector := vec, base := base, wb := wb, coalCount := cc, coalUs := cu } ∧
      (∀ k, k ≠ q → t.queue k = s.queue k) ∧ t = { s with host := { s.host with queues := t.host.queues, pfBlocks := t.host.pfBlocks } }) ∧
  (∀ (s : State) (i : Issuer) (idx q : Nat), Taken s i 0x0102 → s.poolQueue (s.issuerFn i) idx = some q → (s.queue q).en = true →
    (s.queue q).fn = s.issuerFn i → s.paired q = false → (∀ c ∈ s.liveCtxs, c.2.evq ≠ q) → s.cqTask q = false →
    exec (.queDestroy i idx) s = .next ((s.stopQueue q).answer i 0 0 []) ∧ (s.stopQueue q).queue q = {}) ∧
  (∀ (s : State) (i : Issuer) (idx q : Nat), Taken s i 0x0103 → s.poolQueue (s.issuerFn i) idx = some q → ((s.queue q).en = false ∨ (s.queue q).fn = s.issuerFn i) →
    exec (.queQuery i idx) s = .next (s.answer i 0 0 (s.queWords q ++ [s.reg (Reg.QUE_DROPS q), s.reg (Reg.QUE_DROPS q + 4),
      s.reg (Reg.QUE_BAD_DOORBELL q), s.reg (Reg.QUE_BAD_DOORBELL q + 4)]))) ∧
  (∀ (s : State) (fn m seq : Nat) (h : MbxHeader), s.mboxExists (.mbox fn m) = true → seq < 2 ^ 16 →
    ((s.box (.mbox fn m)).busy = true → exec (.mbxDoorbell fn m seq h) s = .next (s.bump (Reg.VF_MBX_IGNORED fn) 1)) ∧
    ((s.box (.mbox fn m)).busy = false → seq = (s.box (.mbox fn m)).last → exec (.mbxDoorbell fn m seq h) s = .next (s.raiseBox (.mbox fn m))) ∧
    ((s.box (.mbox fn m)).busy = false → seq ≠ (s.box (.mbox fn m)).last → seq = ((s.box (.mbox fn m)).last + 1) % 2 ^ 16 → bits h.h1.toNat 15 0 = seq →
      exec (.mbxDoorbell fn m seq h) s = .next (s.takeCommand (.mbox fn m) h seq)) ∧
    ((s.box (.mbox fn m)).busy = false → seq ≠ (s.box (.mbox fn m)).last → (seq ≠ ((s.box (.mbox fn m)).last + 1) % 2 ^ 16 ∨ bits h.h1.toNat 15 0 ≠ seq) →
      exec (.mbxDoorbell fn m seq h) s = .next ((s.setBox (.mbox fn m) { s.box (.mbox fn m) with status := 4 }).raiseBox (.mbox fn m)))) ∧
  (∀ (s : State) (i : Issuer) (h : MbxHeader) (seq : Nat), s.served i = false →
    s.takeCommand i h seq = s.setBox i { s.box i with busy := true, command := 0, seq := seq, header := some h }) ∧
  (∀ (s v : State) (i : Issuer) (h : MbxHeader) (seq : Nat), s.served i = true → v = (s.setBox i { s.box i with busy := true, version := bits h.h0.toNat 7 0, command := bits h.h0.toNat 31 16, seq := seq, header := none }).bump
      (Reg.VF_MBX_CMDS (s.issuerFn i)) 1 →
    (v.takenStatus i h = 0 → s.takeCommand i h seq = v) ∧ (v.takenStatus i h ≠ 0 → s.takeCommand i h seq = v.answer i (v.takenStatus i h) 0 [])) ∧
  (∀ (s : State) (i : Issuer) (h : MbxHeader), bits h.h0.toNat 7 0 ≠ 1 → bits h.h0.toNat 7 0 ≠ 2 → s.takenStatus i h = 1) ∧
  (∀ (s : State) (i : Issuer), Taken s i 0x0001 → exec (.mbxNop i) s = .next (s.answer i 0 0 [])) ∧
  (∀ (s : State) (i : Issuer), Taken s i 0x0002 → exec (.mbxVersion i) s = .next (s.answer i 0 0 [1, 2, s.version])) ∧
  (∀ (s : State) (fn m st dt : Nat) (body : List Nat), (s.box (.mbox fn m)).mute = false → (s.box (.mbox fn m)).version ≠ 1 →
    (s.answer (.mbox fn m) st dt body).box (.mbox fn m) =
      { s.box (.mbox fn m) with busy := false, status := st, last := (s.box (.mbox fn m)).seq, detail := dt, reply := body })

/-- R386, R408 to R413, R423: functions and the link. -/
def Obligations.FunctionsComeAndGo : Prop :=
  (∀ (s : State) (i : Issuer) (n qs vs cs sh la hbm ca ob jo mm tx rx qb vb : Nat) (f : Func), Taken s i 0x0110 →
    f = { st := .active, enabled := true, gen := (s.func n).gen, qcount := qs, vectors := vs, contexts := cs, shareGran := sh, latchGran := la, hbm := hbm, cacheAllow := some ca, objects := ob, bronzeJobs := jo, macMask := mm, txRate := tx, rxFilters := rx, txCredit := 8388608000, txAt := s.clk } →
    vfRanges n f ca = true → (s.func n).st = .absent → s.freeQueues qs = some qb → s.freeVectors vs = some vb → s.vfFits f = true →
    exec (.vfCreate i n qs vs cs sh la hbm ca ob jo mm tx rx) s = .next ((s.setFunc n { f with qbase := qb, vec0 := vb }).answer i 0 0 [])) ∧
  (∀ (s : State) (n b : Nat), s.freeQueues n = some b → 2048 ≤ b ∧ b + n ≤ 262144 ∧ ∀ e ∈ s.vfs, b + n ≤ e.2.qbase ∨ e.2.qbase + e.2.qcount ≤ b) ∧
  (∀ (s : State) (i : Issuer) (n : Nat), Taken s i 0x0112 → 0 < n → n < 1024 → exec (.vfQuery i n) s = .next (s.answer i 0 0 (s.vfWords n))) ∧
  (∀ (s : State) (i : Issuer) (n : Nat), Taken s i 0x0111 → 0 < n → n < 1024 → ((s.func n).st = .active ∨ (s.func n).st = .resetting) → s.installing n = false →
    exec (.vfDestroy i n) s = .next ((s.resetVf n true).answer i 0 0 [])) ∧
  (∀ (s : State) (n : Nat) (all : Bool), ((s.resetVf n all).func n).gen = ((s.func n).gen + 1) % 2 ^ 16 ∧
    ∀ k, k ≠ n → ((s.resetVf n all).func k).gen = (s.func k).gen) ∧
  (∀ (s : State) (fn : Option Nat), s.boot.phase ≠ .held → exec (.vfFlr fn) s = .next (s.flr fn)) ∧
  (∀ (s : State) (fn : Option Nat), s.boot.phase = .held → exec (.vfFlr fn) s = .next (s.cause 8)) ∧
  (∀ (s : State) (n : Nat), n ≠ 0 → (s.func n).st = .active → (s.host.funcs.map (·.1)).Nodup →
    s.flr (some n) = (s.cause 8).resetVf n false) ∧
  (∀ (s : State), s.boot.phase ≠ .held → exec .pfFlr s = .next ((s.cause 7).resetPf)) ∧
  (∀ (s : State), s.boot.phase = .held → exec .pfFlr s = .next (s.cause 7)) ∧
  (∀ (s : State), (s.resetPf.func 0).gen = ((s.func 0).gen + 1) % 2 ^ 16) ∧
  (∀ (s : State) (b : Nat), b < 32 → (s.cause b).flag Reg.RST_CAUSE b = true ∧ ∀ k, k ≠ b → (s.cause b).flag Reg.RST_CAUSE k = s.flag Reg.RST_CAUSE k) ∧
  (∀ (s : State), (s.boot.phase = .running ∨ s.boot.phase = .restarting) → exec .hotReset s = .next ((s.cause 6).resetLink.resetPf)) ∧
  (∀ (s : State), (s.boot.phase = .rom ∨ s.boot.phase = .awaiting) →
    exec .hotReset s = .next (({ s.cause 6 with boot := { s.boot with stage := none } } : State).resetLink.resetPf)) ∧
  (∀ (s : State), s.resetLink.reg Reg.PCI_LINK_STATUS = 0 ∧ s.resetLink.host.msix = [] ∧ s.resetLink.host.pba = [] ∧ s.resetLink.host.bar4Log = 30) ∧
  (∀ (s : State) (speed width : Nat) (flit : Bool), s.boot.phase = .running → 1 ≤ speed → speed ≤ 6 → speed ≤ (s.item 0x50001).getD 6 → (width = 8 ∨ width = 16) →
    width ≤ (s.item 0x50002).getD 16 → exec (.pcieLinkTrained speed width flit) s =
      .next (s.setReg Reg.PCI_LINK_STATUS (speed + 8 * width + (if flit = true then 256 else 0))))

/-! ### Reset and firmware (R423 to R446, R470 to R474, R487, R488) -/

/-- R423 to R429, R434, R446, R487, R488: resets. -/
def Obligations.PackageResetsAndReleases : Prop :=
  (∀ s : State, ∃ t : State, exec .powerOn s = .next t ∧ t.boot = {} ∧ t.pending = s.pending ∧ t.ctxs = [] ∧ t.host = State.reset.host ∧
    ∀ a, (∀ n, n < 32 → a ≠ Reg.NAND_BAD_BLOCKS n ∧ a ≠ Reg.SBD_SVC_NAND n) → t.reg a = State.reset.reg a) ∧
  (∀ s : State, s.fullReset.boot.phase = .held ∧ s.fullReset.boot.debug = s.boot.debug ∧ s.fullReset.pending = s.pending ∧ s.fullReset.ctxs = [] ∧
    s.fullReset.reg Reg.RST_CAUSE = s.reg Reg.RST_CAUSE ∧ (s.savedObjs = [] → s.fullReset.tier = []) ∧
    ∀ a, keptReg a = false → (∀ n, n < 32 → a ≠ Reg.SBD_SVC_NAND n) → s.fullReset.reg a = State.reset.reg a) ∧
  (∀ (s : State) (n : Nat), (n < 250 → exec (.resetNAssert n) s = .next s) ∧ (n < 25 → exec (.perstNAssert n) s = .next s)) ∧
  (∀ (s : State) (n : Nat), s.boot.phase ≠ .held → (250 ≤ n → exec (.resetNAssert n) s = .next ((s.cause 1).fullReset.bump Reg.RST_FULL_COUNT 1)) ∧
    (25 ≤ n → s.flag Reg.RST_SCOPE 0 = false → exec (.perstNAssert n) s = .next ((s.cause 2).fullReset.bump Reg.RST_FULL_COUNT 1)) ∧
    (25 ≤ n → s.flag Reg.RST_SCOPE 0 = true → exec (.perstNAssert n) s = .next ((s.cause 2).resetLink.resetPf))) ∧
  (∀ (s : State) (n : Nat), s.boot.phase = .held → (250 ≤ n → exec (.resetNAssert n) s = .next (s.cause 1)) ∧
    (25 ≤ n → exec (.perstNAssert n) s = .next (s.cause 2))) ∧
  (∀ (s : State) (v : W32), (bits v.toNat 31 16 = 0xD1E5 → v.toNat.testBit 0 = true → s.boot.phase ≠ .held →
      exec (.rstFull v) s = .next ((s.cause 3).fullReset.bump Reg.RST_FULL_COUNT 1)) ∧
    ((bits v.toNat 31 16 ≠ 0xD1E5 ∨ v.toNat.testBit 0 = false) → exec (.rstFull v) s = .next s)) ∧
  (∀ s : State, ∃ t : State, exec .thermalTrip s = .next t ∧ t.boot.trip = true ∧ t.driven .thermtrip = true ∧
    (s.boot.phase ≠ .held → ∃ u, u = (s.cause 4).fullReset.bump Reg.RST_FULL_COUNT 1 ∧ t = { u with boot := { u.boot with trip := true } })) ∧
  (∀ (s : State) (k uv ns : Nat), k < 16 → (2000 < ns → uv < s.railLow k → (s.boot.trip = false ∨ 14 ≤ k) →
      exec (.railUndervoltage k uv ns) s = .next s.powerOn) ∧
    ((ns ≤ 2000 ∨ s.railLow k ≤ uv) → exec (.railUndervoltage k uv ns) s = .next s)) ∧
  (∀ (s : State) (code : Nat) (stackNos dies : List Nat),
    (s.boot.phase = .held → s.boot.trip = false → exec (.resetRelease code stackNos dies) s = .next (s.release code stackNos dies)) ∧
    ((s.boot.phase ≠ .held ∨ s.boot.trip = true) → exec (.resetRelease code stackNos dies) s = .next s) ∧
    (s.boot.trip = true → exec (.tripHoldEnd false code stackNos dies) s = .next (s.release code stackNos dies)) ∧
    exec (.tripHoldEnd true code stackNos dies) s = .next s) ∧
  (∀ (s : State) (code : Nat) (stackNos dies : List Nat), (s.release code stackNos dies).boot.phase = .rom ∧ (s.release code stackNos dies).boot.trip = false ∧
    (s.release code stackNos dies).boot.badStacks = stackNos ∧ (s.release code stackNos dies).time = 0 ∧
    (s.release code stackNos dies).reg Reg.RST_STRAP = strapOf code % 2 ^ 32)

/-- R438 to R445, R470 to R474: firmware. -/
def Obligations.FirmwareLoadsAndRestarts : Prop :=
  (∀ (s : State) (i : Issuer) (total : Nat) (names : List Nat), Taken s i 0x0601 → 4 ≤ s.goodStacks.length → total ≤ 268435456 →
    (s.choice = 0 ∨ ∀ n ∈ names, n = 0xFF) → exec (.fwLoadBegin i total names) s =
      .next (({ s with boot := { s.boot with stage := some { total := total, names := names.take 4 } } } : State).answer i 0 0 [])) ∧
  (∀ (s : State) (i : Issuer) (off mode : Nat) (bs : List Byte) (g : Stage), Taken s i 0x0602 → s.boot.stage = some g → off + bs.length ≤ g.total →
    bs ≠ [] → ((mode = 0 ∧ bs.length ≤ 4048) ∨ (mode = 1 ∧ (s.box i).version ≠ 1 ∧ bs.length ≤ 16777216)) →
    exec (.fwLoadChunk i off bs.length mode (.data bs)) s =
      .next (({ s with boot := { s.boot with stage := some { g with data := Mem.write g.data off bs } } } : State).answer i 0 0 [])) ∧
  (∀ (s v : State) (i : Issuer) (gib : Nat) (cert : List Byte) (g : Stage), Taken s i 0x0603 → s.boot.stage = some g →
    v = { s with boot := { s.boot with stage := none } } →
    (s.boot.phase = .rom → exec (.fwLoadEnd i gib cert) s = .next (match s.checkBundle g with
      | .error e => v.refuse i e
      | .ok b => (v.firstStart b gib cert).answer i 0 0 [])) ∧
    (s.boot.phase = .awaiting → exec (.fwLoadEnd i gib cert) s = .next (match s.checkBundle g with
      | .error e => v.refuse i e
      | .ok b => if s.sameConfig b = true then v.beginRestart { cause := 2, issuer := some i, bundle := some b } else v.refuse i 6)) ∧
    (s.boot.phase = .running → exec (.fwLoadEnd i gib cert) s = .next (match s.checkBundle g with
      | .error e => v.refuse i e
      | .ok b => ({ v with boot := { v.boot with held := some b } } : State).answer i 0 0 []))) ∧
  (∀ (s : State) (i : Issuer) (items : List Nat), Taken s i 0x0610 → items.length ≤ 500 →
    (s.boot.bundle = none → exec (.cfgQuery i items) s = .next (s.answer i 0 0 ([s.reg Reg.RST_STRAP, 2 ^ 32 - 1] ++
      items.map (fun k => (s.item k).getD (2 ^ 32 - 1)) ++ List.replicate 16 0))) ∧
    (∀ b, s.boot.bundle = some b → exec (.cfgQuery i items) s = .next (s.answer i 0 0 ([s.reg Reg.RST_STRAP,
      fromLE ((b.overlays ++ List.replicate 4 0xFF).take 4 |>.map (BitVec.ofNat 8))] ++
      items.map (fun k => (s.item k).getD (2 ^ 32 - 1)) ++ (List.range 16).map fun j => leAt b.config (4 * j))))) ∧
  (∀ (s : State) (i : Issuer) (b : RstBlock), Taken s i 0x0611 → s.blockOk b = true →
    (s.blockHeld b = false → s.holdBusy b = false → exec (.rstBlock i b true) s = .next ((s.holdBlock b).answer i 0 0 [])) ∧
    (s.blockHeld b = false → s.holdBusy b = true → exec (.rstBlock i b true) s = .next (s.refuse i 8)) ∧
    (s.blockHeld b = true → exec (.rstBlock i b false) s = .next ((s.releaseBlock b).answer i 0 0 [])) ∧
    (s.blockHeld b = false → exec (.rstBlock i b false) s = .next (s.answer i 0 0 []))) ∧
  (∀ (s : State) (b : RstBlock), s.blockOk b = true → (s.holdBlock b).blockHeld b = true) ∧
  (∀ (s : State) (i : Issuer), Taken s i 0x0805 → s.boot.phase = .running →
    (s.boot.imageLost = false → exec (.fwRestart i 0) s = .next (s.beginRestart { cause := 1, issuer := some i })) ∧
    (∀ b, s.boot.held = some b → s.sameConfig b = true →
      exec (.fwRestart i 1) s = .next (s.beginRestart { cause := 2, issuer := some i, bundle := some b })) ∧
    (s.boot.held = none → exec (.fwRestart i 1) s = .next (s.refuse i 8))) ∧
  (∀ (s v : State) (ts : List Nat), s.boot.phase = .running → ts = s.recent s.boot.expiries ++ [s.clk] →
    v = (s.cause 5).bump Reg.RST_WDT_COUNT 1 → ∃ u : State, u = { v with boot := { v.boot with expiries := ts } } ∧
    (ts.length < 3 → s.boot.imageLost = false → exec .watchdogExpiry s = .next (u.beginRestart { cause := 0 })) ∧
    ((3 ≤ ts.length ∨ s.boot.imageLost = true) → exec .watchdogExpiry s = .next u.await)) ∧
  (∀ (s : State) (r : Restart), (s.beginRestart r) = { s with boot := { s.boot with phase := .restarting, restart := some r } }) ∧
  (∀ (s : State) (r : Restart), s.boot.phase = .restarting → s.boot.restart = some r → (s.boot.imageLost = false ∨ r.bundle ≠ none) → s.finishRestart.boot.phase = .running)

/-! ### Worlds, identity and attestation (R447 to R461) -/

/-- R450 to R460: filters, identity, log and report. -/
def Obligations.FiltersIdentityAndReport : Prop :=
  (∀ (s : State) (i : Issuer) (f flags base limit : Nat), Taken s i 0x0702 → f ≤ 63 → base % 4096 = 0 → limit % 4096 = 0xFFF → base ≤ limit → limit < 2 ^ 48 →
    (∃ t : State, exec (.secRegionSet i f 0 flags base limit) s = .next (t.answer i 0 0 []) ∧ t.reg (Reg.SEC_RF_CFG f) = 1 + 2 * (flags % 4) ∧
      t.reg64 (Reg.SEC_RF_BASE f) = base ∧ t.reg64 (Reg.SEC_RF_LIMIT f) = limit ∧ t = { s with regs := t.regs }) ∧
    exec (.secRegionSet i f 1 flags base limit) s = .next ((s.setField (Reg.SEC_RF_CFG f) 0 0 0).answer i 0 0 []) ∧
    exec (.secRegionSet i f 2 flags base limit) s = .next (s.answer i 0 0 [s.reg (Reg.SEC_RF_CFG f), s.reg (Reg.SEC_RF_BASE f), s.reg (Reg.SEC_RF_BASE f + 4),
      s.reg (Reg.SEC_RF_LIMIT f), s.reg (Reg.SEC_RF_LIMIT f + 4), s.reg (Reg.SEC_RF_VIOL f), s.reg (Reg.SEC_RF_VIOL f + 4), s.reg Reg.SEC_VIOL_TOTAL,
      s.reg (Reg.SEC_VIOL_TOTAL + 4), s.reg Reg.SEC_VIOL_LAST, s.reg Reg.SEC_VIOL_ADDR, s.reg (Reg.SEC_VIOL_ADDR + 4)])) ∧
  (∀ (s : State) (ok : Bool), s.flag Reg.SEC_STATUS 1 = true → ∃ t : State, exec (.identityDerivation ok) s = .next t ∧ t.flag Reg.SEC_STATUS 1 = false ∧
    t.flag Reg.SEC_STATUS 0 = ok ∧ t = { s with regs := t.regs }) ∧
  (∀ (s : State), ∃ t : State, exec .debugAccess s = .next t ∧ t.boot.debug = true ∧ t.field Reg.SEC_STATUS 2 0 = 4 ∧
    t.boot.chain = shake256 (s.boot.chain ++ (⟨10, 3, 1, List.replicate 64 0⟩ : LogEntry).bytes) 64 ∧ t = { s with boot := t.boot, regs := t.regs }) ∧
  (∀ (s : State) (k c d : Nat) (g : List Byte), (s.measure k c d g).boot.chain = shake256 (s.boot.chain ++ (⟨k, c, d, g⟩ : LogEntry).bytes) 64 ∧
    (s.boot.log.length < 256 → (s.measure k c d g).boot.log = s.boot.log ++ [⟨k, c, d, g⟩] ∧ (s.measure k c d g).measured k = g) ∧
    (256 ≤ s.boot.log.length → (s.measure k c d g).boot.log = s.boot.log ∧ (s.measure k c d g).flag Reg.SEC_STATUS 3 = true)) ∧
  (∀ (s : State) (i : Issuer) (nonce r : List Byte) (first count : Nat), Taken s i 0x0701 → count ≤ 40 →
    (s.flag Reg.SEC_STATUS 0 = true → r = s.reportBytes (s.issuerFn i) nonce first count →
      exec (.attReport i nonce first count) s = .next (s.answer i 0 0 (wordsOfBytes (r ++ ed448Sign Config.identitySeed r)))) ∧
    (s.flag Reg.SEC_STATUS 0 = false → exec (.attReport i nonce first count) s = .next (s.refuse i 10))) ∧
  (∀ (s : State) (fn first count : Nat) (nonce : List Byte), (∀ e ∈ s.boot.log, e.digest.length = 64) → s.boot.chain.length = 64 →
    (s.reportBytes fn nonce first count).length = 768 + 72 * min count (s.boot.log.length - min first s.boot.log.length))

/-- R453, R454, R459: SPDM. The layouts of the messages are PRESUMED (log 31). -/
def Obligations.SpdmRequestsAreAnswered : Prop :=
  (∀ (s : State) (req : List Byte), (s.boot.phase ≠ .running ∨ s.flag Reg.SEC_STATUS 1 = true) → s.spdmRefusal req = some [0x12, 0x7F, 3, 0]) ∧
  (∀ (s : State) (req : List Byte), s.boot.phase = .running → s.flag Reg.SEC_STATUS 1 = false →
    (s.flag Reg.SEC_STATUS 0 = false → s.spdmRefusal req = some [0x12, 0x7F, 5, 0]) ∧
    (s.flag Reg.SEC_STATUS 0 = true → spdmCode req ≠ 0x84 → nth 0 req 0 = 0x12 → s.spdmRefusal req = none)) ∧
  (∀ (s : State) (req e : List Byte), s.boot.phase ≠ .held → s.spdmRefusal req = some e →
    (spdmCode req = 0x84 → exec (.getVersion req) s = .next (s.spdmOut e)) ∧ (spdmCode req = 0x83 → exec (.challenge req) s = .next (s.spdmOut e)) ∧
    (spdmCode req = 0xE0 → exec (.getMeasurements req) s = .next (s.spdmOut e)) ∧ (spdmCode req = 0xEE → exec (.setCertificate req) s = .next (s.spdmOut e))) ∧
  (∀ (s : State) (req : List Byte), s.boot.phase = .running → s.spdmRefusal req = none →
    (spdmCode req = 0x84 → ∃ t : State, exec (.getVersion req) s = .next t ∧ t.boot.spdm.out = s.boot.spdm.out ++ [[0x10, 0x04, 0, 0, 0, 1, 0, 0x12]] ∧
      t.boot.spdm.step = 1 ∧ t = { s with boot := { s.boot with spdm := t.boot.spdm } }) ∧
    (spdmCode req = 0xE1 → 1 ≤ s.boot.spdm.step → req.length = 20 → ∃ (t : State) (rsp : List Byte), exec (.getCapabilities req) s = .next t ∧
      t.boot.spdm.out = s.boot.spdm.out ++ [rsp] ∧ rsp.length = 20 ∧ rsp.take 2 = [0x12, 0x61] ∧ fromLE ((rsp.drop 8).take 4) = 524310 ∧
      t.boot.spdm.step = 2 ∧ t = { s with boot := { s.boot with spdm := t.boot.spdm } }) ∧
    (spdmCode req = 0xE3 → 2 ≤ s.boot.spdm.step → 32 ≤ req.length → ∃ (t : State) (rsp : List Byte), exec (.negotiateAlgorithms req) s = .next t ∧
      t.boot.spdm.out = s.boot.spdm.out ++ [rsp] ∧ rsp.length = 36 ∧ rsp.take 2 = [0x12, 0x63] ∧
      fromLE ((rsp.drop 12).take 4) = fromLE ((req.drop 8).take 4) &&& 2 ^ 11 ∧ fromLE ((rsp.drop 16).take 4) = fromLE ((req.drop 12).take 4) &&& 2 ^ 5 ∧
      t.boot.spdm.step = 3 ∧ t = { s with boot := { s.boot with spdm := t.boot.spdm } }) ∧
    (spdmCode req = 0x81 → 3 ≤ s.boot.spdm.step → ∃ t : State, exec (.getDigests req) s = .next t ∧ t.boot.spdm.out = s.boot.spdm.out ++
      [[0x12, 0x01, 0, if s.boot.cert = [] then 0 else 1] ++ (if s.boot.cert = [] then [] else sha3_512 s.boot.cert)] ∧
      t = { s with boot := { s.boot with spdm := t.boot.spdm } }) ∧
    (spdmCode req = 0x82 → 3 ≤ s.boot.spdm.step → req.length = 8 → (nth 0 req 2).toNat % 16 = 0 → ∀ off part : Nat, off = fromLE ((req.drop 4).take 2) →
      off < s.boot.cert.length → part = min (fromLE ((req.drop 6).take 2)) (s.boot.cert.length - off) → ∃ t : State, exec (.getCertificate req) s = .next t ∧
      t.boot.spdm.out = s.boot.spdm.out ++ [[0x12, 0x02, 0, 0] ++ toLE 2 part ++ toLE 2 (s.boot.cert.length - off - part) ++ (s.boot.cert.drop off).take part] ∧
      t = { s with boot := { s.boot with spdm := t.boot.spdm } }) ∧
    (spdmCode req = 0x83 → 3 ≤ s.boot.spdm.step → req.length = 36 → nth 0 req 2 = 0 → nth 0 req 3 = 0 → s.boot.cert ≠ [] → ∃ (t : State) (rsp sig : List Byte),
      exec (.challenge req) s = .next t ∧ t.boot.spdm.out = s.boot.spdm.out ++ [rsp ++ sig] ∧ rsp.take 4 = [0x12, 0x03, 0, 1] ∧
      sig = ed448Sign Config.identitySeed (spdmSigned (textBytes "responder-challenge_auth signing") (s.boot.spdm.vca ++ s.boot.spdm.certs ++ req ++ rsp)) ∧
      t = { s with boot := { s.boot with spdm := t.boot.spdm }, nonce := t.nonce }) ∧
    (spdmCode req = 0xE0 → 3 ≤ s.boot.spdm.step → req.length = 4 → (nth 0 req 2).toNat % 2 = 0 → ∀ k : Nat, k = (nth 0 req 3).toNat → 1 ≤ k → k ≤ 10 →
      ∃ (t : State) (rsp : List Byte), exec (.getMeasurements req) s = .next t ∧ t.boot.spdm.out = s.boot.spdm.out ++ [rsp] ∧
      (rsp.drop 8).take (s.measureBlock k).length = s.measureBlock k ∧ t = { s with boot := { s.boot with spdm := t.boot.spdm }, nonce := t.nonce }) ∧
    (spdmCode req = 0xEE → 3 ≤ s.boot.spdm.step → (nth 0 req 2).toNat % 16 = 0 → (s.boot.cert = [] ∨ s.field Reg.SEC_STATUS 5 4 = 2) → req.drop 4 ≠ [] →
      ∃ t : State, exec (.setCertificate req) s = .next t ∧ (if Config.leafKey (req.drop 4) = identityKey then t.boot.cert = req.drop 4 ∧
        t.field Reg.SEC_STATUS 5 4 = 2 ∧ t.boot.spdm.out = s.boot.spdm.out ++ [[0x12, 0x6E, 0, 0]]
        else t.boot.cert = s.boot.cert ∧ t.boot.spdm.out = s.boot.spdm.out ++ [[0x12, 0x7F, 1, 0]])) ∧
    (spdmCode req = 0x83 → s.boot.spdm.step < 3 → exec (.challenge req) s = .next (s.spdmOut [0x12, 0x7F, 4, 0])) ∧
    (spdmCode req ∉ [0x84, 0xE1, 0xE3, 0x81, 0x82, 0x83, 0xE0, 0xEE] →
      exec (.spdmUnsupportedRequest req) s = .next (s.spdmOut [0x12, 0x7F, 7, BitVec.ofNat 8 (spdmCode req)]))) ∧
  (∀ (s : State) (k : Nat), s.boot.phase = .running → exec (.doeDiscovery k) s =
    .next (s.spdmOut (if k = 0 then [1, 0, 0, 1] else if k = 1 then [1, 0, 1, 0] else [0xFF, 0xFF, 0, 0]))) ∧
  (∀ (s : State) (k : Nat), s.boot.phase ≠ .running → exec (.doeDiscovery k) s = .next s)

/-! ### Faults and service (R462 to R469) -/

/-- R15, R462 to R468, R471: service. -/
def Obligations.UnitsAreServiced : Prop :=
  (∀ (s : State) (i : Issuer) (kind n col : Nat), Taken s i 0x0801 → s.unitThere kind n col = true →
    (s.inService kind n = true → s.fenceBusy kind n = false → exec (.svcFence i kind n col) s = .next ((s.fence kind n col 7).answer i 0 0 [])) ∧
    (s.inService kind n = true → s.fenceBusy kind n = true → exec (.svcFence i kind n col) s = .next (s.refuse i 8)) ∧
    (s.inService kind n = false → s.columnIs kind n col = true → exec (.svcFence i kind n col) s = .next (s.answer i 0 0 []))) ∧
  (∀ (s : State) (i : Issuer) (kind n col : Nat), Taken s i 0x0802 → s.unitThere kind n col = true → kind ≠ 2 → kind ≠ 6 → s.unitState kind n = 1 →
    exec (.svcTest i kind n col) s = .next (((s.setUnit kind n 2 none).unitEvent kind n).answer i 0 0 [])) ∧
  (∀ (s u : State) (i : Issuer) (kind n col a : Nat), Taken s i 0x0803 → s.unitThere kind n col = true → kind ≠ 2 → kind ≠ 6 → s.unitState kind n = 1 →
    unitReg kind n = some a → u = (((s.returnEffect kind n).setUnit kind n 0 (some 0)).publishSize).unitEvent kind n →
    (s.field a 3 2 = 1 → exec (.svcReturn i kind n col) s =
      .next ((if kind = 0 then u.grantPending n (u.cluster n).pend else u).answer i 0 0 [])) ∧
    (s.field a 3 2 ≠ 1 → exec (.svcReturn i kind n col) s = .next (s.refuse i 8))) ∧
  (∀ (s : State) (i : Issuer) (kind n col : Nat), Taken s i 0x0804 → s.unitThere kind n col = true → kind ≠ 6 → s.unitState kind n = 1 →
    exec (.svcRetire i kind n col) s =
      .next ((((s.setUnit kind n 3 none).when (kind == 1) (·.clearBronzeFault n)).unitEvent kind n).answer i 0 0 [])) ∧
  (∀ (s : State) (kind n st a : Nat), unitReg kind n = some a → kind ≠ 6 → st < 4 → (s.setUnit kind n st none).unitState kind n = st ∧
    (∀ r, r < 16 → (s.setUnit kind n st (some r)).unitState kind n = st ∧ (s.setUnit kind n st (some r)).unitReason kind n = r) ∧
    ∀ b, b ≠ a → (s.setUnit kind n st none).reg b = s.reg b) ∧
  (∀ (s : State) (kind n col r a : Nat), unitReg kind n = some a → kind ≠ 6 → r < 16 →
    (s.fence kind n col r).unitState kind n = 1 ∧ (s.fence kind n col r).unitReason kind n = r) ∧
  (∀ (s : State) (kind n a : Nat) (pass : Bool), s.boot.phase = .running → kind ≠ 6 → unitReg kind n = some a → s.unitState kind n = 2 →
    exec (.unitTestDone kind n pass) s = .next (s.endTest kind n (if pass = true then 1 else 2)) ∧
    (s.endTest kind n (if pass = true then 1 else 2)).unitState kind n = 1 ∧ (s.endTest kind n (if pass = true then 1 else 2)).field a 3 2 = (if pass = true then 1 else 2)) ∧
  (∀ (s v : State) (kind n r : Nat) (rest : List (Nat × Nat × Nat)), s.boot.fences = (kind, n, r) :: rest → s.boot.phase = .running →
    v = { s with boot := { s.boot with fences := rest } } → exec .autoFence s = .next (v.faultFence kind n r)) ∧
  (∀ (s : State) (kind n r : Nat), (s.unitState kind n = 0 → s.faultFence kind n r = (s.fence kind n 0 r).bump Reg.SBD_AUTO_FENCES 1) ∧
    (s.unitState kind n = 2 → s.faultFence kind n r = s.endTest kind n 2) ∧ (s.boot.phase = .running → s.faultNow kind n r = s.faultFence kind n r) ∧
    (s.boot.phase ≠ .running → s.faultNow kind n r = { s with boot := { s.boot with fences := s.boot.fences ++ [(kind, n, r)] } })) ∧
  (∀ (s u : State) (c l slot : Nat) (t : Task), c < 24 → (spadKey c 0) / 64 + l % 2 ^ 19 ∉ s.spadBad → (s.slot slot).task = some t → t.st = .dispatched →
    t.desc.op.cluster = some c → u = { s with spadBad := s.spadBad ++ [(spadKey c 0) / 64 + l % 2 ^ 19] } →
    exec (.sramUe c (some l) slot) s = .next ((u.endTask slot 2 0xFF t.place).clusterFault c 2)) ∧
  (∀ (s : State) (c slot : Nat), c < 24 → (s.slot slot).task = none → exec (.sramUe c none slot) s = .next (s.clusterFault c 2)) ∧
  (∀ (s u : State) (d : Nat), d < 4 → d ∉ s.boot.badDies → u = { s with boot := { s.boot with badDies := s.boot.badDies ++ [d] } } →
    exec (.d2dLinkFailure d) s = .next (((u.faultNow 2 (3 * d) 4).faultNow 2 (3 * d + 1) 4).faultNow 2 (3 * d + 2) 4)) ∧
  (∀ (s : State) (p : Nat), s.portPresent p = true → exec (.portFailure p) s = .next (s.faultNow 5 p 6)) ∧
  (∀ (s v : State) (t : Nat), t ∈ s.boot.moving → v = s.tiers.objs.foldl (fun s e => if e.2.on t = true then s.moveObj t e.1 e.2 else s) s →
    exec (.stackMoveDone t) s = .next (({ v with boot := { v.boot with moving := v.boot.moving.erase t } } : State).runFills))

/-! ### Rules stated whole -/

/-- R152. -/
def Obligations.SterlingThreadsFaultOnNd : Prop :=
  (∀ (s : State) (m t : Nat) (th : TinThread) (i : TinInsn), TinReady s m t th i → s.sterling th.ctx = true →
    (∀ rd rs1 rs2, i = .ltry rd rs1 rs2 → exec (.ltry m) s = .next (s.tinFault m t 6 0 th.pc.toNat)) ∧
    (∀ rd rs1, i = .lrd rd rs1 → exec (.lrd m) s = .next (s.tinFault m t 6 0 th.pc.toNat)) ∧
    (∀ rd, i = .trng rd → exec (.trng m) s = .next (s.tinFault m t 6 0 th.pc.toNat)) ∧
    (∀ rd rs1 rs2, i = .faadd true rd rs1 rs2 → exec (.faaddD m) s = .next (s.tinFault m t 6 0 th.pc.toNat)) ∧
    (∀ rd rs1 rs2, i = .faadd false rd rs1 rs2 → exec (.faaddS m) s = .next (s.tinFault m t 6 0 th.pc.toNat)) ∧
    (∀ f3 rd num, i = .csr f3 rd 0 num → f3 % 4 ≠ 1 → num ∈ [0xC00, 0xC01, 0xC02] → exec (.tinCsrAccess m) s = .next (s.tinFault m t 6 0 th.pc.toNat))) ∧
  (∀ (s u : State) (m t pc : Nat), u = s.tinFault m t 6 0 pc → m < 192 → t < 16 →
    (u.thread m t).x = (s.thread m t).x ∧ (u.thread m t).f = (s.thread m t).f ∧ u.lat = s.lat ∧
    (∀ c l, c < 24 → l < 256 → u.reg (Reg.LAT_COUNT c l) = s.reg (Reg.LAT_COUNT c l)) ∧ u.field (Reg.TIN_FAULT (m / 8) (m % 8)) 3 1 = 6 ∧
    u.spad = s.spad ∧ u.tier = s.tier)

/-- Bit `b` shifted into a CRC register that shifts to the left, with the polynomial of R236. -/
def crcRefBit (c : W64) (b : Bool) : W64 := if (c.getMsbD 0 != b) = true then (c <<< 1) ^^^ 0x42F0E1EBA9EA3693 else c <<< 1

/-- The bits of the input, each byte from its bit 0 up: reflected input. -/
def crcRefBits (bs : List Byte) : List Bool := bs.flatMap fun b => (List.range 8).map fun k => b.getLsbD k

/-- R236. -/
def Obligations.DigestIsCrc64Xz : Prop :=
  (∀ bs : List Byte, crc64 bs = ((crcRefBits bs).foldl crcRefBit 0xFFFFFFFFFFFFFFFF).reverse ^^^ 0xFFFFFFFFFFFFFFFF) ∧ crc64 [] = 0 ∧
  (∀ (s : State) (i : Nat) (t : Task) (bs : List Byte), (s.slot i).task = some t → t.st = .digesting → t.dig = none → t.fin = some (0, 0) →
    (s.marks.get {} i).overflow = false → s.markPoison (s.marks.get {} i).ranges = none →
    bs = (s.marks.get {} i).ranges.flatMap (fun r => s.markBytes t r.1 r.2) → ∃ u d, exec (.digestReadback i) s = .next u ∧
      (u.slot i).task.map (·.dig) = some (some d) ∧ d.1 = (crc64 bs).toNat)

/-! ### The whole machine -/

/-- The queue (the model's form of the block, log 2). -/
def Obligations.StepRunsTheFrontCommand : Prop :=
  (∀ (c : Instr) (rest : List Instr) (s : State), step { s with pending := c :: rest } = exec c { s with pending := rest }) ∧
  (∀ s : State, s.pending = [] → step s = .next s.tick) ∧ (∀ s : State, s.tick.clk = s.clk + 1)

/-- Reset. -/
def Obligations.ResetStateIsAsTheSpecSays : Prop :=
  State.reset.memWf = true ∧ State.reset.pending = [] ∧ State.reset.reg Reg.SLD_UDP_PORT = 49712 ∧ State.reset.reg Reg.SLD_RTO_MIN_US = 20 ∧
  State.reset.reg Reg.SLD_RTO_MAX_US = 10000 ∧ State.reset.reg Reg.SLD_ECN_THRESH = 4096 ∧ State.reset.boot.phase = .held ∧
  (∀ x, (State.reset.ctx x).valid = false) ∧ (∀ i, (State.reset.slot i).task = none) ∧ (∀ k, (State.reset.obj k).st = .none) ∧
  (∀ n, State.reset.peerValid n = false) ∧ (∀ n, (State.reset.func n).st = .absent) ∧ (∀ q, (State.reset.queue q).en = false) ∧
  (∀ a n, State.reset.tierRead a n = List.replicate n 0)

/-- The invariant of memory, over every command and over the tick. -/
def Obligations.StepGoesOnAndKeepsMemory : Prop :=
  ∀ s : State, s.memWf = true → ∃ t : State, step s = .next t ∧ t.memWf = true
end

