-- ==== Sys2Proof/Laws/Tab.lean ====
section
/-! SUPPORT. Laws of the sorted association lists: reading after writing, and that every operation keeps the canonical form. -/

namespace Sys2Proof.Tab

variable {α : Type}

@[simp] theorem look_nil (k : Nat) : look ([] : Tab α) k = none := rfl

theorem look_put (t : Tab α) (k k' : Nat) (v : α) : look (put t k v) k' = if k = k' then some v else look t k' := by
  induction t with
  | nil => simp [put, look]
  | cons p t ih =>
    obtain ⟨a, b⟩ := p
    simp only [put]
    split
    · simp only [look]
    · split
      · subst_vars; simp only [look]; split <;> simp_all
      · simp only [look, ih]; split <;> split <;> simp_all

@[simp] theorem look_put_same (t : Tab α) (k : Nat) (v : α) : look (put t k v) k = some v := by simp [look_put]

theorem look_put_other (t : Tab α) (k k' : Nat) (v : α) (h : k ≠ k') : look (put t k v) k' = look t k' := by simp [look_put, h]

theorem look_del (t : Tab α) (k k' : Nat) : look (del t k) k' = if k = k' then none else look t k' := by
  induction t with
  | nil => simp [del]
  | cons p t ih =>
    obtain ⟨a, b⟩ := p
    simp only [del]
    split
    · subst_vars; simp only [ih, look]; split <;> simp_all
    · simp only [look, ih]; split <;> split <;> simp_all

theorem get_put (d : α) (t : Tab α) (k k' : Nat) (v : α) : get d (put t k v) k' = if k = k' then v else get d t k' := by
  simp only [get, look_put]; split <;> rfl

@[simp] theorem get_put_same (d : α) (t : Tab α) (k : Nat) (v : α) : get d (put t k v) k = v := by simp [get_put]

theorem get_put_other (d : α) (t : Tab α) (k k' : Nat) (v : α) (h : k ≠ k') : get d (put t k v) k' = get d t k' := by simp [get_put, h]

theorem get_del (d : α) (t : Tab α) (k k' : Nat) : get d (del t k) k' = if k = k' then d else get d t k' := by
  simp only [get, look_del]; split <;> rfl

theorem get_set [DecidableEq α] (d : α) (t : Tab α) (k k' : Nat) (v : α) :
    get d (set d t k v) k' = if k = k' then v else get d t k' := by
  simp only [set]
  split
  · subst_vars; rw [get_del]
  · rw [get_put]

@[simp] theorem get_set_same [DecidableEq α] (d : α) (t : Tab α) (k : Nat) (v : α) : get d (set d t k v) k = v := by simp [get_set]

theorem get_set_other [DecidableEq α] (d : α) (t : Tab α) (k k' : Nat) (v : α) (h : k ≠ k') :
    get d (set d t k v) k' = get d t k' := by simp [get_set, h]

/-! ### The canonical form -/

theorem wfFrom_mono [DecidableEq α] (d : α) (t : Tab α) {lo lo' : Nat} (h : lo' ≤ lo) (w : wfFrom d lo t = true) :
    wfFrom d lo' t = true := by
  cases t with
  | nil => rfl
  | cons p t =>
    obtain ⟨k, v⟩ := p
    simp only [wfFrom, Bool.and_eq_true, decide_eq_true_eq] at *
    exact ⟨⟨Nat.le_trans h w.1.1, w.1.2⟩, w.2⟩

theorem wfFrom_del [DecidableEq α] (d : α) (t : Tab α) (k : Nat) : ∀ lo, wfFrom d lo t = true → wfFrom d lo (del t k) = true := by
  induction t with
  | nil => intro lo h; exact h
  | cons p t ih =>
    obtain ⟨a, b⟩ := p
    intro lo h
    simp only [wfFrom, Bool.and_eq_true, decide_eq_true_eq] at h
    simp only [del]
    split
    · exact wfFrom_mono d _ (Nat.le_trans h.1.1 (Nat.le_succ a)) (ih _ h.2)
    · simp only [wfFrom, Bool.and_eq_true, decide_eq_true_eq]; exact ⟨h.1, ih _ h.2⟩

theorem wfFrom_put [DecidableEq α] (d : α) (t : Tab α) (k : Nat) (v : α) (hv : v ≠ d) :
    ∀ lo, lo ≤ k → wfFrom d lo t = true → wfFrom d lo (put t k v) = true := by
  induction t with
  | nil => intro lo hlo _; simp [put, wfFrom, hv, hlo]
  | cons p t ih =>
    obtain ⟨a, b⟩ := p
    intro lo hlo h
    simp only [wfFrom, Bool.and_eq_true, decide_eq_true_eq] at h
    simp only [put]
    split
    · simp only [wfFrom, Bool.and_eq_true, decide_eq_true_eq]; exact ⟨⟨hlo, hv⟩, ⟨by omega, h.1.2⟩, h.2⟩
    · split
      · subst_vars; simp only [wfFrom, Bool.and_eq_true, decide_eq_true_eq]; exact ⟨⟨hlo, hv⟩, h.2⟩
      · simp only [wfFrom, Bool.and_eq_true, decide_eq_true_eq]; exact ⟨h.1, ih _ (by omega) h.2⟩

/-- Setting a value keeps the canonical form. -/
theorem wf_set [DecidableEq α] (d : α) (t : Tab α) (k : Nat) (v : α) (h : wf d t = true) : wf d (set d t k v) = true := by
  simp only [set]
  split
  · exact wfFrom_del d t k 0 h
  · exact wfFrom_put d t k v (by assumption) 0 (Nat.zero_le _) h

/-- Keys below the bound of a canonical table are not listed. -/
theorem look_below [DecidableEq α] (d : α) (t : Tab α) : ∀ lo, wfFrom d lo t = true → ∀ k, k < lo → look t k = none := by
  induction t with
  | nil => intro lo _ k _; rfl
  | cons p t ih =>
    obtain ⟨a, b⟩ := p
    intro lo h k hk
    simp only [wfFrom, Bool.and_eq_true, decide_eq_true_eq] at h
    simp only [look]
    split
    · omega
    · exact ih _ h.2 k (by omega)

/-- Canonical tables that read alike are equal. -/
theorem wf_ext [DecidableEq α] (d : α) : ∀ (t u : Tab α) (lo lo' : Nat), wfFrom d lo t = true → wfFrom d lo' u = true →
    (∀ k, get d t k = get d u k) → t = u := by
  intro t
  induction t with
  | nil =>
    intro u lo lo' _ hu h
    cases u with
    | nil => rfl
    | cons p u =>
      obtain ⟨a, b⟩ := p
      simp only [wfFrom, Bool.and_eq_true, decide_eq_true_eq] at hu
      have := h a
      simp [get, look] at this
      exact absurd this.symm hu.1.2
  | cons p t ih =>
    obtain ⟨a, b⟩ := p
    intro u lo lo' ht hu h
    simp only [wfFrom, Bool.and_eq_true, decide_eq_true_eq] at ht
    cases u with
    | nil =>
      have := h a
      simp [get, look] at this
      exact absurd this ht.1.2
    | cons q u =>
      obtain ⟨c, e⟩ := q
      simp only [wfFrom, Bool.and_eq_true, decide_eq_true_eq] at hu
      have la := look_below d t _ ht.2
      have lc := look_below d u _ hu.2
      have hac : a = c := by
        by_contra hne
        rcases Nat.lt_or_gt_of_ne hne with hlt | hgt
        · have := h a
          simp only [get, look, if_true, if_neg (Ne.symm hne), lc a (by omega)] at this
          exact ht.1.2 (by simpa using this)
        · have := h c
          simp only [get, look, if_true, if_neg hne, la c (by omega)] at this
          exact hu.1.2 (by simpa using this.symm)
      subst hac
      have hb : b = e := by
        have := h a
        simpa [get, look] using this
      subst hb
      congr 1
      refine ih u _ _ ht.2 hu.2 (fun k => ?_)
      by_cases hk : a = k
      · subst hk; simp [get, la a (by omega), lc a (by omega)]
      · have := h k
        simpa [get, look, hk] using this

end Sys2Proof.Tab
end

