-- ==== Sys2Proof/Laws/State.lean ====
section
/-! SUPPORT. What each named update leaves alone, one lemma per field and update, and what reading after an update gives. Generated from the list of
the fields of State and of the updates of Machine/Ops.lean. -/

namespace Sys2Proof.Machine

variable (s : State)

/-! ### setReg -/
@[simp] theorem State.setReg_pending (a v : Nat) : (s.setReg a v).pending = s.pending := rfl
@[simp] theorem State.setReg_shadows (a v : Nat) : (s.setReg a v).shadows = s.shadows := rfl
@[simp] theorem State.setReg_held (a v : Nat) : (s.setReg a v).held = s.held := rfl
@[simp] theorem State.setReg_lastRead (a v : Nat) : (s.setReg a v).lastRead = s.lastRead := rfl
@[simp] theorem State.setReg_clk (a v : Nat) : (s.setReg a v).clk = s.clk := rfl
@[simp] theorem State.setReg_nonce (a v : Nat) : (s.setReg a v).nonce = s.nonce := rfl
@[simp] theorem State.setReg_trs (a v : Nat) : (s.setReg a v).trs = s.trs := rfl
@[simp] theorem State.setReg_pwt (a v : Nat) : (s.setReg a v).pwt = s.pwt := rfl
@[simp] theorem State.setReg_tin (a v : Nat) : (s.setReg a v).tin = s.tin := rfl
@[simp] theorem State.setReg_lat (a v : Nat) : (s.setReg a v).lat = s.lat := rfl
@[simp] theorem State.setReg_dma (a v : Nat) : (s.setReg a v).dma = s.dma := rfl
@[simp] theorem State.setReg_cl (a v : Nat) : (s.setReg a v).cl = s.cl := rfl
@[simp] theorem State.setReg_rg (a v : Nat) : (s.setReg a v).rg = s.rg := rfl
@[simp] theorem State.setReg_rails (a v : Nat) : (s.setReg a v).rails = s.rails := rfl
@[simp] theorem State.setReg_spad (a v : Nat) : (s.setReg a v).spad = s.spad := rfl
@[simp] theorem State.setReg_spadBad (a v : Nat) : (s.setReg a v).spadBad = s.spadBad := rfl
@[simp] theorem State.setReg_tier (a v : Nat) : (s.setReg a v).tier = s.tier := rfl
@[simp] theorem State.setReg_hostOut (a v : Nat) : (s.setReg a v).hostOut = s.hostOut := rfl
@[simp] theorem State.setReg_ctxs (a v : Nat) : (s.setReg a v).ctxs = s.ctxs := rfl
@[simp] theorem State.setReg_slots (a v : Nat) : (s.setReg a v).slots = s.slots := rfl
@[simp] theorem State.setReg_bars (a v : Nat) : (s.setReg a v).bars = s.bars := rfl
@[simp] theorem State.setReg_sched (a v : Nat) : (s.setReg a v).sched = s.sched := rfl
@[simp] theorem State.setReg_slack (a v : Nat) : (s.setReg a v).slack = s.slack := rfl
@[simp] theorem State.setReg_done (a v : Nat) : (s.setReg a v).done = s.done := rfl
@[simp] theorem State.setReg_marks (a v : Nat) : (s.setReg a v).marks = s.marks := rfl
@[simp] theorem State.setReg_chain (a v : Nat) : (s.setReg a v).chain = s.chain := rfl
@[simp] theorem State.setReg_tiers (a v : Nat) : (s.setReg a v).tiers = s.tiers := rfl
@[simp] theorem State.setReg_sld (a v : Nat) : (s.setReg a v).sld = s.sld := rfl
@[simp] theorem State.setReg_host (a v : Nat) : (s.setReg a v).host = s.host := rfl
@[simp] theorem State.setReg_boot (a v : Nat) : (s.setReg a v).boot = s.boot := rfl
@[simp] theorem State.setReg_tpls (a v : Nat) : (s.setReg a v).tpls = s.tpls := rfl
@[simp] theorem State.setReg_timers (a v : Nat) : (s.setReg a v).timers = s.timers := rfl
@[simp] theorem State.setReg_brz (a v : Nat) : (s.setReg a v).brz = s.brz := rfl
@[simp] theorem State.setReg_fh (a v : Nat) : (s.setReg a v).fh = s.fh := rfl
@[simp] theorem State.setReg_fapi (a v : Nat) : (s.setReg a v).fapi = s.fapi := rfl
@[simp] theorem State.setReg_fapiWork (a v : Nat) : (s.setReg a v).fapiWork = s.fapiWork := rfl
@[simp] theorem State.setReg_fapiOut (a v : Nat) : (s.setReg a v).fapiOut = s.fapiOut := rfl
@[simp] theorem State.setReg_inv (a v : Nat) : (s.setReg a v).inv = s.inv := rfl
@[simp] theorem State.setReg_net (a v : Nat) : (s.setReg a v).net = s.net := rfl
@[simp] theorem State.setReg_time (a v : Nat) : (s.setReg a v).time = s.time := rfl
/-! ### setField -/
@[simp] theorem State.setField_pending (a hi lo v : Nat) : (s.setField a hi lo v).pending = s.pending := rfl
@[simp] theorem State.setField_shadows (a hi lo v : Nat) : (s.setField a hi lo v).shadows = s.shadows := rfl
@[simp] theorem State.setField_held (a hi lo v : Nat) : (s.setField a hi lo v).held = s.held := rfl
@[simp] theorem State.setField_lastRead (a hi lo v : Nat) : (s.setField a hi lo v).lastRead = s.lastRead := rfl
@[simp] theorem State.setField_clk (a hi lo v : Nat) : (s.setField a hi lo v).clk = s.clk := rfl
@[simp] theorem State.setField_nonce (a hi lo v : Nat) : (s.setField a hi lo v).nonce = s.nonce := rfl
@[simp] theorem State.setField_trs (a hi lo v : Nat) : (s.setField a hi lo v).trs = s.trs := rfl
@[simp] theorem State.setField_pwt (a hi lo v : Nat) : (s.setField a hi lo v).pwt = s.pwt := rfl
@[simp] theorem State.setField_tin (a hi lo v : Nat) : (s.setField a hi lo v).tin = s.tin := rfl
@[simp] theorem State.setField_lat (a hi lo v : Nat) : (s.setField a hi lo v).lat = s.lat := rfl
@[simp] theorem State.setField_dma (a hi lo v : Nat) : (s.setField a hi lo v).dma = s.dma := rfl
@[simp] theorem State.setField_cl (a hi lo v : Nat) : (s.setField a hi lo v).cl = s.cl := rfl
@[simp] theorem State.setField_rg (a hi lo v : Nat) : (s.setField a hi lo v).rg = s.rg := rfl
@[simp] theorem State.setField_rails (a hi lo v : Nat) : (s.setField a hi lo v).rails = s.rails := rfl
@[simp] theorem State.setField_spad (a hi lo v : Nat) : (s.setField a hi lo v).spad = s.spad := rfl
@[simp] theorem State.setField_spadBad (a hi lo v : Nat) : (s.setField a hi lo v).spadBad = s.spadBad := rfl
@[simp] theorem State.setField_tier (a hi lo v : Nat) : (s.setField a hi lo v).tier = s.tier := rfl
@[simp] theorem State.setField_hostOut (a hi lo v : Nat) : (s.setField a hi lo v).hostOut = s.hostOut := rfl
@[simp] theorem State.setField_ctxs (a hi lo v : Nat) : (s.setField a hi lo v).ctxs = s.ctxs := rfl
@[simp] theorem State.setField_slots (a hi lo v : Nat) : (s.setField a hi lo v).slots = s.slots := rfl
@[simp] theorem State.setField_bars (a hi lo v : Nat) : (s.setField a hi lo v).bars = s.bars := rfl
@[simp] theorem State.setField_sched (a hi lo v : Nat) : (s.setField a hi lo v).sched = s.sched := rfl
@[simp] theorem State.setField_slack (a hi lo v : Nat) : (s.setField a hi lo v).slack = s.slack := rfl
@[simp] theorem State.setField_done (a hi lo v : Nat) : (s.setField a hi lo v).done = s.done := rfl
@[simp] theorem State.setField_marks (a hi lo v : Nat) : (s.setField a hi lo v).marks = s.marks := rfl
@[simp] theorem State.setField_chain (a hi lo v : Nat) : (s.setField a hi lo v).chain = s.chain := rfl
@[simp] theorem State.setField_tiers (a hi lo v : Nat) : (s.setField a hi lo v).tiers = s.tiers := rfl
@[simp] theorem State.setField_sld (a hi lo v : Nat) : (s.setField a hi lo v).sld = s.sld := rfl
@[simp] theorem State.setField_host (a hi lo v : Nat) : (s.setField a hi lo v).host = s.host := rfl
@[simp] theorem State.setField_boot (a hi lo v : Nat) : (s.setField a hi lo v).boot = s.boot := rfl
@[simp] theorem State.setField_tpls (a hi lo v : Nat) : (s.setField a hi lo v).tpls = s.tpls := rfl
@[simp] theorem State.setField_timers (a hi lo v : Nat) : (s.setField a hi lo v).timers = s.timers := rfl
@[simp] theorem State.setField_brz (a hi lo v : Nat) : (s.setField a hi lo v).brz = s.brz := rfl
@[simp] theorem State.setField_fh (a hi lo v : Nat) : (s.setField a hi lo v).fh = s.fh := rfl
@[simp] theorem State.setField_fapi (a hi lo v : Nat) : (s.setField a hi lo v).fapi = s.fapi := rfl
@[simp] theorem State.setField_fapiWork (a hi lo v : Nat) : (s.setField a hi lo v).fapiWork = s.fapiWork := rfl
@[simp] theorem State.setField_fapiOut (a hi lo v : Nat) : (s.setField a hi lo v).fapiOut = s.fapiOut := rfl
@[simp] theorem State.setField_inv (a hi lo v : Nat) : (s.setField a hi lo v).inv = s.inv := rfl
@[simp] theorem State.setField_net (a hi lo v : Nat) : (s.setField a hi lo v).net = s.net := rfl
@[simp] theorem State.setField_time (a hi lo v : Nat) : (s.setField a hi lo v).time = s.time := rfl
/-! ### setReg64 -/
@[simp] theorem State.setReg64_pending (a v : Nat) : (s.setReg64 a v).pending = s.pending := rfl
@[simp] theorem State.setReg64_shadows (a v : Nat) : (s.setReg64 a v).shadows = s.shadows := rfl
@[simp] theorem State.setReg64_held (a v : Nat) : (s.setReg64 a v).held = s.held := rfl
@[simp] theorem State.setReg64_lastRead (a v : Nat) : (s.setReg64 a v).lastRead = s.lastRead := rfl
@[simp] theorem State.setReg64_clk (a v : Nat) : (s.setReg64 a v).clk = s.clk := rfl
@[simp] theorem State.setReg64_nonce (a v : Nat) : (s.setReg64 a v).nonce = s.nonce := rfl
@[simp] theorem State.setReg64_trs (a v : Nat) : (s.setReg64 a v).trs = s.trs := rfl
@[simp] theorem State.setReg64_pwt (a v : Nat) : (s.setReg64 a v).pwt = s.pwt := rfl
@[simp] theorem State.setReg64_tin (a v : Nat) : (s.setReg64 a v).tin = s.tin := rfl
@[simp] theorem State.setReg64_lat (a v : Nat) : (s.setReg64 a v).lat = s.lat := rfl
@[simp] theorem State.setReg64_dma (a v : Nat) : (s.setReg64 a v).dma = s.dma := rfl
@[simp] theorem State.setReg64_cl (a v : Nat) : (s.setReg64 a v).cl = s.cl := rfl
@[simp] theorem State.setReg64_rg (a v : Nat) : (s.setReg64 a v).rg = s.rg := rfl
@[simp] theorem State.setReg64_rails (a v : Nat) : (s.setReg64 a v).rails = s.rails := rfl
@[simp] theorem State.setReg64_spad (a v : Nat) : (s.setReg64 a v).spad = s.spad := rfl
@[simp] theorem State.setReg64_spadBad (a v : Nat) : (s.setReg64 a v).spadBad = s.spadBad := rfl
@[simp] theorem State.setReg64_tier (a v : Nat) : (s.setReg64 a v).tier = s.tier := rfl
@[simp] theorem State.setReg64_hostOut (a v : Nat) : (s.setReg64 a v).hostOut = s.hostOut := rfl
@[simp] theorem State.setReg64_ctxs (a v : Nat) : (s.setReg64 a v).ctxs = s.ctxs := rfl
@[simp] theorem State.setReg64_slots (a v : Nat) : (s.setReg64 a v).slots = s.slots := rfl
@[simp] theorem State.setReg64_bars (a v : Nat) : (s.setReg64 a v).bars = s.bars := rfl
@[simp] theorem State.setReg64_sched (a v : Nat) : (s.setReg64 a v).sched = s.sched := rfl
@[simp] theorem State.setReg64_slack (a v : Nat) : (s.setReg64 a v).slack = s.slack := rfl
@[simp] theorem State.setReg64_done (a v : Nat) : (s.setReg64 a v).done = s.done := rfl
@[simp] theorem State.setReg64_marks (a v : Nat) : (s.setReg64 a v).marks = s.marks := rfl
@[simp] theorem State.setReg64_chain (a v : Nat) : (s.setReg64 a v).chain = s.chain := rfl
@[simp] theorem State.setReg64_tiers (a v : Nat) : (s.setReg64 a v).tiers = s.tiers := rfl
@[simp] theorem State.setReg64_sld (a v : Nat) : (s.setReg64 a v).sld = s.sld := rfl
@[simp] theorem State.setReg64_host (a v : Nat) : (s.setReg64 a v).host = s.host := rfl
@[simp] theorem State.setReg64_boot (a v : Nat) : (s.setReg64 a v).boot = s.boot := rfl
@[simp] theorem State.setReg64_tpls (a v : Nat) : (s.setReg64 a v).tpls = s.tpls := rfl
@[simp] theorem State.setReg64_timers (a v : Nat) : (s.setReg64 a v).timers = s.timers := rfl
@[simp] theorem State.setReg64_brz (a v : Nat) : (s.setReg64 a v).brz = s.brz := rfl
@[simp] theorem State.setReg64_fh (a v : Nat) : (s.setReg64 a v).fh = s.fh := rfl
@[simp] theorem State.setReg64_fapi (a v : Nat) : (s.setReg64 a v).fapi = s.fapi := rfl
@[simp] theorem State.setReg64_fapiWork (a v : Nat) : (s.setReg64 a v).fapiWork = s.fapiWork := rfl
@[simp] theorem State.setReg64_fapiOut (a v : Nat) : (s.setReg64 a v).fapiOut = s.fapiOut := rfl
@[simp] theorem State.setReg64_inv (a v : Nat) : (s.setReg64 a v).inv = s.inv := rfl
@[simp] theorem State.setReg64_net (a v : Nat) : (s.setReg64 a v).net = s.net := rfl
@[simp] theorem State.setReg64_time (a v : Nat) : (s.setReg64 a v).time = s.time := rfl
/-! ### bump -/
@[simp] theorem State.bump_pending (a n : Nat) : (s.bump a n).pending = s.pending := rfl
@[simp] theorem State.bump_shadows (a n : Nat) : (s.bump a n).shadows = s.shadows := rfl
@[simp] theorem State.bump_held (a n : Nat) : (s.bump a n).held = s.held := rfl
@[simp] theorem State.bump_lastRead (a n : Nat) : (s.bump a n).lastRead = s.lastRead := rfl
@[simp] theorem State.bump_clk (a n : Nat) : (s.bump a n).clk = s.clk := rfl
@[simp] theorem State.bump_nonce (a n : Nat) : (s.bump a n).nonce = s.nonce := rfl
@[simp] theorem State.bump_trs (a n : Nat) : (s.bump a n).trs = s.trs := rfl
@[simp] theorem State.bump_pwt (a n : Nat) : (s.bump a n).pwt = s.pwt := rfl
@[simp] theorem State.bump_tin (a n : Nat) : (s.bump a n).tin = s.tin := rfl
@[simp] theorem State.bump_lat (a n : Nat) : (s.bump a n).lat = s.lat := rfl
@[simp] theorem State.bump_dma (a n : Nat) : (s.bump a n).dma = s.dma := rfl
@[simp] theorem State.bump_cl (a n : Nat) : (s.bump a n).cl = s.cl := rfl
@[simp] theorem State.bump_rg (a n : Nat) : (s.bump a n).rg = s.rg := rfl
@[simp] theorem State.bump_rails (a n : Nat) : (s.bump a n).rails = s.rails := rfl
@[simp] theorem State.bump_spad (a n : Nat) : (s.bump a n).spad = s.spad := rfl
@[simp] theorem State.bump_spadBad (a n : Nat) : (s.bump a n).spadBad = s.spadBad := rfl
@[simp] theorem State.bump_tier (a n : Nat) : (s.bump a n).tier = s.tier := rfl
@[simp] theorem State.bump_hostOut (a n : Nat) : (s.bump a n).hostOut = s.hostOut := rfl
@[simp] theorem State.bump_ctxs (a n : Nat) : (s.bump a n).ctxs = s.ctxs := rfl
@[simp] theorem State.bump_slots (a n : Nat) : (s.bump a n).slots = s.slots := rfl
@[simp] theorem State.bump_bars (a n : Nat) : (s.bump a n).bars = s.bars := rfl
@[simp] theorem State.bump_sched (a n : Nat) : (s.bump a n).sched = s.sched := rfl
@[simp] theorem State.bump_slack (a n : Nat) : (s.bump a n).slack = s.slack := rfl
@[simp] theorem State.bump_done (a n : Nat) : (s.bump a n).done = s.done := rfl
@[simp] theorem State.bump_marks (a n : Nat) : (s.bump a n).marks = s.marks := rfl
@[simp] theorem State.bump_chain (a n : Nat) : (s.bump a n).chain = s.chain := rfl
@[simp] theorem State.bump_tiers (a n : Nat) : (s.bump a n).tiers = s.tiers := rfl
@[simp] theorem State.bump_sld (a n : Nat) : (s.bump a n).sld = s.sld := rfl
@[simp] theorem State.bump_host (a n : Nat) : (s.bump a n).host = s.host := rfl
@[simp] theorem State.bump_boot (a n : Nat) : (s.bump a n).boot = s.boot := rfl
@[simp] theorem State.bump_tpls (a n : Nat) : (s.bump a n).tpls = s.tpls := rfl
@[simp] theorem State.bump_timers (a n : Nat) : (s.bump a n).timers = s.timers := rfl
@[simp] theorem State.bump_brz (a n : Nat) : (s.bump a n).brz = s.brz := rfl
@[simp] theorem State.bump_fh (a n : Nat) : (s.bump a n).fh = s.fh := rfl
@[simp] theorem State.bump_fapi (a n : Nat) : (s.bump a n).fapi = s.fapi := rfl
@[simp] theorem State.bump_fapiWork (a n : Nat) : (s.bump a n).fapiWork = s.fapiWork := rfl
@[simp] theorem State.bump_fapiOut (a n : Nat) : (s.bump a n).fapiOut = s.fapiOut := rfl
@[simp] theorem State.bump_inv (a n : Nat) : (s.bump a n).inv = s.inv := rfl
@[simp] theorem State.bump_net (a n : Nat) : (s.bump a n).net = s.net := rfl
@[simp] theorem State.bump_time (a n : Nat) : (s.bump a n).time = s.time := rfl
/-! ### tickNonce -/
@[simp] theorem State.tickNonce_pending : (s.tickNonce).pending = s.pending := rfl
@[simp] theorem State.tickNonce_regs : (s.tickNonce).regs = s.regs := rfl
@[simp] theorem State.tickNonce_shadows : (s.tickNonce).shadows = s.shadows := rfl
@[simp] theorem State.tickNonce_held : (s.tickNonce).held = s.held := rfl
@[simp] theorem State.tickNonce_lastRead : (s.tickNonce).lastRead = s.lastRead := rfl
@[simp] theorem State.tickNonce_clk : (s.tickNonce).clk = s.clk := rfl
@[simp] theorem State.tickNonce_trs : (s.tickNonce).trs = s.trs := rfl
@[simp] theorem State.tickNonce_pwt : (s.tickNonce).pwt = s.pwt := rfl
@[simp] theorem State.tickNonce_tin : (s.tickNonce).tin = s.tin := rfl
@[simp] theorem State.tickNonce_lat : (s.tickNonce).lat = s.lat := rfl
@[simp] theorem State.tickNonce_dma : (s.tickNonce).dma = s.dma := rfl
@[simp] theorem State.tickNonce_cl : (s.tickNonce).cl = s.cl := rfl
@[simp] theorem State.tickNonce_rg : (s.tickNonce).rg = s.rg := rfl
@[simp] theorem State.tickNonce_rails : (s.tickNonce).rails = s.rails := rfl
@[simp] theorem State.tickNonce_spad : (s.tickNonce).spad = s.spad := rfl
@[simp] theorem State.tickNonce_spadBad : (s.tickNonce).spadBad = s.spadBad := rfl
@[simp] theorem State.tickNonce_tier : (s.tickNonce).tier = s.tier := rfl
@[simp] theorem State.tickNonce_hostOut : (s.tickNonce).hostOut = s.hostOut := rfl
@[simp] theorem State.tickNonce_ctxs : (s.tickNonce).ctxs = s.ctxs := rfl
@[simp] theorem State.tickNonce_slots : (s.tickNonce).slots = s.slots := rfl
@[simp] theorem State.tickNonce_bars : (s.tickNonce).bars = s.bars := rfl
@[simp] theorem State.tickNonce_sched : (s.tickNonce).sched = s.sched := rfl
@[simp] theorem State.tickNonce_slack : (s.tickNonce).slack = s.slack := rfl
@[simp] theorem State.tickNonce_done : (s.tickNonce).done = s.done := rfl
@[simp] theorem State.tickNonce_marks : (s.tickNonce).marks = s.marks := rfl
@[simp] theorem State.tickNonce_chain : (s.tickNonce).chain = s.chain := rfl
@[simp] theorem State.tickNonce_tiers : (s.tickNonce).tiers = s.tiers := rfl
@[simp] theorem State.tickNonce_sld : (s.tickNonce).sld = s.sld := rfl
@[simp] theorem State.tickNonce_host : (s.tickNonce).host = s.host := rfl
@[simp] theorem State.tickNonce_boot : (s.tickNonce).boot = s.boot := rfl
@[simp] theorem State.tickNonce_tpls : (s.tickNonce).tpls = s.tpls := rfl
@[simp] theorem State.tickNonce_timers : (s.tickNonce).timers = s.timers := rfl
@[simp] theorem State.tickNonce_brz : (s.tickNonce).brz = s.brz := rfl
@[simp] theorem State.tickNonce_fh : (s.tickNonce).fh = s.fh := rfl
@[simp] theorem State.tickNonce_fapi : (s.tickNonce).fapi = s.fapi := rfl
@[simp] theorem State.tickNonce_fapiWork : (s.tickNonce).fapiWork = s.fapiWork := rfl
@[simp] theorem State.tickNonce_fapiOut : (s.tickNonce).fapiOut = s.fapiOut := rfl
@[simp] theorem State.tickNonce_inv : (s.tickNonce).inv = s.inv := rfl
@[simp] theorem State.tickNonce_net : (s.tickNonce).net = s.net := rfl
@[simp] theorem State.tickNonce_time : (s.tickNonce).time = s.time := rfl
/-! ### setCtx -/
@[simp] theorem State.setCtx_pending (x : Nat) (v : Ctx) : (s.setCtx x v).pending = s.pending := rfl
@[simp] theorem State.setCtx_regs (x : Nat) (v : Ctx) : (s.setCtx x v).regs = s.regs := rfl
@[simp] theorem State.setCtx_shadows (x : Nat) (v : Ctx) : (s.setCtx x v).shadows = s.shadows := rfl
@[simp] theorem State.setCtx_held (x : Nat) (v : Ctx) : (s.setCtx x v).held = s.held := rfl
@[simp] theorem State.setCtx_lastRead (x : Nat) (v : Ctx) : (s.setCtx x v).lastRead = s.lastRead := rfl
@[simp] theorem State.setCtx_clk (x : Nat) (v : Ctx) : (s.setCtx x v).clk = s.clk := rfl
@[simp] theorem State.setCtx_nonce (x : Nat) (v : Ctx) : (s.setCtx x v).nonce = s.nonce := rfl
@[simp] theorem State.setCtx_trs (x : Nat) (v : Ctx) : (s.setCtx x v).trs = s.trs := rfl
@[simp] theorem State.setCtx_pwt (x : Nat) (v : Ctx) : (s.setCtx x v).pwt = s.pwt := rfl
@[simp] theorem State.setCtx_tin (x : Nat) (v : Ctx) : (s.setCtx x v).tin = s.tin := rfl
@[simp] theorem State.setCtx_lat (x : Nat) (v : Ctx) : (s.setCtx x v).lat = s.lat := rfl
@[simp] theorem State.setCtx_dma (x : Nat) (v : Ctx) : (s.setCtx x v).dma = s.dma := rfl
@[simp] theorem State.setCtx_cl (x : Nat) (v : Ctx) : (s.setCtx x v).cl = s.cl := rfl
@[simp] theorem State.setCtx_rg (x : Nat) (v : Ctx) : (s.setCtx x v).rg = s.rg := rfl
@[simp] theorem State.setCtx_rails (x : Nat) (v : Ctx) : (s.setCtx x v).rails = s.rails := rfl
@[simp] theorem State.setCtx_spad (x : Nat) (v : Ctx) : (s.setCtx x v).spad = s.spad := rfl
@[simp] theorem State.setCtx_spadBad (x : Nat) (v : Ctx) : (s.setCtx x v).spadBad = s.spadBad := rfl
@[simp] theorem State.setCtx_tier (x : Nat) (v : Ctx) : (s.setCtx x v).tier = s.tier := rfl
@[simp] theorem State.setCtx_hostOut (x : Nat) (v : Ctx) : (s.setCtx x v).hostOut = s.hostOut := rfl
@[simp] theorem State.setCtx_slots (x : Nat) (v : Ctx) : (s.setCtx x v).slots = s.slots := rfl
@[simp] theorem State.setCtx_bars (x : Nat) (v : Ctx) : (s.setCtx x v).bars = s.bars := rfl
@[simp] theorem State.setCtx_sched (x : Nat) (v : Ctx) : (s.setCtx x v).sched = s.sched := rfl
@[simp] theorem State.setCtx_slack (x : Nat) (v : Ctx) : (s.setCtx x v).slack = s.slack := rfl
@[simp] theorem State.setCtx_done (x : Nat) (v : Ctx) : (s.setCtx x v).done = s.done := rfl
@[simp] theorem State.setCtx_marks (x : Nat) (v : Ctx) : (s.setCtx x v).marks = s.marks := rfl
@[simp] theorem State.setCtx_chain (x : Nat) (v : Ctx) : (s.setCtx x v).chain = s.chain := rfl
@[simp] theorem State.setCtx_tiers (x : Nat) (v : Ctx) : (s.setCtx x v).tiers = s.tiers := rfl
@[simp] theorem State.setCtx_sld (x : Nat) (v : Ctx) : (s.setCtx x v).sld = s.sld := rfl
@[simp] theorem State.setCtx_host (x : Nat) (v : Ctx) : (s.setCtx x v).host = s.host := rfl
@[simp] theorem State.setCtx_boot (x : Nat) (v : Ctx) : (s.setCtx x v).boot = s.boot := rfl
@[simp] theorem State.setCtx_tpls (x : Nat) (v : Ctx) : (s.setCtx x v).tpls = s.tpls := rfl
@[simp] theorem State.setCtx_timers (x : Nat) (v : Ctx) : (s.setCtx x v).timers = s.timers := rfl
@[simp] theorem State.setCtx_brz (x : Nat) (v : Ctx) : (s.setCtx x v).brz = s.brz := rfl
@[simp] theorem State.setCtx_fh (x : Nat) (v : Ctx) : (s.setCtx x v).fh = s.fh := rfl
@[simp] theorem State.setCtx_fapi (x : Nat) (v : Ctx) : (s.setCtx x v).fapi = s.fapi := rfl
@[simp] theorem State.setCtx_fapiWork (x : Nat) (v : Ctx) : (s.setCtx x v).fapiWork = s.fapiWork := rfl
@[simp] theorem State.setCtx_fapiOut (x : Nat) (v : Ctx) : (s.setCtx x v).fapiOut = s.fapiOut := rfl
@[simp] theorem State.setCtx_inv (x : Nat) (v : Ctx) : (s.setCtx x v).inv = s.inv := rfl
@[simp] theorem State.setCtx_net (x : Nat) (v : Ctx) : (s.setCtx x v).net = s.net := rfl
@[simp] theorem State.setCtx_time (x : Nat) (v : Ctx) : (s.setCtx x v).time = s.time := rfl
/-! ### setSlot -/
@[simp] theorem State.setSlot_pending (i : Nat) (v : Slot) : (s.setSlot i v).pending = s.pending := rfl
@[simp] theorem State.setSlot_regs (i : Nat) (v : Slot) : (s.setSlot i v).regs = s.regs := rfl
@[simp] theorem State.setSlot_shadows (i : Nat) (v : Slot) : (s.setSlot i v).shadows = s.shadows := rfl
@[simp] theorem State.setSlot_held (i : Nat) (v : Slot) : (s.setSlot i v).held = s.held := rfl
@[simp] theorem State.setSlot_lastRead (i : Nat) (v : Slot) : (s.setSlot i v).lastRead = s.lastRead := rfl
@[simp] theorem State.setSlot_clk (i : Nat) (v : Slot) : (s.setSlot i v).clk = s.clk := rfl
@[simp] theorem State.setSlot_nonce (i : Nat) (v : Slot) : (s.setSlot i v).nonce = s.nonce := rfl
@[simp] theorem State.setSlot_trs (i : Nat) (v : Slot) : (s.setSlot i v).trs = s.trs := rfl
@[simp] theorem State.setSlot_pwt (i : Nat) (v : Slot) : (s.setSlot i v).pwt = s.pwt := rfl
@[simp] theorem State.setSlot_tin (i : Nat) (v : Slot) : (s.setSlot i v).tin = s.tin := rfl
@[simp] theorem State.setSlot_lat (i : Nat) (v : Slot) : (s.setSlot i v).lat = s.lat := rfl
@[simp] theorem State.setSlot_dma (i : Nat) (v : Slot) : (s.setSlot i v).dma = s.dma := rfl
@[simp] theorem State.setSlot_cl (i : Nat) (v : Slot) : (s.setSlot i v).cl = s.cl := rfl
@[simp] theorem State.setSlot_rg (i : Nat) (v : Slot) : (s.setSlot i v).rg = s.rg := rfl
@[simp] theorem State.setSlot_rails (i : Nat) (v : Slot) : (s.setSlot i v).rails = s.rails := rfl
@[simp] theorem State.setSlot_spad (i : Nat) (v : Slot) : (s.setSlot i v).spad = s.spad := rfl
@[simp] theorem State.setSlot_spadBad (i : Nat) (v : Slot) : (s.setSlot i v).spadBad = s.spadBad := rfl
@[simp] theorem State.setSlot_tier (i : Nat) (v : Slot) : (s.setSlot i v).tier = s.tier := rfl
@[simp] theorem State.setSlot_hostOut (i : Nat) (v : Slot) : (s.setSlot i v).hostOut = s.hostOut := rfl
@[simp] theorem State.setSlot_ctxs (i : Nat) (v : Slot) : (s.setSlot i v).ctxs = s.ctxs := rfl
@[simp] theorem State.setSlot_bars (i : Nat) (v : Slot) : (s.setSlot i v).bars = s.bars := rfl
@[simp] theorem State.setSlot_sched (i : Nat) (v : Slot) : (s.setSlot i v).sched = s.sched := rfl
@[simp] theorem State.setSlot_slack (i : Nat) (v : Slot) : (s.setSlot i v).slack = s.slack := rfl
@[simp] theorem State.setSlot_done (i : Nat) (v : Slot) : (s.setSlot i v).done = s.done := rfl
@[simp] theorem State.setSlot_marks (i : Nat) (v : Slot) : (s.setSlot i v).marks = s.marks := rfl
@[simp] theorem State.setSlot_chain (i : Nat) (v : Slot) : (s.setSlot i v).chain = s.chain := rfl
@[simp] theorem State.setSlot_tiers (i : Nat) (v : Slot) : (s.setSlot i v).tiers = s.tiers := rfl
@[simp] theorem State.setSlot_sld (i : Nat) (v : Slot) : (s.setSlot i v).sld = s.sld := rfl
@[simp] theorem State.setSlot_host (i : Nat) (v : Slot) : (s.setSlot i v).host = s.host := rfl
@[simp] theorem State.setSlot_boot (i : Nat) (v : Slot) : (s.setSlot i v).boot = s.boot := rfl
@[simp] theorem State.setSlot_tpls (i : Nat) (v : Slot) : (s.setSlot i v).tpls = s.tpls := rfl
@[simp] theorem State.setSlot_timers (i : Nat) (v : Slot) : (s.setSlot i v).timers = s.timers := rfl
@[simp] theorem State.setSlot_brz (i : Nat) (v : Slot) : (s.setSlot i v).brz = s.brz := rfl
@[simp] theorem State.setSlot_fh (i : Nat) (v : Slot) : (s.setSlot i v).fh = s.fh := rfl
@[simp] theorem State.setSlot_fapi (i : Nat) (v : Slot) : (s.setSlot i v).fapi = s.fapi := rfl
@[simp] theorem State.setSlot_fapiWork (i : Nat) (v : Slot) : (s.setSlot i v).fapiWork = s.fapiWork := rfl
@[simp] theorem State.setSlot_fapiOut (i : Nat) (v : Slot) : (s.setSlot i v).fapiOut = s.fapiOut := rfl
@[simp] theorem State.setSlot_inv (i : Nat) (v : Slot) : (s.setSlot i v).inv = s.inv := rfl
@[simp] theorem State.setSlot_net (i : Nat) (v : Slot) : (s.setSlot i v).net = s.net := rfl
@[simp] theorem State.setSlot_time (i : Nat) (v : Slot) : (s.setSlot i v).time = s.time := rfl
/-! ### setTrestle -/
@[simp] theorem State.setTrestle_pending (c : Nat) (v : Trestle) : (s.setTrestle c v).pending = s.pending := rfl
@[simp] theorem State.setTrestle_regs (c : Nat) (v : Trestle) : (s.setTrestle c v).regs = s.regs := rfl
@[simp] theorem State.setTrestle_shadows (c : Nat) (v : Trestle) : (s.setTrestle c v).shadows = s.shadows := rfl
@[simp] theorem State.setTrestle_held (c : Nat) (v : Trestle) : (s.setTrestle c v).held = s.held := rfl
@[simp] theorem State.setTrestle_lastRead (c : Nat) (v : Trestle) : (s.setTrestle c v).lastRead = s.lastRead := rfl
@[simp] theorem State.setTrestle_clk (c : Nat) (v : Trestle) : (s.setTrestle c v).clk = s.clk := rfl
@[simp] theorem State.setTrestle_nonce (c : Nat) (v : Trestle) : (s.setTrestle c v).nonce = s.nonce := rfl
@[simp] theorem State.setTrestle_pwt (c : Nat) (v : Trestle) : (s.setTrestle c v).pwt = s.pwt := rfl
@[simp] theorem State.setTrestle_tin (c : Nat) (v : Trestle) : (s.setTrestle c v).tin = s.tin := rfl
@[simp] theorem State.setTrestle_lat (c : Nat) (v : Trestle) : (s.setTrestle c v).lat = s.lat := rfl
@[simp] theorem State.setTrestle_dma (c : Nat) (v : Trestle) : (s.setTrestle c v).dma = s.dma := rfl
@[simp] theorem State.setTrestle_cl (c : Nat) (v : Trestle) : (s.setTrestle c v).cl = s.cl := rfl
@[simp] theorem State.setTrestle_rg (c : Nat) (v : Trestle) : (s.setTrestle c v).rg = s.rg := rfl
@[simp] theorem State.setTrestle_rails (c : Nat) (v : Trestle) : (s.setTrestle c v).rails = s.rails := rfl
@[simp] theorem State.setTrestle_spad (c : Nat) (v : Trestle) : (s.setTrestle c v).spad = s.spad := rfl
@[simp] theorem State.setTrestle_spadBad (c : Nat) (v : Trestle) : (s.setTrestle c v).spadBad = s.spadBad := rfl
@[simp] theorem State.setTrestle_tier (c : Nat) (v : Trestle) : (s.setTrestle c v).tier = s.tier := rfl
@[simp] theorem State.setTrestle_hostOut (c : Nat) (v : Trestle) : (s.setTrestle c v).hostOut = s.hostOut := rfl
@[simp] theorem State.setTrestle_ctxs (c : Nat) (v : Trestle) : (s.setTrestle c v).ctxs = s.ctxs := rfl
@[simp] theorem State.setTrestle_slots (c : Nat) (v : Trestle) : (s.setTrestle c v).slots = s.slots := rfl
@[simp] theorem State.setTrestle_bars (c : Nat) (v : Trestle) : (s.setTrestle c v).bars = s.bars := rfl
@[simp] theorem State.setTrestle_sched (c : Nat) (v : Trestle) : (s.setTrestle c v).sched = s.sched := rfl
@[simp] theorem State.setTrestle_slack (c : Nat) (v : Trestle) : (s.setTrestle c v).slack = s.slack := rfl
@[simp] theorem State.setTrestle_done (c : Nat) (v : Trestle) : (s.setTrestle c v).done = s.done := rfl
@[simp] theorem State.setTrestle_marks (c : Nat) (v : Trestle) : (s.setTrestle c v).marks = s.marks := rfl
@[simp] theorem State.setTrestle_chain (c : Nat) (v : Trestle) : (s.setTrestle c v).chain = s.chain := rfl
@[simp] theorem State.setTrestle_tiers (c : Nat) (v : Trestle) : (s.setTrestle c v).tiers = s.tiers := rfl
@[simp] theorem State.setTrestle_sld (c : Nat) (v : Trestle) : (s.setTrestle c v).sld = s.sld := rfl
@[simp] theorem State.setTrestle_host (c : Nat) (v : Trestle) : (s.setTrestle c v).host = s.host := rfl
@[simp] theorem State.setTrestle_boot (c : Nat) (v : Trestle) : (s.setTrestle c v).boot = s.boot := rfl
@[simp] theorem State.setTrestle_tpls (c : Nat) (v : Trestle) : (s.setTrestle c v).tpls = s.tpls := rfl
@[simp] theorem State.setTrestle_timers (c : Nat) (v : Trestle) : (s.setTrestle c v).timers = s.timers := rfl
@[simp] theorem State.setTrestle_brz (c : Nat) (v : Trestle) : (s.setTrestle c v).brz = s.brz := rfl
@[simp] theorem State.setTrestle_fh (c : Nat) (v : Trestle) : (s.setTrestle c v).fh = s.fh := rfl
@[simp] theorem State.setTrestle_fapi (c : Nat) (v : Trestle) : (s.setTrestle c v).fapi = s.fapi := rfl
@[simp] theorem State.setTrestle_fapiWork (c : Nat) (v : Trestle) : (s.setTrestle c v).fapiWork = s.fapiWork := rfl
@[simp] theorem State.setTrestle_fapiOut (c : Nat) (v : Trestle) : (s.setTrestle c v).fapiOut = s.fapiOut := rfl
@[simp] theorem State.setTrestle_inv (c : Nat) (v : Trestle) : (s.setTrestle c v).inv = s.inv := rfl
@[simp] theorem State.setTrestle_net (c : Nat) (v : Trestle) : (s.setTrestle c v).net = s.net := rfl
@[simp] theorem State.setTrestle_time (c : Nat) (v : Trestle) : (s.setTrestle c v).time = s.time := rfl
/-! ### setPewter -/
@[simp] theorem State.setPewter_pending (u : Nat) (v : PwtUnit) : (s.setPewter u v).pending = s.pending := rfl
@[simp] theorem State.setPewter_regs (u : Nat) (v : PwtUnit) : (s.setPewter u v).regs = s.regs := rfl
@[simp] theorem State.setPewter_shadows (u : Nat) (v : PwtUnit) : (s.setPewter u v).shadows = s.shadows := rfl
@[simp] theorem State.setPewter_held (u : Nat) (v : PwtUnit) : (s.setPewter u v).held = s.held := rfl
@[simp] theorem State.setPewter_lastRead (u : Nat) (v : PwtUnit) : (s.setPewter u v).lastRead = s.lastRead := rfl
@[simp] theorem State.setPewter_clk (u : Nat) (v : PwtUnit) : (s.setPewter u v).clk = s.clk := rfl
@[simp] theorem State.setPewter_nonce (u : Nat) (v : PwtUnit) : (s.setPewter u v).nonce = s.nonce := rfl
@[simp] theorem State.setPewter_trs (u : Nat) (v : PwtUnit) : (s.setPewter u v).trs = s.trs := rfl
@[simp] theorem State.setPewter_tin (u : Nat) (v : PwtUnit) : (s.setPewter u v).tin = s.tin := rfl
@[simp] theorem State.setPewter_lat (u : Nat) (v : PwtUnit) : (s.setPewter u v).lat = s.lat := rfl
@[simp] theorem State.setPewter_dma (u : Nat) (v : PwtUnit) : (s.setPewter u v).dma = s.dma := rfl
@[simp] theorem State.setPewter_cl (u : Nat) (v : PwtUnit) : (s.setPewter u v).cl = s.cl := rfl
@[simp] theorem State.setPewter_rg (u : Nat) (v : PwtUnit) : (s.setPewter u v).rg = s.rg := rfl
@[simp] theorem State.setPewter_rails (u : Nat) (v : PwtUnit) : (s.setPewter u v).rails = s.rails := rfl
@[simp] theorem State.setPewter_spad (u : Nat) (v : PwtUnit) : (s.setPewter u v).spad = s.spad := rfl
@[simp] theorem State.setPewter_spadBad (u : Nat) (v : PwtUnit) : (s.setPewter u v).spadBad = s.spadBad := rfl
@[simp] theorem State.setPewter_tier (u : Nat) (v : PwtUnit) : (s.setPewter u v).tier = s.tier := rfl
@[simp] theorem State.setPewter_hostOut (u : Nat) (v : PwtUnit) : (s.setPewter u v).hostOut = s.hostOut := rfl
@[simp] theorem State.setPewter_ctxs (u : Nat) (v : PwtUnit) : (s.setPewter u v).ctxs = s.ctxs := rfl
@[simp] theorem State.setPewter_slots (u : Nat) (v : PwtUnit) : (s.setPewter u v).slots = s.slots := rfl
@[simp] theorem State.setPewter_bars (u : Nat) (v : PwtUnit) : (s.setPewter u v).bars = s.bars := rfl
@[simp] theorem State.setPewter_sched (u : Nat) (v : PwtUnit) : (s.setPewter u v).sched = s.sched := rfl
@[simp] theorem State.setPewter_slack (u : Nat) (v : PwtUnit) : (s.setPewter u v).slack = s.slack := rfl
@[simp] theorem State.setPewter_done (u : Nat) (v : PwtUnit) : (s.setPewter u v).done = s.done := rfl
@[simp] theorem State.setPewter_marks (u : Nat) (v : PwtUnit) : (s.setPewter u v).marks = s.marks := rfl
@[simp] theorem State.setPewter_chain (u : Nat) (v : PwtUnit) : (s.setPewter u v).chain = s.chain := rfl
@[simp] theorem State.setPewter_tiers (u : Nat) (v : PwtUnit) : (s.setPewter u v).tiers = s.tiers := rfl
@[simp] theorem State.setPewter_sld (u : Nat) (v : PwtUnit) : (s.setPewter u v).sld = s.sld := rfl
@[simp] theorem State.setPewter_host (u : Nat) (v : PwtUnit) : (s.setPewter u v).host = s.host := rfl
@[simp] theorem State.setPewter_boot (u : Nat) (v : PwtUnit) : (s.setPewter u v).boot = s.boot := rfl
@[simp] theorem State.setPewter_tpls (u : Nat) (v : PwtUnit) : (s.setPewter u v).tpls = s.tpls := rfl
@[simp] theorem State.setPewter_timers (u : Nat) (v : PwtUnit) : (s.setPewter u v).timers = s.timers := rfl
@[simp] theorem State.setPewter_brz (u : Nat) (v : PwtUnit) : (s.setPewter u v).brz = s.brz := rfl
@[simp] theorem State.setPewter_fh (u : Nat) (v : PwtUnit) : (s.setPewter u v).fh = s.fh := rfl
@[simp] theorem State.setPewter_fapi (u : Nat) (v : PwtUnit) : (s.setPewter u v).fapi = s.fapi := rfl
@[simp] theorem State.setPewter_fapiWork (u : Nat) (v : PwtUnit) : (s.setPewter u v).fapiWork = s.fapiWork := rfl
@[simp] theorem State.setPewter_fapiOut (u : Nat) (v : PwtUnit) : (s.setPewter u v).fapiOut = s.fapiOut := rfl
@[simp] theorem State.setPewter_inv (u : Nat) (v : PwtUnit) : (s.setPewter u v).inv = s.inv := rfl
@[simp] theorem State.setPewter_net (u : Nat) (v : PwtUnit) : (s.setPewter u v).net = s.net := rfl
@[simp] theorem State.setPewter_time (u : Nat) (v : PwtUnit) : (s.setPewter u v).time = s.time := rfl
/-! ### setCore -/
@[simp] theorem State.setCore_pending (m : Nat) (v : TinCore) : (s.setCore m v).pending = s.pending := rfl
@[simp] theorem State.setCore_regs (m : Nat) (v : TinCore) : (s.setCore m v).regs = s.regs := rfl
@[simp] theorem State.setCore_shadows (m : Nat) (v : TinCore) : (s.setCore m v).shadows = s.shadows := rfl
@[simp] theorem State.setCore_held (m : Nat) (v : TinCore) : (s.setCore m v).held = s.held := rfl
@[simp] theorem State.setCore_lastRead (m : Nat) (v : TinCore) : (s.setCore m v).lastRead = s.lastRead := rfl
@[simp] theorem State.setCore_clk (m : Nat) (v : TinCore) : (s.setCore m v).clk = s.clk := rfl
@[simp] theorem State.setCore_nonce (m : Nat) (v : TinCore) : (s.setCore m v).nonce = s.nonce := rfl
@[simp] theorem State.setCore_trs (m : Nat) (v : TinCore) : (s.setCore m v).trs = s.trs := rfl
@[simp] theorem State.setCore_pwt (m : Nat) (v : TinCore) : (s.setCore m v).pwt = s.pwt := rfl
@[simp] theorem State.setCore_lat (m : Nat) (v : TinCore) : (s.setCore m v).lat = s.lat := rfl
@[simp] theorem State.setCore_dma (m : Nat) (v : TinCore) : (s.setCore m v).dma = s.dma := rfl
@[simp] theorem State.setCore_cl (m : Nat) (v : TinCore) : (s.setCore m v).cl = s.cl := rfl
@[simp] theorem State.setCore_rg (m : Nat) (v : TinCore) : (s.setCore m v).rg = s.rg := rfl
@[simp] theorem State.setCore_rails (m : Nat) (v : TinCore) : (s.setCore m v).rails = s.rails := rfl
@[simp] theorem State.setCore_spad (m : Nat) (v : TinCore) : (s.setCore m v).spad = s.spad := rfl
@[simp] theorem State.setCore_spadBad (m : Nat) (v : TinCore) : (s.setCore m v).spadBad = s.spadBad := rfl
@[simp] theorem State.setCore_tier (m : Nat) (v : TinCore) : (s.setCore m v).tier = s.tier := rfl
@[simp] theorem State.setCore_hostOut (m : Nat) (v : TinCore) : (s.setCore m v).hostOut = s.hostOut := rfl
@[simp] theorem State.setCore_ctxs (m : Nat) (v : TinCore) : (s.setCore m v).ctxs = s.ctxs := rfl
@[simp] theorem State.setCore_slots (m : Nat) (v : TinCore) : (s.setCore m v).slots = s.slots := rfl
@[simp] theorem State.setCore_bars (m : Nat) (v : TinCore) : (s.setCore m v).bars = s.bars := rfl
@[simp] theorem State.setCore_sched (m : Nat) (v : TinCore) : (s.setCore m v).sched = s.sched := rfl
@[simp] theorem State.setCore_slack (m : Nat) (v : TinCore) : (s.setCore m v).slack = s.slack := rfl
@[simp] theorem State.setCore_done (m : Nat) (v : TinCore) : (s.setCore m v).done = s.done := rfl
@[simp] theorem State.setCore_marks (m : Nat) (v : TinCore) : (s.setCore m v).marks = s.marks := rfl
@[simp] theorem State.setCore_chain (m : Nat) (v : TinCore) : (s.setCore m v).chain = s.chain := rfl
@[simp] theorem State.setCore_tiers (m : Nat) (v : TinCore) : (s.setCore m v).tiers = s.tiers := rfl
@[simp] theorem State.setCore_sld (m : Nat) (v : TinCore) : (s.setCore m v).sld = s.sld := rfl
@[simp] theorem State.setCore_host (m : Nat) (v : TinCore) : (s.setCore m v).host = s.host := rfl
@[simp] theorem State.setCore_boot (m : Nat) (v : TinCore) : (s.setCore m v).boot = s.boot := rfl
@[simp] theorem State.setCore_tpls (m : Nat) (v : TinCore) : (s.setCore m v).tpls = s.tpls := rfl
@[simp] theorem State.setCore_timers (m : Nat) (v : TinCore) : (s.setCore m v).timers = s.timers := rfl
@[simp] theorem State.setCore_brz (m : Nat) (v : TinCore) : (s.setCore m v).brz = s.brz := rfl
@[simp] theorem State.setCore_fh (m : Nat) (v : TinCore) : (s.setCore m v).fh = s.fh := rfl
@[simp] theorem State.setCore_fapi (m : Nat) (v : TinCore) : (s.setCore m v).fapi = s.fapi := rfl
@[simp] theorem State.setCore_fapiWork (m : Nat) (v : TinCore) : (s.setCore m v).fapiWork = s.fapiWork := rfl
@[simp] theorem State.setCore_fapiOut (m : Nat) (v : TinCore) : (s.setCore m v).fapiOut = s.fapiOut := rfl
@[simp] theorem State.setCore_inv (m : Nat) (v : TinCore) : (s.setCore m v).inv = s.inv := rfl
@[simp] theorem State.setCore_net (m : Nat) (v : TinCore) : (s.setCore m v).net = s.net := rfl
@[simp] theorem State.setCore_time (m : Nat) (v : TinCore) : (s.setCore m v).time = s.time := rfl
/-! ### setDma -/
@[simp] theorem State.setDma_pending (c : Nat) (v : DmaEngine) : (s.setDma c v).pending = s.pending := rfl
@[simp] theorem State.setDma_regs (c : Nat) (v : DmaEngine) : (s.setDma c v).regs = s.regs := rfl
@[simp] theorem State.setDma_shadows (c : Nat) (v : DmaEngine) : (s.setDma c v).shadows = s.shadows := rfl
@[simp] theorem State.setDma_held (c : Nat) (v : DmaEngine) : (s.setDma c v).held = s.held := rfl
@[simp] theorem State.setDma_lastRead (c : Nat) (v : DmaEngine) : (s.setDma c v).lastRead = s.lastRead := rfl
@[simp] theorem State.setDma_clk (c : Nat) (v : DmaEngine) : (s.setDma c v).clk = s.clk := rfl
@[simp] theorem State.setDma_nonce (c : Nat) (v : DmaEngine) : (s.setDma c v).nonce = s.nonce := rfl
@[simp] theorem State.setDma_trs (c : Nat) (v : DmaEngine) : (s.setDma c v).trs = s.trs := rfl
@[simp] theorem State.setDma_pwt (c : Nat) (v : DmaEngine) : (s.setDma c v).pwt = s.pwt := rfl
@[simp] theorem State.setDma_tin (c : Nat) (v : DmaEngine) : (s.setDma c v).tin = s.tin := rfl
@[simp] theorem State.setDma_lat (c : Nat) (v : DmaEngine) : (s.setDma c v).lat = s.lat := rfl
@[simp] theorem State.setDma_cl (c : Nat) (v : DmaEngine) : (s.setDma c v).cl = s.cl := rfl
@[simp] theorem State.setDma_rg (c : Nat) (v : DmaEngine) : (s.setDma c v).rg = s.rg := rfl
@[simp] theorem State.setDma_rails (c : Nat) (v : DmaEngine) : (s.setDma c v).rails = s.rails := rfl
@[simp] theorem State.setDma_spad (c : Nat) (v : DmaEngine) : (s.setDma c v).spad = s.spad := rfl
@[simp] theorem State.setDma_spadBad (c : Nat) (v : DmaEngine) : (s.setDma c v).spadBad = s.spadBad := rfl
@[simp] theorem State.setDma_tier (c : Nat) (v : DmaEngine) : (s.setDma c v).tier = s.tier := rfl
@[simp] theorem State.setDma_hostOut (c : Nat) (v : DmaEngine) : (s.setDma c v).hostOut = s.hostOut := rfl
@[simp] theorem State.setDma_ctxs (c : Nat) (v : DmaEngine) : (s.setDma c v).ctxs = s.ctxs := rfl
@[simp] theorem State.setDma_slots (c : Nat) (v : DmaEngine) : (s.setDma c v).slots = s.slots := rfl
@[simp] theorem State.setDma_bars (c : Nat) (v : DmaEngine) : (s.setDma c v).bars = s.bars := rfl
@[simp] theorem State.setDma_sched (c : Nat) (v : DmaEngine) : (s.setDma c v).sched = s.sched := rfl
@[simp] theorem State.setDma_slack (c : Nat) (v : DmaEngine) : (s.setDma c v).slack = s.slack := rfl
@[simp] theorem State.setDma_done (c : Nat) (v : DmaEngine) : (s.setDma c v).done = s.done := rfl
@[simp] theorem State.setDma_marks (c : Nat) (v : DmaEngine) : (s.setDma c v).marks = s.marks := rfl
@[simp] theorem State.setDma_chain (c : Nat) (v : DmaEngine) : (s.setDma c v).chain = s.chain := rfl
@[simp] theorem State.setDma_tiers (c : Nat) (v : DmaEngine) : (s.setDma c v).tiers = s.tiers := rfl
@[simp] theorem State.setDma_sld (c : Nat) (v : DmaEngine) : (s.setDma c v).sld = s.sld := rfl
@[simp] theorem State.setDma_host (c : Nat) (v : DmaEngine) : (s.setDma c v).host = s.host := rfl
@[simp] theorem State.setDma_boot (c : Nat) (v : DmaEngine) : (s.setDma c v).boot = s.boot := rfl
@[simp] theorem State.setDma_tpls (c : Nat) (v : DmaEngine) : (s.setDma c v).tpls = s.tpls := rfl
@[simp] theorem State.setDma_timers (c : Nat) (v : DmaEngine) : (s.setDma c v).timers = s.timers := rfl
@[simp] theorem State.setDma_brz (c : Nat) (v : DmaEngine) : (s.setDma c v).brz = s.brz := rfl
@[simp] theorem State.setDma_fh (c : Nat) (v : DmaEngine) : (s.setDma c v).fh = s.fh := rfl
@[simp] theorem State.setDma_fapi (c : Nat) (v : DmaEngine) : (s.setDma c v).fapi = s.fapi := rfl
@[simp] theorem State.setDma_fapiWork (c : Nat) (v : DmaEngine) : (s.setDma c v).fapiWork = s.fapiWork := rfl
@[simp] theorem State.setDma_fapiOut (c : Nat) (v : DmaEngine) : (s.setDma c v).fapiOut = s.fapiOut := rfl
@[simp] theorem State.setDma_inv (c : Nat) (v : DmaEngine) : (s.setDma c v).inv = s.inv := rfl
@[simp] theorem State.setDma_net (c : Nat) (v : DmaEngine) : (s.setDma c v).net = s.net := rfl
@[simp] theorem State.setDma_time (c : Nat) (v : DmaEngine) : (s.setDma c v).time = s.time := rfl
/-! ### setCluster -/
@[simp] theorem State.setCluster_pending (c : Nat) (v : Cluster) : (s.setCluster c v).pending = s.pending := rfl
@[simp] theorem State.setCluster_regs (c : Nat) (v : Cluster) : (s.setCluster c v).regs = s.regs := rfl
@[simp] theorem State.setCluster_shadows (c : Nat) (v : Cluster) : (s.setCluster c v).shadows = s.shadows := rfl
@[simp] theorem State.setCluster_held (c : Nat) (v : Cluster) : (s.setCluster c v).held = s.held := rfl
@[simp] theorem State.setCluster_lastRead (c : Nat) (v : Cluster) : (s.setCluster c v).lastRead = s.lastRead := rfl
@[simp] theorem State.setCluster_clk (c : Nat) (v : Cluster) : (s.setCluster c v).clk = s.clk := rfl
@[simp] theorem State.setCluster_nonce (c : Nat) (v : Cluster) : (s.setCluster c v).nonce = s.nonce := rfl
@[simp] theorem State.setCluster_trs (c : Nat) (v : Cluster) : (s.setCluster c v).trs = s.trs := rfl
@[simp] theorem State.setCluster_pwt (c : Nat) (v : Cluster) : (s.setCluster c v).pwt = s.pwt := rfl
@[simp] theorem State.setCluster_tin (c : Nat) (v : Cluster) : (s.setCluster c v).tin = s.tin := rfl
@[simp] theorem State.setCluster_lat (c : Nat) (v : Cluster) : (s.setCluster c v).lat = s.lat := rfl
@[simp] theorem State.setCluster_dma (c : Nat) (v : Cluster) : (s.setCluster c v).dma = s.dma := rfl
@[simp] theorem State.setCluster_rg (c : Nat) (v : Cluster) : (s.setCluster c v).rg = s.rg := rfl
@[simp] theorem State.setCluster_rails (c : Nat) (v : Cluster) : (s.setCluster c v).rails = s.rails := rfl
@[simp] theorem State.setCluster_spad (c : Nat) (v : Cluster) : (s.setCluster c v).spad = s.spad := rfl
@[simp] theorem State.setCluster_spadBad (c : Nat) (v : Cluster) : (s.setCluster c v).spadBad = s.spadBad := rfl
@[simp] theorem State.setCluster_tier (c : Nat) (v : Cluster) : (s.setCluster c v).tier = s.tier := rfl
@[simp] theorem State.setCluster_hostOut (c : Nat) (v : Cluster) : (s.setCluster c v).hostOut = s.hostOut := rfl
@[simp] theorem State.setCluster_ctxs (c : Nat) (v : Cluster) : (s.setCluster c v).ctxs = s.ctxs := rfl
@[simp] theorem State.setCluster_slots (c : Nat) (v : Cluster) : (s.setCluster c v).slots = s.slots := rfl
@[simp] theorem State.setCluster_bars (c : Nat) (v : Cluster) : (s.setCluster c v).bars = s.bars := rfl
@[simp] theorem State.setCluster_sched (c : Nat) (v : Cluster) : (s.setCluster c v).sched = s.sched := rfl
@[simp] theorem State.setCluster_slack (c : Nat) (v : Cluster) : (s.setCluster c v).slack = s.slack := rfl
@[simp] theorem State.setCluster_done (c : Nat) (v : Cluster) : (s.setCluster c v).done = s.done := rfl
@[simp] theorem State.setCluster_marks (c : Nat) (v : Cluster) : (s.setCluster c v).marks = s.marks := rfl
@[simp] theorem State.setCluster_chain (c : Nat) (v : Cluster) : (s.setCluster c v).chain = s.chain := rfl
@[simp] theorem State.setCluster_tiers (c : Nat) (v : Cluster) : (s.setCluster c v).tiers = s.tiers := rfl
@[simp] theorem State.setCluster_sld (c : Nat) (v : Cluster) : (s.setCluster c v).sld = s.sld := rfl
@[simp] theorem State.setCluster_host (c : Nat) (v : Cluster) : (s.setCluster c v).host = s.host := rfl
@[simp] theorem State.setCluster_boot (c : Nat) (v : Cluster) : (s.setCluster c v).boot = s.boot := rfl
@[simp] theorem State.setCluster_tpls (c : Nat) (v : Cluster) : (s.setCluster c v).tpls = s.tpls := rfl
@[simp] theorem State.setCluster_timers (c : Nat) (v : Cluster) : (s.setCluster c v).timers = s.timers := rfl
@[simp] theorem State.setCluster_brz (c : Nat) (v : Cluster) : (s.setCluster c v).brz = s.brz := rfl
@[simp] theorem State.setCluster_fh (c : Nat) (v : Cluster) : (s.setCluster c v).fh = s.fh := rfl
@[simp] theorem State.setCluster_fapi (c : Nat) (v : Cluster) : (s.setCluster c v).fapi = s.fapi := rfl
@[simp] theorem State.setCluster_fapiWork (c : Nat) (v : Cluster) : (s.setCluster c v).fapiWork = s.fapiWork := rfl
@[simp] theorem State.setCluster_fapiOut (c : Nat) (v : Cluster) : (s.setCluster c v).fapiOut = s.fapiOut := rfl
@[simp] theorem State.setCluster_inv (c : Nat) (v : Cluster) : (s.setCluster c v).inv = s.inv := rfl
@[simp] theorem State.setCluster_net (c : Nat) (v : Cluster) : (s.setCluster c v).net = s.net := rfl
@[simp] theorem State.setCluster_time (c : Nat) (v : Cluster) : (s.setCluster c v).time = s.time := rfl
/-! ### setRegion -/
@[simp] theorem State.setRegion_pending (r : Nat) (v : Region) : (s.setRegion r v).pending = s.pending := rfl
@[simp] theorem State.setRegion_regs (r : Nat) (v : Region) : (s.setRegion r v).regs = s.regs := rfl
@[simp] theorem State.setRegion_shadows (r : Nat) (v : Region) : (s.setRegion r v).shadows = s.shadows := rfl
@[simp] theorem State.setRegion_held (r : Nat) (v : Region) : (s.setRegion r v).held = s.held := rfl
@[simp] theorem State.setRegion_lastRead (r : Nat) (v : Region) : (s.setRegion r v).lastRead = s.lastRead := rfl
@[simp] theorem State.setRegion_clk (r : Nat) (v : Region) : (s.setRegion r v).clk = s.clk := rfl
@[simp] theorem State.setRegion_nonce (r : Nat) (v : Region) : (s.setRegion r v).nonce = s.nonce := rfl
@[simp] theorem State.setRegion_trs (r : Nat) (v : Region) : (s.setRegion r v).trs = s.trs := rfl
@[simp] theorem State.setRegion_pwt (r : Nat) (v : Region) : (s.setRegion r v).pwt = s.pwt := rfl
@[simp] theorem State.setRegion_tin (r : Nat) (v : Region) : (s.setRegion r v).tin = s.tin := rfl
@[simp] theorem State.setRegion_lat (r : Nat) (v : Region) : (s.setRegion r v).lat = s.lat := rfl
@[simp] theorem State.setRegion_dma (r : Nat) (v : Region) : (s.setRegion r v).dma = s.dma := rfl
@[simp] theorem State.setRegion_cl (r : Nat) (v : Region) : (s.setRegion r v).cl = s.cl := rfl
@[simp] theorem State.setRegion_rails (r : Nat) (v : Region) : (s.setRegion r v).rails = s.rails := rfl
@[simp] theorem State.setRegion_spad (r : Nat) (v : Region) : (s.setRegion r v).spad = s.spad := rfl
@[simp] theorem State.setRegion_spadBad (r : Nat) (v : Region) : (s.setRegion r v).spadBad = s.spadBad := rfl
@[simp] theorem State.setRegion_tier (r : Nat) (v : Region) : (s.setRegion r v).tier = s.tier := rfl
@[simp] theorem State.setRegion_hostOut (r : Nat) (v : Region) : (s.setRegion r v).hostOut = s.hostOut := rfl
@[simp] theorem State.setRegion_ctxs (r : Nat) (v : Region) : (s.setRegion r v).ctxs = s.ctxs := rfl
@[simp] theorem State.setRegion_slots (r : Nat) (v : Region) : (s.setRegion r v).slots = s.slots := rfl
@[simp] theorem State.setRegion_bars (r : Nat) (v : Region) : (s.setRegion r v).bars = s.bars := rfl
@[simp] theorem State.setRegion_sched (r : Nat) (v : Region) : (s.setRegion r v).sched = s.sched := rfl
@[simp] theorem State.setRegion_slack (r : Nat) (v : Region) : (s.setRegion r v).slack = s.slack := rfl
@[simp] theorem State.setRegion_done (r : Nat) (v : Region) : (s.setRegion r v).done = s.done := rfl
@[simp] theorem State.setRegion_marks (r : Nat) (v : Region) : (s.setRegion r v).marks = s.marks := rfl
@[simp] theorem State.setRegion_chain (r : Nat) (v : Region) : (s.setRegion r v).chain = s.chain := rfl
@[simp] theorem State.setRegion_tiers (r : Nat) (v : Region) : (s.setRegion r v).tiers = s.tiers := rfl
@[simp] theorem State.setRegion_sld (r : Nat) (v : Region) : (s.setRegion r v).sld = s.sld := rfl
@[simp] theorem State.setRegion_host (r : Nat) (v : Region) : (s.setRegion r v).host = s.host := rfl
@[simp] theorem State.setRegion_boot (r : Nat) (v : Region) : (s.setRegion r v).boot = s.boot := rfl
@[simp] theorem State.setRegion_tpls (r : Nat) (v : Region) : (s.setRegion r v).tpls = s.tpls := rfl
@[simp] theorem State.setRegion_timers (r : Nat) (v : Region) : (s.setRegion r v).timers = s.timers := rfl
@[simp] theorem State.setRegion_brz (r : Nat) (v : Region) : (s.setRegion r v).brz = s.brz := rfl
@[simp] theorem State.setRegion_fh (r : Nat) (v : Region) : (s.setRegion r v).fh = s.fh := rfl
@[simp] theorem State.setRegion_fapi (r : Nat) (v : Region) : (s.setRegion r v).fapi = s.fapi := rfl
@[simp] theorem State.setRegion_fapiWork (r : Nat) (v : Region) : (s.setRegion r v).fapiWork = s.fapiWork := rfl
@[simp] theorem State.setRegion_fapiOut (r : Nat) (v : Region) : (s.setRegion r v).fapiOut = s.fapiOut := rfl
@[simp] theorem State.setRegion_inv (r : Nat) (v : Region) : (s.setRegion r v).inv = s.inv := rfl
@[simp] theorem State.setRegion_net (r : Nat) (v : Region) : (s.setRegion r v).net = s.net := rfl
@[simp] theorem State.setRegion_time (r : Nat) (v : Region) : (s.setRegion r v).time = s.time := rfl
/-! ### setLatch -/
@[simp] theorem State.setLatch_pending (c l : Nat) (v : Latches) : (s.setLatch c l v).pending = s.pending := rfl
@[simp] theorem State.setLatch_regs (c l : Nat) (v : Latches) : (s.setLatch c l v).regs = s.regs := rfl
@[simp] theorem State.setLatch_shadows (c l : Nat) (v : Latches) : (s.setLatch c l v).shadows = s.shadows := rfl
@[simp] theorem State.setLatch_held (c l : Nat) (v : Latches) : (s.setLatch c l v).held = s.held := rfl
@[simp] theorem State.setLatch_lastRead (c l : Nat) (v : Latches) : (s.setLatch c l v).lastRead = s.lastRead := rfl
@[simp] theorem State.setLatch_clk (c l : Nat) (v : Latches) : (s.setLatch c l v).clk = s.clk := rfl
@[simp] theorem State.setLatch_nonce (c l : Nat) (v : Latches) : (s.setLatch c l v).nonce = s.nonce := rfl
@[simp] theorem State.setLatch_trs (c l : Nat) (v : Latches) : (s.setLatch c l v).trs = s.trs := rfl
@[simp] theorem State.setLatch_pwt (c l : Nat) (v : Latches) : (s.setLatch c l v).pwt = s.pwt := rfl
@[simp] theorem State.setLatch_tin (c l : Nat) (v : Latches) : (s.setLatch c l v).tin = s.tin := rfl
@[simp] theorem State.setLatch_dma (c l : Nat) (v : Latches) : (s.setLatch c l v).dma = s.dma := rfl
@[simp] theorem State.setLatch_cl (c l : Nat) (v : Latches) : (s.setLatch c l v).cl = s.cl := rfl
@[simp] theorem State.setLatch_rg (c l : Nat) (v : Latches) : (s.setLatch c l v).rg = s.rg := rfl
@[simp] theorem State.setLatch_rails (c l : Nat) (v : Latches) : (s.setLatch c l v).rails = s.rails := rfl
@[simp] theorem State.setLatch_spad (c l : Nat) (v : Latches) : (s.setLatch c l v).spad = s.spad := rfl
@[simp] theorem State.setLatch_spadBad (c l : Nat) (v : Latches) : (s.setLatch c l v).spadBad = s.spadBad := rfl
@[simp] theorem State.setLatch_tier (c l : Nat) (v : Latches) : (s.setLatch c l v).tier = s.tier := rfl
@[simp] theorem State.setLatch_hostOut (c l : Nat) (v : Latches) : (s.setLatch c l v).hostOut = s.hostOut := rfl
@[simp] theorem State.setLatch_ctxs (c l : Nat) (v : Latches) : (s.setLatch c l v).ctxs = s.ctxs := rfl
@[simp] theorem State.setLatch_slots (c l : Nat) (v : Latches) : (s.setLatch c l v).slots = s.slots := rfl
@[simp] theorem State.setLatch_bars (c l : Nat) (v : Latches) : (s.setLatch c l v).bars = s.bars := rfl
@[simp] theorem State.setLatch_sched (c l : Nat) (v : Latches) : (s.setLatch c l v).sched = s.sched := rfl
@[simp] theorem State.setLatch_slack (c l : Nat) (v : Latches) : (s.setLatch c l v).slack = s.slack := rfl
@[simp] theorem State.setLatch_done (c l : Nat) (v : Latches) : (s.setLatch c l v).done = s.done := rfl
@[simp] theorem State.setLatch_marks (c l : Nat) (v : Latches) : (s.setLatch c l v).marks = s.marks := rfl
@[simp] theorem State.setLatch_chain (c l : Nat) (v : Latches) : (s.setLatch c l v).chain = s.chain := rfl
@[simp] theorem State.setLatch_tiers (c l : Nat) (v : Latches) : (s.setLatch c l v).tiers = s.tiers := rfl
@[simp] theorem State.setLatch_sld (c l : Nat) (v : Latches) : (s.setLatch c l v).sld = s.sld := rfl
@[simp] theorem State.setLatch_host (c l : Nat) (v : Latches) : (s.setLatch c l v).host = s.host := rfl
@[simp] theorem State.setLatch_boot (c l : Nat) (v : Latches) : (s.setLatch c l v).boot = s.boot := rfl
@[simp] theorem State.setLatch_tpls (c l : Nat) (v : Latches) : (s.setLatch c l v).tpls = s.tpls := rfl
@[simp] theorem State.setLatch_timers (c l : Nat) (v : Latches) : (s.setLatch c l v).timers = s.timers := rfl
@[simp] theorem State.setLatch_brz (c l : Nat) (v : Latches) : (s.setLatch c l v).brz = s.brz := rfl
@[simp] theorem State.setLatch_fh (c l : Nat) (v : Latches) : (s.setLatch c l v).fh = s.fh := rfl
@[simp] theorem State.setLatch_fapi (c l : Nat) (v : Latches) : (s.setLatch c l v).fapi = s.fapi := rfl
@[simp] theorem State.setLatch_fapiWork (c l : Nat) (v : Latches) : (s.setLatch c l v).fapiWork = s.fapiWork := rfl
@[simp] theorem State.setLatch_fapiOut (c l : Nat) (v : Latches) : (s.setLatch c l v).fapiOut = s.fapiOut := rfl
@[simp] theorem State.setLatch_inv (c l : Nat) (v : Latches) : (s.setLatch c l v).inv = s.inv := rfl
@[simp] theorem State.setLatch_net (c l : Nat) (v : Latches) : (s.setLatch c l v).net = s.net := rfl
@[simp] theorem State.setLatch_time (c l : Nat) (v : Latches) : (s.setLatch c l v).time = s.time := rfl
/-! ### setQueue -/
@[simp] theorem State.setQueue_pending (q : Nat) (v : Queue) : (s.setQueue q v).pending = s.pending := rfl
@[simp] theorem State.setQueue_regs (q : Nat) (v : Queue) : (s.setQueue q v).regs = s.regs := rfl
@[simp] theorem State.setQueue_shadows (q : Nat) (v : Queue) : (s.setQueue q v).shadows = s.shadows := rfl
@[simp] theorem State.setQueue_held (q : Nat) (v : Queue) : (s.setQueue q v).held = s.held := rfl
@[simp] theorem State.setQueue_lastRead (q : Nat) (v : Queue) : (s.setQueue q v).lastRead = s.lastRead := rfl
@[simp] theorem State.setQueue_clk (q : Nat) (v : Queue) : (s.setQueue q v).clk = s.clk := rfl
@[simp] theorem State.setQueue_nonce (q : Nat) (v : Queue) : (s.setQueue q v).nonce = s.nonce := rfl
@[simp] theorem State.setQueue_trs (q : Nat) (v : Queue) : (s.setQueue q v).trs = s.trs := rfl
@[simp] theorem State.setQueue_pwt (q : Nat) (v : Queue) : (s.setQueue q v).pwt = s.pwt := rfl
@[simp] theorem State.setQueue_tin (q : Nat) (v : Queue) : (s.setQueue q v).tin = s.tin := rfl
@[simp] theorem State.setQueue_lat (q : Nat) (v : Queue) : (s.setQueue q v).lat = s.lat := rfl
@[simp] theorem State.setQueue_dma (q : Nat) (v : Queue) : (s.setQueue q v).dma = s.dma := rfl
@[simp] theorem State.setQueue_cl (q : Nat) (v : Queue) : (s.setQueue q v).cl = s.cl := rfl
@[simp] theorem State.setQueue_rg (q : Nat) (v : Queue) : (s.setQueue q v).rg = s.rg := rfl
@[simp] theorem State.setQueue_rails (q : Nat) (v : Queue) : (s.setQueue q v).rails = s.rails := rfl
@[simp] theorem State.setQueue_spad (q : Nat) (v : Queue) : (s.setQueue q v).spad = s.spad := rfl
@[simp] theorem State.setQueue_spadBad (q : Nat) (v : Queue) : (s.setQueue q v).spadBad = s.spadBad := rfl
@[simp] theorem State.setQueue_tier (q : Nat) (v : Queue) : (s.setQueue q v).tier = s.tier := rfl
@[simp] theorem State.setQueue_hostOut (q : Nat) (v : Queue) : (s.setQueue q v).hostOut = s.hostOut := rfl
@[simp] theorem State.setQueue_ctxs (q : Nat) (v : Queue) : (s.setQueue q v).ctxs = s.ctxs := rfl
@[simp] theorem State.setQueue_slots (q : Nat) (v : Queue) : (s.setQueue q v).slots = s.slots := rfl
@[simp] theorem State.setQueue_bars (q : Nat) (v : Queue) : (s.setQueue q v).bars = s.bars := rfl
@[simp] theorem State.setQueue_sched (q : Nat) (v : Queue) : (s.setQueue q v).sched = s.sched := rfl
@[simp] theorem State.setQueue_slack (q : Nat) (v : Queue) : (s.setQueue q v).slack = s.slack := rfl
@[simp] theorem State.setQueue_done (q : Nat) (v : Queue) : (s.setQueue q v).done = s.done := rfl
@[simp] theorem State.setQueue_marks (q : Nat) (v : Queue) : (s.setQueue q v).marks = s.marks := rfl
@[simp] theorem State.setQueue_chain (q : Nat) (v : Queue) : (s.setQueue q v).chain = s.chain := rfl
@[simp] theorem State.setQueue_tiers (q : Nat) (v : Queue) : (s.setQueue q v).tiers = s.tiers := rfl
@[simp] theorem State.setQueue_sld (q : Nat) (v : Queue) : (s.setQueue q v).sld = s.sld := rfl
@[simp] theorem State.setQueue_boot (q : Nat) (v : Queue) : (s.setQueue q v).boot = s.boot := rfl
@[simp] theorem State.setQueue_tpls (q : Nat) (v : Queue) : (s.setQueue q v).tpls = s.tpls := rfl
@[simp] theorem State.setQueue_timers (q : Nat) (v : Queue) : (s.setQueue q v).timers = s.timers := rfl
@[simp] theorem State.setQueue_brz (q : Nat) (v : Queue) : (s.setQueue q v).brz = s.brz := rfl
@[simp] theorem State.setQueue_fh (q : Nat) (v : Queue) : (s.setQueue q v).fh = s.fh := rfl
@[simp] theorem State.setQueue_fapi (q : Nat) (v : Queue) : (s.setQueue q v).fapi = s.fapi := rfl
@[simp] theorem State.setQueue_fapiWork (q : Nat) (v : Queue) : (s.setQueue q v).fapiWork = s.fapiWork := rfl
@[simp] theorem State.setQueue_fapiOut (q : Nat) (v : Queue) : (s.setQueue q v).fapiOut = s.fapiOut := rfl
@[simp] theorem State.setQueue_inv (q : Nat) (v : Queue) : (s.setQueue q v).inv = s.inv := rfl
@[simp] theorem State.setQueue_net (q : Nat) (v : Queue) : (s.setQueue q v).net = s.net := rfl
@[simp] theorem State.setQueue_time (q : Nat) (v : Queue) : (s.setQueue q v).time = s.time := rfl
/-! ### setFunc -/
@[simp] theorem State.setFunc_pending (n : Nat) (v : Func) : (s.setFunc n v).pending = s.pending := rfl
@[simp] theorem State.setFunc_regs (n : Nat) (v : Func) : (s.setFunc n v).regs = s.regs := rfl
@[simp] theorem State.setFunc_shadows (n : Nat) (v : Func) : (s.setFunc n v).shadows = s.shadows := rfl
@[simp] theorem State.setFunc_held (n : Nat) (v : Func) : (s.setFunc n v).held = s.held := rfl
@[simp] theorem State.setFunc_lastRead (n : Nat) (v : Func) : (s.setFunc n v).lastRead = s.lastRead := rfl
@[simp] theorem State.setFunc_clk (n : Nat) (v : Func) : (s.setFunc n v).clk = s.clk := rfl
@[simp] theorem State.setFunc_nonce (n : Nat) (v : Func) : (s.setFunc n v).nonce = s.nonce := rfl
@[simp] theorem State.setFunc_trs (n : Nat) (v : Func) : (s.setFunc n v).trs = s.trs := rfl
@[simp] theorem State.setFunc_pwt (n : Nat) (v : Func) : (s.setFunc n v).pwt = s.pwt := rfl
@[simp] theorem State.setFunc_tin (n : Nat) (v : Func) : (s.setFunc n v).tin = s.tin := rfl
@[simp] theorem State.setFunc_lat (n : Nat) (v : Func) : (s.setFunc n v).lat = s.lat := rfl
@[simp] theorem State.setFunc_dma (n : Nat) (v : Func) : (s.setFunc n v).dma = s.dma := rfl
@[simp] theorem State.setFunc_cl (n : Nat) (v : Func) : (s.setFunc n v).cl = s.cl := rfl
@[simp] theorem State.setFunc_rg (n : Nat) (v : Func) : (s.setFunc n v).rg = s.rg := rfl
@[simp] theorem State.setFunc_rails (n : Nat) (v : Func) : (s.setFunc n v).rails = s.rails := rfl
@[simp] theorem State.setFunc_spad (n : Nat) (v : Func) : (s.setFunc n v).spad = s.spad := rfl
@[simp] theorem State.setFunc_spadBad (n : Nat) (v : Func) : (s.setFunc n v).spadBad = s.spadBad := rfl
@[simp] theorem State.setFunc_tier (n : Nat) (v : Func) : (s.setFunc n v).tier = s.tier := rfl
@[simp] theorem State.setFunc_hostOut (n : Nat) (v : Func) : (s.setFunc n v).hostOut = s.hostOut := rfl
@[simp] theorem State.setFunc_ctxs (n : Nat) (v : Func) : (s.setFunc n v).ctxs = s.ctxs := rfl
@[simp] theorem State.setFunc_slots (n : Nat) (v : Func) : (s.setFunc n v).slots = s.slots := rfl
@[simp] theorem State.setFunc_bars (n : Nat) (v : Func) : (s.setFunc n v).bars = s.bars := rfl
@[simp] theorem State.setFunc_sched (n : Nat) (v : Func) : (s.setFunc n v).sched = s.sched := rfl
@[simp] theorem State.setFunc_slack (n : Nat) (v : Func) : (s.setFunc n v).slack = s.slack := rfl
@[simp] theorem State.setFunc_done (n : Nat) (v : Func) : (s.setFunc n v).done = s.done := rfl
@[simp] theorem State.setFunc_marks (n : Nat) (v : Func) : (s.setFunc n v).marks = s.marks := rfl
@[simp] theorem State.setFunc_chain (n : Nat) (v : Func) : (s.setFunc n v).chain = s.chain := rfl
@[simp] theorem State.setFunc_tiers (n : Nat) (v : Func) : (s.setFunc n v).tiers = s.tiers := rfl
@[simp] theorem State.setFunc_sld (n : Nat) (v : Func) : (s.setFunc n v).sld = s.sld := rfl
@[simp] theorem State.setFunc_boot (n : Nat) (v : Func) : (s.setFunc n v).boot = s.boot := rfl
@[simp] theorem State.setFunc_tpls (n : Nat) (v : Func) : (s.setFunc n v).tpls = s.tpls := rfl
@[simp] theorem State.setFunc_timers (n : Nat) (v : Func) : (s.setFunc n v).timers = s.timers := rfl
@[simp] theorem State.setFunc_brz (n : Nat) (v : Func) : (s.setFunc n v).brz = s.brz := rfl
@[simp] theorem State.setFunc_fh (n : Nat) (v : Func) : (s.setFunc n v).fh = s.fh := rfl
@[simp] theorem State.setFunc_fapi (n : Nat) (v : Func) : (s.setFunc n v).fapi = s.fapi := rfl
@[simp] theorem State.setFunc_fapiWork (n : Nat) (v : Func) : (s.setFunc n v).fapiWork = s.fapiWork := rfl
@[simp] theorem State.setFunc_fapiOut (n : Nat) (v : Func) : (s.setFunc n v).fapiOut = s.fapiOut := rfl
@[simp] theorem State.setFunc_inv (n : Nat) (v : Func) : (s.setFunc n v).inv = s.inv := rfl
@[simp] theorem State.setFunc_net (n : Nat) (v : Func) : (s.setFunc n v).net = s.net := rfl
@[simp] theorem State.setFunc_time (n : Nat) (v : Func) : (s.setFunc n v).time = s.time := rfl
/-! ### setObj -/
@[simp] theorem State.setObj_pending (o : Nat) (v : Obj) : (s.setObj o v).pending = s.pending := rfl
@[simp] theorem State.setObj_regs (o : Nat) (v : Obj) : (s.setObj o v).regs = s.regs := rfl
@[simp] theorem State.setObj_shadows (o : Nat) (v : Obj) : (s.setObj o v).shadows = s.shadows := rfl
@[simp] theorem State.setObj_held (o : Nat) (v : Obj) : (s.setObj o v).held = s.held := rfl
@[simp] theorem State.setObj_lastRead (o : Nat) (v : Obj) : (s.setObj o v).lastRead = s.lastRead := rfl
@[simp] theorem State.setObj_clk (o : Nat) (v : Obj) : (s.setObj o v).clk = s.clk := rfl
@[simp] theorem State.setObj_nonce (o : Nat) (v : Obj) : (s.setObj o v).nonce = s.nonce := rfl
@[simp] theorem State.setObj_trs (o : Nat) (v : Obj) : (s.setObj o v).trs = s.trs := rfl
@[simp] theorem State.setObj_pwt (o : Nat) (v : Obj) : (s.setObj o v).pwt = s.pwt := rfl
@[simp] theorem State.setObj_tin (o : Nat) (v : Obj) : (s.setObj o v).tin = s.tin := rfl
@[simp] theorem State.setObj_lat (o : Nat) (v : Obj) : (s.setObj o v).lat = s.lat := rfl
@[simp] theorem State.setObj_dma (o : Nat) (v : Obj) : (s.setObj o v).dma = s.dma := rfl
@[simp] theorem State.setObj_cl (o : Nat) (v : Obj) : (s.setObj o v).cl = s.cl := rfl
@[simp] theorem State.setObj_rg (o : Nat) (v : Obj) : (s.setObj o v).rg = s.rg := rfl
@[simp] theorem State.setObj_rails (o : Nat) (v : Obj) : (s.setObj o v).rails = s.rails := rfl
@[simp] theorem State.setObj_spad (o : Nat) (v : Obj) : (s.setObj o v).spad = s.spad := rfl
@[simp] theorem State.setObj_spadBad (o : Nat) (v : Obj) : (s.setObj o v).spadBad = s.spadBad := rfl
@[simp] theorem State.setObj_tier (o : Nat) (v : Obj) : (s.setObj o v).tier = s.tier := rfl
@[simp] theorem State.setObj_hostOut (o : Nat) (v : Obj) : (s.setObj o v).hostOut = s.hostOut := rfl
@[simp] theorem State.setObj_ctxs (o : Nat) (v : Obj) : (s.setObj o v).ctxs = s.ctxs := rfl
@[simp] theorem State.setObj_slots (o : Nat) (v : Obj) : (s.setObj o v).slots = s.slots := rfl
@[simp] theorem State.setObj_bars (o : Nat) (v : Obj) : (s.setObj o v).bars = s.bars := rfl
@[simp] theorem State.setObj_sched (o : Nat) (v : Obj) : (s.setObj o v).sched = s.sched := rfl
@[simp] theorem State.setObj_slack (o : Nat) (v : Obj) : (s.setObj o v).slack = s.slack := rfl
@[simp] theorem State.setObj_done (o : Nat) (v : Obj) : (s.setObj o v).done = s.done := rfl
@[simp] theorem State.setObj_marks (o : Nat) (v : Obj) : (s.setObj o v).marks = s.marks := rfl
@[simp] theorem State.setObj_chain (o : Nat) (v : Obj) : (s.setObj o v).chain = s.chain := rfl
@[simp] theorem State.setObj_sld (o : Nat) (v : Obj) : (s.setObj o v).sld = s.sld := rfl
@[simp] theorem State.setObj_host (o : Nat) (v : Obj) : (s.setObj o v).host = s.host := rfl
@[simp] theorem State.setObj_boot (o : Nat) (v : Obj) : (s.setObj o v).boot = s.boot := rfl
@[simp] theorem State.setObj_tpls (o : Nat) (v : Obj) : (s.setObj o v).tpls = s.tpls := rfl
@[simp] theorem State.setObj_timers (o : Nat) (v : Obj) : (s.setObj o v).timers = s.timers := rfl
@[simp] theorem State.setObj_brz (o : Nat) (v : Obj) : (s.setObj o v).brz = s.brz := rfl
@[simp] theorem State.setObj_fh (o : Nat) (v : Obj) : (s.setObj o v).fh = s.fh := rfl
@[simp] theorem State.setObj_fapi (o : Nat) (v : Obj) : (s.setObj o v).fapi = s.fapi := rfl
@[simp] theorem State.setObj_fapiWork (o : Nat) (v : Obj) : (s.setObj o v).fapiWork = s.fapiWork := rfl
@[simp] theorem State.setObj_fapiOut (o : Nat) (v : Obj) : (s.setObj o v).fapiOut = s.fapiOut := rfl
@[simp] theorem State.setObj_inv (o : Nat) (v : Obj) : (s.setObj o v).inv = s.inv := rfl
@[simp] theorem State.setObj_net (o : Nat) (v : Obj) : (s.setObj o v).net = s.net := rfl
@[simp] theorem State.setObj_time (o : Nat) (v : Obj) : (s.setObj o v).time = s.time := rfl
/-! ### setShelf -/
@[simp] theorem State.setShelf_pending (i : Nat) (v : Shelf) : (s.setShelf i v).pending = s.pending := rfl
@[simp] theorem State.setShelf_regs (i : Nat) (v : Shelf) : (s.setShelf i v).regs = s.regs := rfl
@[simp] theorem State.setShelf_shadows (i : Nat) (v : Shelf) : (s.setShelf i v).shadows = s.shadows := rfl
@[simp] theorem State.setShelf_held (i : Nat) (v : Shelf) : (s.setShelf i v).held = s.held := rfl
@[simp] theorem State.setShelf_lastRead (i : Nat) (v : Shelf) : (s.setShelf i v).lastRead = s.lastRead := rfl
@[simp] theorem State.setShelf_clk (i : Nat) (v : Shelf) : (s.setShelf i v).clk = s.clk := rfl
@[simp] theorem State.setShelf_nonce (i : Nat) (v : Shelf) : (s.setShelf i v).nonce = s.nonce := rfl
@[simp] theorem State.setShelf_trs (i : Nat) (v : Shelf) : (s.setShelf i v).trs = s.trs := rfl
@[simp] theorem State.setShelf_pwt (i : Nat) (v : Shelf) : (s.setShelf i v).pwt = s.pwt := rfl
@[simp] theorem State.setShelf_tin (i : Nat) (v : Shelf) : (s.setShelf i v).tin = s.tin := rfl
@[simp] theorem State.setShelf_lat (i : Nat) (v : Shelf) : (s.setShelf i v).lat = s.lat := rfl
@[simp] theorem State.setShelf_dma (i : Nat) (v : Shelf) : (s.setShelf i v).dma = s.dma := rfl
@[simp] theorem State.setShelf_cl (i : Nat) (v : Shelf) : (s.setShelf i v).cl = s.cl := rfl
@[simp] theorem State.setShelf_rg (i : Nat) (v : Shelf) : (s.setShelf i v).rg = s.rg := rfl
@[simp] theorem State.setShelf_rails (i : Nat) (v : Shelf) : (s.setShelf i v).rails = s.rails := rfl
@[simp] theorem State.setShelf_spad (i : Nat) (v : Shelf) : (s.setShelf i v).spad = s.spad := rfl
@[simp] theorem State.setShelf_spadBad (i : Nat) (v : Shelf) : (s.setShelf i v).spadBad = s.spadBad := rfl
@[simp] theorem State.setShelf_tier (i : Nat) (v : Shelf) : (s.setShelf i v).tier = s.tier := rfl
@[simp] theorem State.setShelf_hostOut (i : Nat) (v : Shelf) : (s.setShelf i v).hostOut = s.hostOut := rfl
@[simp] theorem State.setShelf_ctxs (i : Nat) (v : Shelf) : (s.setShelf i v).ctxs = s.ctxs := rfl
@[simp] theorem State.setShelf_slots (i : Nat) (v : Shelf) : (s.setShelf i v).slots = s.slots := rfl
@[simp] theorem State.setShelf_bars (i : Nat) (v : Shelf) : (s.setShelf i v).bars = s.bars := rfl
@[simp] theorem State.setShelf_sched (i : Nat) (v : Shelf) : (s.setShelf i v).sched = s.sched := rfl
@[simp] theorem State.setShelf_slack (i : Nat) (v : Shelf) : (s.setShelf i v).slack = s.slack := rfl
@[simp] theorem State.setShelf_done (i : Nat) (v : Shelf) : (s.setShelf i v).done = s.done := rfl
@[simp] theorem State.setShelf_marks (i : Nat) (v : Shelf) : (s.setShelf i v).marks = s.marks := rfl
@[simp] theorem State.setShelf_chain (i : Nat) (v : Shelf) : (s.setShelf i v).chain = s.chain := rfl
@[simp] theorem State.setShelf_sld (i : Nat) (v : Shelf) : (s.setShelf i v).sld = s.sld := rfl
@[simp] theorem State.setShelf_host (i : Nat) (v : Shelf) : (s.setShelf i v).host = s.host := rfl
@[simp] theorem State.setShelf_boot (i : Nat) (v : Shelf) : (s.setShelf i v).boot = s.boot := rfl
@[simp] theorem State.setShelf_tpls (i : Nat) (v : Shelf) : (s.setShelf i v).tpls = s.tpls := rfl
@[simp] theorem State.setShelf_timers (i : Nat) (v : Shelf) : (s.setShelf i v).timers = s.timers := rfl
@[simp] theorem State.setShelf_brz (i : Nat) (v : Shelf) : (s.setShelf i v).brz = s.brz := rfl
@[simp] theorem State.setShelf_fh (i : Nat) (v : Shelf) : (s.setShelf i v).fh = s.fh := rfl
@[simp] theorem State.setShelf_fapi (i : Nat) (v : Shelf) : (s.setShelf i v).fapi = s.fapi := rfl
@[simp] theorem State.setShelf_fapiWork (i : Nat) (v : Shelf) : (s.setShelf i v).fapiWork = s.fapiWork := rfl
@[simp] theorem State.setShelf_fapiOut (i : Nat) (v : Shelf) : (s.setShelf i v).fapiOut = s.fapiOut := rfl
@[simp] theorem State.setShelf_inv (i : Nat) (v : Shelf) : (s.setShelf i v).inv = s.inv := rfl
@[simp] theorem State.setShelf_net (i : Nat) (v : Shelf) : (s.setShelf i v).net = s.net := rfl
@[simp] theorem State.setShelf_time (i : Nat) (v : Shelf) : (s.setShelf i v).time = s.time := rfl
/-! ### setBronze -/
@[simp] theorem State.setBronze_pending (u : Nat) (v : BrzUnit) : (s.setBronze u v).pending = s.pending := rfl
@[simp] theorem State.setBronze_regs (u : Nat) (v : BrzUnit) : (s.setBronze u v).regs = s.regs := rfl
@[simp] theorem State.setBronze_shadows (u : Nat) (v : BrzUnit) : (s.setBronze u v).shadows = s.shadows := rfl
@[simp] theorem State.setBronze_held (u : Nat) (v : BrzUnit) : (s.setBronze u v).held = s.held := rfl
@[simp] theorem State.setBronze_lastRead (u : Nat) (v : BrzUnit) : (s.setBronze u v).lastRead = s.lastRead := rfl
@[simp] theorem State.setBronze_clk (u : Nat) (v : BrzUnit) : (s.setBronze u v).clk = s.clk := rfl
@[simp] theorem State.setBronze_nonce (u : Nat) (v : BrzUnit) : (s.setBronze u v).nonce = s.nonce := rfl
@[simp] theorem State.setBronze_trs (u : Nat) (v : BrzUnit) : (s.setBronze u v).trs = s.trs := rfl
@[simp] theorem State.setBronze_pwt (u : Nat) (v : BrzUnit) : (s.setBronze u v).pwt = s.pwt := rfl
@[simp] theorem State.setBronze_tin (u : Nat) (v : BrzUnit) : (s.setBronze u v).tin = s.tin := rfl
@[simp] theorem State.setBronze_lat (u : Nat) (v : BrzUnit) : (s.setBronze u v).lat = s.lat := rfl
@[simp] theorem State.setBronze_dma (u : Nat) (v : BrzUnit) : (s.setBronze u v).dma = s.dma := rfl
@[simp] theorem State.setBronze_cl (u : Nat) (v : BrzUnit) : (s.setBronze u v).cl = s.cl := rfl
@[simp] theorem State.setBronze_rg (u : Nat) (v : BrzUnit) : (s.setBronze u v).rg = s.rg := rfl
@[simp] theorem State.setBronze_rails (u : Nat) (v : BrzUnit) : (s.setBronze u v).rails = s.rails := rfl
@[simp] theorem State.setBronze_spad (u : Nat) (v : BrzUnit) : (s.setBronze u v).spad = s.spad := rfl
@[simp] theorem State.setBronze_spadBad (u : Nat) (v : BrzUnit) : (s.setBronze u v).spadBad = s.spadBad := rfl
@[simp] theorem State.setBronze_tier (u : Nat) (v : BrzUnit) : (s.setBronze u v).tier = s.tier := rfl
@[simp] theorem State.setBronze_hostOut (u : Nat) (v : BrzUnit) : (s.setBronze u v).hostOut = s.hostOut := rfl
@[simp] theorem State.setBronze_ctxs (u : Nat) (v : BrzUnit) : (s.setBronze u v).ctxs = s.ctxs := rfl
@[simp] theorem State.setBronze_slots (u : Nat) (v : BrzUnit) : (s.setBronze u v).slots = s.slots := rfl
@[simp] theorem State.setBronze_bars (u : Nat) (v : BrzUnit) : (s.setBronze u v).bars = s.bars := rfl
@[simp] theorem State.setBronze_sched (u : Nat) (v : BrzUnit) : (s.setBronze u v).sched = s.sched := rfl
@[simp] theorem State.setBronze_slack (u : Nat) (v : BrzUnit) : (s.setBronze u v).slack = s.slack := rfl
@[simp] theorem State.setBronze_done (u : Nat) (v : BrzUnit) : (s.setBronze u v).done = s.done := rfl
@[simp] theorem State.setBronze_marks (u : Nat) (v : BrzUnit) : (s.setBronze u v).marks = s.marks := rfl
@[simp] theorem State.setBronze_chain (u : Nat) (v : BrzUnit) : (s.setBronze u v).chain = s.chain := rfl
@[simp] theorem State.setBronze_tiers (u : Nat) (v : BrzUnit) : (s.setBronze u v).tiers = s.tiers := rfl
@[simp] theorem State.setBronze_sld (u : Nat) (v : BrzUnit) : (s.setBronze u v).sld = s.sld := rfl
@[simp] theorem State.setBronze_host (u : Nat) (v : BrzUnit) : (s.setBronze u v).host = s.host := rfl
@[simp] theorem State.setBronze_boot (u : Nat) (v : BrzUnit) : (s.setBronze u v).boot = s.boot := rfl
@[simp] theorem State.setBronze_tpls (u : Nat) (v : BrzUnit) : (s.setBronze u v).tpls = s.tpls := rfl
@[simp] theorem State.setBronze_timers (u : Nat) (v : BrzUnit) : (s.setBronze u v).timers = s.timers := rfl
@[simp] theorem State.setBronze_fh (u : Nat) (v : BrzUnit) : (s.setBronze u v).fh = s.fh := rfl
@[simp] theorem State.setBronze_fapi (u : Nat) (v : BrzUnit) : (s.setBronze u v).fapi = s.fapi := rfl
@[simp] theorem State.setBronze_fapiWork (u : Nat) (v : BrzUnit) : (s.setBronze u v).fapiWork = s.fapiWork := rfl
@[simp] theorem State.setBronze_fapiOut (u : Nat) (v : BrzUnit) : (s.setBronze u v).fapiOut = s.fapiOut := rfl
@[simp] theorem State.setBronze_inv (u : Nat) (v : BrzUnit) : (s.setBronze u v).inv = s.inv := rfl
@[simp] theorem State.setBronze_net (u : Nat) (v : BrzUnit) : (s.setBronze u v).net = s.net := rfl
@[simp] theorem State.setBronze_time (u : Nat) (v : BrzUnit) : (s.setBronze u v).time = s.time := rfl
/-! ### setBar -/
@[simp] theorem State.setBar_pending (b : Nat) (v : Barrier) : (s.setBar b v).pending = s.pending := rfl
@[simp] theorem State.setBar_regs (b : Nat) (v : Barrier) : (s.setBar b v).regs = s.regs := rfl
@[simp] theorem State.setBar_shadows (b : Nat) (v : Barrier) : (s.setBar b v).shadows = s.shadows := rfl
@[simp] theorem State.setBar_held (b : Nat) (v : Barrier) : (s.setBar b v).held = s.held := rfl
@[simp] theorem State.setBar_lastRead (b : Nat) (v : Barrier) : (s.setBar b v).lastRead = s.lastRead := rfl
@[simp] theorem State.setBar_clk (b : Nat) (v : Barrier) : (s.setBar b v).clk = s.clk := rfl
@[simp] theorem State.setBar_nonce (b : Nat) (v : Barrier) : (s.setBar b v).nonce = s.nonce := rfl
@[simp] theorem State.setBar_trs (b : Nat) (v : Barrier) : (s.setBar b v).trs = s.trs := rfl
@[simp] theorem State.setBar_pwt (b : Nat) (v : Barrier) : (s.setBar b v).pwt = s.pwt := rfl
@[simp] theorem State.setBar_tin (b : Nat) (v : Barrier) : (s.setBar b v).tin = s.tin := rfl
@[simp] theorem State.setBar_lat (b : Nat) (v : Barrier) : (s.setBar b v).lat = s.lat := rfl
@[simp] theorem State.setBar_dma (b : Nat) (v : Barrier) : (s.setBar b v).dma = s.dma := rfl
@[simp] theorem State.setBar_cl (b : Nat) (v : Barrier) : (s.setBar b v).cl = s.cl := rfl
@[simp] theorem State.setBar_rg (b : Nat) (v : Barrier) : (s.setBar b v).rg = s.rg := rfl
@[simp] theorem State.setBar_rails (b : Nat) (v : Barrier) : (s.setBar b v).rails = s.rails := rfl
@[simp] theorem State.setBar_spad (b : Nat) (v : Barrier) : (s.setBar b v).spad = s.spad := rfl
@[simp] theorem State.setBar_spadBad (b : Nat) (v : Barrier) : (s.setBar b v).spadBad = s.spadBad := rfl
@[simp] theorem State.setBar_tier (b : Nat) (v : Barrier) : (s.setBar b v).tier = s.tier := rfl
@[simp] theorem State.setBar_hostOut (b : Nat) (v : Barrier) : (s.setBar b v).hostOut = s.hostOut := rfl
@[simp] theorem State.setBar_ctxs (b : Nat) (v : Barrier) : (s.setBar b v).ctxs = s.ctxs := rfl
@[simp] theorem State.setBar_slots (b : Nat) (v : Barrier) : (s.setBar b v).slots = s.slots := rfl
@[simp] theorem State.setBar_sched (b : Nat) (v : Barrier) : (s.setBar b v).sched = s.sched := rfl
@[simp] theorem State.setBar_slack (b : Nat) (v : Barrier) : (s.setBar b v).slack = s.slack := rfl
@[simp] theorem State.setBar_done (b : Nat) (v : Barrier) : (s.setBar b v).done = s.done := rfl
@[simp] theorem State.setBar_marks (b : Nat) (v : Barrier) : (s.setBar b v).marks = s.marks := rfl
@[simp] theorem State.setBar_chain (b : Nat) (v : Barrier) : (s.setBar b v).chain = s.chain := rfl
@[simp] theorem State.setBar_tiers (b : Nat) (v : Barrier) : (s.setBar b v).tiers = s.tiers := rfl
@[simp] theorem State.setBar_sld (b : Nat) (v : Barrier) : (s.setBar b v).sld = s.sld := rfl
@[simp] theorem State.setBar_host (b : Nat) (v : Barrier) : (s.setBar b v).host = s.host := rfl
@[simp] theorem State.setBar_boot (b : Nat) (v : Barrier) : (s.setBar b v).boot = s.boot := rfl
@[simp] theorem State.setBar_tpls (b : Nat) (v : Barrier) : (s.setBar b v).tpls = s.tpls := rfl
@[simp] theorem State.setBar_timers (b : Nat) (v : Barrier) : (s.setBar b v).timers = s.timers := rfl
@[simp] theorem State.setBar_brz (b : Nat) (v : Barrier) : (s.setBar b v).brz = s.brz := rfl
@[simp] theorem State.setBar_fh (b : Nat) (v : Barrier) : (s.setBar b v).fh = s.fh := rfl
@[simp] theorem State.setBar_fapi (b : Nat) (v : Barrier) : (s.setBar b v).fapi = s.fapi := rfl
@[simp] theorem State.setBar_fapiWork (b : Nat) (v : Barrier) : (s.setBar b v).fapiWork = s.fapiWork := rfl
@[simp] theorem State.setBar_fapiOut (b : Nat) (v : Barrier) : (s.setBar b v).fapiOut = s.fapiOut := rfl
@[simp] theorem State.setBar_inv (b : Nat) (v : Barrier) : (s.setBar b v).inv = s.inv := rfl
@[simp] theorem State.setBar_net (b : Nat) (v : Barrier) : (s.setBar b v).net = s.net := rfl
@[simp] theorem State.setBar_time (b : Nat) (v : Barrier) : (s.setBar b v).time = s.time := rfl
/-! ### sendRec -/
@[simp] theorem State.sendRec_pending (q fn gen : Nat) (u : RecFor) (bs : List Byte) : (s.sendRec q fn gen u bs).pending = s.pending := rfl
@[simp] theorem State.sendRec_regs (q fn gen : Nat) (u : RecFor) (bs : List Byte) : (s.sendRec q fn gen u bs).regs = s.regs := rfl
@[simp] theorem State.sendRec_shadows (q fn gen : Nat) (u : RecFor) (bs : List Byte) : (s.sendRec q fn gen u bs).shadows = s.shadows := rfl
@[simp] theorem State.sendRec_held (q fn gen : Nat) (u : RecFor) (bs : List Byte) : (s.sendRec q fn gen u bs).held = s.held := rfl
@[simp] theorem State.sendRec_lastRead (q fn gen : Nat) (u : RecFor) (bs : List Byte) : (s.sendRec q fn gen u bs).lastRead = s.lastRead := rfl
@[simp] theorem State.sendRec_clk (q fn gen : Nat) (u : RecFor) (bs : List Byte) : (s.sendRec q fn gen u bs).clk = s.clk := rfl
@[simp] theorem State.sendRec_nonce (q fn gen : Nat) (u : RecFor) (bs : List Byte) : (s.sendRec q fn gen u bs).nonce = s.nonce := rfl
@[simp] theorem State.sendRec_trs (q fn gen : Nat) (u : RecFor) (bs : List Byte) : (s.sendRec q fn gen u bs).trs = s.trs := rfl
@[simp] theorem State.sendRec_pwt (q fn gen : Nat) (u : RecFor) (bs : List Byte) : (s.sendRec q fn gen u bs).pwt = s.pwt := rfl
@[simp] theorem State.sendRec_tin (q fn gen : Nat) (u : RecFor) (bs : List Byte) : (s.sendRec q fn gen u bs).tin = s.tin := rfl
@[simp] theorem State.sendRec_lat (q fn gen : Nat) (u : RecFor) (bs : List Byte) : (s.sendRec q fn gen u bs).lat = s.lat := rfl
@[simp] theorem State.sendRec_dma (q fn gen : Nat) (u : RecFor) (bs : List Byte) : (s.sendRec q fn gen u bs).dma = s.dma := rfl
@[simp] theorem State.sendRec_cl (q fn gen : Nat) (u : RecFor) (bs : List Byte) : (s.sendRec q fn gen u bs).cl = s.cl := rfl
@[simp] theorem State.sendRec_rg (q fn gen : Nat) (u : RecFor) (bs : List Byte) : (s.sendRec q fn gen u bs).rg = s.rg := rfl
@[simp] theorem State.sendRec_rails (q fn gen : Nat) (u : RecFor) (bs : List Byte) : (s.sendRec q fn gen u bs).rails = s.rails := rfl
@[simp] theorem State.sendRec_spad (q fn gen : Nat) (u : RecFor) (bs : List Byte) : (s.sendRec q fn gen u bs).spad = s.spad := rfl
@[simp] theorem State.sendRec_spadBad (q fn gen : Nat) (u : RecFor) (bs : List Byte) : (s.sendRec q fn gen u bs).spadBad = s.spadBad := rfl
@[simp] theorem State.sendRec_tier (q fn gen : Nat) (u : RecFor) (bs : List Byte) : (s.sendRec q fn gen u bs).tier = s.tier := rfl
@[simp] theorem State.sendRec_hostOut (q fn gen : Nat) (u : RecFor) (bs : List Byte) : (s.sendRec q fn gen u bs).hostOut = s.hostOut := rfl
@[simp] theorem State.sendRec_ctxs (q fn gen : Nat) (u : RecFor) (bs : List Byte) : (s.sendRec q fn gen u bs).ctxs = s.ctxs := rfl
@[simp] theorem State.sendRec_slots (q fn gen : Nat) (u : RecFor) (bs : List Byte) : (s.sendRec q fn gen u bs).slots = s.slots := rfl
@[simp] theorem State.sendRec_bars (q fn gen : Nat) (u : RecFor) (bs : List Byte) : (s.sendRec q fn gen u bs).bars = s.bars := rfl
@[simp] theorem State.sendRec_sched (q fn gen : Nat) (u : RecFor) (bs : List Byte) : (s.sendRec q fn gen u bs).sched = s.sched := rfl
@[simp] theorem State.sendRec_slack (q fn gen : Nat) (u : RecFor) (bs : List Byte) : (s.sendRec q fn gen u bs).slack = s.slack := rfl
@[simp] theorem State.sendRec_done (q fn gen : Nat) (u : RecFor) (bs : List Byte) : (s.sendRec q fn gen u bs).done = s.done := rfl
@[simp] theorem State.sendRec_marks (q fn gen : Nat) (u : RecFor) (bs : List Byte) : (s.sendRec q fn gen u bs).marks = s.marks := rfl
@[simp] theorem State.sendRec_chain (q fn gen : Nat) (u : RecFor) (bs : List Byte) : (s.sendRec q fn gen u bs).chain = s.chain := rfl
@[simp] theorem State.sendRec_tiers (q fn gen : Nat) (u : RecFor) (bs : List Byte) : (s.sendRec q fn gen u bs).tiers = s.tiers := rfl
@[simp] theorem State.sendRec_sld (q fn gen : Nat) (u : RecFor) (bs : List Byte) : (s.sendRec q fn gen u bs).sld = s.sld := rfl
@[simp] theorem State.sendRec_boot (q fn gen : Nat) (u : RecFor) (bs : List Byte) : (s.sendRec q fn gen u bs).boot = s.boot := rfl
@[simp] theorem State.sendRec_tpls (q fn gen : Nat) (u : RecFor) (bs : List Byte) : (s.sendRec q fn gen u bs).tpls = s.tpls := rfl
@[simp] theorem State.sendRec_timers (q fn gen : Nat) (u : RecFor) (bs : List Byte) : (s.sendRec q fn gen u bs).timers = s.timers := rfl
@[simp] theorem State.sendRec_brz (q fn gen : Nat) (u : RecFor) (bs : List Byte) : (s.sendRec q fn gen u bs).brz = s.brz := rfl
@[simp] theorem State.sendRec_fh (q fn gen : Nat) (u : RecFor) (bs : List Byte) : (s.sendRec q fn gen u bs).fh = s.fh := rfl
@[simp] theorem State.sendRec_fapi (q fn gen : Nat) (u : RecFor) (bs : List Byte) : (s.sendRec q fn gen u bs).fapi = s.fapi := rfl
@[simp] theorem State.sendRec_fapiWork (q fn gen : Nat) (u : RecFor) (bs : List Byte) : (s.sendRec q fn gen u bs).fapiWork = s.fapiWork := rfl
@[simp] theorem State.sendRec_fapiOut (q fn gen : Nat) (u : RecFor) (bs : List Byte) : (s.sendRec q fn gen u bs).fapiOut = s.fapiOut := rfl
@[simp] theorem State.sendRec_inv (q fn gen : Nat) (u : RecFor) (bs : List Byte) : (s.sendRec q fn gen u bs).inv = s.inv := rfl
@[simp] theorem State.sendRec_net (q fn gen : Nat) (u : RecFor) (bs : List Byte) : (s.sendRec q fn gen u bs).net = s.net := rfl
@[simp] theorem State.sendRec_time (q fn gen : Nat) (u : RecFor) (bs : List Byte) : (s.sendRec q fn gen u bs).time = s.time := rfl
/-! ### loseResv -/
@[simp] theorem State.loseResv_pending (gs : List Nat) : (s.loseResv gs).pending = s.pending := rfl
@[simp] theorem State.loseResv_regs (gs : List Nat) : (s.loseResv gs).regs = s.regs := rfl
@[simp] theorem State.loseResv_shadows (gs : List Nat) : (s.loseResv gs).shadows = s.shadows := rfl
@[simp] theorem State.loseResv_held (gs : List Nat) : (s.loseResv gs).held = s.held := rfl
@[simp] theorem State.loseResv_lastRead (gs : List Nat) : (s.loseResv gs).lastRead = s.lastRead := rfl
@[simp] theorem State.loseResv_clk (gs : List Nat) : (s.loseResv gs).clk = s.clk := rfl
@[simp] theorem State.loseResv_nonce (gs : List Nat) : (s.loseResv gs).nonce = s.nonce := rfl
@[simp] theorem State.loseResv_trs (gs : List Nat) : (s.loseResv gs).trs = s.trs := rfl
@[simp] theorem State.loseResv_pwt (gs : List Nat) : (s.loseResv gs).pwt = s.pwt := rfl
@[simp] theorem State.loseResv_lat (gs : List Nat) : (s.loseResv gs).lat = s.lat := rfl
@[simp] theorem State.loseResv_dma (gs : List Nat) : (s.loseResv gs).dma = s.dma := rfl
@[simp] theorem State.loseResv_cl (gs : List Nat) : (s.loseResv gs).cl = s.cl := rfl
@[simp] theorem State.loseResv_rg (gs : List Nat) : (s.loseResv gs).rg = s.rg := rfl
@[simp] theorem State.loseResv_rails (gs : List Nat) : (s.loseResv gs).rails = s.rails := rfl
@[simp] theorem State.loseResv_spad (gs : List Nat) : (s.loseResv gs).spad = s.spad := rfl
@[simp] theorem State.loseResv_spadBad (gs : List Nat) : (s.loseResv gs).spadBad = s.spadBad := rfl
@[simp] theorem State.loseResv_tier (gs : List Nat) : (s.loseResv gs).tier = s.tier := rfl
@[simp] theorem State.loseResv_hostOut (gs : List Nat) : (s.loseResv gs).hostOut = s.hostOut := rfl
@[simp] theorem State.loseResv_ctxs (gs : List Nat) : (s.loseResv gs).ctxs = s.ctxs := rfl
@[simp] theorem State.loseResv_slots (gs : List Nat) : (s.loseResv gs).slots = s.slots := rfl
@[simp] theorem State.loseResv_bars (gs : List Nat) : (s.loseResv gs).bars = s.bars := rfl
@[simp] theorem State.loseResv_sched (gs : List Nat) : (s.loseResv gs).sched = s.sched := rfl
@[simp] theorem State.loseResv_slack (gs : List Nat) : (s.loseResv gs).slack = s.slack := rfl
@[simp] theorem State.loseResv_done (gs : List Nat) : (s.loseResv gs).done = s.done := rfl
@[simp] theorem State.loseResv_marks (gs : List Nat) : (s.loseResv gs).marks = s.marks := rfl
@[simp] theorem State.loseResv_chain (gs : List Nat) : (s.loseResv gs).chain = s.chain := rfl
@[simp] theorem State.loseResv_tiers (gs : List Nat) : (s.loseResv gs).tiers = s.tiers := rfl
@[simp] theorem State.loseResv_sld (gs : List Nat) : (s.loseResv gs).sld = s.sld := rfl
@[simp] theorem State.loseResv_host (gs : List Nat) : (s.loseResv gs).host = s.host := rfl
@[simp] theorem State.loseResv_boot (gs : List Nat) : (s.loseResv gs).boot = s.boot := rfl
@[simp] theorem State.loseResv_tpls (gs : List Nat) : (s.loseResv gs).tpls = s.tpls := rfl
@[simp] theorem State.loseResv_timers (gs : List Nat) : (s.loseResv gs).timers = s.timers := rfl
@[simp] theorem State.loseResv_brz (gs : List Nat) : (s.loseResv gs).brz = s.brz := rfl
@[simp] theorem State.loseResv_fh (gs : List Nat) : (s.loseResv gs).fh = s.fh := rfl
@[simp] theorem State.loseResv_fapi (gs : List Nat) : (s.loseResv gs).fapi = s.fapi := rfl
@[simp] theorem State.loseResv_fapiWork (gs : List Nat) : (s.loseResv gs).fapiWork = s.fapiWork := rfl
@[simp] theorem State.loseResv_fapiOut (gs : List Nat) : (s.loseResv gs).fapiOut = s.fapiOut := rfl
@[simp] theorem State.loseResv_inv (gs : List Nat) : (s.loseResv gs).inv = s.inv := rfl
@[simp] theorem State.loseResv_net (gs : List Nat) : (s.loseResv gs).net = s.net := rfl
@[simp] theorem State.loseResv_time (gs : List Nat) : (s.loseResv gs).time = s.time := rfl
/-! ### eventTo -/
@[simp] theorem State.eventTo_pending (q : Option Nat) (fn kind ctx e4 e5 e6 e7 : Nat) : (s.eventTo q fn kind ctx e4 e5 e6 e7).pending = s.pending := by cases q <;> rfl
@[simp] theorem State.eventTo_shadows (q : Option Nat) (fn kind ctx e4 e5 e6 e7 : Nat) : (s.eventTo q fn kind ctx e4 e5 e6 e7).shadows = s.shadows := by cases q <;> rfl
@[simp] theorem State.eventTo_held (q : Option Nat) (fn kind ctx e4 e5 e6 e7 : Nat) : (s.eventTo q fn kind ctx e4 e5 e6 e7).held = s.held := by cases q <;> rfl
@[simp] theorem State.eventTo_lastRead (q : Option Nat) (fn kind ctx e4 e5 e6 e7 : Nat) : (s.eventTo q fn kind ctx e4 e5 e6 e7).lastRead = s.lastRead := by cases q <;> rfl
@[simp] theorem State.eventTo_clk (q : Option Nat) (fn kind ctx e4 e5 e6 e7 : Nat) : (s.eventTo q fn kind ctx e4 e5 e6 e7).clk = s.clk := by cases q <;> rfl
@[simp] theorem State.eventTo_nonce (q : Option Nat) (fn kind ctx e4 e5 e6 e7 : Nat) : (s.eventTo q fn kind ctx e4 e5 e6 e7).nonce = s.nonce := by cases q <;> rfl
@[simp] theorem State.eventTo_trs (q : Option Nat) (fn kind ctx e4 e5 e6 e7 : Nat) : (s.eventTo q fn kind ctx e4 e5 e6 e7).trs = s.trs := by cases q <;> rfl
@[simp] theorem State.eventTo_pwt (q : Option Nat) (fn kind ctx e4 e5 e6 e7 : Nat) : (s.eventTo q fn kind ctx e4 e5 e6 e7).pwt = s.pwt := by cases q <;> rfl
@[simp] theorem State.eventTo_tin (q : Option Nat) (fn kind ctx e4 e5 e6 e7 : Nat) : (s.eventTo q fn kind ctx e4 e5 e6 e7).tin = s.tin := by cases q <;> rfl
@[simp] theorem State.eventTo_lat (q : Option Nat) (fn kind ctx e4 e5 e6 e7 : Nat) : (s.eventTo q fn kind ctx e4 e5 e6 e7).lat = s.lat := by cases q <;> rfl
@[simp] theorem State.eventTo_dma (q : Option Nat) (fn kind ctx e4 e5 e6 e7 : Nat) : (s.eventTo q fn kind ctx e4 e5 e6 e7).dma = s.dma := by cases q <;> rfl
@[simp] theorem State.eventTo_cl (q : Option Nat) (fn kind ctx e4 e5 e6 e7 : Nat) : (s.eventTo q fn kind ctx e4 e5 e6 e7).cl = s.cl := by cases q <;> rfl
@[simp] theorem State.eventTo_rg (q : Option Nat) (fn kind ctx e4 e5 e6 e7 : Nat) : (s.eventTo q fn kind ctx e4 e5 e6 e7).rg = s.rg := by cases q <;> rfl
@[simp] theorem State.eventTo_rails (q : Option Nat) (fn kind ctx e4 e5 e6 e7 : Nat) : (s.eventTo q fn kind ctx e4 e5 e6 e7).rails = s.rails := by cases q <;> rfl
@[simp] theorem State.eventTo_spad (q : Option Nat) (fn kind ctx e4 e5 e6 e7 : Nat) : (s.eventTo q fn kind ctx e4 e5 e6 e7).spad = s.spad := by cases q <;> rfl
@[simp] theorem State.eventTo_spadBad (q : Option Nat) (fn kind ctx e4 e5 e6 e7 : Nat) : (s.eventTo q fn kind ctx e4 e5 e6 e7).spadBad = s.spadBad := by cases q <;> rfl
@[simp] theorem State.eventTo_tier (q : Option Nat) (fn kind ctx e4 e5 e6 e7 : Nat) : (s.eventTo q fn kind ctx e4 e5 e6 e7).tier = s.tier := by cases q <;> rfl
@[simp] theorem State.eventTo_hostOut (q : Option Nat) (fn kind ctx e4 e5 e6 e7 : Nat) : (s.eventTo q fn kind ctx e4 e5 e6 e7).hostOut = s.hostOut := by cases q <;> rfl
@[simp] theorem State.eventTo_ctxs (q : Option Nat) (fn kind ctx e4 e5 e6 e7 : Nat) : (s.eventTo q fn kind ctx e4 e5 e6 e7).ctxs = s.ctxs := by cases q <;> rfl
@[simp] theorem State.eventTo_slots (q : Option Nat) (fn kind ctx e4 e5 e6 e7 : Nat) : (s.eventTo q fn kind ctx e4 e5 e6 e7).slots = s.slots := by cases q <;> rfl
@[simp] theorem State.eventTo_bars (q : Option Nat) (fn kind ctx e4 e5 e6 e7 : Nat) : (s.eventTo q fn kind ctx e4 e5 e6 e7).bars = s.bars := by cases q <;> rfl
@[simp] theorem State.eventTo_sched (q : Option Nat) (fn kind ctx e4 e5 e6 e7 : Nat) : (s.eventTo q fn kind ctx e4 e5 e6 e7).sched = s.sched := by cases q <;> rfl
@[simp] theorem State.eventTo_slack (q : Option Nat) (fn kind ctx e4 e5 e6 e7 : Nat) : (s.eventTo q fn kind ctx e4 e5 e6 e7).slack = s.slack := by cases q <;> rfl
@[simp] theorem State.eventTo_done (q : Option Nat) (fn kind ctx e4 e5 e6 e7 : Nat) : (s.eventTo q fn kind ctx e4 e5 e6 e7).done = s.done := by cases q <;> rfl
@[simp] theorem State.eventTo_marks (q : Option Nat) (fn kind ctx e4 e5 e6 e7 : Nat) : (s.eventTo q fn kind ctx e4 e5 e6 e7).marks = s.marks := by cases q <;> rfl
@[simp] theorem State.eventTo_chain (q : Option Nat) (fn kind ctx e4 e5 e6 e7 : Nat) : (s.eventTo q fn kind ctx e4 e5 e6 e7).chain = s.chain := by cases q <;> rfl
@[simp] theorem State.eventTo_tiers (q : Option Nat) (fn kind ctx e4 e5 e6 e7 : Nat) : (s.eventTo q fn kind ctx e4 e5 e6 e7).tiers = s.tiers := by cases q <;> rfl
@[simp] theorem State.eventTo_sld (q : Option Nat) (fn kind ctx e4 e5 e6 e7 : Nat) : (s.eventTo q fn kind ctx e4 e5 e6 e7).sld = s.sld := by cases q <;> rfl
@[simp] theorem State.eventTo_boot (q : Option Nat) (fn kind ctx e4 e5 e6 e7 : Nat) : (s.eventTo q fn kind ctx e4 e5 e6 e7).boot = s.boot := by cases q <;> rfl
@[simp] theorem State.eventTo_tpls (q : Option Nat) (fn kind ctx e4 e5 e6 e7 : Nat) : (s.eventTo q fn kind ctx e4 e5 e6 e7).tpls = s.tpls := by cases q <;> rfl
@[simp] theorem State.eventTo_timers (q : Option Nat) (fn kind ctx e4 e5 e6 e7 : Nat) : (s.eventTo q fn kind ctx e4 e5 e6 e7).timers = s.timers := by cases q <;> rfl
@[simp] theorem State.eventTo_brz (q : Option Nat) (fn kind ctx e4 e5 e6 e7 : Nat) : (s.eventTo q fn kind ctx e4 e5 e6 e7).brz = s.brz := by cases q <;> rfl
@[simp] theorem State.eventTo_fh (q : Option Nat) (fn kind ctx e4 e5 e6 e7 : Nat) : (s.eventTo q fn kind ctx e4 e5 e6 e7).fh = s.fh := by cases q <;> rfl
@[simp] theorem State.eventTo_fapi (q : Option Nat) (fn kind ctx e4 e5 e6 e7 : Nat) : (s.eventTo q fn kind ctx e4 e5 e6 e7).fapi = s.fapi := by cases q <;> rfl
@[simp] theorem State.eventTo_fapiWork (q : Option Nat) (fn kind ctx e4 e5 e6 e7 : Nat) : (s.eventTo q fn kind ctx e4 e5 e6 e7).fapiWork = s.fapiWork := by cases q <;> rfl
@[simp] theorem State.eventTo_fapiOut (q : Option Nat) (fn kind ctx e4 e5 e6 e7 : Nat) : (s.eventTo q fn kind ctx e4 e5 e6 e7).fapiOut = s.fapiOut := by cases q <;> rfl
@[simp] theorem State.eventTo_inv (q : Option Nat) (fn kind ctx e4 e5 e6 e7 : Nat) : (s.eventTo q fn kind ctx e4 e5 e6 e7).inv = s.inv := by cases q <;> rfl
@[simp] theorem State.eventTo_net (q : Option Nat) (fn kind ctx e4 e5 e6 e7 : Nat) : (s.eventTo q fn kind ctx e4 e5 e6 e7).net = s.net := by cases q <;> rfl
@[simp] theorem State.eventTo_time (q : Option Nat) (fn kind ctx e4 e5 e6 e7 : Nat) : (s.eventTo q fn kind ctx e4 e5 e6 e7).time = s.time := by cases q <;> rfl
/-! ### ctxEvent -/
@[simp] theorem State.ctxEvent_pending (x kind e4 e5 e6 e7 : Nat) : (s.ctxEvent x kind e4 e5 e6 e7).pending = s.pending := State.eventTo_pending ..
@[simp] theorem State.ctxEvent_shadows (x kind e4 e5 e6 e7 : Nat) : (s.ctxEvent x kind e4 e5 e6 e7).shadows = s.shadows := State.eventTo_shadows ..
@[simp] theorem State.ctxEvent_held (x kind e4 e5 e6 e7 : Nat) : (s.ctxEvent x kind e4 e5 e6 e7).held = s.held := State.eventTo_held ..
@[simp] theorem State.ctxEvent_lastRead (x kind e4 e5 e6 e7 : Nat) : (s.ctxEvent x kind e4 e5 e6 e7).lastRead = s.lastRead := State.eventTo_lastRead ..
@[simp] theorem State.ctxEvent_clk (x kind e4 e5 e6 e7 : Nat) : (s.ctxEvent x kind e4 e5 e6 e7).clk = s.clk := State.eventTo_clk ..
@[simp] theorem State.ctxEvent_nonce (x kind e4 e5 e6 e7 : Nat) : (s.ctxEvent x kind e4 e5 e6 e7).nonce = s.nonce := State.eventTo_nonce ..
@[simp] theorem State.ctxEvent_trs (x kind e4 e5 e6 e7 : Nat) : (s.ctxEvent x kind e4 e5 e6 e7).trs = s.trs := State.eventTo_trs ..
@[simp] theorem State.ctxEvent_pwt (x kind e4 e5 e6 e7 : Nat) : (s.ctxEvent x kind e4 e5 e6 e7).pwt = s.pwt := State.eventTo_pwt ..
@[simp] theorem State.ctxEvent_tin (x kind e4 e5 e6 e7 : Nat) : (s.ctxEvent x kind e4 e5 e6 e7).tin = s.tin := State.eventTo_tin ..
@[simp] theorem State.ctxEvent_lat (x kind e4 e5 e6 e7 : Nat) : (s.ctxEvent x kind e4 e5 e6 e7).lat = s.lat := State.eventTo_lat ..
@[simp] theorem State.ctxEvent_dma (x kind e4 e5 e6 e7 : Nat) : (s.ctxEvent x kind e4 e5 e6 e7).dma = s.dma := State.eventTo_dma ..
@[simp] theorem State.ctxEvent_cl (x kind e4 e5 e6 e7 : Nat) : (s.ctxEvent x kind e4 e5 e6 e7).cl = s.cl := State.eventTo_cl ..
@[simp] theorem State.ctxEvent_rg (x kind e4 e5 e6 e7 : Nat) : (s.ctxEvent x kind e4 e5 e6 e7).rg = s.rg := State.eventTo_rg ..
@[simp] theorem State.ctxEvent_rails (x kind e4 e5 e6 e7 : Nat) : (s.ctxEvent x kind e4 e5 e6 e7).rails = s.rails := State.eventTo_rails ..
@[simp] theorem State.ctxEvent_spad (x kind e4 e5 e6 e7 : Nat) : (s.ctxEvent x kind e4 e5 e6 e7).spad = s.spad := State.eventTo_spad ..
@[simp] theorem State.ctxEvent_spadBad (x kind e4 e5 e6 e7 : Nat) : (s.ctxEvent x kind e4 e5 e6 e7).spadBad = s.spadBad := State.eventTo_spadBad ..
@[simp] theorem State.ctxEvent_tier (x kind e4 e5 e6 e7 : Nat) : (s.ctxEvent x kind e4 e5 e6 e7).tier = s.tier := State.eventTo_tier ..
@[simp] theorem State.ctxEvent_hostOut (x kind e4 e5 e6 e7 : Nat) : (s.ctxEvent x kind e4 e5 e6 e7).hostOut = s.hostOut := State.eventTo_hostOut ..
@[simp] theorem State.ctxEvent_ctxs (x kind e4 e5 e6 e7 : Nat) : (s.ctxEvent x kind e4 e5 e6 e7).ctxs = s.ctxs := State.eventTo_ctxs ..
@[simp] theorem State.ctxEvent_slots (x kind e4 e5 e6 e7 : Nat) : (s.ctxEvent x kind e4 e5 e6 e7).slots = s.slots := State.eventTo_slots ..
@[simp] theorem State.ctxEvent_bars (x kind e4 e5 e6 e7 : Nat) : (s.ctxEvent x kind e4 e5 e6 e7).bars = s.bars := State.eventTo_bars ..
@[simp] theorem State.ctxEvent_sched (x kind e4 e5 e6 e7 : Nat) : (s.ctxEvent x kind e4 e5 e6 e7).sched = s.sched := State.eventTo_sched ..
@[simp] theorem State.ctxEvent_slack (x kind e4 e5 e6 e7 : Nat) : (s.ctxEvent x kind e4 e5 e6 e7).slack = s.slack := State.eventTo_slack ..
@[simp] theorem State.ctxEvent_done (x kind e4 e5 e6 e7 : Nat) : (s.ctxEvent x kind e4 e5 e6 e7).done = s.done := State.eventTo_done ..
@[simp] theorem State.ctxEvent_marks (x kind e4 e5 e6 e7 : Nat) : (s.ctxEvent x kind e4 e5 e6 e7).marks = s.marks := State.eventTo_marks ..
@[simp] theorem State.ctxEvent_chain (x kind e4 e5 e6 e7 : Nat) : (s.ctxEvent x kind e4 e5 e6 e7).chain = s.chain := State.eventTo_chain ..
@[simp] theorem State.ctxEvent_tiers (x kind e4 e5 e6 e7 : Nat) : (s.ctxEvent x kind e4 e5 e6 e7).tiers = s.tiers := State.eventTo_tiers ..
@[simp] theorem State.ctxEvent_sld (x kind e4 e5 e6 e7 : Nat) : (s.ctxEvent x kind e4 e5 e6 e7).sld = s.sld := State.eventTo_sld ..
@[simp] theorem State.ctxEvent_boot (x kind e4 e5 e6 e7 : Nat) : (s.ctxEvent x kind e4 e5 e6 e7).boot = s.boot := State.eventTo_boot ..
@[simp] theorem State.ctxEvent_tpls (x kind e4 e5 e6 e7 : Nat) : (s.ctxEvent x kind e4 e5 e6 e7).tpls = s.tpls := State.eventTo_tpls ..
@[simp] theorem State.ctxEvent_timers (x kind e4 e5 e6 e7 : Nat) : (s.ctxEvent x kind e4 e5 e6 e7).timers = s.timers := State.eventTo_timers ..
@[simp] theorem State.ctxEvent_brz (x kind e4 e5 e6 e7 : Nat) : (s.ctxEvent x kind e4 e5 e6 e7).brz = s.brz := State.eventTo_brz ..
@[simp] theorem State.ctxEvent_fh (x kind e4 e5 e6 e7 : Nat) : (s.ctxEvent x kind e4 e5 e6 e7).fh = s.fh := State.eventTo_fh ..
@[simp] theorem State.ctxEvent_fapi (x kind e4 e5 e6 e7 : Nat) : (s.ctxEvent x kind e4 e5 e6 e7).fapi = s.fapi := State.eventTo_fapi ..
@[simp] theorem State.ctxEvent_fapiWork (x kind e4 e5 e6 e7 : Nat) : (s.ctxEvent x kind e4 e5 e6 e7).fapiWork = s.fapiWork := State.eventTo_fapiWork ..
@[simp] theorem State.ctxEvent_fapiOut (x kind e4 e5 e6 e7 : Nat) : (s.ctxEvent x kind e4 e5 e6 e7).fapiOut = s.fapiOut := State.eventTo_fapiOut ..
@[simp] theorem State.ctxEvent_inv (x kind e4 e5 e6 e7 : Nat) : (s.ctxEvent x kind e4 e5 e6 e7).inv = s.inv := State.eventTo_inv ..
@[simp] theorem State.ctxEvent_net (x kind e4 e5 e6 e7 : Nat) : (s.ctxEvent x kind e4 e5 e6 e7).net = s.net := State.eventTo_net ..
@[simp] theorem State.ctxEvent_time (x kind e4 e5 e6 e7 : Nat) : (s.ctxEvent x kind e4 e5 e6 e7).time = s.time := State.eventTo_time ..
/-! ### fnEvent -/
@[simp] theorem State.fnEvent_pending (fn kind ctx e4 e5 e6 e7 : Nat) : (s.fnEvent fn kind ctx e4 e5 e6 e7).pending = s.pending := State.eventTo_pending ..
@[simp] theorem State.fnEvent_shadows (fn kind ctx e4 e5 e6 e7 : Nat) : (s.fnEvent fn kind ctx e4 e5 e6 e7).shadows = s.shadows := State.eventTo_shadows ..
@[simp] theorem State.fnEvent_held (fn kind ctx e4 e5 e6 e7 : Nat) : (s.fnEvent fn kind ctx e4 e5 e6 e7).held = s.held := State.eventTo_held ..
@[simp] theorem State.fnEvent_lastRead (fn kind ctx e4 e5 e6 e7 : Nat) : (s.fnEvent fn kind ctx e4 e5 e6 e7).lastRead = s.lastRead := State.eventTo_lastRead ..
@[simp] theorem State.fnEvent_clk (fn kind ctx e4 e5 e6 e7 : Nat) : (s.fnEvent fn kind ctx e4 e5 e6 e7).clk = s.clk := State.eventTo_clk ..
@[simp] theorem State.fnEvent_nonce (fn kind ctx e4 e5 e6 e7 : Nat) : (s.fnEvent fn kind ctx e4 e5 e6 e7).nonce = s.nonce := State.eventTo_nonce ..
@[simp] theorem State.fnEvent_trs (fn kind ctx e4 e5 e6 e7 : Nat) : (s.fnEvent fn kind ctx e4 e5 e6 e7).trs = s.trs := State.eventTo_trs ..
@[simp] theorem State.fnEvent_pwt (fn kind ctx e4 e5 e6 e7 : Nat) : (s.fnEvent fn kind ctx e4 e5 e6 e7).pwt = s.pwt := State.eventTo_pwt ..
@[simp] theorem State.fnEvent_tin (fn kind ctx e4 e5 e6 e7 : Nat) : (s.fnEvent fn kind ctx e4 e5 e6 e7).tin = s.tin := State.eventTo_tin ..
@[simp] theorem State.fnEvent_lat (fn kind ctx e4 e5 e6 e7 : Nat) : (s.fnEvent fn kind ctx e4 e5 e6 e7).lat = s.lat := State.eventTo_lat ..
@[simp] theorem State.fnEvent_dma (fn kind ctx e4 e5 e6 e7 : Nat) : (s.fnEvent fn kind ctx e4 e5 e6 e7).dma = s.dma := State.eventTo_dma ..
@[simp] theorem State.fnEvent_cl (fn kind ctx e4 e5 e6 e7 : Nat) : (s.fnEvent fn kind ctx e4 e5 e6 e7).cl = s.cl := State.eventTo_cl ..
@[simp] theorem State.fnEvent_rg (fn kind ctx e4 e5 e6 e7 : Nat) : (s.fnEvent fn kind ctx e4 e5 e6 e7).rg = s.rg := State.eventTo_rg ..
@[simp] theorem State.fnEvent_rails (fn kind ctx e4 e5 e6 e7 : Nat) : (s.fnEvent fn kind ctx e4 e5 e6 e7).rails = s.rails := State.eventTo_rails ..
@[simp] theorem State.fnEvent_spad (fn kind ctx e4 e5 e6 e7 : Nat) : (s.fnEvent fn kind ctx e4 e5 e6 e7).spad = s.spad := State.eventTo_spad ..
@[simp] theorem State.fnEvent_spadBad (fn kind ctx e4 e5 e6 e7 : Nat) : (s.fnEvent fn kind ctx e4 e5 e6 e7).spadBad = s.spadBad := State.eventTo_spadBad ..
@[simp] theorem State.fnEvent_tier (fn kind ctx e4 e5 e6 e7 : Nat) : (s.fnEvent fn kind ctx e4 e5 e6 e7).tier = s.tier := State.eventTo_tier ..
@[simp] theorem State.fnEvent_hostOut (fn kind ctx e4 e5 e6 e7 : Nat) : (s.fnEvent fn kind ctx e4 e5 e6 e7).hostOut = s.hostOut := State.eventTo_hostOut ..
@[simp] theorem State.fnEvent_ctxs (fn kind ctx e4 e5 e6 e7 : Nat) : (s.fnEvent fn kind ctx e4 e5 e6 e7).ctxs = s.ctxs := State.eventTo_ctxs ..
@[simp] theorem State.fnEvent_slots (fn kind ctx e4 e5 e6 e7 : Nat) : (s.fnEvent fn kind ctx e4 e5 e6 e7).slots = s.slots := State.eventTo_slots ..
@[simp] theorem State.fnEvent_bars (fn kind ctx e4 e5 e6 e7 : Nat) : (s.fnEvent fn kind ctx e4 e5 e6 e7).bars = s.bars := State.eventTo_bars ..
@[simp] theorem State.fnEvent_sched (fn kind ctx e4 e5 e6 e7 : Nat) : (s.fnEvent fn kind ctx e4 e5 e6 e7).sched = s.sched := State.eventTo_sched ..
@[simp] theorem State.fnEvent_slack (fn kind ctx e4 e5 e6 e7 : Nat) : (s.fnEvent fn kind ctx e4 e5 e6 e7).slack = s.slack := State.eventTo_slack ..
@[simp] theorem State.fnEvent_done (fn kind ctx e4 e5 e6 e7 : Nat) : (s.fnEvent fn kind ctx e4 e5 e6 e7).done = s.done := State.eventTo_done ..
@[simp] theorem State.fnEvent_marks (fn kind ctx e4 e5 e6 e7 : Nat) : (s.fnEvent fn kind ctx e4 e5 e6 e7).marks = s.marks := State.eventTo_marks ..
@[simp] theorem State.fnEvent_chain (fn kind ctx e4 e5 e6 e7 : Nat) : (s.fnEvent fn kind ctx e4 e5 e6 e7).chain = s.chain := State.eventTo_chain ..
@[simp] theorem State.fnEvent_tiers (fn kind ctx e4 e5 e6 e7 : Nat) : (s.fnEvent fn kind ctx e4 e5 e6 e7).tiers = s.tiers := State.eventTo_tiers ..
@[simp] theorem State.fnEvent_sld (fn kind ctx e4 e5 e6 e7 : Nat) : (s.fnEvent fn kind ctx e4 e5 e6 e7).sld = s.sld := State.eventTo_sld ..
@[simp] theorem State.fnEvent_boot (fn kind ctx e4 e5 e6 e7 : Nat) : (s.fnEvent fn kind ctx e4 e5 e6 e7).boot = s.boot := State.eventTo_boot ..
@[simp] theorem State.fnEvent_tpls (fn kind ctx e4 e5 e6 e7 : Nat) : (s.fnEvent fn kind ctx e4 e5 e6 e7).tpls = s.tpls := State.eventTo_tpls ..
@[simp] theorem State.fnEvent_timers (fn kind ctx e4 e5 e6 e7 : Nat) : (s.fnEvent fn kind ctx e4 e5 e6 e7).timers = s.timers := State.eventTo_timers ..
@[simp] theorem State.fnEvent_brz (fn kind ctx e4 e5 e6 e7 : Nat) : (s.fnEvent fn kind ctx e4 e5 e6 e7).brz = s.brz := State.eventTo_brz ..
@[simp] theorem State.fnEvent_fh (fn kind ctx e4 e5 e6 e7 : Nat) : (s.fnEvent fn kind ctx e4 e5 e6 e7).fh = s.fh := State.eventTo_fh ..
@[simp] theorem State.fnEvent_fapi (fn kind ctx e4 e5 e6 e7 : Nat) : (s.fnEvent fn kind ctx e4 e5 e6 e7).fapi = s.fapi := State.eventTo_fapi ..
@[simp] theorem State.fnEvent_fapiWork (fn kind ctx e4 e5 e6 e7 : Nat) : (s.fnEvent fn kind ctx e4 e5 e6 e7).fapiWork = s.fapiWork := State.eventTo_fapiWork ..
@[simp] theorem State.fnEvent_fapiOut (fn kind ctx e4 e5 e6 e7 : Nat) : (s.fnEvent fn kind ctx e4 e5 e6 e7).fapiOut = s.fapiOut := State.eventTo_fapiOut ..
@[simp] theorem State.fnEvent_inv (fn kind ctx e4 e5 e6 e7 : Nat) : (s.fnEvent fn kind ctx e4 e5 e6 e7).inv = s.inv := State.eventTo_inv ..
@[simp] theorem State.fnEvent_net (fn kind ctx e4 e5 e6 e7 : Nat) : (s.fnEvent fn kind ctx e4 e5 e6 e7).net = s.net := State.eventTo_net ..
@[simp] theorem State.fnEvent_time (fn kind ctx e4 e5 e6 e7 : Nat) : (s.fnEvent fn kind ctx e4 e5 e6 e7).time = s.time := State.eventTo_time ..
/-! ### pfEvent -/
@[simp] theorem State.pfEvent_pending (kind e4 e5 e6 e7 : Nat) : (s.pfEvent kind e4 e5 e6 e7).pending = s.pending := State.eventTo_pending ..
@[simp] theorem State.pfEvent_shadows (kind e4 e5 e6 e7 : Nat) : (s.pfEvent kind e4 e5 e6 e7).shadows = s.shadows := State.eventTo_shadows ..
@[simp] theorem State.pfEvent_held (kind e4 e5 e6 e7 : Nat) : (s.pfEvent kind e4 e5 e6 e7).held = s.held := State.eventTo_held ..
@[simp] theorem State.pfEvent_lastRead (kind e4 e5 e6 e7 : Nat) : (s.pfEvent kind e4 e5 e6 e7).lastRead = s.lastRead := State.eventTo_lastRead ..
@[simp] theorem State.pfEvent_clk (kind e4 e5 e6 e7 : Nat) : (s.pfEvent kind e4 e5 e6 e7).clk = s.clk := State.eventTo_clk ..
@[simp] theorem State.pfEvent_nonce (kind e4 e5 e6 e7 : Nat) : (s.pfEvent kind e4 e5 e6 e7).nonce = s.nonce := State.eventTo_nonce ..
@[simp] theorem State.pfEvent_trs (kind e4 e5 e6 e7 : Nat) : (s.pfEvent kind e4 e5 e6 e7).trs = s.trs := State.eventTo_trs ..
@[simp] theorem State.pfEvent_pwt (kind e4 e5 e6 e7 : Nat) : (s.pfEvent kind e4 e5 e6 e7).pwt = s.pwt := State.eventTo_pwt ..
@[simp] theorem State.pfEvent_tin (kind e4 e5 e6 e7 : Nat) : (s.pfEvent kind e4 e5 e6 e7).tin = s.tin := State.eventTo_tin ..
@[simp] theorem State.pfEvent_lat (kind e4 e5 e6 e7 : Nat) : (s.pfEvent kind e4 e5 e6 e7).lat = s.lat := State.eventTo_lat ..
@[simp] theorem State.pfEvent_dma (kind e4 e5 e6 e7 : Nat) : (s.pfEvent kind e4 e5 e6 e7).dma = s.dma := State.eventTo_dma ..
@[simp] theorem State.pfEvent_cl (kind e4 e5 e6 e7 : Nat) : (s.pfEvent kind e4 e5 e6 e7).cl = s.cl := State.eventTo_cl ..
@[simp] theorem State.pfEvent_rg (kind e4 e5 e6 e7 : Nat) : (s.pfEvent kind e4 e5 e6 e7).rg = s.rg := State.eventTo_rg ..
@[simp] theorem State.pfEvent_rails (kind e4 e5 e6 e7 : Nat) : (s.pfEvent kind e4 e5 e6 e7).rails = s.rails := State.eventTo_rails ..
@[simp] theorem State.pfEvent_spad (kind e4 e5 e6 e7 : Nat) : (s.pfEvent kind e4 e5 e6 e7).spad = s.spad := State.eventTo_spad ..
@[simp] theorem State.pfEvent_spadBad (kind e4 e5 e6 e7 : Nat) : (s.pfEvent kind e4 e5 e6 e7).spadBad = s.spadBad := State.eventTo_spadBad ..
@[simp] theorem State.pfEvent_tier (kind e4 e5 e6 e7 : Nat) : (s.pfEvent kind e4 e5 e6 e7).tier = s.tier := State.eventTo_tier ..
@[simp] theorem State.pfEvent_hostOut (kind e4 e5 e6 e7 : Nat) : (s.pfEvent kind e4 e5 e6 e7).hostOut = s.hostOut := State.eventTo_hostOut ..
@[simp] theorem State.pfEvent_ctxs (kind e4 e5 e6 e7 : Nat) : (s.pfEvent kind e4 e5 e6 e7).ctxs = s.ctxs := State.eventTo_ctxs ..
@[simp] theorem State.pfEvent_slots (kind e4 e5 e6 e7 : Nat) : (s.pfEvent kind e4 e5 e6 e7).slots = s.slots := State.eventTo_slots ..
@[simp] theorem State.pfEvent_bars (kind e4 e5 e6 e7 : Nat) : (s.pfEvent kind e4 e5 e6 e7).bars = s.bars := State.eventTo_bars ..
@[simp] theorem State.pfEvent_sched (kind e4 e5 e6 e7 : Nat) : (s.pfEvent kind e4 e5 e6 e7).sched = s.sched := State.eventTo_sched ..
@[simp] theorem State.pfEvent_slack (kind e4 e5 e6 e7 : Nat) : (s.pfEvent kind e4 e5 e6 e7).slack = s.slack := State.eventTo_slack ..
@[simp] theorem State.pfEvent_done (kind e4 e5 e6 e7 : Nat) : (s.pfEvent kind e4 e5 e6 e7).done = s.done := State.eventTo_done ..
@[simp] theorem State.pfEvent_marks (kind e4 e5 e6 e7 : Nat) : (s.pfEvent kind e4 e5 e6 e7).marks = s.marks := State.eventTo_marks ..
@[simp] theorem State.pfEvent_chain (kind e4 e5 e6 e7 : Nat) : (s.pfEvent kind e4 e5 e6 e7).chain = s.chain := State.eventTo_chain ..
@[simp] theorem State.pfEvent_tiers (kind e4 e5 e6 e7 : Nat) : (s.pfEvent kind e4 e5 e6 e7).tiers = s.tiers := State.eventTo_tiers ..
@[simp] theorem State.pfEvent_sld (kind e4 e5 e6 e7 : Nat) : (s.pfEvent kind e4 e5 e6 e7).sld = s.sld := State.eventTo_sld ..
@[simp] theorem State.pfEvent_boot (kind e4 e5 e6 e7 : Nat) : (s.pfEvent kind e4 e5 e6 e7).boot = s.boot := State.eventTo_boot ..
@[simp] theorem State.pfEvent_tpls (kind e4 e5 e6 e7 : Nat) : (s.pfEvent kind e4 e5 e6 e7).tpls = s.tpls := State.eventTo_tpls ..
@[simp] theorem State.pfEvent_timers (kind e4 e5 e6 e7 : Nat) : (s.pfEvent kind e4 e5 e6 e7).timers = s.timers := State.eventTo_timers ..
@[simp] theorem State.pfEvent_brz (kind e4 e5 e6 e7 : Nat) : (s.pfEvent kind e4 e5 e6 e7).brz = s.brz := State.eventTo_brz ..
@[simp] theorem State.pfEvent_fh (kind e4 e5 e6 e7 : Nat) : (s.pfEvent kind e4 e5 e6 e7).fh = s.fh := State.eventTo_fh ..
@[simp] theorem State.pfEvent_fapi (kind e4 e5 e6 e7 : Nat) : (s.pfEvent kind e4 e5 e6 e7).fapi = s.fapi := State.eventTo_fapi ..
@[simp] theorem State.pfEvent_fapiWork (kind e4 e5 e6 e7 : Nat) : (s.pfEvent kind e4 e5 e6 e7).fapiWork = s.fapiWork := State.eventTo_fapiWork ..
@[simp] theorem State.pfEvent_fapiOut (kind e4 e5 e6 e7 : Nat) : (s.pfEvent kind e4 e5 e6 e7).fapiOut = s.fapiOut := State.eventTo_fapiOut ..
@[simp] theorem State.pfEvent_inv (kind e4 e5 e6 e7 : Nat) : (s.pfEvent kind e4 e5 e6 e7).inv = s.inv := State.eventTo_inv ..
@[simp] theorem State.pfEvent_net (kind e4 e5 e6 e7 : Nat) : (s.pfEvent kind e4 e5 e6 e7).net = s.net := State.eventTo_net ..
@[simp] theorem State.pfEvent_time (kind e4 e5 e6 e7 : Nat) : (s.pfEvent kind e4 e5 e6 e7).time = s.time := State.eventTo_time ..

end Sys2Proof.Machine
end

