-- ==== Sys2Proof/Laws/Ops.lean ====
section
/-! SUPPORT. Laws of the named operations: reading a register, an instance or a byte after an update, and that every memory operation keeps the
canonical form. -/

namespace Sys2Proof.Machine

/-! ### Registers -/

theorem State.reg_setReg (s : State) (a v b : Nat) : (s.setReg a v).reg b = if a = b then v % 2 ^ 32 else s.reg b := by
  simp only [State.reg, State.setReg, Tab.look_put]; split <;> simp

@[simp] theorem State.reg_setReg_same (s : State) (a v : Nat) : (s.setReg a v).reg a = v % 2 ^ 32 := by simp [State.reg_setReg]

theorem State.reg_setReg_other (s : State) (a v b : Nat) (h : a ≠ b) : (s.setReg a v).reg b = s.reg b := by simp [State.reg_setReg, h]

/-- A register holds 32 bits. -/
theorem State.reg_lt (s : State) (a : Nat) : s.reg a < 2 ^ 32 := by simp only [State.reg]; exact BitVec.isLt _

theorem State.reg64_setReg64 (s : State) (a v : Nat) : (s.setReg64 a v).reg64 a = v % 2 ^ 64 := by
  simp only [State.reg64, State.setReg64, State.reg_setReg]
  simp
  omega

/-- R10: a counter wraps at 64 bits. -/
theorem State.reg64_bump (s : State) (a n : Nat) : (s.bump a n).reg64 a = (s.reg64 a + n) % 2 ^ 64 := by
  simp only [State.bump, State.reg64_setReg64]

theorem State.reg_bump_other (s : State) (a n b : Nat) (h : a ≠ b) (h' : a + 4 ≠ b) : (s.bump a n).reg b = s.reg b := by
  simp [State.bump, State.setReg64, State.reg_setReg, h, h']

@[simp] theorem State.when_true (s : State) (f : State → State) : s.when true f = f s := rfl
@[simp] theorem State.when_false (s : State) (f : State → State) : s.when false f = s := rfl

/-! ### Instances -/

theorem State.ctx_setCtx (s : State) (i j : Nat) (v : Ctx) : (s.setCtx i v).ctx j = if i = j then v else s.ctx j := by
  simp [State.ctx, State.setCtx, Tab.get_put]
@[simp] theorem State.ctx_setCtx_same (s : State) (i : Nat) (v : Ctx) : (s.setCtx i v).ctx i = v := by simp [State.ctx_setCtx]

theorem State.slot_setSlot (s : State) (i j : Nat) (v : Slot) : (s.setSlot i v).slot j = if i = j then v else s.slot j := by
  simp [State.slot, State.setSlot, Tab.get_put]
@[simp] theorem State.slot_setSlot_same (s : State) (i : Nat) (v : Slot) : (s.setSlot i v).slot i = v := by simp [State.slot_setSlot]

theorem State.trestle_setTrestle (s : State) (i j : Nat) (v : Trestle) : (s.setTrestle i v).trestle j = if i = j then v else s.trestle j := by
  simp [State.trestle, State.setTrestle, Tab.get_put]
@[simp] theorem State.trestle_setTrestle_same (s : State) (i : Nat) (v : Trestle) : (s.setTrestle i v).trestle i = v := by simp [State.trestle_setTrestle]

theorem State.pewter_setPewter (s : State) (i j : Nat) (v : PwtUnit) : (s.setPewter i v).pewter j = if i = j then v else s.pewter j := by
  simp [State.pewter, State.setPewter, Tab.get_put]
@[simp] theorem State.pewter_setPewter_same (s : State) (i : Nat) (v : PwtUnit) : (s.setPewter i v).pewter i = v := by simp [State.pewter_setPewter]

theorem State.core_setCore (s : State) (i j : Nat) (v : TinCore) : (s.setCore i v).core j = if i = j then v else s.core j := by
  simp [State.core, State.setCore, Tab.get_put]
@[simp] theorem State.core_setCore_same (s : State) (i : Nat) (v : TinCore) : (s.setCore i v).core i = v := by simp [State.core_setCore]

theorem State.dmaEng_setDma (s : State) (i j : Nat) (v : DmaEngine) : (s.setDma i v).dmaEng j = if i = j then v else s.dmaEng j := by
  simp [State.dmaEng, State.setDma, Tab.get_put]
@[simp] theorem State.dmaEng_setDma_same (s : State) (i : Nat) (v : DmaEngine) : (s.setDma i v).dmaEng i = v := by simp [State.dmaEng_setDma]

theorem State.cluster_setCluster (s : State) (i j : Nat) (v : Cluster) : (s.setCluster i v).cluster j = if i = j then v else s.cluster j := by
  simp [State.cluster, State.setCluster, Tab.get_put]
@[simp] theorem State.cluster_setCluster_same (s : State) (i : Nat) (v : Cluster) : (s.setCluster i v).cluster i = v := by simp [State.cluster_setCluster]

theorem State.region_setRegion (s : State) (i j : Nat) (v : Region) : (s.setRegion i v).region j = if i = j then v else s.region j := by
  simp [State.region, State.setRegion, Tab.get_put]
@[simp] theorem State.region_setRegion_same (s : State) (i : Nat) (v : Region) : (s.setRegion i v).region i = v := by simp [State.region_setRegion]

theorem State.queue_setQueue (s : State) (i j : Nat) (v : Queue) : (s.setQueue i v).queue j = if i = j then v else s.queue j := by
  simp [State.queue, State.setQueue, Tab.get_put]
@[simp] theorem State.queue_setQueue_same (s : State) (i : Nat) (v : Queue) : (s.setQueue i v).queue i = v := by simp [State.queue_setQueue]

theorem State.func_setFunc (s : State) (i j : Nat) (v : Func) : (s.setFunc i v).func j = if i = j then v else s.func j := by
  simp [State.func, State.setFunc, Tab.get_put]
@[simp] theorem State.func_setFunc_same (s : State) (i : Nat) (v : Func) : (s.setFunc i v).func i = v := by simp [State.func_setFunc]

theorem State.obj_setObj (s : State) (i j : Nat) (v : Obj) : (s.setObj i v).obj j = if i = j then v else s.obj j := by
  simp [State.obj, State.setObj, Tab.get_put]
@[simp] theorem State.obj_setObj_same (s : State) (i : Nat) (v : Obj) : (s.setObj i v).obj i = v := by simp [State.obj_setObj]

theorem State.shelf_setShelf (s : State) (i j : Nat) (v : Shelf) : (s.setShelf i v).shelf j = if i = j then v else s.shelf j := by
  simp [State.shelf, State.setShelf, Tab.get_put]
@[simp] theorem State.shelf_setShelf_same (s : State) (i : Nat) (v : Shelf) : (s.setShelf i v).shelf i = v := by simp [State.shelf_setShelf]

theorem State.bronze_setBronze (s : State) (i j : Nat) (v : BrzUnit) : (s.setBronze i v).bronze j = if i = j then v else s.bronze j := by
  simp [State.bronze, State.setBronze, Tab.get_put]
@[simp] theorem State.bronze_setBronze_same (s : State) (i : Nat) (v : BrzUnit) : (s.setBronze i v).bronze i = v := by simp [State.bronze_setBronze]

theorem State.bar_setBar (s : State) (i j : Nat) (v : Barrier) : (s.setBar i v).bar j = if i = j then v else s.bar j := by
  simp [State.bar, State.setBar, Tab.get_put]
@[simp] theorem State.bar_setBar_same (s : State) (i : Nat) (v : Barrier) : (s.setBar i v).bar i = v := by simp [State.bar_setBar]

/-! ### Memories -/

/-- Writing bytes keeps the canonical form. -/
theorem Mem.wf_write (m : Mem) (a : Nat) (bs : List Byte) (h : Mem.wf m = true) : Mem.wf (Mem.write m a bs) = true := by
  induction bs generalizing m a with
  | nil => exact h
  | cons b bs ih => exact ih _ _ (Tab.wf_set 0 m a b h)

/-- A byte outside the bytes written keeps its value. -/
theorem Mem.byte_write_outside (m : Mem) (a : Nat) (bs : List Byte) (k : Nat) (h : k < a ∨ a + bs.length ≤ k) :
    Mem.byte (Mem.write m a bs) k = Mem.byte m k := by
  induction bs generalizing m a with
  | nil => rfl
  | cons b bs ih =>
    simp only [List.length_cons] at h
    rw [Mem.write, ih _ _ (by omega)]
    exact Tab.get_set_other 0 m a k b (by omega)

/-- A byte written reads back. -/
theorem Mem.byte_write_inside (m : Mem) (a : Nat) (bs : List Byte) (i : Nat) (h : i < bs.length) :
    Mem.byte (Mem.write m a bs) (a + i) = bs[i] := by
  induction bs generalizing m a i with
  | nil => simp at h
  | cons b bs ih =>
    cases i with
    | zero => rw [Mem.write, Mem.byte_write_outside _ _ _ _ (by simp)]; simp [Mem.byte]
    | succ i =>
      rw [Mem.write, show a + (i + 1) = a + 1 + i by omega, ih _ _ _ (by simpa using h)]
      simp

theorem Mem.length_read (m : Mem) (a n : Nat) : (Mem.read m a n).length = n := by
  induction n generalizing a with
  | zero => rfl
  | succ n ih => simp [Mem.read, ih]

/-- Writing a share keeps the canonical form of the scratchpads. -/
theorem State.slotWrite_spad_wf (s : State) (c : Nat) (r : ResSlot) (o : Nat) (bs : List Byte) (h : Mem.wf s.spad = true) :
    Mem.wf (s.slotWrite c r o bs).spad = true := by
  induction bs generalizing s o with
  | nil => exact h
  | cons b bs ih => exact ih _ _ (Tab.wf_set 0 s.spad _ b h)

/-- A write of a share changes nothing but the scratchpads. -/
theorem State.slotWrite_eq (s : State) (c : Nat) (r : ResSlot) (o : Nat) (bs : List Byte) :
    s.slotWrite c r o bs = { s with spad := (s.slotWrite c r o bs).spad } := by
  induction bs generalizing s o with
  | nil => rfl
  | cons b bs ih => rw [State.slotWrite, ih]

/-- A state whose memories are those of a state in canonical form is in canonical form. -/
theorem State.memWf_of_eq {s t : State} (h : s.memWf = true) (h1 : t.spad = s.spad) (h2 : t.tier = s.tier) (h3 : t.hostOut = s.hostOut) :
    t.memWf = true := by
  simpa [State.memWf, h1, h2, h3] using h

theorem State.shareWrite_memWf (s t : State) (c x o : Nat) (bs : List Byte) (h : s.memWf = true) (e : s.shareWrite c x o bs = some t) :
    t.memWf = true := by
  simp only [State.shareWrite] at e
  split at e
  · split at e
    · injection e with e
      subst e
      simp only [State.memWf, Bool.and_eq_true] at *
      refine ⟨⟨?_, ?_⟩, ?_⟩
      · rw [State.loseResv_spad]; exact State.slotWrite_spad_wf _ _ _ _ _ h.1.1
      · rw [State.loseResv_tier, State.slotWrite_eq]; exact h.1.2
      · rw [State.loseResv_hostOut, State.slotWrite_eq]; exact h.2
    · cases e
  · cases e

theorem State.hostWrite_memWf (s : State) (fn off : Nat) (bs : List Byte) (h : s.memWf = true) : (s.hostWrite fn off bs).memWf = true := by
  simp only [State.memWf, Bool.and_eq_true, State.hostWrite] at *
  exact ⟨h.1, Mem.wf_write _ _ _ h.2⟩

end Sys2Proof.Machine
end

