-- ==== Sys2Proof/Tests/Slice0.lean ====
section
/-! SUPPORT. Tests on small states: for each obligation a state and operands that meet the hypotheses of its clauses (wit_…), the spec's worked
examples and tables (test_…), and an ill-formed command for each check of WellFormed. Expected values come from the spec. -/

section
set_option Elab.async false
open Sys2Proof Sys2Proof.Machine

/-- The device with firmware running. -/
def run0 : State := { State.reset with boot := { State.reset.boot with phase := .running } }

/-- Mailbox 0 of the physical function has been given a command of a code. -/
def boxed (code : Nat) (s : State := run0) : State := s.setBox (.mbox 0 0) { busy := true, command := code }

/-- The issuer of those commands. -/
def pf0 : Issuer := .mbox 0 0

/-- The next state of a step, `s` itself where it stops. -/
def nextOf (s : State) (o : Host.Outcome State Fault Refusal) : State :=
  match o with
  | .next t => t
  | _ => s

/-- The state after a command. -/
def after (c : Instr) (s : State) : State := nextOf s (exec c s)

/-- Context 1 of the physical function, resident on cluster 0 with one share granule and latch granule 0, on units that are enabled. -/
def lab : State :=
  let s : State := { run0 with
    ctxs := [(1, { valid := true, slotCount := 64 })], cl := [(0, { slots := [(0, { st := .resident, ctx := 1, grans := [0], lats := [0] })] })] }
  ((((s.setReg (Reg.TRS_CTRL 0) 3).setReg (Reg.PWT_CTRL 0 0) 3).setReg (Reg.TIN_CTRL 0 0) 3).setReg (Reg.LAT_OWNER 0 0) 0x1001).setReg Reg.CAB_CTRL 3

/-- A task descriptor of context 1, of a class, in slot 0. -/
def descOf (cls : Nat) (op : TaskOp) : TaskDesc :=
  { typ := 0, cls := cls, nd := false, digest := false, cqEn := false, runOnFault := false, nonreplay := false, fgen := 0, handle := 0, ctx := 1
    npred := 0, cq := 0, taskId := 0, deadline := 0, energy := 0, step := 0, cookie := 0, preds := [], op := op, resv := false }

/-- A task in slot 0. -/
def tasked (t : Task) (s : State := lab) : State := s.setSlot 0 { s.slot 0 with busy := true, task := some t }

/-- Cluster 0 is kept warm for a template. -/
def warm0 : State :=
  { run0 with
    tpls := [(0, { group := 0, timer := 0, depth := 2, ctx := 1, slotBase := 0, cq := 0, tidHi := 0, clusters := 1, mask := 1, entries := [] })] }

/-! ### Registers -/

theorem wit_RegisterReadsCapture :
    (Reaches run0 (.func 0) Reg.SLD_TX_PKTS Reg.SLD_TX_PKTS ∧ pairLow Reg.SLD_TX_PKTS = true ∧ pairHigh Reg.SLD_TX_PKTS = false ∧
      Reg.SLD_TX_PKTS ∉ [Reg.INV_NOW_W0, Reg.INV_NOW_W1, Reg.INV_NOW_W2]) ∧
    (Reaches run0 (.func 0) (Reg.SLD_TX_PKTS + 4) (Reg.SLD_TX_PKTS + 4) ∧ pairHigh (Reg.SLD_TX_PKTS + 4) = true ∧
      Reg.SLD_TX_PKTS + 4 ≠ Reg.INV_NOW_W0) ∧ Reaches run0 (.func 0) Reg.INV_NOW_W0 Reg.INV_NOW_W0 := by
  unfold Reaches; decide +kernel

/-- R8: the high word that follows is the one captured, though the counter has wrapped into it meanwhile. -/
theorem test_shadow_keeps :
    (after (.highWordRead (.func 0) (Reg.SLD_TX_PKTS + 4)) ((after (.lowWordRead (.func 0) Reg.SLD_TX_PKTS)
      (run0.setReg Reg.SLD_TX_PKTS 0xFFFFFFFF)).bump Reg.SLD_TX_PKTS 1)).lastRead = 0 := by decide +kernel

theorem wit_ShadowKeepsCapture :
    Reaches run0 (.func 0) Reg.SLD_TX_PKTS Reg.SLD_TX_PKTS ∧ pairLow Reg.SLD_TX_PKTS = true ∧ pairHigh Reg.SLD_TX_PKTS = false ∧
      Reg.SLD_TX_PKTS ∉ [Reg.INV_NOW_W0, Reg.INV_NOW_W1, Reg.INV_NOW_W2] ∧ Reg.SLD_TX_PKTS + 4 ≠ Reg.INV_NOW_W0 ∧
      (exec (.lowWordRead (.func 0) Reg.SLD_TX_PKTS) run0 matches .next _) = true ∧
      (after (.lowWordRead (.func 0) Reg.SLD_TX_PKTS) run0).regFn (.func 0) = run0.regFn (.func 0) ∧
      Reaches (after (.lowWordRead (.func 0) Reg.SLD_TX_PKTS) run0) (.func 0) (Reg.SLD_TX_PKTS + 4) (Reg.SLD_TX_PKTS + 4) := by
  unfold Reaches; decide +kernel

theorem wit_RegisterWritesComplete :
    (Reaches run0 (.func 0) Reg.INV_STEP Reg.INV_STEP ∧ run0.blockPresent Reg.INV_STEP = true ∧ retWindow Reg.INV_STEP = false ∧ pairRw Reg.INV_STEP = true) ∧
    (Reaches run0 (.func 0) (Reg.INV_STEP + 4) (Reg.INV_STEP + 4) ∧ run0.blockPresent (Reg.INV_STEP + 4) = true ∧ retWindow (Reg.INV_STEP + 4) = false ∧
      pairRw (Reg.INV_STEP + 4) = false ∧ pairRw (Reg.INV_STEP + 4 - 4) = true) ∧
    (Reaches run0 (.func 0) Reg.SLD_QOS Reg.SLD_QOS ∧ run0.blockPresent Reg.SLD_QOS = true ∧ retWindow Reg.SLD_QOS = false ∧ pairRw Reg.SLD_QOS = false ∧
      ¬ (4 ≤ Reg.SLD_QOS ∧ pairRw (Reg.SLD_QOS - 4) = true) ∧ (regRow Reg.SLD_QOS).any (fun row => row.acc != .wo && !(row.acc == .ro && row.clr == 0)) = true ∧
      ({ run0 with held := run0.held.del (fnKey (run0.regFn (.func 0)) (blockOf Reg.SLD_QOS)) } : State).regAct Reg.SLD_QOS 5 = none) := by
  unfold Reaches; decide +kernel

/-- R385: SLD_QOS keeps its reserved bits clear; SLD_NODE_ID is RWL and may be written while EN = 0, not while it is 1. -/
theorem test_register_writes :
    (after (.registerWrite (.func 0) Reg.SLD_QOS 0xFFFFFFFF) run0).reg Reg.SLD_QOS = 0x3FF ∧
    (after (.registerWrite (.func 0) Reg.SLD_NODE_ID 7) run0).reg Reg.SLD_NODE_ID = 7 ∧
    (after (.registerWrite (.func 0) Reg.SLD_NODE_ID 7) (run0.setReg Reg.SLD_CTRL 1)).reg Reg.SLD_NODE_ID = 0 := by decide +kernel

theorem wit_AccessTypesOfAWrite :
    (31 < 32 ∧ (regRow Reg.SLD_QOS).any (fun row => decide (row.wr < 2 ^ 32) && decide (row.cfg < 2 ^ 32) && decide (row.clr < 2 ^ 32)) = true) ∧
    (Reaches run0 (.func 0) Reg.SLD_STATUS Reg.SLD_STATUS ∧ pairRw Reg.SLD_STATUS = false ∧ ¬ (4 ≤ Reg.SLD_STATUS ∧ pairRw (Reg.SLD_STATUS - 4) = true) ∧
      retWindow Reg.SLD_STATUS = false ∧ (regRow Reg.SLD_STATUS).any (fun row => row.acc == .ro && row.clr == 0) = true ∧
      ({ run0 with held := run0.held.del (fnKey (run0.regFn (.func 0)) (blockOf Reg.SLD_STATUS)) } : State).regAct Reg.SLD_STATUS 1 = none) := by
  unfold Reaches; decide +kernel

/-! ### Clocks and power -/

theorem wit_SizeTablePublished : run0.boot.phase = .running ∧ run0.sizeWords ≠ [] := by decide +kernel

/-- A region that changes to step 2. -/
def region2 (done : Bool) : State := run0.setRegion 0 { run0.region 0 with target := some 2, retuned := done }

/-- The same with a rail that does not carry the step. -/
def region2Low : State := { region2 true with rails := [(0, { mv := 600, prev := 600 })] }

theorem wit_RegionStepChanges :
    (((region2 false).region 0).target.isSome = true ∧ ((region2 false).region 0).retuned = false) ∧
    (((region2 true).region 0).target = some 2 ∧ ((region2 true).region 0).retuned = true ∧ (region2 true).railCarries 0 2 = true ∧
      ∀ c ∈ [2 * 0, 2 * 0 + 1], (region2 true).clusterOn c = true → (region2 true).enginesStopped c = true) ∧
    ((region2Low.region 0).target = some 2 ∧ (region2Low.region 0).retuned = true ∧ region2Low.railCarries 0 2 = false) ∧
    (({ run0 with rails := [(0, { changing := true })] } : State).rail 0).changing = true := by decide +kernel

/-- Clusters 0 and 1 in a power state. -/
def powered (p : Power) : State := (run0.setCluster 0 { run0.cluster 0 with power := p }).setCluster 1 { run0.cluster 1 with power := p }

/-- A ready task that targets cluster 0. -/
def toCluster0 : Task := { desc := descOf 1 (.trestle 0 0), fn := 0, sq := 0, pos := 0, committed := true, st := .ready }

theorem wit_ClustersGateAndWake :
    (run0.clusterOn 0 = true ∧ run0.clusterTask 0 = false ∧ run0.engineWork 0 = false ∧ run0.warm 0 = false ∧ run0.sterlingOn 0 = false ∧ run0.wanted 0 = false) ∧
    ((powered .entering).cluster 0).power = .entering ∧
    ((powered .gated).regionPresent 0 = true ∧ (∀ c ∈ [2 * 0, 2 * 0 + 1], (powered .gated).clusterPresent c = true → ((powered .gated).cluster c).power = .gated) ∧
      (powered .gated).tiers.objs = []) ∧
    ((tasked toCluster0 (powered .entering)).clusterPresent 0 = true ∧ (tasked toCluster0 (powered .entering)).wanted 0 = true ∧
      ((tasked toCluster0 (powered .entering)).cluster 0).power = .entering) ∧
    ((tasked toCluster0 (powered .gated)).wanted 0 = true ∧ ((tasked toCluster0 (powered .gated)).cluster 0).power = .gated) ∧
    ((powered .waking).cluster 0).power = .waking := by decide +kernel

/-! ### Trestle -/

/-- A 64-byte record of words. -/
def recOf (ws : List Nat) : List Byte := words ((ws ++ List.replicate 16 0).take 16)

/-- A push of one record by a thread of context 1. -/
def pushed (ws : List Nat) : TrsItem := { task := { ctx := 1 }, recs := [recOf ws], staged := true }

/-- It heads the radio queue of cluster 0. -/
def trs (ws : List Nat) (q : TrsQueue := {}) : State := lab.setTrestle 0 { rq := { q with items := [pushed ws] } }

/-- A LOAD of one BF16 value, and its block in a queue. -/
def load1 : TrsLoad := ⟨0, 0, 64, 1, 1⟩
def loaded (begun : Bool) (banks : List Nat) : TrsQueue :=
  { latest := [(0, 0)], blkOf := [(0, 1)], loads := [⟨0, 1, banks, load1, { ctx := 1 }, 0, false, begun⟩] }

theorem wit_TileOpsComplete :
    TrsReady (trs [0]) 0 (pushed [0]) .nop (recOf [0]) ∧
    (TrsReady (trs [1, 0x770]) 0 (pushed [1, 0x770]) (.config 0x770) (recOf [1, 0x770]) ∧ configFault 0x770 = none) ∧
    (TrsReady (trs [2, 0, 0, 64, 257]) 0 (pushed [2, 0, 0, 64, 257]) (.load 0 load1) (recOf [2, 0, 0, 64, 257]) ∧
      ({} : TrsQueue).loadFault ((trs [2, 0, 0, 64, 257]).shareSize 0 1) 0 load1 = none) ∧
    (TrsReady (trs [3, 0, 0, 64, 65537] (loaded true [])) 0 (pushed [3, 0, 0, 64, 65537]) (.stream 0 ⟨0, 0, 64, 1, 1, false, 0, 0, 0, 0, 0, 0⟩)
        (recOf [3, 0, 0, 64, 65537]) ∧
      (loaded true []).streamFault ((trs [3]).shareSize 0 1) 0 0 true (some load1) ⟨0, 0, 64, 1, 1, false, 0, 0, 0, 0, 0, 0⟩ = none) ∧
    (TrsReady (trs [4, 0, 64, 0, 2048, 0x701]) 0 (pushed [4, 0, 64, 0, 2048, 0x701]) (.drain 0 ⟨0, 64, 0, 0, 1, 1, 7, 0, false, false, 0⟩)
        (recOf [4, 0, 64, 0, 2048, 0x701]) ∧
      ({} : TrsQueue).drainFault ((trs [4]).shareSize 0 1) 0 0 ⟨0, 64, 0, 0, 1, 1, 7, 0, false, false, 0⟩ = none) ∧
    (TrsReady (trs [5, 0, 1]) 0 (pushed [5, 0, 1]) (.wait 0 1) (recOf [5, 0, 1]) ∧ (trs [5, 0, 1]).latchOwned 0 0 1 = true) ∧
    (TrsReady (trs [6, 7, 1]) 0 (pushed [6, 7, 1]) (.signal 7 1) (recOf [6, 7, 1]) ∧ (trs [6, 7, 1]).latchOwned 0 7 1 = true) ∧
    TrsReady (({ lab with spad := [(0, 7)] } : State).setTrestle 0 { rq := { items := [{ task := { ctx := 1 } }] } }) 0 { task := { ctx := 1 } } .fin (recOf [7]) ∧
    TrsReady (trs [15]) 0 (pushed [15]) (.illegal 15) (recOf [15]) ∧ lab.clusterPresent 0 = true := by
  unfold TrsReady; and_intros <;> decide +kernel

/-- R60, R62: a WAIT of count 1 makes its queue a waiter, and the queue then stalls; an undefined record faults ILLEGAL with its TAG. -/
theorem test_tile_ops :
    (after (.trsWait 0) (trs [5, 0, 1])).waiting 0 0 = true ∧ (after (.trestleIllegalOp 0) (trs [0xABCD000F])).reg (Reg.TRS_FAULT_TAG 0) = 0xABCD := by
  decide +kernel

/-- A STREAM of one row that runs on the radio queue. -/
def act1 (banks : List Nat) : TrsAct :=
  { p := 0, op := ⟨0, 0, 64, 1, 1, false, 0, 0, 0, 0, 0, 0⟩, task := { ctx := 1 }, seq := 0, blk := 1, banks := banks }
/-- A block of one column, of 32-bit integers. -/
def blk1 : TrsBlock :=
  { q := 0, p := 0, task := { ctx := 1 }, load := load1, kind := .i32, v := 1, bw := 1, col0 := 0, width := 1, last := false, cols := [], chk := [] }
def row1 : TrsRow := { q := 0, p := 0, banks := [], blk := 1, accRow := 0, init := 1, c := [], a := [], tile := 0, seq := 0 }
/-- A checked tile whose extra row has landed, with a column sum and its check. -/
def tile1 (phase : Nat) (sums checks : List W32) : TrsTile :=
  { id := 1, q := 0, p := 0, task := { ctx := 1 }, tag := 0, seq := 0, blk := 1, rows := [], passes := [sums], extra := checks, extraLanded := true
    phase := phase, suspect := some 0, useSpare := checks == [], spareSums := [1] }
def trsOf (t : Trestle) : State := lab.setTrestle 0 { t with blocks := [(1, blk1)] }

theorem wit_TrestleArrayComplete :
    ((trsOf { rq := { acts := [(0, act1 [])] } }).clusterOn 0 = true ∧
      ((trsOf { rq := { acts := [(0, act1 [])] } }).trestle 0).offer 0 false [] (act1 []) = .row ∧ ({} : TrsQueue).rowBytes 1 ≤ 512 ∧
      ((trsOf { rq := { acts := [(0, act1 [1])] } }).trestle 0).offer 0 false [] (act1 [1]) ∈ [Offer.dry, .drain, .layout]) ∧
    ((trsOf { serving := 1, rq := { items := [pushed [0]] } }).trsCan 0 0 = true ∧ (trsOf { serving := 1 }).clusterOn 0 = true) ∧
    (row1.t + 258 ≤ 258 ∧ (trsOf { flight := [row1], cyc := 258 }).mapped 0 = none ∧
      ((trsOf { flight := [row1], cyc := 258 }).trestle 0).blocks.look row1.blk = some blk1) ∧
    ((∀ x ∈ (loaded false [0]).loads, x.begun = false ∧ x.reload = false) ∧ (loaded false [0]).acts = []) ∧
    ((trsOf { rq := { convs := [{ p := 0, op := ⟨0, 64, 0, 0, 1, 1, 7, 0, false, false, 0⟩, task := { ctx := 1 }, seq := 0 }] } }).convertRow 0 0).isSome = true ∧
    ((trsOf {}).trestle 0).rowSettled 1 0 0 0 = true ∧
    (drainRow .bf ⟨0, 64, 0, 0, 1, 1, 7, 0, false, false, 0⟩ (fun _ => 0) 0 (accRow [] 1 0 0 128)).2 = [] ∧
    ((trsOf { tiles := [tile1 0 [] []] }).judge 0 (tile1 0 [] []) = ([], false) ∧ (trsOf { tiles := [tile1 0 [0] [1]] }).judge 0 (tile1 0 [0] [1]) = ([0], false)) ∧
    ((trsOf { tiles := [tile1 2 [] []] }).judge 0 (tile1 2 [] []) = ([], false) ∧ (tile1 2 [] []).useSpare = true ∧ (tile1 2 [] []).suspect = some 0 ∧
      (tile1 2 [] []).spareSums ≠ (tile1 2 [] []).suspectSums) ∧
    ((trsOf { tiles := [tile1 2 [0] [1]] }).judge 0 (tile1 2 [0] [1]) ≠ ([], false) ∧
      ({ tile1 2 [] [] with useSpare := false } : TrsTile).useSpare = false) := by
  and_intros <;> decide +kernel

/-! ### Pewter -/

/-- An instruction word, from the fields of R111. -/
def pwtWord (w : PwtInsn) : Nat :=
  2 ^ 56 * w.op + 2 ^ 51 * w.vd + 2 ^ 46 * w.va + 2 ^ 41 * w.vb + 2 ^ 36 * w.vc + 2 ^ 34 * w.acc + 2 ^ 32 * w.ag + 2 ^ 28 * w.sa + 2 ^ 24 * w.sd + w.imm
def pw (op : Nat) (imm : Nat := 0) (vd : Nat := 0) (va : Nat := 0) (vb : Nat := 0) (vc : Nat := 0) (sa : Nat := 0) (sd : Nat := 0) : PwtInsn :=
  ⟨op, vd, va, vb, vc, 0, 0, sa, sd, imm⟩

/-- A kernel at share offset 0 of context 1, and bytes of that share with those that are not zero listed. -/
def kern : PwtRec := ⟨{ ctx := 1, cls := 1 }, 0, 0, 0, 0, 0⟩
def spadOf (bs : List Byte) : List Host.Cell := ((List.range bs.length).zip bs).filter fun x => x.2 != 0

/-- Unit 0 runs the kernel on its radio queue, and its next instruction is `w`. -/
def pwt (w : PwtInsn) (q : PwtQueue := {}) : State :=
  (({ lab with spad := spadOf (toLE 8 (pwtWord w)) } : State).setPq 0 0 { q with recs := [kern], run := true })
/-- It heads that queue. -/
def heads (w : PwtInsn) (q : PwtQueue := {}) : Bool := (pwt w q).pwtHead 0 == some (0, kern, some w)

/-- A vector length, scalars, lanes and a generator. -/
def vl (n : Nat) (q : PwtQueue := {}) : PwtQueue := { q with vl := n }
def scal (l : List Nat) (q : PwtQueue := {}) : PwtQueue := ((List.range l.length).zip l).foldl (fun q x => q.setS x.1 x.2) q
def lanesOf (l : List (Nat × Nat)) (q : PwtQueue := {}) : PwtQueue := l.foldl (fun q x => q.setLane x.1 0 x.2) q
def iq (i q : Int) : Nat := wrap 16 i + 2 ^ 16 * wrap 16 q
/-- Generator 0 at share offset 1,024. -/
def gen0 (g : PwtAg := { base := 1024 }) (q : PwtQueue := {}) : PwtQueue := q.setGen 0 g

theorem wit_LanesWriteTheActiveLanes : 31 < ({} : PwtQueue).vl ∧ ¬ (32 * 3 ≤ 95 ∧ 95 < 32 * 3 + 32) ∧ ¬ (32 * 3 ≤ 128 ∧ 128 < 32 * 3 + 32) := by decide

theorem wit_PewterVectorInstructions :
    (∀ w ∈ [pw 0x16, pw 0x31 (2 ^ 8 * 47), pw 0x32 1, pw 0x34 (2 ^ 8 * 31), pw 0x35, pw 0x36 1, pw 0x37 0x120, pw 0x37 0xF0, pw 0x38, pw 0x39,
        pw 0x3A 1 0 0 0 1, pw 0x3A 0 0 0 0 1, pw 0x3B 5, pw 0x3C 1 2 4 5 6, pw 0x3D 2 4 8 0 29], heads w = true) ∧
    (pw 0x31 (2 ^ 8 * 47)).sh = 47 ∧ (pw 0x34 (2 ^ 8 * 31)).sh = 31 ∧
    (bit (pw 0x37 0x120).imm 8 = true ∧ sext 8 (pw 0x37 0x120).imm = 32) ∧ (bit (pw 0x37 0xF0).imm 8 = false ∧ sext 8 (pw 0x37 0xF0).imm = -16) ∧
    (bit (pw 0x3A 1 0 0 0 1).imm 0 = true ∧ (pw 0x3A 1 0 0 0 1).vc ≠ (pw 0x3A 1 0 0 0 1).vd) ∧ bit (pw 0x3A 0 0 0 0 1).imm 0 = false ∧
    (expbGroup 5 = some 32 ∧ ({} : PwtQueue).vl % 32 = 0) ∧ (pw 0x3C 1 2 4 5 6).vd % 2 = 0 ∧
    ((pw 0x3D 2 4 8 0 29).imm % 4 ≠ 3 ∧ (pw 0x3D 2 4 8 0 29).vd % 4 = 0 ∧ (pw 0x3D 2 4 8 0 29).va % 4 = 0 ∧ (pw 0x3D 2 4 8 0 29).vc = 29) := by
  and_intros <;> decide +kernel

theorem wit_PewterScalarInstructions :
    (∀ w ∈ [pw 0x00, pw 0x10 0x800000, pw 0x11, pw 0x12, pw 0x13, pw 0x14, pw 0x15 31, pw 0x17 1, pw 0x17 32, pw 0x18 2, pw 0x18 3, pw 0x18 4, pw 0x19,
        pw 0x30 7, pw 0x33], heads w = true) ∧
    (heads (pw 0x18 0) (scal [4]) = true ∧ ((pwt (pw 0x18 0) (scal [4])).pq 0 0).s 0 = 4) ∧
    (heads (pw 0x18 1) (scal [2 ^ 25 - 1]) = true ∧ ((pwt (pw 0x18 1) (scal [2 ^ 25 - 1])).pq 0 0).s 0 = 2 ^ 25 - 1) ∧
    0 < ({} : PwtQueue).vl := by
  and_intros <;> decide +kernel

theorem wit_PewterControlInstructions :
    (∀ w ∈ [pw 0x01, pw 0x02, pw 0x03, pw 0x04 7, pw 0x05, pw 0x06, pw 0x08, pw 0x09], heads w = true) ∧
    ((pwt (pw 0x03)).latchOwned 0 0 1 = true ∧ (pwt (pw 0x04 7)).latchOwned 0 7 1 = true ∧ (pwt (pw 0x08)).sterling 1 = false) ∧
    (heads (pw 0x20 2) gen0 = true ∧ elemOf 2 = some 4 ∧ gen0.accessFault (pw 0x20 2) 4 ((pwt (pw 0x20 2)).shareSize 0 1) = none) ∧
    (heads (pw 0x21 6) gen0 = true ∧ elemOf 6 = some 4) ∧
    (heads (pw 0x22 9) (gen0 { base := 1024 } (vl 24)) = true ∧ bfpWidth 9 = some 9 ∧ bit 9 4 = false ∧
      ((gen0 { base := 1024 } (vl 24)).linear (pw 0x22 9) 56 ((pwt (pw 0x22 9)).shareSize 0 1)).toOption = some 1024) ∧
    (heads (pw 0x23 9) (gen0 { base := 1024 } (vl 12)) = true ∧
      ((gen0 { base := 1024 } (vl 12)).linear (pw 0x23 9) 28 ((pwt (pw 0x23 9)).shareSize 0 1)).toOption = some 1024) ∧
    (heads (pw 0x24 (2 ^ 8 * 31)) gen0 = true ∧ (pw 0x24 (2 ^ 8 * 31)).sh = 31 ∧
      (gen0.linear (pw 0x24) 64 ((pwt (pw 0x24)).shareSize 0 1)).toOption = some 1024) ∧
    (heads (pw 0x07) = true ∧ pwtDefined 0x07 = false) := by
  and_intros <;> decide +kernel

/-- A push of that kernel waits at the radio queue; a kernel waits to start on either queue. -/
def pwtOffered : State := lab.setPewter 0 { offers := [⟨2, 0, kern⟩] }
def pwtWaits (i : Nat) : State := lab.setPq 0 i { recs := [kern] }

theorem wit_PewterQueuesAndKernels :
    (pwtOffered.clusterOn 0 = true ∧ pwtOffered.pwtEnabled 0 0 = true ∧ (pwtOffered.pq 0 0).recs.length < pwtDepth) ∧
    ((pwtWaits 0).pwtReap 0 = pwtWaits 0 ∧ ((pwtWaits 0).pewter 0).serving = 0 ∧ (pwtWaits 0).pwtChoice 0 = some 0 ∧ ((pwtWaits 0).pq 0 0).run = false) ∧
    ((pwtWaits 1).pwtReap 0 = pwtWaits 1 ∧ (pwtWaits 1).pwtChoice 0 = some 1 ∧ 1 ≠ ((pwtWaits 1).pewter 0).serving) ∧
    ((pwt (pw 0) { fetch := some 3 }).pq 0 0).fetch = some 3 ∧
    ((pwt (pw 0x35) { inTile := true }).clusterOn 0 = true ∧ kern.task.cls ≠ 0 ∧
      ((pwt (pw 0x35) { inTile := true }).shareRead 0 1 0 8).isSome = true) := by
  and_intros <;> decide +kernel

/-- R123's example, the butterfly: 1,737, −1,884 and −738, −117. -/
theorem test_butterfly :
    let q := ((after (.bfly2 0) (pwt (pw 0x3C 1 2 4 5 6) (lanesOf [(4, iq 1000 (-2000)), (5, iq 3000 500), (6, iq 23170 (-23170))] (vl 1)))).pq 0 0)
    q.ci 2 0 = (1737, -1884) ∧ q.ci 3 0 = (-738, -117) := by decide +kernel

/-- R125's example: 16QAM, bytes 76, D4, 06, 51. -/
theorem test_llr :
    (after (.llr 0) (pwt (pw 0x24 0x401 0 1 2) (scal [1000] (lanesOf [(1, iq 1900 (-700)), (2, 1)] (gen0 { base := 1024 } (vl 1)))))).shareRead 0 1 1024 4 =
      some [0x76, 0xD4, 0x06, 0x51] := by decide +kernel

/-- R78's example: exponent 4, then 193 and 330 in nine bits. -/
theorem test_bfp_pack :
    ((after (.bfpk 0) (pwt (pw 0x23 9 0 1) (lanesOf [(1, iq 3100 (-2900))] (gen0 { base := 1024 } (vl 12))))).shareRead 0 1 1024 3) =
      some [0x04, 0x60, 0xD2] := by decide +kernel

/-- Unpacking gives 3,088 and −2,912. -/
def packed : State :=
  { pwt (pw 0x22 9 3) (gen0 { base := 1024 } (vl 12)) with
    spad := spadOf (toLE 8 (pwtWord (pw 0x22 9 3))) ++ [(1024, 0x04), (1025, 0x60), (1026, 0xD2), (1027, 0x80)] }
theorem test_bfp_unpack : ((after (.bfpu 0) packed).pq 0 0).ci 3 0 = (3088, -2912) := by decide +kernel

/-- R118's examples. -/
theorem test_redundant_signs :
    [0x0C1C, 0xF4AC, 0x4000, 0xFFFF].map (redundantSigns 16) = [3, 3, 0, 15] := by decide +kernel

/-- R114's example: L = 256, P = 8, S = −4, lane 3 at BASE + 252. -/
theorem test_circular : ({ mode := 2, base := 1024, s := -4, modl := 256, p := 8 } : PwtAg).addr 4 3 0 = 1024 + 252 := by decide

/-- R113, R115: MODE 5 faults RANGE (cause 4) and leaves the generator; an unaligned access beyond the share faults ADDR (cause 2). -/
theorem test_generator_faults :
    bits ((after (.agset 0) (pwt (pw 0x18 0) (scal [5]))).reg (Reg.PWT_FAULT 0 0)) 3 1 = 4 ∧
    bits ((after (.pwtLd 0) (pwt (pw 0x20 2) (gen0 { base := 2 ^ 25 - 3 }))).reg (Reg.PWT_FAULT 0 0)) 3 1 = 2 ∧
    bits ((after (.pwtLd 0) (pwt (pw 0x20 2) (gen0 { base := 1026 }))).reg (Reg.PWT_FAULT 0 0)) 3 1 = 3 := by decide +kernel

/-! ### Tin and latches -/

/-- Context 1 is of the secure world, and object 1 of its function is PINNED and READY at 2^30. -/
def labT : State :=
  { lab with
    ctxs := [(1, { valid := true, slotCount := 64, secure := true })]
    tiers := { lab.tiers with objs := [(1, { st := .ready, base := 2 ^ 30, size := 2 ^ 21 })] } }

/-- A thread of context 1 with integer registers. -/
def thx (x : List (Nat × Nat)) : TinThread := { task := some { ctx := 1, cls := 2 }, st := .ready, x := x.map fun r => (r.1, BitVec.ofNat 64 r.2) }
/-- It is thread 3 of core 0 and issues a word. -/
def tin (w : Nat) (th : TinThread := thx []) : State := labT.setCore 0 { threads := [(3, th)], cur := some 3, word := w }
/-- A device address in the share. -/
def shr (o : Nat) : Nat := 2 * 2 ^ 48 + o

/-- Instruction words written out from RV64GC, V and R149. -/
theorem test_tin_words :
    [0x800002B7, 0x00001297, 0xFFDFF0EF, 0x001300E7, 0xFE000CE3, 0x00001463, 0x00150513, 0x203170C3, 0x003170D3, 0x00032283, 0x00532023].map decodeTin =
      [.lui 5 (-2 ^ 31), .auipc 5 4096, .jal 1 (-4), .jalr 1 6 1, .branch 0 0 0 (-8), .branch 1 0 0 8, .alu .add false 10 10 (.imm 1),
       .fma false false false 1 2 3 4 7, .fop 0 false 1 2 3 7, .load 2 5 6 0 false, .store 2 6 5 0 false] ∧
    [0x000070D7, 0x022180D7, 0x02030087, 0x020300A7].map decodeTin = [.vset 0x70D7, .vop 0x022180D7, .vload 0x02030087, .vstore 0x020300A7] ∧
    [0x002312F3, 0xC01022F3, 0x0FF0000F, 0x0000100F, 0x73, 0x100073, 0, 0x4085, 0x8082].map decodeTin =
      [.csr 1 5 6 2, .csr 2 5 0 0xC01, .fence, .fenceI, .ecall, .ebreak, .illegal, .alu .add false 1 0 (.imm 1), .jalr 0 1 0] ∧
    [0x0073000B, 0x02B5000B, 0x0473028B, 0x0603028B, 0x0073100B, 0x0273100B, 0x4073200B, 0x0000300B, 0x0200300B, 0x0073400B, 0x0273428B, 0x0473428B,
      0x0600428B].map decodeTin =
      [.lsig 6 7, .lwait 10 11, .ltry 5 6 7, .lrd 5 6, .trpush 6 7, .dmaq 6 7, .pwissue 6 7 8, .tyield, .texit, .dgadd 6 7, .rngw 5 6 7, .rngd 5 6 7,
       .trng 5] ∧
    [0x407302AB, 0x007312AB, 0x027312AB, 0x0073202B, 0x3E73302B, 0x0000402B, 0x007322AF, 0x100322AF, 0x187322AF].map decodeTin =
      [.scas 5 6 7 8, .faadd true 5 6 7, .faadd false 5 6 7, .xld 0 6 7, .xst 31 6 7, .dinv, .amo .add false false false 5 6 7, .lr false 5 6,
       .sc false 5 6 7] := by
  and_intros <;> decide +kernel

/-- A vector state of four bytes. -/
def thv : TinThread := { thx [(6, shr 256)] with vtype := 0, vl := 4 }

theorem wit_TinBaseProfile :
    TinReady (tin 0x800002B7) 0 3 (thx []) (.lui 5 (-2 ^ 31)) ∧ TinReady (tin 0x00001297) 0 3 (thx []) (.auipc 5 4096) ∧
    TinReady (tin 0xFFDFF0EF) 0 3 (thx []) (.jal 1 (-4)) ∧ TinReady (tin 0x001300E7) 0 3 (thx []) (.jalr 1 6 1) ∧
    (TinReady (tin 0xFE000CE3) 0 3 (thx []) (.branch 0 0 0 (-8)) ∧ branchTaken 0 ((thx []).getX 0) ((thx []).getX 0) = true) ∧
    (TinReady (tin 0x00001463) 0 3 (thx []) (.branch 1 0 0 8) ∧ branchTaken 1 ((thx []).getX 0) ((thx []).getX 0) = false) ∧
    TinReady (tin 0x00150513) 0 3 (thx []) (.alu .add false 10 10 (.imm 1)) ∧
    (TinReady (tin 0x203170C3) 0 3 (thx []) (.fma false false false 1 2 3 4 7) ∧ ((thx []).fmadd false false false 1 2 3 4 7).isSome = true) ∧
    (TinReady (tin 0x003170D3) 0 3 (thx []) (.fop 0 false 1 2 3 7) ∧ ((thx []).fop 0 false 1 2 3 7).isSome = true) ∧
    TinReady (tin 0x000070D7) 0 3 (thx []) (.vset 0x70D7) ∧
    (TinReady (tin 0x022180D7 thv) 0 3 thv (.vop 0x022180D7) ∧ (thv.vOp 0x022180D7).isSome = true) ∧
    (TinReady (tin 0x00032283 thv) 0 3 thv (.load 2 5 6 0 false) ∧ (thv.getX 6 + Machine.w64 0).toNat = shr 256 ∧
      (tin 0x00032283 thv).tinCheck 0 thv.id false false 4 (shr 256) 4 = none ∧ ((tin 0x00032283 thv).shareRead 0 1 256 4).isSome = true) ∧
    (TinReady (tin 0x00032283 (thx [(6, shr 1)])) 0 3 (thx [(6, shr 1)]) (.load 2 5 6 0 false) ∧
      (tin 0x00032283 (thx [(6, shr 1)])).tinCheck 0 (thx []).id false false 4 (shr 1) 4 = some 3) ∧
    (TinReady (tin 0x00532023 thv) 0 3 thv (.store 2 6 5 0 false) ∧ (tin 0x00532023 thv).tinCheck 0 thv.id true false 4 (shr 256) 4 = none) ∧
    (TinReady (tin 0x00532023 (thx [(6, 2 ^ 30)])) 0 3 (thx [(6, 2 ^ 30)]) (.store 2 6 5 0 false) ∧
      (tin 0x00532023 (thx [(6, 2 ^ 30)])).tinCheck 0 (thx []).id true false 4 (2 ^ 30) 4 = none) ∧
    (TinReady (tin 0x02030087 thv) 0 3 thv (.vload 0x02030087) ∧
      (thv.vMem 0x02030087 false).any (fun v => v.pieces.length == 4 &&
        v.pieces.all fun p => (tin 0x02030087 thv).tinCheck 0 thv.id false false (v.eew / 8) p.addr p.bytes == none) = true) ∧
    (TinReady (tin 0x020300A7 thv) 0 3 thv (.vstore 0x020300A7) ∧
      (thv.vMem 0x020300A7 true).any (fun v => (tin 0x020300A7 thv).tinChecks 0 thv.id true false (v.eew / 8) (v.pieces.map fun p => (p.addr, p.bytes)) == none) =
        true) := by
  unfold TinReady; and_intros <;> decide +kernel

theorem wit_TinSystemInstructions :
    (TinReady (tin 0x002312F3) 0 3 (thx []) (.csr 1 5 6 2) ∧ ((thx []).csr 2).isSome = true ∧ ((thx []).setCsr 2 0).isSome = true) ∧
    (TinReady (tin 0xC01022F3) 0 3 (thx []) (.csr 2 5 0 0xC01) ∧ (tin 0).sterling 1 = false) ∧
    (TinReady (tin 0x0FF0000F) 0 3 (thx []) .fence ∧ (thx []).performed = true) ∧
    (TinReady (tin 0x0FF0000F { thx [] with outs := [⟨0, true, 0, 0, 8, false⟩] }) 0 3 { thx [] with outs := [⟨0, true, 0, 0, 8, false⟩] } .fence ∧
      ({ thx [] with outs := [⟨0, true, 0, 0, 8, false⟩] } : TinThread).performed = false) ∧
    TinReady (tin 0x0000100F) 0 3 (thx []) .fenceI ∧ TinReady (tin 0x0000402B) 0 3 (thx []) .dinv ∧ TinReady (tin 0x73) 0 3 (thx []) .ecall ∧
    TinReady (tin 0x100073) 0 3 (thx []) .ebreak ∧ TinReady (tin 0) 0 3 (thx []) .illegal ∧ TinReady (tin 0x0000300B) 0 3 (thx []) .tyield ∧
    TinReady (tin 0x0200300B) 0 3 (thx []) .texit ∧ (tin 0).clusterPresent 0 = true ∧ ((tin 0).thread 0 3).ctx < 4096 := by
  unfold TinReady; and_intros <;> decide +kernel

/-- Thread 3 has an entry task; it is ready at share offset 64, whose line of zeros but for C.LI x1, 1 at 64 is cached; it has ended. -/
def tinEntry : State := labT.setCore 0 { threads := [(3, { thx [] with entry := some (shr 64, [7]) })] }
def tinAt64 : State :=
  labT.setCore 0 { threads := [(3, { thx [] with pc := BitVec.ofNat 64 (shr 64) })]
                   icache := [⟨1, shr 64 / 64, [0x85, 0x40] ++ List.replicate 62 0⟩] }
def tinEnded : State := labT.setCore 0 { threads := [(3, { thx [] with ending := some (0, 0), wait := .ending })] }

theorem wit_TinThreadsStartIssueAndReport :
    ((tinEntry.thread 0 3).entry = some (shr 64, [7]) ∧ tinEntry.clusterOn 0 = true) ∧
    (tinAt64.clusterOn 0 = true ∧ tinAt64.tinHalted 0 = false ∧ tinAt64.holding 0 = false ∧ (tinAt64.core 0).cur = none ∧ tinAt64.tinPick 0 = some (2, 3)) ∧
    (((tinAt64.unyield 0).thread 0 3).late = none ∧ (tinAt64.unyield 0).fetchOk 0 ((tinAt64.unyield 0).thread 0 3).id (shr 64) = true ∧
      (lineOf ((tinAt64.unyield 0).core 0).icache 1 (shr 64 / 64)).isSome = true ∧ tinLen 0x4085 = 2) ∧
    ((tinEnded.thread 0 3).ending = some (0, 0) ∧ (tinEnded.thread 0 3).outs = []) := by
  and_intros <;> decide +kernel

/-- Latch 5, count 2 in x10 and x11, latch 5 and count 0 in x6 and x7; a push of one record from share offset 256. -/
def thl : TinThread := thx [(6, 5), (10, 5), (11, 2)]
def thp : TinThread := thx [(6, 256), (7, 1)]

theorem wit_TinLatchesAndPushes :
    (TinReady (tin 0x0073000B thl) 0 3 thl (.lsig 6 7) ∧ (tin 0x0073000B thl).latchFault 0 thl 5 0 = none ∧ thl.pending = false) ∧
    (TinReady (tin 0x02B5000B thl) 0 3 thl (.lwait 10 11) ∧ (tin 0x02B5000B thl).latchFault 0 thl 5 2 = none ∧ (thl.getX 11).toNat = 2) ∧
    (TinReady (tin 0x0273000B thl) 0 3 thl (.lwait 6 7) ∧ (thl.getX 7).toNat = 0 ∧ (tin 0x0273000B thl).latchFault 0 thl 5 0 = none) ∧
    (TinReady (tin 0x0473028B thl) 0 3 thl (.ltry 5 6 7) ∧ (tin 0x0473028B thl).sterling thl.ctx = false) ∧ TinReady (tin 0x0603028B thl) 0 3 thl (.lrd 5 6) ∧
    (TinReady (tin 0x0073100B thp) 0 3 thp (.trpush 6 7) ∧ ((tin 0x0073100B thp).shareRead 0 1 256 64).isSome = true ∧ thp.pending = false ∧
      (tin 0x0073100B thp).pushFits 0 thp (.trpush [[]]) = true) ∧
    (TinReady (tin 0x0273100B thp) 0 3 thp (.dmaq 6 7) ∧ ((tin 0x0273100B thp).shareRead 0 1 256 32).isSome = true ∧
      (tin 0x0273100B thp).pushFits 0 thp (.dmaq [] 1 0) = true) ∧
    (TinReady (tin 0x4073200B thp) 0 3 thp (.pwissue 6 7 8) ∧ (tin 0x4073200B thp).pushFits 0 thp (.pwissue 256 1 0 0 0) = true) ∧
    (TinReady (tin 0x0073400B (thx [(6, shr 256), (7, 1)])) 0 3 (thx [(6, shr 256), (7, 1)]) (.dgadd 6 7) ∧ spaceOf (shr 256) ∉ [1, 3, 256] ∧
      (tin 0).tinCheck 0 (thx []).id false false 1 (shr 256) 1 = none) ∧
    (TinReady (tin 0x0273428B thp) 0 3 thp (.rngw 5 6 7) ∧ (thp.getX 7).toNat < 2 ^ 49) ∧ TinReady (tin 0x0473428B thp) 0 3 thp (.rngd 5 6 7) ∧
    (TinReady (tin 0x0600428B) 0 3 (thx []) (.trng 5) ∧ (tin 0x0600428B).sterling 1 = false) := by
  unfold TinReady; and_intros <;> decide +kernel

/-- Addresses in the share and in the object. -/
def tha : TinThread := thx [(6, shr 256), (7, 1)]
def tht : TinThread := thx [(6, 2 ^ 30), (7, 1)]
def thc : TinThread := thx [(6, 256), (7, 2 ^ 30)]
/-- One that holds a reservation. -/
def thr : TinThread := { tha with resv := some ((tin 0).resvKey 0 1 (shr 256)) }

theorem wit_TinAtomicsAndCopies :
    (TinReady (tin 0x007322AF tha) 0 3 tha (.amo .add false false false 5 6 7) ∧ (tin 0x007322AF tha).amoCheck 0 tha.id .add (shr 256) 4 = none ∧
      ((tin 0x007322AF tha).shareRead 0 1 (offOf (shr 256)) 4).isSome = true ∧ spaceOf (shr 256) = 2) ∧
    (TinReady (tin 0x100322AF tha) 0 3 tha (.lr false 5 6) ∧ (tin 0x100322AF tha).amoCheck 0 tha.id .lr (shr 256) 4 = none) ∧
    (TinReady (tin 0x187322AF thr) 0 3 thr (.sc false 5 6 7) ∧ (tin 0x187322AF thr).amoCheck 0 thr.id .sc (shr 256) 4 = none ∧
      thr.resv = some ((tin 0x187322AF thr).resvKey 0 thr.ctx (shr 256))) ∧
    (TinReady (tin 0x187322AF tha) 0 3 tha (.sc false 5 6 7) ∧ tha.resv ≠ some ((tin 0x187322AF tha).resvKey 0 tha.ctx (shr 256))) ∧
    (TinReady (tin 0x407302AB tht) 0 3 tht (.scas 5 6 7 8) ∧ (tin 0x407302AB tht).amoCheck 0 tht.id (.cas 1) (2 ^ 30) 8 = none ∧ spaceOf (2 ^ 30) = 0 ∧
      (tin 0x407302AB tht).poisonIn (2 ^ 30) 8 = none ∧ (tin 0x407302AB tht).secureCtx 1 = true) ∧
    (TinReady (tin 0x007312AB tht) 0 3 tht (.faadd true 5 6 7) ∧ (tin 0x007312AB tht).amoCheck 0 tht.id .fadd (2 ^ 30) 8 = none ∧
      (tin 0x007312AB tht).sterling 1 = false) ∧
    (TinReady (tin 0x027312AB tht) 0 3 tht (.faadd false 5 6 7) ∧ (tin 0x027312AB tht).amoCheck 0 tht.id .fadd (2 ^ 30) 4 = none) ∧
    (TinReady (tin 0x0073202B thc) 0 3 thc (.xld 0 6 7) ∧ (tin 0x0073202B thc).copyFault 0 thc false 256 (2 ^ 30) 8 = none) ∧
    (TinReady (tin 0x3E63B02B (thx [(6, 256), (7, 2 ^ 30)])) 0 3 thc (.xst 31 7 6) ∧ (tin 0x3E63B02B thc).copyFault 0 thc true 256 (2 ^ 30) 256 = none ∧
      ((tin 0x3E63B02B thc).shareRead 0 1 256 256).isSome = true) := by
  unfold TinReady; and_intros <;> decide +kernel

/-- A thread parked on an atomic's result, on the acceptance of its store, on room for a push, and one whose store waits for its answer. -/
def thPark (w : TinWait) : TinThread := { thx [] with st := .parkedExt, wait := w }

theorem wit_TinParkedThreadsGoOn :
    (((tin 0 (thPark (.result 5 9 false))).thread 0 3).owns 1 0 = true ∧ ((tin 0 (thPark (.result 5 9 false))).thread 0 3).turn = true ∧
      (tin 0 (thPark (.result 5 9 false))).tinHalted 0 = false) ∧
    ((labT.thread 0 3).owns 1 0 = false ∧ ((labT.setCore 0 { stray := 1 }).core 0).stray ≠ 0) ∧
    (((tin 0 { thx [] with outs := [⟨1, true, 0, 0, 8, false⟩] }).thread 0 3).outs.find? (fun o => o.store && o.path == 1) = some ⟨1, true, 0, 0, 8, false⟩) ∧
    (((tin 0 (thPark (.accept [(2 ^ 30, [1])]))).thread 0 3).posted < 16 ∧ (tin 0 (thPark (.accept [(2 ^ 30, [1])]))).secureCtx 1 = true ∧ spaceOf (2 ^ 30) = 0) ∧
    ((tin 0 (thPark (.room (.lsig 5 1)))).clusterOn 0 = true ∧
      (tin 0 (thPark (.room (.lsig 5 1)))).pushFits 0 ((tin 0 (thPark (.room (.lsig 5 1)))).thread 0 3) (.lsig 5 1) = true) := by
  and_intros <;> decide +kernel

/-- Latch 5 of cluster 0 at a count, with signals and waiters. -/
def latched (n : Nat) (v : Latches) : State := (labT.setReg (Reg.LAT_COUNT 0 5) n).setLatch 0 5 v

theorem wit_LatchEvaluation :
    ((latched 3 { arrived := [(0, 4)] }).clusterOn 0 = true ∧ (latched 3 { arrived := [(0, 4)] }).latch 0 5 = { arrived := [(0, 4)], waits := [] } ∧
      (latched 3 {}).reg (Reg.LAT_COUNT 0 5) + 4 < 2 ^ 32) ∧
    (2 ^ 32 ≤ (latched 3 {}).reg (Reg.LAT_COUNT 0 5) + (2 ^ 32 - 3)) ∧
    ((latched 3 { waits := [(9, (9, 3))] }).latch 0 5 = { arrived := [], waits := [(9, (9, 3))] } ∧ 3 ≤ (latched 3 {}).reg (Reg.LAT_COUNT 0 5)) ∧
    (latched 3 {}).reg (Reg.LAT_COUNT 0 5) < 4 := by
  and_intros <;> decide +kernel

/-- R158's example: count 1, waiters 5 for 4 and 45 for 2; SIGNAL(2) and a WAIT(1) of index 120 arrive: 45 and 120 are released, two passes, count 0. -/
theorem test_two_waiters :
    let t := after (.latchEvaluation 0 40) ((labT.setReg (Reg.LAT_COUNT 0 40) 1).setLatch 0 40
      { arrived := [(0, 2)], waits := [(5, (5, 4)), (45, (45, 2)), (120, (120, 1))] })
    (t.latch 0 40).waits = [(5, (5, 4))] ∧ t.reg (Reg.LAT_COUNT 0 40) = 0 ∧ t.reg (Reg.LAT_PASSES 0) = 2 := by decide +kernel

/-- R140, R142: a load of a word from the share sign-extends, and x0 stays zero. -/
theorem test_tin_load :
    ((after (.tinBaseInstruction 0) ({ tin 0x00032283 thv with spad := [(256, 0xFE), (257, 0xFF), (258, 0xFF), (259, 0xFF)] })).thread 0 3).getX 5 =
      BitVec.ofInt 64 (-2) ∧
    ((after (.tinBaseInstruction 0) (tin 0x00100013)).thread 0 3).getX 0 = 0 := by decide +kernel

/-- SCAS stores where it finds the value compared, and its register receives the old value at the answer. -/
theorem test_scas :
    let t := after (.scas 0) (tin 0x407302AB (thx [(6, 2 ^ 30), (8, 0x55)]))
    t.tierRead (2 ^ 30) 2 = [0x55, 0] ∧ ((after (.extResponseArrive 0 3 1 0 none) t).thread 0 3).getX 5 = 0 := by decide +kernel

/-! ### Cabinet -/

/-- An event queue 0, a submission queue 1 in host memory with one descriptor, and a completion queue 2, all of the physical function. -/
def withQueues (s : State := lab) : State :=
  { s with host := { s.host with queues :=
    [(0, { en := true, typ := 2, base := 2 ^ 48 }), (1, { en := true, typ := 0, base := 2 ^ 48 + 4096, prod := 1, pair := 2 }),
     (2, { en := true, typ := 1, base := 2 ^ 48 + 8192 })] } }

/-- An active virtual function 5 with four queues from 2048 and four contexts. -/
def withVf (s : State := lab) : State :=
  s.setFunc 5 { st := .active, qbase := 2048, qcount := 4, contexts := 4, shareGran := 8, latchGran := 8 }
/-- Its event queue. -/
def vfEvq (s : State := withVf) : State := s.setQueue 2048 { en := true, typ := 2, fn := 5, base := 2 ^ 48 }

theorem wit_CabinetCreatesContextsAndBarriers :
    (Taken (boxed 0x0201 withQueues) pf0 0x0201 ∧ (boxed 0x0201 withQueues).poolQueue 0 0 = some 0 ∧
      lowestFree 4096 (fun x => ((boxed 0x0201 withQueues).ctx x).valid) = some 0 ∧ (boxed 0x0201 withQueues).freeRun 64 = some 64 ∧
      (boxed 0x0201 withQueues).ctxCount 0 < (boxed 0x0201 withQueues).ctxQuota 0 ∧
      lowestFree 256 (fun w => (boxed 0x0201 withQueues).liveCtxs.any fun c => c.2.fn == 0 && c.2.window == w) = some 1) ∧
    (((vfEvq).setBox (.mbox 5 0) { busy := true, command := 0x0201 }).poolQueue 5 0 = some 2048 ∧
      ((vfEvq).setBox (.mbox 5 0) { busy := true, command := 0x0201 }).served (.mbox 5 0) = true ∧
      (vfEvq).ctxCount 5 < (vfEvq).ctxQuota 5) ∧
    (Taken (boxed 0x0202 lab) pf0 0x0202 ∧ ((boxed 0x0202 lab).ctx 1).valid = true) ∧ Taken (boxed 0x0208 lab) pf0 0x0208 ∧
    (Taken (boxed 0x0204 lab) pf0 0x0204 ∧ lowestFree 4096 (fun b => ((boxed 0x0204 lab).bar b).valid) = some 0) := by
  unfold Taken; and_intros <;> decide +kernel

/-- Context 1 in teardown with its engines idle; a barrier of three with one arrival. -/
def tearing : State := run0.setCtx 1 { valid := true, slotCount := 64, tearing := true }
def barred (p : Nat) (s : State := lab) : State := s.setBar 2 { valid := true, p := p }

theorem wit_CabinetTearsDownAndFrees :
    (Taken (boxed 0x0203 lab) pf0 0x0203 ∧ ((boxed 0x0203 lab).ctx 1).valid = true ∧ ((boxed 0x0203 lab).ctx 1).tearing = false) ∧
    (Taken (boxed 0x0203 tearing) pf0 0x0203 ∧ ((boxed 0x0203 tearing).ctx 1).tearing = true) ∧
    ((tearing.ctx 1).valid = true ∧ tearing.stopped 1 = true ∧ (tearing.ctx 1).slotBase ≤ 63 ∧ 63 < (tearing.ctx 1).slotBase + (tearing.ctx 1).slotCount) ∧
    (Taken (boxed 0x0205 (barred 3)) pf0 0x0205 ∧ ((boxed 0x0205 (barred 3)).bar 2).valid = true) := by
  unfold Taken; and_intros <;> decide +kernel

/-- A JOIN descriptor of class 3 for context 1 in slot 0 with completion queue 2, and its bytes. -/
def joinWords (fgen gen : Nat) : List Nat := [0x36 + 2 ^ 16 * fgen, 2 ^ 17 * gen, 1, 2] ++ List.replicate 28 0
def joinDesc (fgen gen : Nat) : ExtData := .data (words (joinWords fgen gen))
/-- Firmware has enabled acceptance. -/
def accepting : State := withQueues.setReg Reg.CAB_CTRL 3

theorem wit_DescriptorsAreAcceptedAndCommitted :
    (accepting.flag Reg.CAB_CTRL 0 = true ∧ accepting.nextSubmission = some 1 ∧
      accepting.ringEntry 1 (accepting.queue 1).cons 128 (joinDesc 0 1) = some (words (joinWords 0 1))) ∧
    ((({ accepting with sched := { accepting.sched with fetchRr := 2 } } : State).consume 1).refusal 0 (decodeTask (joinWords 0 1)) false = 0 ∧
      (decodeTask (joinWords 0 1)).fgen = (accepting.func 0).gen) ∧
    ((({ accepting with sched := { accepting.sched with fetchRr := 2 } } : State).consume 1).refusal 0 (decodeTask (joinWords 0 2)) false ≠ 0 ∧
      (decodeTask (joinWords 7 1)).fgen ≠ (accepting.func 0).gen) ∧
    ((accepting.queue 1).en = true ∧ (accepting.queue 1).typ = 0 ∧ seqNewer 32 1 (accepting.queue 1).commit = true ∧
      seqNewer 32 1 (accepting.queue 1).prod = false) ∧
    seqNewer 32 (0 % 2 ^ 32) (accepting.queue 1).commit = false := by
  and_intros <;> decide +kernel

/-- R166's header: TYPE 2, class 3, DIGEST, FGEN 7, and handle 0x000B2345 as slot 74,565 at generation 5. -/
theorem test_descriptor_header :
    (let d := decodeTask ([0x00070132, 0x000B2345] ++ List.replicate 30 0)
     d.typ = 2 ∧ d.cls = 3 ∧ d.digest = true ∧ d.cqEn = false ∧ d.fgen = 7 ∧ slotOf d.handle = 74565 ∧ genOf d.handle = 5) := by decide +kernel

/-- A ready JOIN of class 3, a ready task for the Trestle's tenant queue, and a task that the Trestle has ended. -/
def ready (cls : Nat) (op : TaskOp) : Task := { desc := descOf cls op, fn := 0, sq := 1, pos := 0, committed := true, st := .ready }
def toTrestle : State := tasked (ready 3 (.trestle 0 0))
def ended (h : Nat) : State := { tasked { ready 3 (.trestle 0 0) with st := .dispatched } with done := [⟨{ ctx := 1, cls := 3, handle := h }, 0, 0, 0⟩] }
/-- A completion record for slot 0 waits for queue 2. -/
def recording : State :=
  let s := tasked { ready 3 .join with st := .recording, fin := some (0, 0) } withQueues
  { s with host := { s.host with outbox := [⟨2, 0, 0, .task 0, List.replicate 64 1⟩] } }

theorem wit_TasksDispatchEndAndPost :
    (toTrestle.flag Reg.CAB_CTRL 1 = true ∧ (toTrestle.nextDispatch.map fun x => (x.1, x.2.1)) = some (0, ready 3 (.trestle 0 0)) ∧
      toTrestle.placeOf (descOf 3 (.trestle 0 0)) 0 = some 0 ∧ (TaskOp.trestle 0 0).region = some 0) ∧
    ((tasked (ready 0 (.trestle 0 0))).eligibles = [(0, ready 0 (.trestle 0 0))]) ∧
    (((ended 0).slot (slotOf 0)).task.map (fun t => (t.desc.handle, t.desc.ctx, t.fin)) = some (0, 1, none)) ∧
    (∀ t ∈ ((ended (2 ^ 17)).slot (slotOf (2 ^ 17))).task, t.desc.handle ≠ 2 ^ 17) ∧
    (((tasked (ready 3 .join)).slot 0).task = some (ready 3 .join) ∧ (ready 3 .join).desc.digest = false ∧ (ready 3 .join).desc.cqEn = false ∧
      (ready 3 .join).inst = none) ∧
    (recording.host.outbox.find? (fun r => r.queue == 2) = some ⟨2, 0, 0, .task 0, List.replicate 64 1⟩ ∧ (recording.queue 2).en = true ∧
      (recording.queue 2).full = false ∧ (recording.queue 2).failed = false ∧ ((recording.slot 0).task.map (·.st)) = some .recording) := by
  and_intros <;> decide +kernel

/-- R178's example: classes 2 and 3 with weights 16 and 48 are picked in the order 3, 2, 3, 3. -/
theorem test_class_weights :
    let s0 := run0.setReg Reg.CAB_CLASS_WEIGHT_A 0x10301040
    let go (s : State) : Nat × State := match s.pickClass [2, 3] with
      | some (c, d) => (c, { s with sched := { s.sched with deficit := d } })
      | none => (0, s)
    let a := go s0
    let b := go a.2
    let c := go b.2
    let d := go c.2
    [a.1, b.1, c.1, d.1] = [3, 2, 3, 3] ∧ [2, 3].map (d.2.sched.deficit.get 0 ·) = [0, 0] := by decide +kernel

/-- An ARRIVE in slot 0 at barrier 2; a class 0 task past its deadline; an alarm with a hung Solder load. -/
def arriving (ph : Nat) : State := tasked (ready 3 (.arrive 2 ph)) (barred 2)
def missed : State := { lab with slots := [(0, { busy := true, task := some (ready 0 .join) })], time := 2 ^ 32 * 1000000000 * 315964819 }
def hung : State :=
  { (lab.setCore 0 { threads := [(3, { thx' with outs := [⟨4, false, 0, 2 ^ 56, 8, false⟩] })] }).setReg (Reg.CAB_CTX_EXT_ALARM_US 1) 1 with clk := 5000 }
where thx' : TinThread := { task := some { ctx := 1, cls := 2 }, st := .parkedExt, wait := .load [] (.share 0) }

theorem wit_BarriersReleaseAndTimesArePosted :
    (((arriving 0).slot 0).task = some (ready 3 (.arrive 2 0)) ∧ ((arriving 0).bar 2).valid = true ∧ 0 = ((arriving 0).bar 2).phase ∧
      ((arriving 0).bar 2).count + 1 < ((arriving 0).bar 2).p) ∧
    (1 ≠ ((arriving 1).bar 2).phase ∧ 1 = (((arriving 1).bar 2).phase + 1) % 2 ^ 16 ∧ ((arriving 1).bar 2).early.length < ((arriving 1).bar 2).p) ∧
    (2 ≠ ((arriving 2).bar 2).phase ∧ 2 ≠ (((arriving 2).bar 2).phase + 1) % 2 ^ 16) ∧
    (missed.slots = [(0, { busy := true, task := some (ready 0 .join) })] ∧ (ready 0 .join).desc.cls = 0 ∧ (ready 0 .join).missed = false ∧
      reached missed.now 0 = true) ∧
    ((hung.ctx 1).valid = true ∧ hung.alarmOn 1 = true ∧ (hung.ctx 1).alarmed = false) ∧
    ((hung.setCtx 1 { hung.ctx 1 with alarmed := true }).alarmOn 1 = true ∧ ((hung.setCtx 1 { hung.ctx 1 with alarmed := true }).ctx 1).alarmed = true) := by
  and_intros <;> decide +kernel

/-- R188: the second of two ARRIVEs releases the barrier: its phase advances and both end with OK. -/
theorem test_barrier_release :
    let s := ((barred 2).setSlot 0 { busy := true, task := some (ready 3 (.arrive 2 0)) }).setSlot 1
      { busy := true, task := some { ready 3 (.arrive 2 0) with desc := { descOf 3 (.arrive 2 0) with handle := 1 } } }
    let t := after (.arrive 2) s
    (t.bar 2).phase = 1 ∧ (t.bar 2).count = 0 ∧ (t.slot 0).busy = false ∧ (t.slot 0).last = 0 ∧ (t.slot 1).busy = false := by decide +kernel

/-! ### Transfers, residency, slack and energy -/

/-- A transfer of two rows of 64 bytes from share offset 0 to 4096. -/
def copy2 : DmaDesc :=
  { src := 0, srcShare := true, dst := 4096, dstShare := true, rowBytes := 64, rows := 2, digest := false, srcStride := 64, dstStride := 64, resv := false }
def xfer (d : DmaDesc := copy2) : DmaXfer := { task := { ctx := 1 }, use := .task, desc := d, started := true }
def moving (x : DmaXfer) : State := lab.setDma 0 { rq := [x] }

theorem wit_DmaRowsMoveAndAcknowledge :
    ((moving xfer).clusterOn 0 = true ∧ (moving xfer).holding 0 = false ∧ ((moving xfer).dmaEng 0).rq = [xfer] ∧ xfer.next < xfer.desc.rows ∧
      ((moving xfer).shareRead 0 1 0 64).isSome = true ∧ 4096 + 64 ≤ (moving xfer).shareSize 0 1) ∧
    (((moving { xfer with next := 2, unacked := 1 }).dmaQ 0 0)[0]? = some { xfer with next := 2, unacked := 1 } ∧
      dmaSpace copy2.dstShare copy2.dst ≠ 256) ∧
    ((moving { xfer with next := 2, unacked := 2 }).dmaQ 0 0)[0]? = some { xfer with next := 2, unacked := 2 } := by
  and_intros <;> decide +kernel

/-- A row moves: its bytes are at the destination, and one row is unacknowledged. -/
theorem test_dma_row :
    let t := after (.dmaRow 0 none none) ({ moving xfer with spad := [(0, 9), (63, 7)] })
    t.shareRead 0 1 4096 1 = some [9] ∧ t.shareRead 0 1 4159 1 = some [7] ∧ ((t.dmaQ 0 0).map (·.unacked)) = [1] := by decide +kernel

/-- A request of context 2; context 1's slot RESIDENT, RELEASING and RESTORING; an all-blocked cluster. -/
def two (s : State := lab) : State := s.setCtx 2 { valid := true, slotBase := 64, slotCount := 64 }
def res0 (st : ResSt) : ResSlot := { st := st, ctx := 1, grans := [0], lats := [0] }
def slot0 (st : ResSt) (s : State := lab) : State := s.setCluster 0 { slots := [(0, res0 st)] }
def restoring : State :=
  (slot0 .restoring).setDma 0 { tq := [{ xfer { copy2 with src := 2 ^ 30, srcShare := false } with use := .restore 0, fin := true }] }
def blockedAll : State :=
  let s : State := two.setSlot 64 { busy := true, task := some { desc := { descOf 3 (.trestle 0 0) with ctx := 2 }, fn := 0, sq := 0, pos := 0, committed := true, st := .ready } }
  (s.setReg (Reg.CAB_RES_ALLBLK_US 0) 10).setSlot 0
    { busy := true, task := some { desc := descOf 3 (.trestle 0 0), fn := 0, sq := 0, pos := 0, committed := true, st := .dispatched } }

theorem wit_ResidencyGrantsAndReleases :
    (let s := boxed 0x0206 two
     Taken s pf0 0x0206 ∧ (s.ctx 2).valid = true ∧ s.clusterPresent 0 = true ∧
      (∀ e ∈ (s.cluster 0).slots, e.2.holds = true → e.2.ctx = 2 → e.2.orphan = true ∨ e.2.st = .orphaned) ∧ (∀ r ∈ (s.cluster 0).pend, r.ctx ≠ 2) ∧
      (s.ctx 2).stl.st = .off ∧ (s.cluster 0).pend = [] ∧
      s.fits 0 { ctx := 2, fn := 0, grans := 95, lats := 31, restore := 0 } = true ∧ s.fits 0 { ctx := 2, fn := 0, grans := 96, lats := 0, restore := 0 } = false ∧
      s.freeResSlot 0 = some 1) ∧
    (let s := boxed 0x0207 lab
     Taken s pf0 0x0207 ∧ (s.cluster 0).slots.get {} 0 = res0 .resident ∧ s.resRun 0 1 = 0 ∧ s.warm 0 = false) ∧
    (((slot0 .releasing).cluster 0).slots.get {} 0 = res0 .releasing ∧ ((slot0 .releasing).cluster 0).pend = []) ∧
    ((restoring.copyOf 0 0).map (fun x => (x.fin, x.desc.srcShare)) = some (true, false) ∧ (restoring.cluster 0).slots.get {} 0 = res0 .restoring) ∧
    (∃ s : State, s.allBlocked 0 = true ∧ (s.cluster 0).allBlk = false ∧ s.reg (Reg.CAB_RES_ALLBLK_US 0) ≠ 0) := by
  unfold Taken
  refine ⟨?_, ?_, ?_, ?_, ⟨blockedAll, ?_⟩⟩
  · intro s; and_intros <;> decide +kernel
  · intro s; and_intros <;> decide +kernel
  · decide +kernel
  · decide +kernel
  · decide +kernel

/-- A tracker with slack to spare. -/
def tracked : State :=
  ({ run0 with slack := [(3, { active := true, remain := 10, deadline := 1000 })] }).setReg (Reg.CAB_SLK_CTRL 3) 1

theorem wit_SlackAndEnergyAreComputed :
    (tracked.flag (Reg.CAB_SLK_CTRL 3) 0 = true ∧ (tracked.slk 3).active = true ∧
      Int.ofNat (tracked.reg (Reg.CAB_SLK_THRESH_NS 3)) ≤ slackOf (tracked.slk 3).deadline tracked.now (tracked.slk 3).remain) ∧
    run0.pkgLimit < 2000 + 45 ∧ 100 * (0 + 45) < 97 * run0.pkgLimit ∧ sext 32 (run0.reg (Reg.BIM_REG_C0_BUCKET 11)) = 0 ∧
    ((run0.setReg Reg.BIM_CTRL 1).flag Reg.BIM_CTRL 0 = true ∧ (run0.setReg Reg.BIM_CTRL 1).creditOk 0 0 = true) := by
  and_intros <;> decide +kernel

/-- R214's example: 1,200 W, base load 4,800, class 0 reservations of 1,700, twelve regions of weight 1. -/
def powered1200 : State :=
  let s := ((run0.setReg Reg.BIM_PKG_LIMIT_W 1200).setReg Reg.BIM_BASE_LOAD 4800).setReg (Reg.BIM_REG_C0_RESERVE 0) 1700
  (List.range 12).foldl (fun s r => (s.setReg (Reg.BIM_REG_WEIGHT r) 1).setReg (Reg.BIM_REG_CAP r) 100000) (s.setReg Reg.BIM_LAMBDA 256)

theorem test_credits :
    (let t := after (.energyRefill []) powered1200
     t.reg Reg.BIM_TENANT_POOL = 5500 ∧ (List.range 12).map (fun r => t.reg (Reg.BIM_REG_CREDIT r)) = List.replicate 4 459 ++ List.replicate 8 458) ∧
    (let t := after (.energyRefill [(63, 102)]) powered1200
     t.reg Reg.BIM_TENANT_POOL = 671 ∧ (List.range 12).map (fun r => t.reg (Reg.BIM_REG_CREDIT r)) = List.replicate 11 56 ++ [55]) ∧
    (run0.setReg (Reg.BIM_REG_STEP 6) 1).chargeOf 6 152 = 137 := by
  and_intros <;> decide +kernel

/-! ### Sterling mode and digests -/

/-- Context 2 of floor 2, with an object that holds a digest ring at 2^30. -/
def stlBase (g : Stl) (s : State := run0) : State :=
  { s with
    ctxs := [(2, { valid := true, slotCount := 64, floor := 2, stl := g })]
    tiers := { s.tiers with objs := [(1, { st := .ready, base := 2 ^ 30, size := 2 ^ 21 })] } }
def stlBoxed (code : Nat) (g : Stl) : State := boxed code (stlBase g)
/-- A ring of 64 entries at 2^30 in a Sterling state. -/
def ring64 (st : StlSt) : Stl := { st := st, ring := 2 ^ 30, entries := 64 }
def chained (master : Bool) (s : State := run0) : State := s.setReg Reg.CAB_STL_CHAIN_CTRL (if master then 3 else 1)

theorem wit_SterlingContextsArmAndFire :
    (Taken (stlBoxed 0x0209 {}) pf0 0x0209 ∧ ((stlBoxed 0x0209 {}).ctx 2).valid = true ∧ 2 ≤ ((stlBoxed 0x0209 {}).ctx 2).floor ∧ ringSizeOk 64 = true ∧
      (stlBoxed 0x0209 {}).pinnedRange 0 (offOf (2 ^ 30)) (64 + 32 * 64) = true ∧ (stlBoxed 0x0209 {}).ctxIdle 2 = true ∧
      (stlBoxed 0x0209 {}).anyResidency 2 = false) ∧
    (Taken (stlBoxed 0x020A (ring64 .held)) pf0 0x020A ∧ ((stlBoxed 0x020A (ring64 .held)).ctx 2).stl.st = .held) ∧
    (stlBase (ring64 .armed)).mayFire 2 = true ∧ (stlBase { ring64 .armed with form := .instant 0, pulsed := true }).mayFire 2 = true ∧
    ((chained false).chainOn = true ∧ (chained false).chainMaster = false ∧ (chained true).chainMaster = true) ∧
    ({ chained true with chain := { calOut := true } } : State).chain.calOut = true ∧
    (((stlBase { ring64 .armed with form := .chain }).ctx 2).stl.pulsed = false) := by
  unfold Taken; and_intros <;> decide +kernel

/-- The task of slot 0, class 3 of context 2, is done and its digest is read back, with marks or without. -/
def digTask (dig : Option (Nat × Nat)) : Task :=
  { desc := { descOf 3 .join with ctx := 2, digest := true }, fn := 0, sq := 0, pos := 0, committed := true, st := .digesting, fin := some (0, 0), dig := dig }
def digesting (dig : Option (Nat × Nat)) (g : Stl) (m : Marks := {}) : State :=
  { (stlBase g).setSlot 0 { busy := true, task := some (digTask dig) } with marks := [(0, m)] }

theorem wit_DigestsAreReadAndAppended :
    (((digesting none (ring64 .running)).slot 0).task = some (digTask none) ∧ ((digesting none (ring64 .running)).marks.get {} 0).overflow = false ∧
      (digesting none (ring64 .running)).markPoison [] = none) ∧
    ((digesting none (ring64 .running) { overflow := true }).marks.get {} 0).overflow = true ∧
    (((digesting (some (0, 0)) (ring64 .running)).slot 0).task = some (digTask (some (0, 0))) ∧
      ((ring64 .running).prod + 2 ^ 32 - (ring64 .running).cons) % 2 ^ 32 ≠ (ring64 .running).entries) ∧
    (({ ring64 .running with prod := 64 } : Stl).prod + 2 ^ 32 - 0) % 2 ^ 32 = 64 ∧
    ((stlBase { ring64 .running with prod := 64, stalled := [0] }).ctx 2).stl.stalled ≠ [] ∧
    seqNewer 32 (fromLE ((stlBase {}).tierRead (2 ^ 30 + 32) 4)) 64 = false := by
  and_intros <;> decide +kernel

/-- R236: the check value of CRC-64/XZ over the bytes 0x31 to 0x39, and 0 over no byte. -/
theorem test_crc : crc64 ((List.range 9).map fun i => BitVec.ofNat 8 (0x31 + i)) = 0x995DC9BBDF1939FA ∧ crc64 [] = 0 := by decide +kernel

/-- R228: Philox4x32-10 with seed, TASK_ID and stream 0. -/
theorem test_philox : (List.range 4).map (philoxWord 0 0 0) = [0x6627E8D5, 0xE169C58D, 0xBC57AC4C, 0x9B00DBD8] := by decide +kernel

/-- R239: the entry of a digest is at H + 64, and the producer counter at H is 1 after it. -/
theorem test_digest_append :
    let t := after (.digestAppend 0) (digesting (some (0xAB, 9)) (ring64 .running))
    fromLE (t.tierRead (2 ^ 30) 4) = 1 ∧ (t.ctx 2).stl.prod = 1 ∧ (t.slot 0).busy = false := by decide +kernel

/-! ### Memory tiers -/

/-- Objects of the physical function: 1 PINNED at 2^30, 2 CACHED at 2^31, 3 STREAM at 3 × 2^30, each of one shelf, with states. -/
def objState (st2 st3 : ObjSt) (s : State := run0) : State :=
  { s with tiers := { s.tiers with objs :=
    [(1, { st := .ready, ogen := 4, base := 2 ^ 30, size := 2 ^ 21 }),
     (2, { st := st2, ogen := 4, base := 2 ^ 31, size := 2 ^ 21, policy := .cached }),
     (3, { st := st3, ogen := 4, base := 3 * 2 ^ 30, size := 2 ^ 21, policy := .stream })] } }
/-- The shelf of object 2, and of object 3. -/
def sh2 : Nat := 2 ^ 31 / 2 ^ 21
def sh3 : Nat := 3 * 2 ^ 30 / 2 ^ 21
/-- Flash is enabled and in the size table, and the shelf of object 2 is in a state. -/
def shelved (v : Shelf) : State := ((objState .ready .ready).setShelf sh2 v).setReg Reg.BUR_CTRL 7

/-- All twelve stacks are present with 32 GiB each. -/
def hbm (s : State := run0) : State :=
  (List.range 12).foldl (fun s t => (s.setReg (Reg.HBM_PC_PRESENT t) (2 ^ 32 - 1)).setReg (Reg.HBM_CAPACITY_GIB t) 32) s

theorem wit_ObjectsAreCreated :
    (let s := boxed 0x0301 hbm
     Taken s pf0 0x0301 ∧ (s.func 0).st ≠ .absent ∧ s.stackPresent 11 = true ∧ execBurObjCreate.lowestFree20 s = some 0 ∧
      s.gransFit ((({ base := 2 ^ 21, size := 2 ^ 21, stack := 11, mirror := true, partner := 2, stackNos := s.stackNos } : Obj)).takes 1) = true ∧
      s.partnerOf 11 none = some 2 ∧ Policy.ofCode 0 = some .pinned ∧ s.flashHeld + 1 ≤ (s.setReg Reg.SBD_SIZE_FLASH_GIB 1).flashCap) := by
  unfold Taken; intro s; and_intros <;> decide +kernel

/-- An install of object 2, a reinstall of it. -/
def installing (re secure : Bool) : State :=
  let s := (objState (if re then .ready else .installing) .ready).setReg Reg.BUR_CTRL 7
  { s with tiers := { s.tiers with installs := [⟨2, re, 0, 1, [(4096, 2 ^ 21)], secure⟩] } }

theorem wit_ObjectCommandsComplete :
    (Taken (boxed 0x0302 (objState .ready .ready)) pf0 0x0302 ∧ ObjNamed (boxed 0x0302 (objState .ready .ready)) 0 1 4) ∧
    (seqStale 16 3 4 = true ∧ seqNewer 16 3 4 = false) ∧
    (Taken (boxed 0x0303 (objState .created .ready)) pf0 0x0303 ∧ ObjNamed (boxed 0x0303 (objState .created .ready)) 0 2 4 ∧
      srcListOk [(4096, 2 ^ 21)] (2 ^ 21) = true ∧ ((boxed 0x0303 (objState .created .ready)).setReg Reg.SBD_SIZE_FLASH_GIB 1).flashHeld ≤
        ((boxed 0x0303 (objState .created .ready)).setReg Reg.SBD_SIZE_FLASH_GIB 1).flashCap) ∧
    (let s := boxed 0x0304 (shelved { st := .poisoned })
     Taken s pf0 0x0304 ∧ ObjNamed s 0 2 4 ∧ (s.obj 2).policy ≠ .pinned ∧ reinstallBytes (s.obj 2) 0 1 = 2 ^ 21 ∧ s.installOf 2 true = none ∧
      (s.shelf ((s.obj 2).base / 2 ^ 21 + 0 + 0)).st = .poisoned) ∧
    (Taken (boxed 0x0305 (objState .ready .ready)) pf0 0x0305 ∧ (objState .ready .ready).objBusy 2 ((objState .ready .ready).obj 2) = false) ∧
    ((installing false true).boot.phase = .running ∧ (installing true false).boot.phase = .running ∧ ((installing false true).installOf 2 false).map (·.secure) = some true ∧ ((installing false true).obj 2).size = 2 ^ 21 ∧ (installing false true).burOn = true) ∧
    ((installing true false).installOf 2 true).isSome = true ∧
    (((objState .destroying .ready).obj 2).st = .destroying ∧ (objState .destroying .ready).objBusy 2 ((objState .destroying .ready).obj 2) = false) := by
  unfold Taken ObjNamed; and_intros <;> decide +kernel

theorem wit_DumbwaiterCommandsComplete :
    (let s := boxed 0x0310 (shelved {})
     Taken s pf0 0x0310 ∧ (s.namedShelves 0 [(2, 4, 0, 1)]).toOption = some [(s.obj 2, sh2)]) ∧
    Taken (boxed 0x0311 (shelved {})) pf0 0x0311 ∧
    (Taken (boxed 0x0312 (shelved { st := .present, holds := 1 })) pf0 0x0312 ∧ ((boxed 0x0312 (shelved { st := .present, holds := 1 })).shelf sh2).holds ≠ 0) ∧
    (Taken (boxed 0x0313 run0) pf0 0x0313 ∧ (run0.func 0).st ≠ .absent) ∧
    (∀ st ∈ [ShelfSt.absent, .evicting, .present, .filling], ((shelved { st := st }).shelf sh2).st = st) ∧
    ((shelved { st := .present, readers := [(.dma 0 0, 2 ^ 31)] }).shelf sh2).readers ≠ [] := by
  unfold Taken; and_intros <;> decide +kernel

theorem wit_ShelvesFillAndAreRead :
    (((shelved {}).objAt (2 ^ 31 + 5) 1).map (fun x => (x.1, x.2.st, x.2.policy)) = some (2, .ready, .cached) ∧ (2 ^ 31 + 5) / 2 ^ 21 = sh2) ∧
    (∀ st ∈ [ShelfSt.absent, .evicting, .present, .poisoned], ((shelved { st := st }).shelf sh2).st = st) ∧
    (((shelved { st := .filling, granted := true }).shelf sh2).granted = true ∧ (shelved { st := .filling, granted := true }).burOn = true ∧
      (shelved { st := .filling, granted := true }).tiers.ladder.look (sh2 * 128 + 3 / 4) = none) ∧
    ((shelved { st := .filling, granted := true, words := List.range 512 }).shelf sh2).words.length = 512 ∧
    ((shelved { st := .evicting, readers := [(.dma 0 0, 2 ^ 31)] }).dataReady (2 ^ 31) 1 = true ∧
      (shelved { st := .present, readers := [(.dma 0 0, 2 ^ 31)] }).dataReady (2 ^ 31) 1 = true ∧ (shelved {}).tiers.staged = []) ∧
    (((shelved {}).objAt (3 * 2 ^ 30) 1).map (fun x => (x.1, x.2.st, x.2.policy)) = some (3, .ready, .stream) ∧
      ((shelved {}).shelf sh3).st ≠ .poisoned ∧ (shelved {}).tiers.staged.length < (shelved {}).stageCap ∧
      (shelved {}).tiers.ladder.look (3 * 2 ^ 30 / 2 ^ 14) = none) := by
  and_intros <;> decide +kernel

/-- A page of object 3 on the ladder, with a shelf that is being filled. -/
def laddered (l : Ladder) : State :=
  let s := shelved { st := .filling, granted := true }
  { s with tiers := { s.tiers with ladder := [(sh2 * 128, l)] } }
/-- A block that waits for relocation, a failed die. -/
def relocating : State := let s := shelved {}; { s with tiers := { s.tiers with blocks := [(7, { reloc := true })], failed := [(3, false)] } }

theorem wit_FlashLadderAndMaintenance :
    ((shelved { st := .filling, granted := true }).pageRead (sh2 * 128) = true ∧
      (shelved { st := .filling, granted := true }).tiers.ladder.look (sh2 * 128) = none) ∧
    (laddered .levels).tiers.ladder.look (sh2 * 128) = some .levels ∧ (laddered .soft).tiers.ladder.look (sh2 * 128) = some .soft ∧
    (laddered .rebuild).tiers.ladder.look (sh2 * 128) = some .rebuild ∧ ((shelved {}).shelfObj (sh2 * 128 / 128)).isSome = true ∧
    ((shelved {}).boot.phase = .running ∧ relocating.boot.phase = .running ∧ (shelved {}).burOn = true ∧ (shelved {}).flag Reg.BUR_CTRL 1 = true ∧ (shelved {}).flag Reg.BUR_CTRL 2 = true ∧
      (shelved {}).field Reg.BUR_REFRESH_BITS 7 0 < 255) ∧
    (relocating.tiers.blocks.get {} 7).reloc = true ∧ relocating.tiers.failed.look (31 * 65 + 64) = none ∧ relocating.tiers.failed.look 3 = some false ∧
    ((shelved {}).tiers.blocks.get {} 7).bad = false ∧ (shelved {}).reg Reg.SBD_SIZE_FLASH_GIB ≤ 5 ∧
    5 < ((shelved {}).setReg Reg.SBD_SIZE_FLASH_GIB 6).reg Reg.SBD_SIZE_FLASH_GIB := by
  and_intros <;> decide +kernel

/-- Object 1 mirrored on stacks 0 and 3. -/
def mirrored (degraded : Bool) : State := hbm.setObj 1 { st := .ready, base := 2 ^ 30, size := 2 ^ 21, mirror := true, partner := 3, degraded := degraded }

theorem wit_HbmErrorsAndMirrors :
    ((mirrored false).flag (Reg.HBM_PC_PRESENT (5 / 32)) (5 % 32) = true ∧ ((mirrored false).objAt (2 ^ 30) 1).map (fun x => x.1) = some 1 ∧
      ((mirrored false).obj 1).onStack (2 ^ 30) (5 / 32) = true ∧ ((mirrored true).obj 1).degraded = true) ∧
    (hbm.stackPresent 0 = true ∧ hbm.flag (Reg.BIM_REG_STEP 0) 2 = false ∧ (hbm.setReg (Reg.BIM_REG_STEP 0) 4).flag (Reg.BIM_REG_STEP 0) 2 = true) ∧
    ((mirrored false).boot.phase = .running ∧ (mirrored false).partnerOf 0 (some 3) = some 6 ∧ 512 ≤ (mirrored false).stackFree 6) ∧
    ((([3, 6, 9].foldl (fun s t => s.setReg (Reg.HBM_PC_PRESENT t) 0) (mirrored false)).partnerOf 0 (some 3)) = none) ∧
    (({ mirrored true with tiers := { (mirrored true).tiers with mcopy := [(1, 6)] } } : State).tiers.mcopy.find? (·.1 == 1)) = some (1, 6) := by
  and_intros <;> decide +kernel

theorem wit_BarFourReadsAndWrites :
    (((objState .ready .ready).setReg64 Reg.PCI_BAR4_BASE (2 ^ 30)).bar4Addr 64 = 2 ^ 30 + 64 ∧ (objState .ready .ready).filtersOn (2 ^ 30) 4 true = [] ∧
      ((objState .ready .ready).poisonIn (2 ^ 30) 4).isNone = true ∧ ((objState .ready .ready).objAt (2 ^ 30) 4).isSome = true) ∧
    run0.objAt (run0.bar4Addr 0) 4 = none ∧
    (((objState .ready .ready).objAt (3 * 2 ^ 30) 4).map (fun x => x.2.policy)) = some .stream ∧
    ((shelved { st := .present }).shelf sh2).st = .present := by
  and_intros <;> decide +kernel

/-- R268: a BAR4 read of a STREAM object is Unsupported Request, a write to a PINNED object is read back. -/
theorem test_bar4 :
    (after (.bar4Read 0 4) ((objState .ready .ready).setReg64 Reg.PCI_BAR4_BASE (3 * 2 ^ 30))).host.bar4 = .unsupported ∧
    (let s := (objState .ready .ready).setReg64 Reg.PCI_BAR4_BASE (2 ^ 30)
     (after (.bar4Read 64 2) (after (.bar4Write 64 [5, 6]) s)).host.bar4 = .data [5, 6]) := by decide +kernel

/-! ### Serving cells -/

/-- Memory cells of bytes from an address. -/
def cellsAt (a : Nat) (bs : List Byte) : List Host.Cell := (((List.range bs.length).map (a + ·)).zip bs).filter fun x => x.2 != 0

/-- A receive queue 4 beside an event queue 0 and a completion queue 2. -/
def servQueues (s : State) : State :=
  { s with host := { s.host with queues :=
    [(0, { en := true, typ := 2, base := 2 ^ 48 }), (2, { en := true, typ := 1, base := 2 ^ 48 + 8192 }),
     (4, { en := true, typ := 4, base := 2 ^ 48 + 16384, prod := 1, typeCfg := 2 ^ 19 })] } }
/-- The words of an entry for MAC 3, no tag, queue 4. -/
def k0 : Nat := 3
def fhState (fh : List FhEntry) (code : Nat) : State := boxed code { servQueues run0 with fh := fh }

/-- A template of two copies of one JOIN of class 0 for context 1 and timer 5, at 2^30 in a PINNED object. -/
def tplBytes : List Byte := words ([0x00010201, 0x00010503, 0, 2, 7, 0, 1] ++ List.replicate 9 0 ++ [6] ++ List.replicate 31 0 ++ List.replicate 8 0)
def tplState (code : Nat) (tpls : Tab Template := []) : State :=
  boxed code { servQueues run0 with
    ctxs := [(1, { valid := true, slotCount := 64 })]
    tier := cellsAt (2 ^ 30) tplBytes
    tpls := tpls
    tiers := { run0.tiers with objs := [(1, { st := .ready, base := 2 ^ 30, size := 2 ^ 21 })] } }
def tpl1 : Template := readTpl tplBytes

theorem wit_ClassifierAndTemplatesAreKept :
    (Taken (fhState [] 0x0401) pf0 0x0401 ∧ fhBad k0 0 4 0 = false ∧ (decodeFh k0 0 4).queue = 4 ∧ ((fhState [] 0x0401).queue 4).en = true ∧
      ((fhState [] 0x0401).queue 4).typ = 4) ∧
    (Taken (fhState [decodeFh k0 0 4] 0x0402) pf0 0x0402 ∧ decodeFh k0 0 4 ∈ (fhState [decodeFh k0 0 4] 0x0402).fh) ∧
    (Taken (tplState 0x0210) pf0 0x0210 ∧ (tplState 0x0210).pinnedRange 0 (2 ^ 30) (64 + 160) = true ∧
      headerBad (wordsOf 16 ((tplState 0x0210).tierRead (2 ^ 30) 64)) 2 = false ∧ bits (wd (wordsOf 16 ((tplState 0x0210).tierRead (2 ^ 30) 64)) 0) 26 16 = 1 ∧
      readTpl ((tplState 0x0210).tierRead (2 ^ 30) (64 + 160)) = tpl1 ∧ tpl1.ctx = 1 ∧ tpl1.timer = 5 ∧ tpl1.depth = 2 ∧
      ((tplState 0x0210).cqOf 0 tpl1.cq).isSome = true ∧ (∀ e ∈ tpl1.entries.zipIdx, e.1.bad e.2 1 tpl1.clusters = false) ∧
      (∀ j ∈ tpl1.slots, ((tplState 0x0210).slot j).busy = false ∧ (tplState 0x0210).tplSlot j = false) ∧
      lowestFree 512 (fun j => ((tplState 0x0210).tpls.look j).isSome) = some 0 ∧ (tplState 0x0210).storeUsed + 1 ≤ 16384) ∧
    (Taken (tplState 0x0211 [(0, tpl1)]) pf0 0x0211 ∧ (tplState 0x0211 [(0, tpl1)]).tpls.look 0 = some tpl1 ∧ tpl1.retiring = false) ∧
    (∀ e ∈ (tplState 0x0211 [(0, tpl1)]).slots, e.2.busy = false) := by
  unfold Taken; and_intros <;> decide +kernel

/-- Timer 5 of µ = 1 runs with ticks of every kind at 25 ms after the GPS epoch. -/
def ntState (v : NtTimer) (s : State := run0) : State :=
  ({ s with timers := [(5, v)], time := (315964819 * 1000000000 + 25000000) * 2 ^ 32 } : State).setReg (Reg.INV_NT_CTRL 5) 0x3B
/-- A slot of template 1 is still busy. -/
def overrun : State := (tplState 0 [(0, tpl1)]).setSlot 1 { busy := true }

theorem wit_NumerologyTimersTick :
    ((ntState { mu := 1 }).ntOn 5 3 = true ∧ (ntState { mu := 1 }).ntOn 5 4 = true ∧ (ntState { mu := 1 }).ntOn 5 5 = true ∧
      ((ntState { mu := 1 }).nt 5).next = none) ∧
    (frameIdx ((ntState {}).ntTime 0) = 2 ∧ slotIdx 1 ((ntState {}).ntTime 0) = 50 ∧ 0 < symbolIdx 1 ((ntState {}).ntTime 0) ∧
      ¬ (2 : Int) ≤ ((ntState { mu := 1 }).nt 5).frame ∧ (2 : Int) ≤ ((ntState { mu := 1, frame := 2 }).nt 5).frame) ∧
    (0 < tpl1.entries.length ∧
      (overrun.slot (tpl1.slotBase + (overrun.reg (Reg.CAB_TPL_INSTANCE 0) + 1) % 2 ^ 32 % tpl1.depth * tpl1.entries.length + 0)).busy = true) ∧
    (lab.clusterOn 0 = true ∧ lab.flag (Reg.LAT_OWNER 0 (7 / 8)) 12 = true) ∧ 111 < 14 * 2 ^ 3 := by
  and_intros <;> decide +kernel

/-- R303: at 25 ms with µ = 1 the slot tick of slot 10 of SFN 2 builds an instance of a template whose mask names that slot; STEP is its counter. -/
def ticking : State :=
  (ntState { mu := 1, slot := 49 } (tplState 0 [(0, { tpl1 with mask := 2 ^ 10 })])).setReg Reg.CAB_CTRL 3
theorem test_slot_tick :
    let t := after (.slotTick 5) ticking
    t.reg (Reg.CAB_TPL_INSTANCE 0) = 1 ∧ (t.slot 1).busy = true ∧ ((t.slot 1).task.map fun k => (k.desc.step, k.desc.taskId)) = some (1, 7 * 2 ^ 32 + 2 ^ 10) ∧
      bits (t.reg (Reg.INV_NT_NOW 5)) 16 10 = 10 := by decide +kernel

/-- A Bronze job whose descriptor is at 2^30: words of zero, which ask for no code block. -/
def brzTask : TaskId := { ctx := 1, cls := 0 }
def brzOf (u : BrzUnit) (ws : List Nat := []) : State :=
  ({ run0 with
    ctxs := [(1, { valid := true, slotCount := 64, secure := true })]
    tier := cellsAt (2 ^ 30) (words ws)
    tiers := { run0.tiers with objs := [(1, { st := .ready, base := 2 ^ 30, size := 2 ^ 21 })] } } : State).setReg (Reg.BRZ_CTRL 0 0) 3 |>.setBronze 0 u
def brzJob : BrzJob := ⟨brzTask, 2 ^ 30⟩
/-- A polar encoding of 12 bits to 32. -/
def polarEnc : List Nat := [0x00020003, 0x00010000, 12, 32, 32, 0, 32, 0, 2 ^ 30 + 256, 0, 2 ^ 30 + 512, 0, 0, 0, 2 ^ 30 + 1024, 0]
def brzRun (st : BrzStage) : BrzRun := { job := brzJob, stage := st, words := polarEnc, input := [0xAB, 0xC0] }

theorem wit_BronzeJobsRun :
    ((brzOf { rq := [brzJob] }).bronzePresent 0 = true ∧ (brzOf { rq := [brzJob] }).flag (Reg.BRZ_CTRL 0 0) 2 = false ∧
      (brzOf { rq := [brzJob] }).flag (Reg.BRZ_CTRL 0 0) 0 = true ∧ (brzOf { tq := [brzJob] }).flag (Reg.BRZ_CTRL 0 0) 1 = true) ∧
    (((brzOf { rq := [brzJob], rrun := some (brzRun .computing) }).bronze 0).rrun.isSome = true) ∧
    ((brzOf {}).pinnedRange 0 (2 ^ 30) 64 = true ∧ ((brzOf {}).poisonIn (2 ^ 30) 64).isNone = true ∧ (brzOf {}).secureCtx 1 = true ∧
      (decodeBrz (wordsOf 16 ((brzOf {}).tierRead (2 ^ 30) 64))).bad (wordsOf 16 ((brzOf {}).tierRead (2 ^ 30) 64)) 0 = true) ∧
    (((brzOf { rrun := some (brzRun .fetching) }).bronze 0).run 0 = some (brzRun .fetching) ∧ ((brzOf { rrun := some (brzRun .fetching) }).bronze 0).run 1 = none ∧
      (brzOf {}).dataReady (offOf (decodeBrz polarEnc).inp) (decodeBrz polarEnc).inBytes = true ∧ (decodeBrz polarEnc).bad polarEnc 0 = false) ∧
    (((brzOf { rrun := some (brzRun .computing) }).bronze 0).run 0 = some (brzRun .computing) ∧ (decodeBrz polarEnc).dec = false) ∧
    (((brzOf { rrun := some (brzRun .writing) }).bronze 0).run 0 = some (brzRun .writing) ∧ brzTask.thread = false) := by
  and_intros <;> decide +kernel

/-- One entry of a FAPI message of PHY 9, FIRST and LAST. -/
def fapiEntry : List Byte := words [0x00030009, 0] ++ List.replicate 248 0
def cellState (st : PhySt) : State := ({ run0 with time := (315964819 * 1000000000 + 25000000) * 2 ^ 32 } : State).setCell 9 { st := st, timer := 5 }

theorem wit_FapiMessagesAreHandled :
    (fapiMessage [fapiEntry]).map (·.1) = some 9 ∧ (cellState .configured).l1Runs = true ∧ ((cellState .configured).cell 9).st ≠ .running ∧
    ((cellState .running).cell 9).st = .running ∧ (cellState .running).fapiInTime ((cellState .running).cell 9) 3 0 = true ∧
    (cellState .running).fapiInTime ((cellState .running).cell 9) 0 0 = false ∧ (cellState .running).hostOrPinned 0 (2 ^ 48) 64 = true := by
  and_intros <;> decide +kernel

/-! ### Invar, the ports and Hallstand -/

/-- Time is t ns after the epoch of the 64-bit ns form. -/
def at_ns (t : Nat) (s : State := run0) : State := { s with time := (315964819 * 1000000000 + t) * 2 ^ 32 }
/-- The servo is on; trigger 3 is armed for instant 100, once or with a period, at 1,000. -/
def servo : State := run0.setField Reg.INV_CTRL 0 0 1
def armed (period : Nat) : State :=
  (((at_ns 1000).setReg (Reg.INV_TRG_CTRL 3) 1).setReg64 (Reg.INV_TRG_T 3) 100).setReg (Reg.INV_TRG_PERIOD_NS 3) period

theorem wit_InvarKeepsAndServesTime :
    ((1 : W32).toNat.testBit 0 = true ∧ servo.servoOn = true ∧ (run0.setField Reg.INV_CTRL 0 0 0).servoOn = false) ∧
    ((40 * 65536 : Int).natAbs < run0.reg Reg.INV_SERVO_STEP_NS * 2 ^ 16 ∧ run0.reg Reg.INV_SERVO_STEP_NS * 2 ^ 16 ≤ ((2 : Int) ^ 47).natAbs) ∧
    servo.servoSt ≠ 2 ∧
    (let s : State := { run0.setField Reg.INV_CTRL 1 1 1 with inv := { onRef := true } }
     s.flag Reg.INV_CTRL 1 = true ∧ s.inv.onRef = true ∧ ({ s with inv := {} } : State).inv.onRef = false) ∧
    ((armed 0).flag (Reg.INV_TRG_CTRL 3) 0 = true ∧ reached (armed 0).now ((armed 0).reg64 (Reg.INV_TRG_T 3)) = true ∧ 3 ∉ (armed 0).inv.spent ∧
      (armed 0).reg (Reg.INV_TRG_PERIOD_NS 3) = 0 ∧ (armed 300).reg (Reg.INV_TRG_PERIOD_NS 3) ≠ 0) ∧
    reached (at_ns 99).now 100 = false := by
  and_intros <;> decide +kernel

/-- R327's example: θ = +40 ns gives P = 1,374 and adds 85 to I at the reset gains. -/
theorem test_servo :
    let t := after (.servoSample (BitVec.ofNat 32 2621440) 0) servo
    t.inv.i = 85 ∧ Int.ofNat servo.incr - Int.ofNat t.incr = 1374 + 85 := by decide +kernel

/-- R319's example: SEC 1,735,000,037 and NS 250,000,000 give 1,419,035,218,250,000,000. -/
theorem test_ns64 : ns64 ((1735000037 * 1000000000 + 250000000) * 2 ^ 32) = 1419035218250000000 := by decide +kernel

/-- R323: a trigger 900 ns past with a period of 300 fires once, skips 3 and next stands at 1,300. -/
theorem test_trigger :
    let t := after (.generalTriggerFire 3) (armed 300)
    t.reg64 (Reg.INV_TRG_T 3) = 1300 ∧ t.reg64 (Reg.INV_TRG_SKIPPED 3) = 3 ∧ t.reg64 (Reg.INV_TRG_FIRED 3) = 1 := by decide +kernel

/-- Port 0 is enabled at 400 Gb/s, its MAC 0 is up with gates, and the frame of R345's example is the head of queue 9. -/
def frameDesc : TxDesc :=
  { buf := 2 ^ 48, len := 7714, tc := 0, ltEn := false, ts := 0, cmpl := true, ptpOff := 0, csumOff := 0, launch := 0, cookie := 0, resv := false }
def gates : GateList := ⟨1000, 125000, [(1, 1000), (0, 124000)]⟩
def portState (t : Nat) (heads : Tab TxHead) (line : Option TxLine := none) (ctrl : Nat := 5) : State :=
  let s := ((at_ns t).setReg (Reg.ETH_CTRL 0) 1).setReg (Reg.ETH_CFG 0) 1
  let s : State := { s with
    net := { s.net with heads := heads, macs := [(0, { up := true, oper := some gates, line := line })] }
    host := { s.host with queues := [(4, { en := true, typ := 4, base := 2 ^ 48, prod := 1, typeCfg := 64 * 2048 }),
      (9, { en := true, typ := 3, base := 2 ^ 48 + 4096, prod := 1, pair := 2 })] } }
  (s.setReg (Reg.HST_CTRL 0) ctrl).setReg (Reg.ETH_MAC_CFG 0 0) 9600
def head9 : TxHead := { desc := frameDesc, gen := 0, bytes := [], past := some false }
def sending : State :=
  portState 1000 [] (some { queue := 9, desc := frameDesc, gen := 0, status := 0, stamp := [0, 0, 0], bytes := [], counted := 7738, close := none })

/-- R343, R345's example: the frame starts at 1,000, 1,807 and 1,845 and waits at 1,846; with the fixed guard band it waits at 1,845. -/
theorem test_gate_window :
    (portState 1000 []).txTime 0 ((portState 1000 []).countedTx 0 7714) = 155 ∧
    [1000, 1807, 1845, 1846].map (fun t => (portState t [(9, head9)]).txEligible 0 9 head9) = [true, true, true, false] ∧
    [1000, 1807, 1845].map (fun t => ((portState t [(9, head9)] none 13).txEligible 0 9 head9)) = [true, true, false] := by
  and_intros <;> decide +kernel

/-- The descriptor of that frame as bytes. -/
def descBytes (len tc : Nat) : ExtData := .data (words [0, 2 ^ 16, len + 2 ^ 14 * tc, 0, 0, 0, 0, 0])
/-- A gate list of two entries in the registers. -/
def gcl : State :=
  (((((((portState 1000 []).setReg (Reg.HST_GCL_LEN 0) 2).setReg (Reg.HST_GCL_CYCLE_NS 0) 125000).setReg (Reg.HST_GCL_GATES 0 0) 1).setReg
    (Reg.HST_GCL_INTERVAL 0 0) 1000).setReg (Reg.HST_GCL_INTERVAL 0 1) 124000).setReg64 (Reg.HST_GCL_BASE 0) 1000)
def txqBox (code : Nat) : State := (portState 1000 []).setBox pf0 { busy := true, command := code }

theorem wit_FramesAreSent :
    ((portState 1000 []).net.heads.look 9 = none ∧ (portState 1000 []).ringEntry 9 0 32 (descBytes 64 4) = some (words [0, 2 ^ 16, 64 + 2 ^ 16, 0, 0, 0, 0, 0]) ∧
      ((portState 1000 []).queue 9).txBad (decodeTx (words [0, 2 ^ 16, 64 + 2 ^ 16, 0, 0, 0, 0, 0])) = false ∧ 64 + 4 ≤ ((portState 1000 []).consume 9).mtu 0 ∧
      (((portState 1000 []).queue 9).txBad (decodeTx (words [0, 2 ^ 16, 9597 + 2 ^ 16, 0, 0, 0, 0, 0])) = false ∧ ((portState 1000 []).consume 9).mtu 0 < 9597 + 4) ∧
      ((portState 1000 []).queue 9).txBad (decodeTx (words [0, 2 ^ 16, 13 + 2 ^ 16, 0, 0, 0, 0, 0])) = true ∧
      (((portState 1000 []).consume 9).txBytes 0 (decodeTx (words [0, 2 ^ 16, 64 + 2 ^ 16, 0, 0, 0, 0, 0])) (.data (List.replicate 64 0))).toOption =
        some (List.replicate 64 0) ∧
      (portState 1000 []).portOn 0 = true ∧ ((portState 1000 []).setReg (Reg.ETH_CTRL 0) 0).portOn 0 = false) ∧
    (((portState 1000 [(9, head9)]).pickFrame 0).map (fun x => (x.1, x.2.1)) = some (0, 9) ∧ ((portState 1846 [(9, head9)]).pickFrame 0).isNone = true) ∧
    ((sending.mac 0).line.isSome = true ∧ frameDesc.tc < 16) ∧
    ((gcl.adminList 0).entries ≠ [] ∧ (gcl.adminList 0).cycle ≠ 0 ∧ ((portState 0 []).adminList 0).entries = []) ∧
    (((portState 2000 []).setMac 0 { ((portState 2000 []).mac 0) with next := some (gates, 1500) }).mac 0).next = some (gates, 1500) ∧
    reached (portState 2000 []).now 1500 = true ∧
    (Taken (txqBox 0x0410) pf0 0x0410 ∧ (txqBox 0x0410).poolQueue 0 9 = some 9 ∧ ((txqBox 0x0410).queue 9).typ = 3) ∧
    run0.portPresent 7 = true := by
  unfold Taken; and_intros <;> decide +kernel

/-- R345: the pending list takes over at the first cycle start at or after the GO, 126,000. -/
theorem test_gcl_go : ((after (.gclGo 0 1) (gcl.setReg64 (Reg.HST_GCL_CHANGE 0) 1001)).mac 0).next.map (·.2) = some 126000 := by decide +kernel

/-- A received frame of 60 bytes for queue 4, whose ring entry gives a buffer in host memory. -/
def rxFrame : List Byte := List.replicate 60 1
def rx4 : RxFrame := { mac := 0, bytes := rxFrame, stamp := [0, 0, 0], colour := 0, ptp := false }
/-- A MAC control frame. -/
def pauseFrame : List Byte := List.replicate 12 1 ++ [0x88, 0x08] ++ List.replicate 46 0

theorem wit_FramesAreReceived :
    ((portState 0 []).portOn 0 = true ∧ ((portState 0 []).mac 0).up = true ∧ rxFrame.length + 4 ≤ (portState 0 []).mtu 0 ∧
      ((portState 0 []).setReg (Reg.ETH_MAC_CFG 0 0) 63).mtu 0 < rxFrame.length + 4 ∧ etherType pauseFrame = 0x8808 ∧ etherType rxFrame ≠ 0x8808 ∧
      (portState 0 []).policerOf 0 rxFrame = none) ∧
    (((portState 0 []).queue 4).prod ≠ ((portState 0 []).queue 4).cons ∧ rxFrame.length ≤ bits ((portState 0 []).queue 4).typeCfg 19 6 ∧
      (portState 0 []).ringEntry 4 0 16 (.data (words [0, 2 ^ 16, 0, 0])) = some (words [0, 2 ^ 16, 0, 0]) ∧
      (portState 0 []).hostOrPinned 0 (word64At (words [0, 2 ^ 16, 0, 0]) 0 % 2 ^ 57) 60 = true) ∧
    (Taken (txqBox 0x0411) pf0 0x0411 ∧ (txqBox 0x0411).poolQueue 0 4 = some 4 ∧ ((txqBox 0x0411).queue 4).en = true ∧ ((txqBox 0x0411).queue 4).typ = 4 ∧
      lowestFree 4096 (fun k => ((txqBox 0x0411).net.filters.look k).isSome) = some 0) ∧
    (let s : State := { txqBox 0x0412 with net := { (txqBox 0x0412).net with filters := [(0, ⟨0, 5, none, 0, 4, 1⟩)] } }
     Taken s pf0 0x0412 ∧ s.net.filters.look 0 = some ⟨0, 5, none, 0, 4, 1⟩) ∧
    (({ portState 0 [] with host := { (portState 0 []).host with queues := [] } } : State).queue 4).prod = 0 := by
  unfold Taken; and_intros <;> decide +kernel

/-- R342 and HST_STATUS: 250 ns into a cycle of 125,000 ns entry 0 of [1000, 124000] is in force, and 1,000 ns into it entry 1. -/
theorem test_oper_entry :
    [1250, 2000, 126500].map (fun t => ((portState t []).setMac 0 { oper := some { base := 1000, cycle := 125000, entries := [(1, 1000), (0, 124000)] } }).operEntry 0) =
      [0, 1, 0] := by decide +kernel

/-! ### Solder -/

/-- Solder is on at node 7 with incarnation 5; peer 9 is valid, and object 1 is exported whole to domain 2. -/
def export1 : SldExport := { base := 0, shelves := 1, obj := 1, ogen := 4, domain := 2, rd := true, wr := true, at_ := true, objShelf := 0 }
def peer9 : SldPeer := ⟨0, false, true, false, 0, 0, 0, 0⟩
def sldState (f : Solder → Solder := id) (s : State := run0) : State :=
  let s := ((s.setReg Reg.SLD_CTRL 1).setReg Reg.SLD_NODE_ID 7).setReg Reg.SLD_INCARNATION 5
  { s with
    sld := f { s.sld with peers := [(9, peer9)], exports := [(0, export1)], srcs := [(9, { inc := 3, expected := 10 })] }
    tiers := { s.tiers with objs := [(1, { st := .ready, ogen := 4, base := 2 ^ 30, size := 2 ^ 21 })] } }
/-- An ADD of 5 at offset 64 by source 6 of node 9, tag 1, and the packet that carries it with a sequence number and incarnations. -/
def addOp : SldOp := { who := .gone, ctx := none, node := 7, opc := 2, len := 8, off := 64, domain := 2, source := 6, data := toLE 8 5, pc := 0, tag := 1 }
def request (flags seq inc peer : Nat) : List Byte := sldHeader 0 flags 1 0 9 7 seq inc peer ++ sldOpBytes addOp
def addAcc (seq : Nat) : SldAcc := { src := 9, seq := seq, idx := 0, opc := 2, len := 8, off := 64, domain := 2, source := 6, tag := 1, data := toLE 8 5, echo := false, inc := 3, loc := false }
/-- A response, a NAK and a CONTROL packet from node 9. -/
def response (flags : Nat) : List Byte := sldHeader 1 flags 1 0 9 7 0 3 5 ++ sldAnsBytes 2 0 1 0 0 (toLE 8 100)
def nak (reason : Nat) : List Byte := sldHeader 2 0 0 reason 9 7 0 3 5
/-- An ADD towards node 9 that waits for its response. -/
def sentAdd : SldPkt := ⟨0, { addOp with who := .tin 0 3, node := 9 }, 0⟩
def waiting9 (s : State := sldState) : State := s.setDest 9 { pkts := [sentAdd], seq := 1, peerInc := 3 }
def sldBoxed (code : Nat) (f : Solder → Solder := id) : State := boxed code (sldState f)

theorem wit_SolderRequesterWorks :
    (sldState.sldOn = true ∧ 24 ≤ (response 0).length ∧ (decodeSldHdr (response 0)).version = 1 ∧ (decodeSldHdr (response 0)).kind = 1 ∧
      (decodeSldHdr (response 0)).dst = sldState.ownNode ∧ sldState.sld.selfFenced = false ∧ (decodeSldHdr (response 0)).src ∉ sldState.sld.expelled) ∧
    ((waiting9.sldTake (response 4) 1 true).2 = some (decodeSldHdr (response 4)) ∧ (decodeSldHdr (response 4)).peer = waiting9.ownInc ∧
      (waiting9.dest 9).peerInc = (decodeSldHdr (response 4)).inc ∧ (waiting9.dest 9).lost = false ∧ (decodeSldHdr (response 4)).echo = true) ∧
    (waiting9.dest 9).echoAt = none ∧
    ((waiting9.dest 9).pkts.find? (fun p => p.seq == 0 && p.op.tag == 1 && p.op.opc == 2) = some sentAdd ∧ sentAdd.op.who ≠ .gone) ∧
    ((waiting9.sldTake (nak 1) 2 true).2 = some (decodeSldHdr (nak 1)) ∧ (decodeSldHdr (nak 1)).reason = 1 ∧ (decodeSldHdr (nak 2)).reason = 2 ∧
      (decodeSldHdr (nak 2)).peer = waiting9.ownInc ∧ (waiting9.dest 9).pkts ≠ [] ∧ (sldState.dest 9).pkts = []) ∧
    (waiting9.sldClear 9 = true ∧ 9 ≠ waiting9.ownNode) ∧ sldState.sld.peers.look 9 = some peer9 ∧ run0.sldOn = false ∧
    Taken (sldBoxed 0x0501) pf0 0x0501 ∧ (Taken (sldBoxed 0x0502) pf0 0x0502 ∧ (0x80 : Nat).testBit 6 = false) ∧
    (Taken (boxed 0x0503 waiting9) pf0 0x0503 ∧ ∀ p ∈ ((boxed 0x0503 waiting9).dest 9).pkts, p.op.ctx = none) ∧
    (∃ p ∈ [{ sentAdd with op := { sentAdd.op with ctx := some 1 } }], p.op.ctx.isSome = true) ∧ Taken (sldBoxed 0x0504) pf0 0x0504 := by
  unfold Taken; and_intros <;> decide +kernel

/-- Two of the managers' public keys, and their signatures of an expulsion of node 9 with counter 1, valid until 2^40 ns. -/
def quorumCmd : List Byte := [1, 1, 2, 0] ++ toLE 2 9 ++ [0, 0] ++ toLE 8 1 ++ toLE 8 (2 ^ 40) ++ List.replicate 56 0
def pub1 : List Byte := toBE 57 0xe0758a33267939a394fb5ccb202ee851cebc2e89c91ac1289e2bfcddfd9ff9fc5694b0f569d7f7e9da16e1cde9301b29f48128b3cbd1168580
def pub2 : List Byte := toBE 57 0xb52fd5b2cb34d6f944ab81d765fa026b63fd8448b4890d025cba17308a312ae4f31a012dc08c891e9a7c3d29dbad1aaf964e6c74073249f300
def sig1 : List Byte :=
  toBE 114 0xdaeeeef36812e02ad344d645fd16a6a02f6fb3d8b44e2b52edff488a0b0c476227a981a1268948dda3722b2656edca10f1dc92360cb7a93c00156e8bd9fc4acbe6414b8b0911301c5de5cdacfc8bc1091e186b8cf3d1d05403ce893fdc18ba5df229657bee98a802eb9a2f5fa5752fa62b00
def sig2 : List Byte :=
  toBE 114 0x964950959fdda1575341cc4b2bc84df38996ee1a3550a42260d611c75bd3d998dd24bd4971989349a0dc4915ea346440def8ac551a89aee004f717a8f6b1fe2618c100a1187f8d76318c0c1674f3b144e519b92ca3e52d2a2bc3b4738194f121b7a1e639b9be06d75dd0f73649a12133e00
def signedCmd : List Byte := quorumCmd ++ ([0, 0, 0, 0, 0, 0] ++ sig1) ++ ([1, 0, 0, 0, 0, 0] ++ sig2)
/-- Keys and threshold installed, and a command that waits; time 0 of the ns form has not passed 2^40. -/
def quorumState (keys : List (List Byte)) (bs : List Byte) : State :=
  { sldState (fun l => { l with keys := keys, threshold := 2, quorum := [(.packet 9 false 0 0, bs)] }) with time := 315964819 * 1000000000 * 2 ^ 32 }

set_option maxRecDepth 4000 in
/-- R380: the signatures hold, and the command is accepted. -/
theorem test_quorum_accepts : (quorumState [pub1, pub2] signedCmd).quorumResult signedCmd = 0 := by decide +kernel

theorem wit_SolderHomeAndQuorumWork :
    ((sldState.sldTake (request 0 10 3 5) 0 true).2 = some (decodeSldHdr (request 0 10 3 5)) ∧ (decodeSldHdr (request 0 10 3 5)).ops = 1 ∧
      (decodeSldOps 1 ((request 0 10 3 5).drop 24)).isSome = true ∧ sldState.sld.srcs.look 9 = some { inc := 3, expected := 10 } ∧
      (decodeSldHdr (request 0 10 3 5)).inc = 3 ∧ (decodeSldHdr (request 0 10 3 5)).peer = 5 ∧ (decodeSldHdr (request 0 10 3 5)).seq = 10 ∧
      seqNewer 24 11 10 = true ∧ seqNewer 24 9 10 = false ∧ (decodeSldHdr (request 1 0 4 0)).isOpen = true ∧ (decodeSldHdr (request 1 0 4 0)).inc = 4 ∧
      (decodeSldHdr (request 0 10 3 6)).isOpen = false ∧ (decodeSldHdr (request 0 10 3 6)).peer ≠ 5) ∧
    sldState.sld.acc.length + 1 ≤ 65536 ∧
    (let s := sldState fun l => { l with acc := [addAcc 10] }
     s.sld.acc[0]? = some (addAcc 10) ∧ sldBehind (addAcc 10) (s.sld.acc.take 0) = false ∧ s.sldStalled (addAcc 10) = none ∧
      (s.sldLocate 2 8 64 2).toOption = some (2 ^ 30 + 64) ∧ (s.sldLocate 2 8 64 3).toOption = none ∧ s.sldForbidden (addAcc 10) (2 ^ 30 + 64) = [] ∧
      (s.poisonIn (2 ^ 30 + 64) 8).isNone = true) ∧
    (∀ e ∈ sldState.sld.exports, e.2.holds (2 ^ 21) 8 = false) ∧ 2 ^ 21 % (if 2 = 11 then 4 else 8) = 0 ∧
    (Taken (sldBoxed 0x0505 fun l => { l with exports := [] }) pf0 0x0505 ∧ ((sldBoxed 0x0505).obj 1).st = .ready ∧
      (sldBoxed 0x0505 fun l => { l with exports := [] }).sldOverlap 0 1 = false ∧ ((sldBoxed 0x0505).obj 1).policy = .pinned ∧
      lowestFree 1024 (fun k => ((sldBoxed 0x0505 fun l => { l with exports := [] }).sld.exports.look k).isSome) = some 0) ∧
    (Taken (sldBoxed 0x0506) pf0 0x0506 ∧ (sldBoxed 0x0506).sld.exports.look 0 = some export1 ∧
      ∀ a ∈ (sldBoxed 0x0506).sld.acc, (sldBoxed 0x0506).sldStalled a = none) ∧
    (Taken (sldBoxed 0x0507) pf0 0x0507 ∧ (sldBoxed 0x0507).sld.keys = [] ∧ pub1.length = 57 ∧ pub2.length = 57) ∧
    ((sldBoxed 0x0508).served pf0 = true ∧ ∀ e ∈ (sldBoxed 0x0508).sld.quorum, e.1 ≠ .mailbox 0 0) ∧
    (sldState.sldTake (sldHeader 3 0 0 0 9 7 0 3 5) 3 true).2.isSome = true ∧
    ((quorumState [pub1, pub2] signedCmd).sld.quorum = (.packet 9 false 0 0, signedCmd) :: [] ∧ (quorumState [] signedCmd).quorumResult signedCmd = 7 ∧
      (quorumState [pub1] signedCmd).sld.lastCmd ≠ signedCmd) := by
  unfold Taken; and_intros <;> decide +kernel

/-- R374's example: an ADD of 5 finds 100; its retransmission is answered 100 again, and the counter stays at 105. -/
def counter100 : State := { sldState with tier := [(2 ^ 30 + 64, 100)] }
theorem test_lost_response :
    let a := after (.solderOpPerform 0) (after (.solderRequestReceive (request 0 10 3 5) false true) counter100)
    let b := after (.solderRequestReceive (request 2 10 3 5) false true) a
    fromLE (b.tierRead (2 ^ 30 + 64) 8) = 105 ∧
    b.sld.tx.map (fun f => sldAnsBytes 2 0 1 10 0 (toLE 8 100) == f.payload.drop 24) = [true, true] := by decide +kernel

/-! ### Queues, mailboxes and functions -/

/-- Pool queue 7 of the physical function: a ring of 256 entries (R394) of a type in host memory, with the values given. -/
def ring7 (typ prod cons : Nat) (f : Queue → Queue := id) (s : State := run0) : State :=
  s.setQueue 7 (f { en := true, typ := typ, logSize := 8, base := 2 ^ 48 + 65536, wb := 2 ^ 48 + 8, prod := prod, cons := cons })
/-- A record for queue 7, as it waits. -/
def rec7 (use : RecFor) (gen : Nat := 0) : PostRec := ⟨7, 0, gen, use, List.replicate 32 9⟩
def posted7 (use : RecFor) (s : State := ring7 1 0 0) : State := { s with host := { s.host with outbox := [rec7 use] } }
/-- A STORE-free Solder entry: ADD (OP 2) to node 9, offset 64, cookie 77. -/
def sldEntryBytes : List Byte := words ([2, 9, 64, 0, 0, 0, 0, 0, 0, 0, 77, 0] ++ List.replicate 4 0)
/-- A mailbox-queue entry: buffer at host address 0x10000, cookie 78. -/
def mbxEntryBytes : List Byte := words [0x10000, 2 ^ 16, 78, 0, 0, 0, 0, 0]

theorem wit_QueuesRingAndPost :
    ((ring7 1 0 0).poolQueue 0 7 = some 7 ∧ ((ring7 1 0 0).queue 7).en = true ∧ ((ring7 1 0 0).queue 7).fn = 0) ∧
    (((ring7 0 0 0).doorbell 0 7).2 = some 7 ∧ ((ring7 0 0 0).queue 7).hostProduced = true ∧ seqStale 32 256 0 = false ∧
      (256 + 2 ^ 32 - 0) % 2 ^ 32 ≤ 2 ^ ((ring7 0 0 0).queue 7).logSize ∧ seqStale 32 (2 ^ 32 - 1) 0 = true ∧ 2 ^ 8 < (257 + 2 ^ 32 - 0) % 2 ^ 32) ∧
    (((ring7 1 5 3).doorbell 0 7).2 = some 7 ∧ ((ring7 1 5 3).queue 7).hostProduced = false ∧ seqStale 32 5 3 = false ∧ (5 + 2 ^ 32 - 5) % 2 ^ 32 ≤ 2 ^ 8 ∧
      seqNewer 32 5 4 = true ∧ seqNewer 32 5 5 = false) ∧
    (((ring7 1 5 3 fun v => { v with armed := true, since := 1, coalUs := 10 }).queue 7).en = true ∧
      ((ring7 1 5 3 fun v => { v with armed := true, since := 1, coalUs := 10 }).queue 7).armed = true ∧
      ((ring7 1 5 3 fun v => { v with armed := true, since := 1, coalUs := 10 }).queue 7).since ≠ 0 ∧
      ((ring7 1 5 3 fun v => { v with armed := true, since := 1, coalUs := 10 }).queue 7).coalUs ≠ 0) ∧
    ((posted7 .event).host.outbox.find? (fun r => r.queue == 7) = some (rec7 .event) ∧ (RecFor.event).isTask = false) ∧
    ((posted7 (.task 0)).host.outbox.find? (fun r => r.queue == 7) = some (rec7 (.task 0)) ∧ (RecFor.task 0).isTask = true) ∧
    ((rec7 .event).gen = ((posted7 .event).func 0).gen ∧ (posted7 .event).boot.phase = .running ∧ ((posted7 .event).queue 7).failed = false ∧
      ((posted7 .event).queue 7).held ≠ 2 ^ 8 ∧ ((ring7 2 256 0).queue 7).held = 2 ^ ((ring7 2 256 0).queue 7).logSize) ∧
    (rec7 .event 1).gen ≠ ((posted7 .event).func 0).gen ∧
    (((ring7 0 1 0).queue 7).prod ≠ ((ring7 0 1 0).queue 7).cons ∧ ((ring7 0 1 1).queue 7).prod = ((ring7 0 1 1).queue 7).cons ∧
      (ring7 0 1 0).ringEntry 7 0 (entryBytes 0) (.data (List.replicate 128 0)) = some (List.replicate 128 0) ∧
      (ring7 0 1 0).ringEntry 7 0 (entryBytes 0) .error = none) ∧
    (((ring7 5 1 0).queue 7).blocked = false ∧ (ring7 5 1 0).sldStores 7 < 16 ∧ (ring7 5 1 0).ringEntry 7 0 64 (.data sldEntryBytes) = some sldEntryBytes ∧
      ((ring7 5 1 0 id (run0.setFunc 0 { domain := 2 })).func 0).domain ≠ 0 ∧ 2 ≤ bits (word32At sldEntryBytes 0) 3 0) ∧
    ((ring7 6 1 0).host.mbxq = none ∧ (ring7 6 1 0).ringEntry 7 0 32 (.data mbxEntryBytes) = some mbxEntryBytes ∧
      spaceOf (word64At mbxEntryBytes 0 % 2 ^ 57) = 1 ∧ offOf (word64At mbxEntryBytes 0 % 2 ^ 57) + 4096 ≤ 2 ^ 48) := by
  and_intros <;> decide +kernel

/-- R394's example: P = 0x10 and C = 0xFFFFFFF0 in a ring of 256 entries, 32 of them held; a write of 0x10 to C is taken, and after it one of
0xFFFFFFF8 is stale and discarded. -/
theorem test_ring_wraps :
    let s := ring7 1 0x10 0xFFFFFFF0
    (s.queue 7).held = 32 ∧ ((after (.doorbellCount 0 7 0x10) s).queue 7).cons = 0x10 ∧
    ((after (.doorbellCount 0 7 0xFFFFFFF8) (after (.doorbellCount 0 7 0x10) s)).queue 7).cons = 0x10 ∧
    (after (.doorbellCount 0 7 0xFFFFFFF8) (after (.doorbellCount 0 7 0x10) s)).reg (Reg.QUE_BAD_DOORBELL 7) = 1 := by decide +kernel

/-- Arguments of a completion queue at index 7. -/
def cqArgs : QueArgs :=
  { typ := 1, kind := 0, logSize := 8, base := 2 ^ 48 + 65536, wb := 2 ^ 48 + 8, pair := 0, vector := 0, coalCount := 1, coalUs := 0, typeCfg := 0, persist := false }
/-- Mailbox 0 of the physical function with a status, and the header of MBX_NOP at version 2 with a sequence number. -/
def mbx0 (busy : Bool) (last : Nat) (s : State := run0) : State := s.setBox (.mbox 0 0) { busy := busy, last := last }
def nopHeader (version seq : Nat) : MbxHeader := ⟨BitVec.ofNat 32 (version + 0x10000), BitVec.ofNat 32 seq, 0⟩

theorem wit_QueuesAndMailboxesAreServed :
    (Taken (boxed 0x0101) pf0 0x0101 ∧ (boxed 0x0101).poolQueue ((boxed 0x0101).issuerFn pf0) 7 = some 7 ∧
      (boxed 0x0101).queBad 0 ((boxed 0x0101).box pf0).version cqArgs = false ∧ (boxed 0x0101).pfMay 7 = true ∧ ((boxed 0x0101).queue 7).en = false) ∧
    (Taken (boxed 0x0102 (ring7 1 0 0)) pf0 0x0102 ∧ ((boxed 0x0102 (ring7 1 0 0)).queue 7).en = true ∧ (boxed 0x0102 (ring7 1 0 0)).paired 7 = false ∧
      (∀ c ∈ (boxed 0x0102 (ring7 1 0 0)).liveCtxs, c.2.evq ≠ 7) ∧ (boxed 0x0102 (ring7 1 0 0)).cqTask 7 = false) ∧
    (Taken (boxed 0x0103 (ring7 1 0 0)) pf0 0x0103 ∧ (boxed 0x0103 (ring7 1 0 0)).poolQueue 0 7 = some 7) ∧
    (run0.mboxExists (.mbox 0 0) = true ∧ ((mbx0 true 4).box (.mbox 0 0)).busy = true ∧ ((mbx0 false 4).box (.mbox 0 0)).busy = false ∧
      4 = ((mbx0 false 4).box (.mbox 0 0)).last ∧ 5 = (((mbx0 false 4).box (.mbox 0 0)).last + 1) % 2 ^ 16 ∧
      bits (nopHeader 2 5).h1.toNat 15 0 = 5 ∧ 6 ≠ (((mbx0 false 4).box (.mbox 0 0)).last + 1) % 2 ^ 16 ∧ 0 = (0xFFFF + 1) % 2 ^ 16) ∧
    State.reset.served (.mbox 0 0) = false ∧ run0.served (.mbox 0 0) = true ∧
    (run0.takenStatus (.mbox 0 0) (nopHeader 2 5) = 0 ∧ run0.takenStatus (.mbox 0 0) (nopHeader 3 5) ≠ 0) ∧
    bits (nopHeader 3 5).h0.toNat 7 0 ≠ 2 ∧ Taken (boxed 1) pf0 1 ∧ Taken (boxed 2) pf0 2 ∧
    (((mbx0 true 4).box (.mbox 0 0)).mute = false ∧ ((mbx0 true 4).box (.mbox 0 0)).version ≠ 1) := by
  unfold Taken; and_intros <;> decide +kernel

/-- R415: a command whose sequence number is one above the last is taken and answered OK with that number. -/
theorem test_mailbox_round :
    let s := after (.mbxNop pf0) (after (.mbxDoorbell 0 0 5 (nopHeader 2 5)) (mbx0 false 4))
    (s.box pf0).busy = false ∧ (s.box pf0).status = 0 ∧ (s.box pf0).last = 5 := by decide +kernel

/-- The grant of virtual function 5, before its ranges are found. -/
def grant5 : Func :=
  { st := .active, enabled := true, gen := 0, qcount := 16, vectors := 4, contexts := 2, shareGran := 8, latchGran := 4, hbm := 0, cacheAllow := some 0, objects := 2
    bronzeJobs := 1, macMask := 3, txRate := 1000, rxFilters := 1, txCredit := 8388608000, txAt := 0 }
def phased (p : FwPhase) (s : State := run0) : State := { s with boot := { s.boot with phase := p } }

theorem wit_FunctionsComeAndGo :
    (Taken (boxed 0x0110) pf0 0x0110 ∧ vfRanges 5 grant5 0 = true ∧ ((boxed 0x0110).func 5).st = .absent ∧ (boxed 0x0110).freeQueues 16 = some 2048 ∧
      (boxed 0x0110).freeVectors 4 = some 2048 ∧ (boxed 0x0110).vfFits grant5 = true) ∧
    run0.freeQueues 16 = some 2048 ∧ (Taken (boxed 0x0112) pf0 0x0112 ∧ 0 < 1023 ∧ 1023 < 1024) ∧
    (Taken (boxed 0x0111 (run0.setFunc 5 grant5)) pf0 0x0111 ∧ ((boxed 0x0111 (run0.setFunc 5 grant5)).func 5).st = .active ∧
      (boxed 0x0111 (run0.setFunc 5 grant5)).installing 5 = false) ∧
    run0.boot.phase ≠ .held ∧ (phased .held).boot.phase = .held ∧
    (((run0.setFunc 5 grant5).func 5).st = .active ∧ ((run0.setFunc 5 grant5).host.funcs.map (·.1)).Nodup) ∧
    (phased .restarting).boot.phase = .restarting ∧ (phased .rom).boot.phase = .rom ∧ (phased .awaiting).boot.phase = .awaiting ∧
    (run0.boot.phase = .running ∧ 6 ≤ (run0.item 0x50001).getD 6 ∧ 16 ≤ (run0.item 0x50002).getD 16) := by
  unfold Taken; and_intros <;> decide +kernel

/-! ### Reset and firmware -/

def withBoot (f : Boot → Boot) (s : State := run0) : State := { s with boot := f s.boot }

theorem wit_PackageResetsAndReleases :
    (State.reset.savedObjs = [] ∧ keptReg Reg.SLD_UDP_PORT = false) ∧ run0.boot.phase ≠ .held ∧ State.reset.boot.phase = .held ∧
    (run0.flag Reg.RST_SCOPE 0 = false ∧ (run0.setReg Reg.RST_SCOPE 1).flag Reg.RST_SCOPE 0 = true) ∧
    (bits (0xD1E50001 : W32).toNat 31 16 = 0xD1E5 ∧ (0xD1E50001 : W32).toNat.testBit 0 = true ∧ (0xD1E50000 : W32).toNat.testBit 0 = false) ∧
    (run0.boot.trip = false ∧ 727499 < run0.railLow 4 ∧ run0.railLow 15 ≤ 1710000) ∧
    (withBoot (fun b => { b with trip := true }) State.reset).boot.trip = true := by decide +kernel

/-- R428: VDD_CORE at the edge: 2 % under its setting. -/
theorem test_undervoltage :
    after (.railUndervoltage 4 727500 2001) run0 = run0 ∧ (after (.railUndervoltage 4 727499 2001) run0).boot.phase = .held ∧
    after (.railUndervoltage 4 727499 2000) run0 = run0 := by decide +kernel

/-- R434's example: code 168 reads 10 and names choice 5, in the middle of its band. -/
theorem test_strap : strapOf 168 = 0x00025AA8 := by decide +kernel

/-- A bundle of four bytes held for later, and the image of one that runs. -/
def someBundle : Bundle := { bytes := [1, 0, 0, 0], overlays := [], items := [(0x40001, 1500)] }
def staged (n : Nat) : Stage := { total := n, names := [] }

theorem wit_FirmwareLoadsAndRestarts :
    (Taken (boxed 0x0601) pf0 0x0601 ∧ 4 ≤ (boxed 0x0601).goodStacks.length ∧ (boxed 0x0601).choice = 0) ∧
    (Taken (boxed 0x0602 (withBoot fun b => { b with stage := some (staged 64) })) pf0 0x0602 ∧
      (boxed 0x0602 (withBoot fun b => { b with stage := some (staged 64) })).boot.stage = some (staged 64) ∧ ((boxed 0x0602).box pf0).version ≠ 1) ∧
    (∀ p ∈ [FwPhase.rom, .awaiting, .running], Taken (boxed 0x0603 (withBoot fun b => { b with phase := p, stage := some (staged 64) })) pf0 0x0603 ∧
      (boxed 0x0603 (withBoot fun b => { b with phase := p, stage := some (staged 64) })).boot.stage = some (staged 64)) ∧
    (Taken (boxed 0x0610) pf0 0x0610 ∧ (boxed 0x0610).boot.bundle = none ∧
      (withBoot fun b => { b with bundle := some someBundle }).boot.bundle = some someBundle) ∧
    (Taken (boxed 0x0611) pf0 0x0611 ∧ (boxed 0x0611).blockOk (.port 3) = true ∧ (boxed 0x0611).blockHeld (.port 3) = false ∧
      (boxed 0x0611).holdBusy (.port 3) = false ∧ ((boxed 0x0611).holdBlock (.port 3)).blockHeld (.port 3) = true) ∧
    (let s := boxed 0x0611 warm0
     s.blockOk (.cluster 0) = true ∧ s.blockHeld (.cluster 0) = false ∧ s.holdBusy (.cluster 0) = true) ∧
    (Taken (boxed 0x0805) pf0 0x0805 ∧ (boxed 0x0805).boot.imageLost = false ∧ (boxed 0x0805).boot.held = none) ∧
    (let s := boxed 0x0805 (withBoot fun b => { b with held := some someBundle, bundle := some someBundle })
     Taken s pf0 0x0805 ∧ s.boot.held = some someBundle ∧ s.sameConfig someBundle = true) ∧
    ((run0.recent run0.boot.expiries ++ [run0.clk]).length < 3 ∧ run0.boot.imageLost = false ∧
      3 ≤ ((withBoot fun b => { b with expiries := [0, 0] }).recent [0, 0] ++ [0]).length) ∧
    ((withBoot fun b => { b with phase := .restarting, restart := some { cause := 1 } }).boot.restart = some { cause := 1 }) := by
  unfold Taken; and_intros <;> decide +kernel

/-- An overlay section that writes the package limit under mask 0x7FF (R443). -/
def limitOverlay (w : Nat) : List Byte := words [0x10001, 0, 0, 0, 0, 0, 0, 0, 0x40001, 0x7FF, w, 0]

/-- R443's example: the base holds 1,500; the overlay of 1,200 and then that of 1,000 leave 1,000, the other order 1,200. -/
theorem test_overlays :
    overlayOk (limitOverlay 1200) = true ∧
    resultItems [(0x40001, 1500)] [limitOverlay 1200, limitOverlay 1000] = [(0x40001, 1000)] ∧
    resultItems [(0x40001, 1500)] [limitOverlay 1000, limitOverlay 1200] = [(0x40001, 1200)] := by decide +kernel

/-! ### Identity and attestation -/

/-- The identity is derived or not, firmware runs, and SPDM has come to a step with a certificate chain. -/
def sec (status step : Nat) (cert : List Byte := []) (s : State := run0) : State :=
  let s := s.setReg Reg.SEC_STATUS status
  { s with boot := { s.boot with cert := cert, spdm := { s.boot.spdm with step := step } } }
/-- A log with entries. -/
def logged (n : Nat) : State := { run0 with boot := { run0.boot with log := List.replicate n ⟨2, 0, 0, List.replicate 64 0⟩ } }

theorem wit_FiltersIdentityAndReport :
    (Taken (boxed 0x0702) pf0 0x0702 ∧ 0x1000 % 4096 = 0 ∧ (2 ^ 48 - 1) % 4096 = 0xFFF ∧ 0x1000 ≤ 2 ^ 48 - 1 ∧ 2 ^ 48 - 1 < 2 ^ 48) ∧
    (sec 2 0).flag Reg.SEC_STATUS 1 = true ∧ ((logged 255).boot.log.length < 256 ∧ 256 ≤ (logged 256).boot.log.length) ∧
    (Taken (boxed 0x0701 (sec 1 0)) pf0 0x0701 ∧ 40 ≤ 40 ∧ (boxed 0x0701 (sec 1 0)).flag Reg.SEC_STATUS 0 = true ∧
      (boxed 0x0701 (sec 0 0)).flag Reg.SEC_STATUS 0 = false) ∧
    ((∀ e ∈ (logged 10).boot.log, e.digest.length = 64) ∧ (logged 10).boot.chain.length = 64) := by
  unfold Taken; and_intros <;> decide +kernel

/-- R458: the first entry of a device extends the zero chain by its 72 bytes. -/
theorem test_chain :
    (run0.measure 9 0 7 (List.replicate 64 0)).boot.chain = shake256 (List.replicate 64 0 ++ ([9, 0, 0, 0, 7, 0, 0, 0] ++ List.replicate 64 0)) 64 ∧
    (run0.measure 9 0 7 (List.replicate 64 0)).reg Reg.SEC_LOG_COUNT = 1 := by decide +kernel

theorem wit_SpdmRequestsAreAnswered :
    (State.reset.boot.phase ≠ .running ∧ (sec 2 0).flag Reg.SEC_STATUS 1 = true) ∧
    ((sec 1 0).flag Reg.SEC_STATUS 1 = false ∧ (sec 0 0).flag Reg.SEC_STATUS 0 = false ∧ (sec 1 0).flag Reg.SEC_STATUS 0 = true ∧
      spdmCode [0x12, 0xE1] ≠ 0x84 ∧ nth 0 [0x12, 0xE1] 0 = (0x12 : Byte)) ∧
    (∀ c ∈ ([0x84, 0x83, 0xE0, 0xEE] : List Byte), ((sec 2 0).spdmRefusal [0x10, c, 0, 0]).isSome = true) ∧
    (∀ r ∈ ([[0x10, 0x84, 0, 0], [0x12, 0xE1, 0, 0] ++ List.replicate 16 0, [0x12, 0xE3, 0, 0] ++ List.replicate 28 0, [0x12, 0x81, 0, 0],
        [0x12, 0x82, 0, 0, 1, 0, 2, 0], [0x12, 0x83, 0, 0] ++ List.replicate 32 0, [0x12, 0xE0, 2, 10], [0x12, 0xE0, 0, 1], [0x12, 0xEE, 0, 0, 9],
        [0x12, 0x99, 0, 0]] : List (List Byte)),
      (sec 1 3 [1, 2, 3]).spdmRefusal r = none ∧ (nth 0 r 2).toNat % 16 ≤ 2) ∧
    (fromLE (([0x12, 0x82, 0, 0, 1, 0, 2, 0] : List Byte).drop 4 |>.take 2) < (sec 1 3 [1, 2, 3]).boot.cert.length ∧ (sec 1 3).boot.cert = [] ∧
      (sec 0x21 3 [1]).field Reg.SEC_STATUS 5 4 = 2 ∧ (sec 1 2).boot.spdm.step < 3 ∧
      spdmCode [0x12, 0x99, 0, 0] ∉ [0x84, 0xE1, 0xE3, 0x81, 0x82, 0x83, 0xE0, 0xEE]) := by
  and_intros <;> decide +kernel

/-! ### Service -/

/-- A unit at a service state. -/
def unitAt (kind n st : Nat) (s : State := run0) : State := s.setUnit kind n st none
/-- A published device of full size. -/
def fullSize : State :=
  let s := State.reset.release 168 [] []
  { s with boot := { s.boot with phase := .running } }.publishSize

/-- A task dispatched to cluster 0, automatic fences that wait, and stacks whose granules move. -/
def onCluster0 : Task := { desc := descOf 1 (.trestle 0 0), fn := 0, sq := 0, pos := 0, committed := true, st := .dispatched }
def withFences (l : List (Nat × Nat × Nat)) : State := { run0 with boot := { run0.boot with fences := l } }
def withMoving (l : List Nat) : State := { run0 with boot := { run0.boot with moving := l } }

theorem wit_UnitsAreServiced :
    (Taken (boxed 0x0801) pf0 0x0801 ∧ (boxed 0x0801).unitThere 0 12 0 = true ∧ (boxed 0x0801).inService 0 12 = true ∧ (boxed 0x0801).fenceBusy 0 12 = false ∧
      (boxed 0x0801 (unitAt 0 12 1)).inService 0 12 = false ∧ (boxed 0x0801 (unitAt 0 12 1)).columnIs 0 12 0 = true) ∧
    (let s := boxed 0x0801 warm0
     s.unitThere 0 0 0 = true ∧ s.inService 0 0 = true ∧ s.fenceBusy 0 0 = true) ∧
    (Taken (boxed 0x0802 (unitAt 1 47 1)) pf0 0x0802 ∧ (boxed 0x0802 (unitAt 1 47 1)).unitThere 1 47 0 = true ∧ (boxed 0x0802 (unitAt 1 47 1)).unitState 1 47 = 1) ∧
    (let s := boxed 0x0803 ((unitAt 5 7 1).setField (Reg.SBD_SVC_PORT 7) 3 2 1)
     Taken s pf0 0x0803 ∧ s.unitThere 5 7 0 = true ∧ s.unitState 5 7 = 1 ∧ unitReg 5 7 = some (Reg.SBD_SVC_PORT 7) ∧ s.field (Reg.SBD_SVC_PORT 7) 3 2 = 1) ∧
    (let s := boxed 0x0803 (unitAt 0 23 1)
     Taken s pf0 0x0803 ∧ s.unitThere 0 23 0 = true ∧ s.unitState 0 23 = 1 ∧ unitReg 0 23 = some (Reg.SBD_SVC_CLUSTER 23) ∧ s.field (Reg.SBD_SVC_CLUSTER 23) 3 2 ≠ 1) ∧
    (Taken (boxed 0x0804 (unitAt 2 11 1)) pf0 0x0804 ∧ (boxed 0x0804 (unitAt 2 11 1)).unitThere 2 11 0 = true ∧ (boxed 0x0804 (unitAt 2 11 1)).unitState 2 11 = 1) ∧
    (∀ k ∈ [(0, 23), (1, 47), (2, 11), (3, 383), (4, 31), (5, 7)], (unitReg k.1 k.2).isSome = true ∧ (unitAt k.1 k.2 2).unitState k.1 k.2 = 2) ∧
    (withFences [(0, 12, 2)]).boot.fences = [(0, 12, 2)] ∧ (run0.unitState 0 12 = 0 ∧ State.reset.boot.phase ≠ .running) ∧
    (((tasked onCluster0).slot 0).task = some onCluster0 ∧ onCluster0.st = .dispatched ∧ onCluster0.desc.op.cluster = some 0 ∧
      (spadKey 0 0) / 64 + 5 % 2 ^ 19 ∉ (tasked onCluster0).spadBad ∧ (run0.slot 0).task = none) ∧
    (3 ∉ run0.boot.badDies ∧ run0.portPresent 7 = true) ∧ 4 ∈ (withMoving [4]).boot.moving := by
  unfold Taken; and_intros <;> decide +kernel

/-- The size table of a full device, and R19's example: cluster 12 retired leaves region 6 present, because of cluster 13. -/
theorem test_size_table :
    let s := after (.svcRetire pf0 0 12 0) (boxed 0x0804 (nextOf run0 (exec (.svcFence pf0 0 12 0) (boxed 0x0801 fullSize))))
    fullSize.reg Reg.SBD_SIZE_CLUSTERS = 0x00FFFFFF ∧ fullSize.reg Reg.SBD_SIZE_REGIONS = 0x001F0FFF ∧ fullSize.reg Reg.SBD_SIZE_SEQ = 2 ∧
    s.reg Reg.SBD_SIZE_CLUSTERS = 0x00FFEFFF ∧ s.reg Reg.SBD_SIZE_REGIONS = 0x001F0FFF := by decide +kernel

/-! ### Rules stated whole -/

/-- The Sterling context 1 of a thread whose instruction waits to issue. -/
def tinStl (w : Nat) : State :=
  { lab with
    ctxs := [(1, { valid := true, slotCount := 64, floor := 2, stl := { st := .running } })]
    tin := [(0, { threads := [(3, { task := some { ctx := 1, cls := 2 }, st := .ready })], cur := some 3, word := w })] }

theorem wit_SterlingThreadsFaultOnNd :
    let th : TinThread := { task := some { ctx := 1, cls := 2 }, st := .ready }
    (tinStl 0).sterling th.ctx = true ∧ TinReady (tinStl 0x0473028B) 0 3 th (.ltry 5 6 7) ∧ TinReady (tinStl 0x0603028B) 0 3 th (.lrd 5 6) ∧
    TinReady (tinStl 0x0600428B) 0 3 th (.trng 5) ∧ TinReady (tinStl 0x007312AB) 0 3 th (.faadd true 5 6 7) ∧
    TinReady (tinStl 0x027312AB) 0 3 th (.faadd false 5 6 7) ∧ TinReady (tinStl 0xC01022F3) 0 3 th (.csr 2 5 0 0xC01) := by
  unfold TinReady; intro th; and_intros <;> decide +kernel

/-- A task that ended OK and whose one mark covers nine bytes of memory. -/
def marked : State :=
  let t : Task := { desc := { descOf 3 .join with digest := true }, fn := 0, sq := 0, pos := 0, committed := true, st := .digesting, fin := some (0, 0) }
  { tasked t with marks := [(0, { ranges := [(2 ^ 30, 9)] })], tier := [(2 ^ 30, 0x31), (2 ^ 30 + 1, 0x32), (2 ^ 30 + 2, 0x33)] }

theorem wit_DigestIsCrc64Xz :
    ((marked.slot 0).task.map (·.st) = some .digesting ∧ (marked.slot 0).task.map (·.dig) = some none ∧ (marked.slot 0).task.map (·.fin) = some (some (0, 0)) ∧
      (marked.marks.get {} 0).overflow = false ∧ marked.markPoison (marked.marks.get {} 0).ranges = none) := by decide +kernel

/-- R236: bit by bit, the same check value. -/
theorem test_crc_bits :
    ((crcRefBits ((List.range 9).map fun i => BitVec.ofNat 8 (0x31 + i))).foldl crcRefBit 0xFFFFFFFFFFFFFFFF).reverse ^^^ 0xFFFFFFFFFFFFFFFF = 0x995DC9BBDF1939FA := by
  decide +kernel

/-! ### The whole machine -/

theorem wit_StepRunsTheFrontCommand : State.reset.pending = [] ∧ State.reset.memWf = true := by decide +kernel

/-- Two commands wait, and a step takes the first. -/
theorem test_step_takes_the_front :
    (nextOf run0 (step { run0 with pending := [.railUndervoltage 4 727499 2001, .thermalTrip] })).pending = [.thermalTrip] := by decide +kernel

/-- No row of the table gives bits, so that a word spells no command and nothing is put in front. -/
theorem test_decode : decodeTableWord 32 5 = none ∧ State.reset.withFetchWord 32 5 = State.reset := by decide +kernel

/-! ### Well-formedness: an ill-formed command for each check -/

theorem test_ill_formed_1 :
    ∀ i ∈ ([
      .lowWordRead (.func 1024) 0, .lowWordRead .firmware (2 ^ 26), .highWordRead (.func 1024) 0, .highWordRead .firmware (2 ^ 26),
      .lowWordWrite (.func 1024) 0 0, .lowWordWrite .firmware (2 ^ 26) 0, .highWordWrite (.func 1024) 0 0, .highWordWrite .firmware (2 ^ 26) 0,
      .registerWrite (.func 1024) 0 0, .registerWrite .firmware (2 ^ 26) 0, .invNowRead (.func 1024), .pllRetuneDone 12, .regionStepSwitch 12,
      .stepChangeAbandon 12, .vrmInRange 4, .gatingEntry 24, .gatingRetentionPoint 24, .regionPllStop 12 false, .wakeRequest 24, .wakeDone 24,
      .feederCycle 24 [], .feederCycle 0 [8], .tileBoundary 24, .rowLands 24 [], .rowLands 0 [(256, 0)], .loadBegin 24, .drainRowConvert 24,
      .checkEvaluate 24, .checkRerunOutcome 24, .trsNop 24, .trsConfig 24, .trsLoad 24, .trsStream 24, .trsDrain 24, .trsWait 24, .trsSignal 24,
      .trsEnd 24, .trsHalt 24 false, .pewterIssuePush 96, .kernelStart 96, .pewterQueueChange 96, .insnLineFetch 96 0, .insnLineFetch 0 (2 ^ 32),
      .tileLimit 96, .pwtNop 96, .pwtTile 96, .pwtEnd 96, .pwtWait 96, .pwtSignal 96, .loop 96, .jmp 96, .rdtime 96, .rdcyc 96, .sli 96, .slih 96,
      .saddi 96, .sadd 96, .ssub 96, .sget 96, .vbcast 96, .setvl 96, .agset 96, .asetp 96, .pwtLd 96] : List Instr), i.wf = false := by decide +kernel

theorem test_ill_formed_2 :
    ∀ i ∈ ([
      .pwtSt 96, .bfpu 96, .bfpk 96, .llr 96, .cmac 96, .accr 96, .acc32 96, .accsum 96, .cmulh 96, .cadd 96, .csub 96, .vshf 96, .cmag2 96,
      .vperm 96, .norm 96, .expb 96, .bfly2 96, .bfly4 96, .pwtHalt 96 false, .tinEntryStart 192 0, .tinEntryStart 0 16, .tinIssue 192,
      .tinBaseInstruction 192, .tinCsrAccess 192, .tinAmo 192, .tinLr 192, .tinSc 192, .fence 192, .fenceI 192, .ecall 192, .ebreak 192,
      .extResponseArrive 192 0 0 0 none, .extResponseArrive 0 16 0 0 none, .extResponseArrive 0 0 4096 0 none,
      .extResponseArrive 0 0 0 (2 ^ 32) none, .storeAck 192 0 0 0 0, .storeAck 0 16 0 0 0, .storeAck 0 0 4096 0 0, .storeAck 0 0 0 (2 ^ 32) 0,
      .storeAck 0 0 0 0 16388, .outboundBufferAccept 192 0, .outboundBufferAccept 0 16, .queueRoom 192 0, .queueRoom 0 16, .lsig 192, .lwait 192,
      .ltry 192, .lrd 192, .trpush 192, .dmaq 192, .pwissue 192, .tyield 192, .texit 192, .tinTaskReport 192 0, .tinTaskReport 0 16, .dgadd 192,
      .rngw 192, .rngd 192, .trng 192, .scas 192, .faaddD 192, .faaddS 192, .xld 192, .xst 192] : List Instr), i.wf = false := by decide +kernel

theorem test_ill_formed_3 :
    ∀ i ∈ ([
      .dinv 192, .tinHalt 192 false, .latchEvaluation 24 0, .latchEvaluation 0 256, .cabCtxCreate (.mbox 1024 0) 0 0 0 0 0,
      .cabCtxCreate pf0 (2 ^ 32) 0 0 0 0, .cabCtxCreate pf0 0 (2 ^ 32) 0 0 0, .cabCtxCreate pf0 0 0 (2 ^ 32) 0 0, .cabCtxCreate pf0 0 0 0 (2 ^ 32) 0,
      .cabCtxCreate pf0 0 0 0 0 (2 ^ 32), .cabCtxSetWeight (.mbox 1024 0) 0 0, .cabCtxSetWeight pf0 (2 ^ 32) 0, .cabCtxSetWeight pf0 0 (2 ^ 32),
      .cabCtxTeardown (.mbox 1024 0) 0, .cabCtxTeardown pf0 (2 ^ 32), .teardownEnginesStopped 4096, .cabBarAlloc (.mbox 1024 0) 0,
      .cabBarAlloc pf0 (2 ^ 32), .cabBarFree (.mbox 1024 0) 0, .cabBarFree pf0 (2 ^ 32), .commit (2 ^ 18) 0, .commit 0 (2 ^ 32), .arrive 4096,
      .completionRecordPost (2 ^ 18) 0, .completionRecordPost 0 3, .extAlarm 4096, .dmaRow 24 none none, .dmaRowAck 24 0 0, .dmaRowAck 0 2 0,
      .dmaRowAck 0 0 16, .cabResGrant (.mbox 1024 0) 0 0 0 0 0 false, .cabResGrant pf0 (2 ^ 32) 0 0 0 0 false,
      .cabResGrant pf0 0 (2 ^ 32) 0 0 0 false, .cabResGrant pf0 0 0 (2 ^ 32) 0 0 false, .cabResGrant pf0 0 0 0 (2 ^ 32) 0 false,
      .cabResGrant pf0 0 0 0 0 (2 ^ 64) false, .cabResRelease (.mbox 1024 0) 0 0 0, .cabResRelease pf0 (2 ^ 32) 0 0, .cabResRelease pf0 0 (2 ^ 32) 0,
      .cabResRelease pf0 0 0 (2 ^ 64), .shareCopyDone 24 0, .shareCopyDone 0 8, .shareScrubDone 24 0, .shareScrubDone 0 8, .allBlocked 24,
      .energyRefill [(2 ^ 8, 0)], .telemetrySample 2048, .cabCtxSetSeed (.mbox 1024 0) 0 0, .cabCtxSetSeed pf0 (2 ^ 32) 0,
      .cabCtxSetSeed pf0 0 (2 ^ 64), .cabCtxSterling (.mbox 1024 0) 0 0 0 0, .cabCtxSterling pf0 (2 ^ 32) 0 0 0, .cabCtxSterling pf0 0 (2 ^ 64) 0 0,
      .cabCtxSterling pf0 0 0 (2 ^ 64) 0, .cabCtxSterling pf0 0 0 0 (2 ^ 32), .cabStlArm (.mbox 1024 0) 0 0 0, .cabStlArm pf0 (2 ^ 32) 0 0,
      .cabStlArm pf0 0 (2 ^ 32) 0, .cabStlArm pf0 0 0 (2 ^ 64), .startBarrierFire 4096, .syncInPulse (2 ^ 32) 0, .syncInPulse 0 (2 ^ 32),
      .digestReadback (2 ^ 20), .digestAppend (2 ^ 20)] : List Instr), i.wf = false := by decide +kernel

theorem test_ill_formed_4 :
    ∀ i ∈ ([
      .ringConsRecheck 4096, .burObjCreate (.mbox 1024 0) 0 0 0 0 false 0 false false 0, .burObjCreate pf0 (2 ^ 32) 0 0 0 false 0 false false 0,
      .burObjCreate pf0 0 (2 ^ 64) 0 0 false 0 false false 0, .burObjCreate pf0 0 0 (2 ^ 64) 0 false 0 false false 0,
      .burObjCreate pf0 0 0 0 (2 ^ 32) false 0 false false 0, .burObjCreate pf0 0 0 0 0 false (2 ^ 32) false false 0,
      .burObjCreate pf0 0 0 0 0 false 0 false false (2 ^ 32), .burObjQuery (.mbox 1024 0) 0 0, .burObjQuery pf0 (2 ^ 32) 0,
      .burObjQuery pf0 0 (2 ^ 32), .burObjInstall (.mbox 1024 0) 0 0 [], .burObjInstall pf0 (2 ^ 32) 0 [], .burObjInstall pf0 0 (2 ^ 32) [],
      .burObjInstall pf0 0 0 [(2 ^ 64, 0)], .installComplete (2 ^ 20) .error, .burObjReinstall (.mbox 1024 0) 0 0 0 0 [],
      .burObjReinstall pf0 (2 ^ 32) 0 0 0 [], .burObjReinstall pf0 0 (2 ^ 32) 0 0 [], .burObjReinstall pf0 0 0 (2 ^ 32) 0 [],
      .burObjReinstall pf0 0 0 0 (2 ^ 32) [], .burObjReinstall pf0 0 0 0 0 [(2 ^ 64, 0)], .reinstallStored (2 ^ 20) .error,
      .burObjDestroy (.mbox 1024 0) 0 0, .burObjDestroy pf0 (2 ^ 32) 0, .burObjDestroy pf0 0 (2 ^ 32), .destroyDone (2 ^ 20),
      .dmwPromote (.mbox 1024 0) [] false, .dmwPromote pf0 [(0, 2 ^ 32, 0, 0)] false, .dmwEvict (.mbox 1024 0) [], .dmwEvict pf0 [(0, 2 ^ 32, 0, 0)],
      .dmwUnhold (.mbox 1024 0) [], .dmwUnhold pf0 [(0, 2 ^ 32, 0, 0)], .dmwAllowance (.mbox 1024 0) 0 0, .dmwAllowance pf0 (2 ^ 32) 0,
      .dmwAllowance pf0 0 (2 ^ 32), .demandRead (.bronze 48) 0, .demandRead (.bronze 0) (2 ^ 48), .streamRead (.bronze 48) 0 0 0,
      .streamRead (.bronze 0) (2 ^ 48) 0 0, .streamRead (.bronze 0) 0 (2 ^ 25) 0, .streamRead (.bronze 0) 0 0 (2 ^ 32),
      .codewordWritten (2 ^ 27) 0 0 0, .codewordWritten 0 512 0 0, .codewordWritten 0 0 (2 ^ 25) 0, .codewordWritten 0 0 0 (2 ^ 32),
      .fillComplete (2 ^ 27), .referenceDrop (.bronze 48) 0, .referenceDrop (.bronze 0) (2 ^ 48), .hardDecodeFail (2 ^ 34) 0,
      .hardDecodeFail 0 (2 ^ 25), .ladderDone (2 ^ 34) false, .softDecodeDone (2 ^ 34) false, .stripeRebuildDone (2 ^ 34) 0 false,
      .stripeRebuildDone 0 (2 ^ 25) false, .flashPatrolRead (2 ^ 25) 0 false, .flashPatrolRead 0 (2 ^ 32) false, .blockRelocateDone (2 ^ 25),
      .nandDieFailure 32 0, .nandDieFailure 0 65, .nandRebuildDone 32 0, .nandRebuildDone 0 65, .hbmUe (2 ^ 48 + 2) 0 false, .hbmUe 0 32 false] : List Instr), i.wf = false := by decide +kernel

theorem test_ill_formed_5 :
    ∀ i ∈ ([
      .hbmPatrolRead 12 0, .hbmPatrolRead 0 (2 ^ 32), .mirrorPartnerLost (2 ^ 20), .mirrorCopyDone (2 ^ 20), .bar4Read (2 ^ 44) 0, .bar4Read 0 4097,
      .bar4Write (2 ^ 44) [], .fhClassAdd (.mbox 1024 0) 0 0 0 0, .fhClassAdd pf0 (2 ^ 32) 0 0 0, .fhClassAdd pf0 0 (2 ^ 32) 0 0,
      .fhClassAdd pf0 0 0 (2 ^ 32) 0, .fhClassAdd pf0 0 0 0 (2 ^ 32), .fhClassDel (.mbox 1024 0) 0 0 0 0, .fhClassDel pf0 (2 ^ 32) 0 0 0,
      .fhClassDel pf0 0 (2 ^ 32) 0 0, .fhClassDel pf0 0 0 (2 ^ 32) 0, .fhClassDel pf0 0 0 0 (2 ^ 32), .sfnTick 64, .slotTick 64, .symbolTick 64,
      .cabTplRegister (.mbox 1024 0) 0, .cabTplRegister pf0 (2 ^ 64), .cabTplUnregister (.mbox 1024 0) 0, .cabTplUnregister pf0 (2 ^ 32),
      .bronzeJobStart 48, .bronzeInputFetched 48 0, .bronzeInputFetched 0 2, .bronzeComputeDone 48 0, .bronzeComputeDone 0 2, .bronzeJobDone 48 0,
      .bronzeJobDone 0 2, .configRequest [] 64 0, .configRequest [] 0 (2 ^ 16), .dlTtiRequest [] (2 ^ 16) 0, .dlTtiRequest [] 0 (2 ^ 16),
      .ulTtiRequest [] (2 ^ 16) 0, .ulTtiRequest [] 0 (2 ^ 16), .ulDciRequest [] (2 ^ 16) 0, .ulDciRequest [] 0 (2 ^ 16),
      .txDataRequest [] (2 ^ 16) 0 [], .txDataRequest [] 0 (2 ^ 16) [], .txDataRequest [] 0 0 [(2 ^ 64, 0)], .generalTriggerFire 16,
      .txDescriptorFetch (2 ^ 18) .error .error, .frameSelect 64, .frameSent 64, .gclGo 64 0, .gclChange 64, .hstTxqSet (.mbox 1024 0) 0 false,
      .hstTxqSet pf0 (2 ^ 32) false, .linkChange 64 false, .frameReceive 64 [] false [], .portDisable 8,
      .hstRxfAdd (.mbox 1024 0) 0 0 none 0 0 false, .hstRxfAdd pf0 (2 ^ 32) 0 none 0 0 false, .hstRxfAdd pf0 0 (2 ^ 48) none 0 0 false,
      .hstRxfAdd pf0 0 0 (some (4096)) 0 0 false, .hstRxfAdd pf0 0 0 none (2 ^ 32) 0 false, .hstRxfAdd pf0 0 0 none 0 (2 ^ 32) false,
      .hstRxfDel (.mbox 1024 0) 0, .hstRxfDel pf0 (2 ^ 32), .solderOpPerform 65536, .retransmitTimeout 16384, .windowIncrease 16384] : List Instr), i.wf = false := by decide +kernel

theorem test_ill_formed_6 :
    ∀ i ∈ ([
      .solderControlReceive [] false (2 ^ 128) 0 false, .solderControlReceive [] false 0 (2 ^ 16) false, .sldLocalSet (.mbox 1024 0) 0 0,
      .sldLocalSet pf0 (2 ^ 32) 0, .sldLocalSet pf0 0 (2 ^ 128), .sldPeerSet (.mbox 1024 0) 0 [], .sldPeerSet pf0 (2 ^ 32) [],
      .sldPeerReopen (.mbox 1024 0) 0, .sldPeerReopen pf0 (2 ^ 32), .sldFuncDomain (.mbox 1024 0) 0 0, .sldFuncDomain pf0 (2 ^ 32) 0,
      .sldFuncDomain pf0 0 (2 ^ 32), .sldExportAdd (.mbox 1024 0) [], .sldExportDel (.mbox 1024 0) 0, .sldExportDel pf0 (2 ^ 32),
      .sldQuorumKeys (.mbox 1024 0) 0 [], .sldQuorumKeys pf0 (2 ^ 32) [], .sldFence (.mbox 1024 0) [], .doorbellCount 1024 0 0,
      .doorbellCount 0 (2 ^ 18) 0, .doorbellCount 0 0 (2 ^ 32), .doorbellArm 1024 0 0, .doorbellArm 0 (2 ^ 18) 0, .doorbellArm 0 0 (2 ^ 32),
      .coalTimer (2 ^ 18), .recordPost (2 ^ 18) 0, .recordPost 0 3, .queueEntryFetch (2 ^ 18) .error false,
      .queCreate (.mbox 1024 0) 0 0 0 0 0 0 0 0 0 0 0 false, .queCreate pf0 (2 ^ 32) 0 0 0 0 0 0 0 0 0 0 false,
      .queCreate pf0 0 8 0 0 0 0 0 0 0 0 0 false, .queCreate pf0 0 0 8 0 0 0 0 0 0 0 0 false, .queCreate pf0 0 0 0 32 0 0 0 0 0 0 0 false,
      .queCreate pf0 0 0 0 0 (2 ^ 64) 0 0 0 0 0 0 false, .queCreate pf0 0 0 0 0 0 (2 ^ 64) 0 0 0 0 0 false,
      .queCreate pf0 0 0 0 0 0 0 (2 ^ 32) 0 0 0 0 false, .queCreate pf0 0 0 0 0 0 0 0 (2 ^ 32) 0 0 0 false,
      .queCreate pf0 0 0 0 0 0 0 0 0 (2 ^ 16) 0 0 false, .queCreate pf0 0 0 0 0 0 0 0 0 0 (2 ^ 16) 0 false,
      .queCreate pf0 0 0 0 0 0 0 0 0 0 0 (2 ^ 32) false, .queDestroy (.mbox 1024 0) 0, .queDestroy pf0 (2 ^ 32), .queQuery (.mbox 1024 0) 0,
      .queQuery pf0 (2 ^ 32), .solderQueueEntry (2 ^ 18) .error .error, .mailboxQueueEntry (2 ^ 18) .error ⟨0, 0, 0⟩,
      .vfCreate (.mbox 1024 0) 0 0 0 0 0 0 0 0 0 0 0 0 0, .vfCreate pf0 (2 ^ 32) 0 0 0 0 0 0 0 0 0 0 0 0,
      .vfCreate pf0 0 (2 ^ 32) 0 0 0 0 0 0 0 0 0 0 0, .vfCreate pf0 0 0 (2 ^ 32) 0 0 0 0 0 0 0 0 0 0, .vfCreate pf0 0 0 0 (2 ^ 32) 0 0 0 0 0 0 0 0 0,
      .vfCreate pf0 0 0 0 0 (2 ^ 32) 0 0 0 0 0 0 0 0, .vfCreate pf0 0 0 0 0 0 (2 ^ 32) 0 0 0 0 0 0 0, .vfCreate pf0 0 0 0 0 0 0 (2 ^ 32) 0 0 0 0 0 0,
      .vfCreate pf0 0 0 0 0 0 0 0 (2 ^ 32) 0 0 0 0 0, .vfCreate pf0 0 0 0 0 0 0 0 0 (2 ^ 32) 0 0 0 0, .vfCreate pf0 0 0 0 0 0 0 0 0 0 (2 ^ 32) 0 0 0,
      .vfCreate pf0 0 0 0 0 0 0 0 0 0 0 (2 ^ 64) 0 0, .vfCreate pf0 0 0 0 0 0 0 0 0 0 0 0 (2 ^ 32) 0, .vfCreate pf0 0 0 0 0 0 0 0 0 0 0 0 0 (2 ^ 32),
      .vfDestroy (.mbox 1024 0) 0, .vfDestroy pf0 (2 ^ 32), .vfQuery (.mbox 1024 0) 0, .vfQuery pf0 (2 ^ 32)] : List Instr), i.wf = false := by decide +kernel

theorem test_ill_formed_7 :
    ∀ i ∈ ([
      .vfFlr (some (1024)), .mbxDoorbell 1024 0 0 ⟨0, 0, 0⟩, .mbxDoorbell 0 4 0 ⟨0, 0, 0⟩, .mbxDoorbell 0 0 (2 ^ 32) ⟨0, 0, 0⟩,
      .mbxNop (.mbox 1024 0), .mbxVersion (.mbox 1024 0), .resetNAssert (2 ^ 32), .perstNAssert (2 ^ 32), .resetRelease 1024 [] [],
      .resetRelease 0 [12] [], .resetRelease 0 [] [4], .fwLoadBegin (.mbox 1024 0) 0 [], .fwLoadBegin pf0 (2 ^ 32) [], .fwLoadBegin pf0 0 [2 ^ 32],
      .fwLoadChunk (.mbox 1024 0) 0 0 0 .error, .fwLoadChunk pf0 (2 ^ 32) 0 0 .error, .fwLoadChunk pf0 0 (2 ^ 32) 0 .error,
      .fwLoadChunk pf0 0 0 (2 ^ 32) .error, .fwLoadEnd (.mbox 1024 0) 0 [], .fwLoadEnd pf0 (2 ^ 32) [], .cfgQuery (.mbox 1024 0) [],
      .cfgQuery pf0 [2 ^ 32], .rstBlock (.mbox 1024 0) .solder false, .rstBlock pf0 (.stack 12) false, .secRegionSet (.mbox 1024 0) 0 0 0 0 0,
      .secRegionSet pf0 (2 ^ 32) 0 0 0 0, .secRegionSet pf0 0 (2 ^ 32) 0 0 0, .secRegionSet pf0 0 0 (2 ^ 32) 0 0, .secRegionSet pf0 0 0 0 (2 ^ 64) 0,
      .secRegionSet pf0 0 0 0 0 (2 ^ 64), .attReport (.mbox 1024 0) [] 0 0, .attReport pf0 [] (2 ^ 32) 0, .attReport pf0 [] 0 (2 ^ 32),
      .svcFence (.mbox 1024 0) 0 0 0, .svcFence pf0 (2 ^ 32) 0 0, .svcFence pf0 0 (2 ^ 32) 0, .svcFence pf0 0 0 (2 ^ 32),
      .svcTest (.mbox 1024 0) 0 0 0, .svcTest pf0 (2 ^ 32) 0 0, .svcTest pf0 0 (2 ^ 32) 0, .svcTest pf0 0 0 (2 ^ 32),
      .svcReturn (.mbox 1024 0) 0 0 0, .svcReturn pf0 (2 ^ 32) 0 0, .svcReturn pf0 0 (2 ^ 32) 0, .svcReturn pf0 0 0 (2 ^ 32),
      .svcRetire (.mbox 1024 0) 0 0 0, .svcRetire pf0 (2 ^ 32) 0 0, .svcRetire pf0 0 (2 ^ 32) 0, .svcRetire pf0 0 0 (2 ^ 32),
      .unitTestDone 16 0 false, .unitTestDone 0 (2 ^ 32) false, .sramUe 24 none 0, .sramUe 0 (some (2 ^ 19)) 0, .sramUe 0 none (2 ^ 20),
      .d2dLinkFailure 4, .portFailure 8, .stackMoveDone 12, .fwRestart (.mbox 1024 0) 0, .fwRestart pf0 (2 ^ 32), .tripHoldEnd false 1024 [] [],
      .tripHoldEnd false 0 [12] [], .tripHoldEnd false 0 [] [4], .railUndervoltage 16 0 0, .railUndervoltage 0 (2 ^ 32) 0] : List Instr), i.wf = false := by decide +kernel

theorem test_ill_formed_8 :
    ∀ i ∈ ([
      .railUndervoltage 0 0 (2 ^ 32), .hbmRefresh 12, .programOrEraseFailure (2 ^ 25) 0, .programOrEraseFailure 0 (2 ^ 32),
      .pcieLinkTrained 8 0 false, .pcieLinkTrained 0 32 false, .doeDiscovery 256, .pewterIllegalOp 96, .trestleIllegalOp 24,
      .tinIllegalInstruction 192] : List Instr), i.wf = false := by decide +kernel

theorem test_ill_formed_lengths :
    Instr.wf (.bar4Write 0 (List.replicate 4097 0)) = false ∧
    Instr.wf (.paramRequest (List.replicate 257 [])) = false ∧
    Instr.wf (.configRequest (List.replicate 257 []) 0 0) = false ∧
    Instr.wf (.startRequest (List.replicate 257 [])) = false ∧
    Instr.wf (.stopRequest (List.replicate 257 [])) = false ∧
    Instr.wf (.dlTtiRequest (List.replicate 257 []) 0 0) = false ∧
    Instr.wf (.ulTtiRequest (List.replicate 257 []) 0 0) = false ∧
    Instr.wf (.ulDciRequest (List.replicate 257 []) 0 0) = false ∧
    Instr.wf (.txDataRequest (List.replicate 257 []) 0 0 []) = false ∧
    Instr.wf (.frameReceive 0 (List.replicate 65537 0) false []) = false ∧
    Instr.wf (.solderRequestReceive (List.replicate 65537 0) false false) = false ∧
    Instr.wf (.solderResponseReceive (List.replicate 65537 0) false) = false ∧
    Instr.wf (.solderNakReceive (List.replicate 65537 0) false) = false ∧
    Instr.wf (.solderControlReceive (List.replicate 65537 0) false 0 0 false) = false ∧
    Instr.wf (.sldPeerSet pf0 0 (List.replicate 17 0)) = false ∧
    Instr.wf (.sldExportAdd pf0 (List.replicate 17 0)) = false ∧
    Instr.wf (.sldQuorumKeys pf0 0 (List.replicate 257 [])) = false ∧
    Instr.wf (.sldFence pf0 (List.replicate 65537 0)) = false ∧
    Instr.wf (.fwLoadEnd pf0 0 (List.replicate 65537 0)) = false ∧
    Instr.wf (.attReport pf0 (List.replicate 65537 0) 0 0) = false ∧
    Instr.wf (.getVersion (List.replicate 65537 0)) = false ∧
    Instr.wf (.getCapabilities (List.replicate 65537 0)) = false ∧
    Instr.wf (.negotiateAlgorithms (List.replicate 65537 0)) = false ∧
    Instr.wf (.getDigests (List.replicate 65537 0)) = false ∧
    Instr.wf (.getCertificate (List.replicate 65537 0)) = false ∧
    Instr.wf (.challenge (List.replicate 65537 0)) = false ∧
    Instr.wf (.getMeasurements (List.replicate 65537 0)) = false ∧
    Instr.wf (.setCertificate (List.replicate 65537 0)) = false ∧
    Instr.wf (.spdmUnsupportedRequest (List.replicate 65537 0)) = false ∧
    Instr.wf (.fapiOtherMessage (List.replicate 257 [])) = false := by
  and_intros <;> simp only [Instr.wf, List.length_replicate, Bool.and_eq_false_iff, decide_eq_false_iff_not] <;> decide

end
end

section
/-! SUPPORT. Proofs about reads and writes of registers (R4 to R9, R354): one rule per access of a register, from what an address names to the state
that is left, and the obligations that these rules settle. -/

namespace Sys2Proof.Machine

section
variable {s : State} {r : Requester} {a b : Nat} {v : W32} {row : RegRow}

/-! ### Accesses that reach a register -/

theorem State.regTarget_of_regNamed (h : s.regNamed r a = some b) : s.regTarget r a = .reg b := by
  unfold State.regNamed at h
  split at h
  next c target => rw [target, Option.some.inj h]
  next => cases h

/-- A read that reaches `b` returns to the requester what a read of `b` gives. -/
theorem State.readFor_of_reaches (h : Reaches s r a b) :
    s.readFor r a = { (s.readReg r b).1 with lastRead := BitVec.ofNat 32 (s.readReg r b).2 } := by
  simp only [State.readFor, State.regRead, State.regTarget_of_regNamed h.1]

/-- A write that reaches `b` is a write of `b` by the requester's function (no violation of R449). -/
theorem State.regWrite_of_reaches (h : Reaches s r a b) : s.regWrite r a v = s.putReg (s.regFn r) b v := by
  obtain ⟨named, world⟩ := h
  simp [State.regWrite, State.regTarget_of_regNamed named, world]

/-! ### The commands on the register that they reach -/

theorem exec_lowWordRead_of_reaches (h : Reaches s r a b) (low : pairLow b = true) :
    exec (.lowWordRead r a) s = .next { (s.readReg r b).1 with lastRead := BitVec.ofNat 32 (s.readReg r b).2 } := by
  rw [← State.readFor_of_reaches h]
  simp [exec, execLowWordRead, h.1, low]

theorem exec_highWordRead_of_reaches (h : Reaches s r a b) (high : pairHigh b = true) :
    exec (.highWordRead r a) s = .next { (s.readReg r b).1 with lastRead := BitVec.ofNat 32 (s.readReg r b).2 } := by
  rw [← State.readFor_of_reaches h]
  simp [exec, execHighWordRead, h.1, high]

theorem exec_invNowRead_of_reaches (h : Reaches s r Reg.INV_NOW_W0 Reg.INV_NOW_W0) :
    exec (.invNowRead r) s =
      .next { (s.readReg r Reg.INV_NOW_W0).1 with lastRead := BitVec.ofNat 32 (s.readReg r Reg.INV_NOW_W0).2 } := by
  rw [← State.readFor_of_reaches h]
  simp [exec, execInvNowRead, h.1]

theorem exec_lowWordWrite_of_reaches (h : Reaches s r a b) (low : pairRw b = true) :
    exec (.lowWordWrite r a v) s = .next (s.putReg (s.regFn r) b v) := by
  rw [← State.regWrite_of_reaches h]
  simp [exec, execLowWordWrite, h.1, low]

theorem exec_highWordWrite_of_reaches (h : Reaches s r a b) (above : 4 ≤ b) (high : pairRw (b - 4) = true) :
    exec (.highWordWrite r a v) s = .next (s.putReg (s.regFn r) b v) := by
  rw [← State.regWrite_of_reaches h]
  simp [exec, execHighWordWrite, h.1, above, high]

theorem exec_registerWrite_of_reaches (h : Reaches s r a b) (low : pairRw b = false) (high : ¬ (4 ≤ b ∧ pairRw (b - 4) = true)) :
    exec (.registerWrite r a v) s = .next (s.putReg (s.regFn r) b v) := by
  have noPair : (pairRw b || decide (4 ≤ b) && pairRw (b - 4)) = false := by simpa [low] using high
  rw [← State.regWrite_of_reaches h]
  simp [exec, execRegisterWrite, h.1, noPair]

/-! ### A read of a register (R8, R354) -/

/-- R8: a low word captures its high word for the requesting function. -/
theorem State.readReg_low (world : (secureReg b && !s.regSecure r) = false) (low : pairLow b = true) (high : pairHigh b = false)
    (h0 : b ≠ Reg.INV_NOW_W0) (h1 : b ≠ Reg.INV_NOW_W1) (h2 : b ≠ Reg.INV_NOW_W2) :
    s.readReg r b =
      ({ s with shadows := s.shadows.put (fnKey (s.regFn r) (b + 4)) (BitVec.ofNat 32 (s.regWord (b + 4))) }, s.regWord b) := by
  simp [State.readReg, world, low, high, h0, h1, h2]

/-- R8: a high word is what the function captured, and reading it consumes nothing. -/
theorem State.readReg_high (world : (secureReg b && !s.regSecure r) = false) (high : pairHigh b = true) (h0 : b ≠ Reg.INV_NOW_W0) :
    s.readReg r b = (s, (s.shadows.get 0 (fnKey (s.regFn r) b)).toNat) := by
  simp [State.readReg, world, high, h0]

/-- The shadows after a read of INV_NOW_W0 by a function (R354). -/
def State.invNowShadows (s : State) (fn : Nat) : Tab W32 :=
  (s.shadows.put (fnKey fn Reg.INV_NOW_W1) (BitVec.ofNat 32 (s.regWord Reg.INV_NOW_W1))).put (fnKey fn Reg.INV_NOW_W2)
    (BitVec.ofNat 32 (s.regWord Reg.INV_NOW_W2))

theorem State.readReg_invNow (world : (secureReg Reg.INV_NOW_W0 && !s.regSecure r) = false) :
    s.readReg r Reg.INV_NOW_W0 = ({ s with shadows := s.invNowShadows (s.regFn r) }, s.regWord Reg.INV_NOW_W0) := by
  simp [State.readReg, State.invNowShadows, world]

theorem fnKey_inj (fn a b : Nat) : fnKey fn a = fnKey fn b ↔ a = b := by simp [fnKey]

theorem State.look_invNowShadows (s : State) (fn k : Nat) (hk : k ∈ [Reg.INV_NOW_W1, Reg.INV_NOW_W2]) :
    (s.invNowShadows fn).look (fnKey fn k) = some (BitVec.ofNat 32 (s.regWord k)) := by
  have apart : Reg.INV_NOW_W2 ≠ Reg.INV_NOW_W1 := by decide
  rcases List.mem_pair.mp hk with rfl | rfl <;> simp [State.invNowShadows, Tab.look_put, fnKey_inj, apart]

theorem State.look_invNowShadows_other (s : State) (fn k : Nat) (hk : k ∉ [fnKey fn Reg.INV_NOW_W1, fnKey fn Reg.INV_NOW_W2]) :
    (s.invNowShadows fn).look k = s.shadows.look k := by
  obtain ⟨h1, h2⟩ : k ≠ fnKey fn Reg.INV_NOW_W1 ∧ k ≠ fnKey fn Reg.INV_NOW_W2 := by simpa using hk
  rw [State.invNowShadows, Tab.look_put_other _ _ _ _ h2.symm, Tab.look_put_other _ _ _ _ h1.symm]

/-! ### A write of a register (R4, R5, R9) -/

/-- R9: a write by a function discards the low word that it holds in the block of `b`. -/
def State.dropHeld (s : State) (fn b : Nat) : State := { s with held := s.held.del (fnKey fn (blockOf b)) }

/-- The low word that takes effect with the high word at `b`: the one held for this pair, or else the register's own (log 11). -/
def State.lowWordOf (s : State) (fn b : Nat) : W32 :=
  match s.heldWord fn b with
  | some (h, w) => if h + 4 = b then w else BitVec.ofNat 32 (s.reg (b - 4))
  | none => BitVec.ofNat 32 (s.reg (b - 4))

@[simp] theorem State.blockPresent_held (s : State) (h : Tab (Nat × W32)) (b : Nat) :
    ({ s with held := h } : State).blockPresent b = s.blockPresent b := rfl

@[simp] theorem State.reg_held (s : State) (h : Tab (Nat × W32)) (b : Nat) : ({ s with held := h } : State).reg b = s.reg b := rfl

variable {fn : Nat}

theorem State.putReg_absent (absent : s.blockPresent b = false) : s.putReg fn b v = s.dropHeld fn b := by
  simp [State.putReg, State.dropHeld, absent]

theorem State.putReg_low (present : s.blockPresent b = true) (plain : retWindow b = false) (low : pairRw b = true) :
    s.putReg fn b v = { s with held := (s.held.del (fnKey fn (blockOf b))).put (fnKey fn (blockOf b)) (b, v) } := by
  simp [State.putReg, present, plain, low]

theorem State.putReg_high (present : s.blockPresent b = true) (plain : retWindow b = false) (low : pairRw b = false)
    (above : 4 ≤ b) (high : pairRw (b - 4) = true) :
    s.putReg fn b v = (s.dropHeld fn b).pairWrite (b - 4) (s.lowWordOf fn b) v := by
  have word : (((s.heldWord fn b).bind fun h => if h.1 + 4 = b then some h.2 else none).getD (BitVec.ofNat 32 (s.reg (b - 4)))) =
      s.lowWordOf fn b := by
    unfold State.lowWordOf
    cases s.heldWord fn b with
    | none => rfl
    | some held =>
      obtain ⟨h, w⟩ := held
      by_cases mine : h + 4 = b <;> simp [mine]
  rw [← word]
  simp [State.putReg, State.dropHeld, present, plain, low, above, high]

/-- A register that is no part of a pair of R9 and that performs no action takes the word of its access type, unless it is RO or WO. -/
theorem State.putReg_single (present : s.blockPresent b = true) (plain : retWindow b = false) (low : pairRw b = false)
    (high : ¬ (4 ≤ b ∧ pairRw (b - 4) = true)) (atRow : regRow b = some row) (noAct : (s.dropHeld fn b).regAct b v = none) :
    s.putReg fn b v =
      if row.acc = .ro ∧ row.clr = 0 ∨ row.acc = .wo then s.dropHeld fn b
      else (s.dropHeld fn b).regWritten ((s.dropHeld fn b).setReg b ((s.dropHeld fn b).written b row v.toNat)) b := by
  have noHigh : (decide (4 ≤ b) && pairRw (b - 4)) = false := by simpa using high
  unfold State.dropHeld at *
  simp [State.putReg, present, plain, low, noHigh, atRow, noAct]

/-- The bits that a write sets now: RW bits, and RWL bits in the configuration state (R5). -/
def State.writeMask (s : State) (a : Nat) (row : RegRow) : Nat := row.wr ||| (if s.configState a then row.cfg else 0)

theorem State.written_eq (s : State) (a v : Nat) (row : RegRow) : s.written a row v =
    ((s.reg a &&& (2 ^ 32 - 1 - s.writeMask a row)) ||| (v &&& s.writeMask a row)) &&& (2 ^ 32 - 1 - (v &&& row.clr)) := rfl

theorem State.writeMask_lt (s : State) (a : Nat) (hwr : row.wr < 2 ^ 32) (hcfg : row.cfg < 2 ^ 32) : s.writeMask a row < 2 ^ 32 := by
  unfold State.writeMask
  split
  · exact Nat.or_lt_two_pow hwr hcfg
  · simpa using hwr

theorem State.testBit_writeMask (s : State) (a i : Nat) :
    (s.writeMask a row).testBit i = (row.wr.testBit i || (s.configState a && row.cfg.testBit i)) := by
  cases config : s.configState a <;> simp [State.writeMask, config]

/-- R5, bit by bit: the writable bits take the written value, the others keep theirs, and a 1 clears a W1C bit. -/
theorem State.testBit_written (s : State) (a v i : Nat) (row : RegRow) (hi : i < 32) (hwr : row.wr < 2 ^ 32) (hcfg : row.cfg < 2 ^ 32)
    (hclr : row.clr < 2 ^ 32) :
    (s.written a row v).testBit i =
      ((if row.wr.testBit i || (s.configState a && row.cfg.testBit i) then v.testBit i else (s.reg a).testBit i) &&
        !(v.testBit i && row.clr.testBit i)) := by
  have complement : ∀ m, m < 2 ^ 32 → (2 ^ 32 - 1 - m).testBit i = !m.testBit i := by
    intro m hm
    rw [Nat.sub_sub, Nat.add_comm 1 m, Nat.testBit_two_pow_sub_succ hm]
    simp [hi]
  have hmask := s.writeMask_lt a hwr hcfg
  have hclear : v &&& row.clr < 2 ^ 32 := Nat.and_lt_two_pow v hclr
  rw [State.written_eq, Nat.testBit_and, Nat.testBit_or, Nat.testBit_and, Nat.testBit_and, complement _ hmask, complement _ hclear,
    Nat.testBit_and, State.testBit_writeMask]
  cases row.wr.testBit i || (s.configState a && row.cfg.testBit i) <;> simp

end

/-! ### The obligations -/

/-- Settles O1. A low word read captures the high word, a high word read returns the capture, and INV_NOW_READ captures two words. -/
theorem registerReadsCapture : Obligations.RegisterReadsCapture := by
  unfold Obligations.RegisterReadsCapture
  refine ⟨fun s r a b reach low high h0 h1 h2 => ?_, fun s r a b reach high h0 => ?_, fun s r reach => ?_⟩
  · rw [exec_lowWordRead_of_reaches reach low, State.readReg_low reach.2 low high h0 h1 h2]
  · rw [exec_highWordRead_of_reaches reach high, State.readReg_high reach.2 high h0, BitVec.ofNat_toNat, BitVec.setWidth_eq]
  · refine ⟨_, exec_invNowRead_of_reaches reach, ?_⟩
    rw [State.readReg_invNow reach.2]
    exact ⟨rfl, rfl, s.look_invNowShadows (s.regFn r), s.look_invNowShadows_other (s.regFn r)⟩

/-- Settles O3. What the blocks of R9 are, and that a low word of which none is held keeps its value, is log 11. -/
theorem registerWritesComplete : Obligations.RegisterWritesComplete := by
  unfold Obligations.RegisterWritesComplete
  refine ⟨fun s r a b v reach present plain low => ?_, fun s r a b v lo reach present plain low above high hlo => ?_,
    fun s r a b v row reach present plain low high atRow notWo notRo s₁ hs₁ noAct => ?_⟩
  · rw [exec_lowWordWrite_of_reaches reach low, State.putReg_low present plain low]
  · have word : lo = s.lowWordOf (s.regFn r) b := hlo
    rw [exec_highWordWrite_of_reaches reach above high, State.putReg_high present plain low above high, word]
    rfl
  · have dropped : s₁ = s.dropHeld (s.regFn r) b := hs₁
    subst dropped
    rw [exec_registerWrite_of_reaches reach low high, State.putReg_single present plain low high atRow noAct,
      if_neg (not_or.mpr ⟨notRo, notWo⟩)]

/-- Settles O4. The bits of the written word by access type, and a register that is only RO, in a present block or in an absent one. -/
theorem accessTypesOfAWrite : Obligations.AccessTypesOfAWrite := by
  unfold Obligations.AccessTypesOfAWrite
  refine ⟨State.testBit_written, fun s r a b v row reach low high plain atRow ro clr noAct => ?_⟩
  rw [exec_registerWrite_of_reaches reach low high]
  congr 1
  change _ = s.dropHeld (s.regFn r) b
  cases present : s.blockPresent b with
  | false => exact State.putReg_absent present
  | true => rw [State.putReg_single present plain low high atRow (noAct _ rfl), if_pos (.inl ⟨ro, clr⟩)]

end Sys2Proof.Machine
end

section
/-! SUPPORT. Proofs about the size table (R18, R19), the step changes of regions (R23, R485) and the end of a stack's move (R468): what each
command leaves, and the obligations that these rules settle. -/

namespace Sys2Proof.Machine

section
variable {s : State}

/-! ### Registers written in a row, and the size table (R18, R19) -/

/-- Registers written one after the other, as a publication of the size table writes them. -/
def State.setRegs (s : State) (ws : List (Nat × Nat)) : State := ws.foldl (fun s w => s.setReg w.1 w.2) s

theorem State.setRegs_cons (s : State) (w : Nat × Nat) (ws : List (Nat × Nat)) :
    s.setRegs (w :: ws) = (s.setReg w.1 w.2).setRegs ws := rfl

theorem State.reg_setRegs_other (s : State) (ws : List (Nat × Nat)) {a : Nat} (ha : a ∉ ws.map (·.1)) : (s.setRegs ws).reg a = s.reg a := by
  induction ws generalizing s with
  | nil => rfl
  | cons w ws ih =>
    obtain ⟨hw, hws⟩ : a ≠ w.1 ∧ a ∉ ws.map (·.1) := by simpa using ha
    rw [State.setRegs_cons, ih _ hws, State.reg_setReg_other _ _ _ _ hw.symm]

theorem State.reg_setRegs_mem (s : State) (ws : List (Nat × Nat)) (apart : (ws.map (·.1)).Nodup) {w : Nat × Nat} (hw : w ∈ ws) :
    (s.setRegs ws).reg w.1 = w.2 % 2 ^ 32 := by
  induction ws generalizing s with
  | nil => cases hw
  | cons x xs ih =>
    obtain ⟨hx, hxs⟩ := List.nodup_cons.mp apart
    rw [State.setRegs_cons]
    rcases List.mem_cons.mp hw with rfl | hmem
    · rw [State.reg_setRegs_other _ _ hx, State.reg_setReg_same]
    · exact ih _ hxs hmem

theorem State.setRegs_eq (s : State) (ws : List (Nat × Nat)) : s.setRegs ws = { s with regs := (s.setRegs ws).regs } := by
  induction ws generalizing s with
  | nil => rfl
  | cons w ws ih => rw [State.setRegs_cons, ih]; rfl

/-- The counter of the table after its next publication: the next even value, never 0 (R19). -/
def State.nextSizeSeq (s : State) : Nat :=
  if (s.reg Reg.SBD_SIZE_SEQ + 2) % 2 ^ 32 = 0 then 2 else (s.reg Reg.SBD_SIZE_SEQ + 2) % 2 ^ 32

theorem State.nextSizeSeq_lt (s : State) : s.nextSizeSeq < 2 ^ 32 := by
  unfold State.nextSizeSeq
  split <;> omega

theorem State.publishTable_eq_setRegs (s : State) (ws : List (Nat × Nat)) :
    s.publishTable ws = (s.setRegs ws).setReg Reg.SBD_SIZE_SEQ s.nextSizeSeq := rfl

theorem State.reg_publishTable_seq (s : State) (ws : List (Nat × Nat)) : (s.publishTable ws).reg Reg.SBD_SIZE_SEQ = s.nextSizeSeq := by
  rw [State.publishTable_eq_setRegs, State.reg_setReg_same, Nat.mod_eq_of_lt s.nextSizeSeq_lt]

theorem State.reg_publishTable_other (s : State) (ws : List (Nat × Nat)) {a : Nat} (notSeq : a ≠ Reg.SBD_SIZE_SEQ) :
    (s.publishTable ws).reg a = (s.setRegs ws).reg a := by
  rw [State.publishTable_eq_setRegs, State.reg_setReg_other _ _ _ _ notSeq.symm]

theorem State.publishTable_eq (s : State) (ws : List (Nat × Nat)) :
    s.publishTable ws = { s with regs := (s.publishTable ws).regs } := by
  rw [State.publishTable_eq_setRegs, State.setRegs_eq]
  rfl

/-- The registers of the size table are written once each. -/
theorem State.sizeWords_nodup (s : State) : (s.sizeWords.map (·.1)).Nodup := by
  simp only [State.sizeWords, List.map_cons, List.map_nil]
  decide

/-- The counter is no word of the table. -/
theorem State.seq_notMem_sizeWords (s : State) : Reg.SBD_SIZE_SEQ ∉ s.sizeWords.map (·.1) := by
  simp only [State.sizeWords, List.map_cons, List.map_nil]
  decide

theorem State.reg_publishTable_sizeWords {w : Nat × Nat} (hw : w ∈ s.sizeWords) : (s.publishTable s.sizeWords).reg w.1 = w.2 % 2 ^ 32 := by
  have notSeq : w.1 ≠ Reg.SBD_SIZE_SEQ := fun h => s.seq_notMem_sizeWords (h ▸ List.mem_map_of_mem hw)
  rw [State.reg_publishTable_other _ _ notSeq, State.reg_setRegs_mem _ _ s.sizeWords_nodup hw]

theorem exec_sizeTablePublish_of_running (running : s.boot.phase = .running) :
    exec .sizeTablePublish s =
      .next ((s.publishTable s.sizeWords).pfEvent 0x011E ((s.publishTable s.sizeWords).reg Reg.SBD_SIZE_SEQ) 0 0 0) := by
  simp [exec, execSizeTablePublish, State.publishSize, State.publish, running]

/-! ### Step changes of a region (R23, R485) -/

variable {r k d : Nat}

theorem exec_pllRetuneDone_of_changing (changing : (s.region r).target.isSome = true) (fresh : (s.region r).retuned = false) :
    exec (.pllRetuneDone r) s = .next (s.setRegion r { s.region r with retuned := true }) := by
  simp [exec, execPllRetuneDone, changing, fresh]

/-- The state after region `r` has switched to step `k`. -/
def State.stepSwitched (s : State) (r k : Nat) : State :=
  (((((s.setField (Reg.BIM_REG_STEP r) 1 0 k).setField (Reg.BIM_REG_STEP r) 3 3 0).setRegion r
    { s.region r with target := none, retuned := false, heat := (s.region r).heat && k != 0 }).switchBubbles (2 * r)).switchBubbles
      (2 * r + 1)).lowerRail (r / 3)

/-- A cluster does not hold the switch up where it is not on, or where its engines have stopped. -/
theorem exec_regionStepSwitch_of_stopped (target : (s.region r).target = some k) (retuned : (s.region r).retuned = true)
    (carries : s.railCarries r k = true) (stopped : ∀ c ∈ [2 * r, 2 * r + 1], s.clusterOn c = true → s.enginesStopped c = true) :
    exec (.regionStepSwitch r) s = .next (s.stepSwitched r k) := by
  have off : ∀ c ∈ [2 * r, 2 * r + 1], (!s.clusterOn c || s.enginesStopped c) = true := by
    intro c hc
    cases on : s.clusterOn c with
    | false => rfl
    | true => simp [stopped c hc on]
  have first := off (2 * r) (by simp)
  have second := off (2 * r + 1) (by simp)
  simp only [exec, execRegionStepSwitch, target, retuned, carries, first, second, Bool.not_true, Bool.or_false, Bool.false_eq_true, if_false]
  rfl

theorem exec_stepChangeAbandon_of_low (target : (s.region r).target = some k) (retuned : (s.region r).retuned = true)
    (low : s.railCarries r k = false) :
    exec (.stepChangeAbandon r) s = .next (((s.setField (Reg.BIM_REG_STEP r) 3 3 0).setRegion r
      { s.region r with target := none, retuned := false }).lowerRail (r / 3)) := by
  simp [exec, execStepChangeAbandon, target, retuned, low]

theorem exec_vrmInRange_of_changing (changing : (s.rail d).changing = true) :
    exec (.vrmInRange d) s = .next { s with rails := s.rails.put d { s.rail d with prev := (s.rail d).mv, changing := false } } := by
  simp [exec, execVrmInRange, changing]

/-! ### The end of a stack's move (R468, R288) -/

/-- The granules of every object on stack `t` have moved. -/
def State.movedOff (s : State) (t : Nat) : State :=
  s.tiers.objs.foldl (fun s e => if e.2.on t = true then s.moveObj t e.1 e.2 else s) s

/-- The move of stack `t` is over. -/
def State.endMove (s : State) (t : Nat) : State :=
  { s.movedOff t with boot := { (s.movedOff t).boot with moving := (s.movedOff t).boot.moving.erase t } }

/-- STACK_MOVE_DONE: MIRROR objects without a partner try again before the fills that wait do. -/
theorem exec_stackMoveDone_of_moving {t : Nat} (moving : t ∈ s.boot.moving) :
    exec (.stackMoveDone t) s = .next (s.endMove t).retryCopies.runFills := by
  have there : s.boot.moving.contains t = true := by simpa using moving
  simp only [exec, execStackMoveDone, there, Bool.not_true, Bool.false_eq_true, if_false]
  rfl

theorem State.runFills_of_no_fills (empty : s.tiers.fills = []) : s.runFills = s := by
  simp [State.runFills, State.pumpFills, empty]

/-- Stacks 0 and 3 are present and empty, the move off stack 3 is under way, and a degraded MIRROR object on stack 0 has found no partner
(its PARTNER names its home stack, log 102). -/
def partnerWanted : State :=
  ([0, 3].foldl (fun s t => (s.setReg (Reg.HBM_PC_PRESENT t) (2 ^ 32 - 1)).setReg (Reg.HBM_CAPACITY_GIB t) 96)
    { State.reset with
      boot := { State.reset.boot with phase := .running, moving := [3] }
      tiers := { State.reset.tiers with objs := [(0, { st := .ready, size := 2 ^ 21, mirror := true, degraded := true })] } })

/-- The end of the move finds the object its partner, stack 3, and the copy starts. -/
theorem mcopy_retryCopies_partnerWanted : (partnerWanted.endMove 3).retryCopies.tiers.mcopy = [(0, 3)] := by decide +kernel

theorem mcopy_endMove_partnerWanted : (partnerWanted.endMove 3).tiers.mcopy = [] := by decide +kernel

end

/-! ### The obligations -/

/-- Settles O5. Each word of the table is written once and the counter is none of them. -/
theorem sizeTablePublished : Obligations.SizeTablePublished := by
  unfold Obligations.SizeTablePublished
  intro s running
  exact ⟨exec_sizeTablePublish_of_running running, s.reg_publishTable_seq _, fun _ hw => State.reg_publishTable_sizeWords hw,
    fun _ notSeq notWord => (s.reg_publishTable_other _ notSeq).trans (s.reg_setRegs_other _ notWord), s.publishTable_eq _⟩

/-- Settles O6. -/
theorem regionStepChanges : Obligations.RegionStepChanges := by
  unfold Obligations.RegionStepChanges
  exact ⟨fun _ _ => exec_pllRetuneDone_of_changing,
    fun _ _ _ target retuned carries stopped => ⟨_, exec_regionStepSwitch_of_stopped target retuned carries stopped, rfl⟩,
    fun _ _ _ => exec_stepChangeAbandon_of_low, fun _ _ => exec_vrmInRange_of_changing⟩

/-- Refutes O55 by its last clause. STACK_MOVE_DONE also lets each degraded MIRROR object without a partner try again (R288, `retryCopies`),
which the statement's next state leaves out: from `partnerWanted` the model starts the copy of object 0 to stack 3, and the statement's
state has no copy under way. -/
theorem not_unitsAreServiced : ¬ Obligations.UnitsAreServiced := by
  unfold Obligations.UnitsAreServiced
  rintro ⟨_, _, _, _, _, _, _, _, _, _, _, _, _, stackMove⟩
  have moving : 3 ∈ partnerWanted.boot.moving := by decide +kernel
  have claimed : exec (.stackMoveDone 3) partnerWanted = .next (partnerWanted.endMove 3).runFills := stackMove _ _ 3 moving rfl
  rw [exec_stackMoveDone_of_moving moving, State.runFills_of_no_fills (by decide +kernel), State.runFills_of_no_fills (by decide +kernel)]
    at claimed
  have same : (partnerWanted.endMove 3).retryCopies = partnerWanted.endMove 3 := Host.Outcome.next.inj claimed
  have noCopy : (partnerWanted.endMove 3).retryCopies.tiers.mcopy = [] := by rw [same, mcopy_endMove_partnerWanted]
  rw [mcopy_retryCopies_partnerWanted] at noCopy
  cases noCopy

end Sys2Proof.Machine
end

section
/-! SUPPORT. Proofs about the tile ops of a Trestle (R55 to R62): what runs the op at the head of the queue served, what each op then leaves, and the
obligation that these rules settle. -/

namespace Sys2Proof.Machine

section
variable {s : State} {c i : Nat} {it : TrsItem} {op : TileOp} {bs : List Byte} {t : Trestle} {q : TrsQueue}

/-! ### Queues of a Trestle -/

@[simp] theorem Trestle.qu_setQu (t : Trestle) (i : Nat) (q : TrsQueue) : (t.setQu i q).qu i = q := by
  by_cases radio : i = 0 <;> simp [Trestle.qu, Trestle.setQu, radio]

@[simp] theorem Trestle.qu_seq (t : Trestle) (i n : Nat) : ({ t with seq := n } : Trestle).qu i = t.qu i := rfl

/-- The items of a queue that has moved past its head op. -/
def advanceItems : List TrsItem → List TrsItem
  | [] => []
  | it :: rest =>
    if it.staged then if it.pc + 1 < it.recs.length then { it with pc := it.pc + 1 } :: rest else rest
    else { it with pc := it.pc + 64 } :: rest

theorem TrsQueue.advance_eq (q : TrsQueue) : q.advance = { q with items := advanceItems q.items } := by
  obtain ⟨items⟩ := q
  cases items with
  | nil => rfl
  | cons it rest =>
    simp only [TrsQueue.advance, advanceItems]
    split_ifs <;> rfl

/-! ### The op that runs -/

/-- The op's record was read and has no PROB where its OPC has no problem (R55). -/
def TileOp.sound : TileOp → Bool
  | .unread | .badProb _ => false
  | _ => true

/-- The row of the table that accepts the op heading the queue served is the op's meaning. -/
theorem State.trsOp_of_ready {kind : TileOp → Bool} {opc : Nat} {f : State → Nat → TrsItem → TileOp → List Byte → State}
    (ready : TrsReady s c it op bs) (sound : op.sound = true) (accepts : kind op = true) :
    s.trsOp c kind opc f = f s (s.trestle c).serving it op bs := by
  obtain ⟨runs, steady, noRerun, head, go⟩ := ready
  cases op with
  | unread => cases sound
  | badProb => cases sound
  | _ => simp [State.trsOp, runs, steady, noRerun, head, go, accepts]

/-! ### NOP, CONFIG, WAIT, SIGNAL, END (R57, R61) and HALT (R68) -/

theorem exec_trsNop_of_ready (ready : TrsReady s c it .nop bs) : exec (.trsNop c) s = .next (s.trsAdvance c (s.trestle c).serving) := by
  rw [exec, execTrsNop, State.trsOp_of_ready ready rfl rfl]

theorem exec_trsConfig_of_ready {w : Nat} (ready : TrsReady s c it (.config w) bs) (legal : configFault w = none) :
    exec (.trsConfig c) s = .next ((s.modQu c (s.trestle c).serving fun q => { q with
      layout := bits w 1 0, ksplit := bit w 2, fmtA := bits w 7 4, fmtB := bits w 11 8, bdLog := bits w 13 12
      latest := [], blkOf := [], checked := [] }).trsAdvance c (s.trestle c).serving) := by
  rw [exec, execTrsConfig, State.trsOp_of_ready ready rfl rfl]
  simp only [legal]

theorem exec_trsWait_of_ready {l n : Nat} (ready : TrsReady s c it (.wait l n) bs) (owned : s.latchOwned c l it.task.ctx = true) :
    exec (.trsWait c) s = .next ((s.waitOn c l (s.trestle c).serving n).trsAdvance c (s.trestle c).serving) := by
  rw [exec, execTrsWait, State.trsOp_of_ready ready rfl rfl]
  simp [owned]

theorem exec_trsSignal_of_ready {l n : Nat} (ready : TrsReady s c it (.signal l n) bs) (owned : s.latchOwned c l it.task.ctx = true) :
    exec (.trsSignal c) s = .next ((s.signal c l n).trsAdvance c (s.trestle c).serving) := by
  rw [exec, execTrsSignal, State.trsOp_of_ready ready rfl rfl]
  simp [owned]

/-- The END of a program that no thread pushed reports its task. -/
theorem exec_trsEnd_of_ready (ready : TrsReady s c it .fin bs) (program : it.staged = false) :
    exec (.trsEnd c) s = .next (((s.trsAdvance c (s.trestle c).serving).modQu c (s.trestle c).serving
      fun q => { q with items := q.items.drop 1 }).finish it.task 0 0 c) := by
  rw [exec, execTrsEnd, State.trsOp_of_ready ready rfl rfl]
  simp [program]

theorem exec_trsHalt_of_present (on : Bool) (present : s.clusterPresent c = true) :
    exec (.trsHalt c on) s = .next (s.setField (Reg.TRS_CTRL c) 2 2 (b2n on)) := by
  simp [exec, execTrsHalt, present]

/-! ### LOAD, DRAIN and STREAM (R35, R58, R60, R84)

They are stated for the Trestle `t` of the cluster and the queue `q` of it, number `i`, that is served. -/

/-- The bank is the one that `nextBank` gives, by log 12 where the problem has no latest block. -/
theorem exec_trsLoad_of_ready {p : Nat} {l : TrsLoad} (ready : TrsReady s c it (.load p l) bs) (ht : t = s.trestle c) (hi : i = t.serving)
    (hq : q = t.qu i) (legal : q.loadFault (s.shareSize c it.task.ctx) p l = none) :
    exec (.trsLoad c) s = .next ((s.setTrestle c { t.setQu i { q with
      latest := q.latest.put p (t.nextBank i p)
      blkOf := q.blkOf.put p t.nextId
      loads := q.loads ++ [⟨p, t.nextId, q.bankKeys p (t.nextBank i p), l, it.task, t.seq, false, false⟩] } with
        nextId := t.nextId + 1, seq := t.seq + 1 }).trsAdvance c i) := by
  rw [exec, execTrsLoad, State.trsOp_of_ready ready rfl rfl]
  simp only [← ht, ← hi, ← hq, legal]

/-- A DRAIN that has elements to convert waits for the converter. -/
theorem exec_trsDrain_of_ready {p : Nat} {d : TrsDrain} (ready : TrsReady s c it (.drain p d) bs) (ht : t = s.trestle c)
    (hi : i = t.serving) (hq : q = t.qu i) (legal : q.drainFault (s.shareSize c it.task.ctx) i p d = none) (rows : d.m ≠ 0)
    (cols : d.nCols ≠ 0) :
    exec (.trsDrain c) s = .next ((s.setTrestle c { t.setQu i { q with
      convs := q.convs ++ [{ p := p, op := d, task := it.task, seq := t.seq }] } with seq := t.seq + 1 }).trsAdvance c i) := by
  rw [exec, execTrsDrain, State.trsOp_of_ready ready rfl rfl]
  simp [← ht, ← hi, ← hq, legal, rows, cols]

/-- R247: a checked STREAM marks its problem in the queue. -/
def TrsQueue.markChecked (q : TrsQueue) (p : Nat) (chk : Bool) : TrsQueue :=
  if chk && !q.checked.contains p then { q with checked := q.checked ++ [p] } else q

theorem TrsQueue.markChecked_eq (q : TrsQueue) (p : Nat) (chk : Bool) :
    q.markChecked p chk = { q with checked := (q.markChecked p chk).checked } := by
  unfold TrsQueue.markChecked
  split <;> rfl

theorem TrsQueue.mem_checked_markChecked (q : TrsQueue) (p : Nat) : p ∈ (q.markChecked p true).checked := by
  by_cases marked : p ∈ q.checked <;> simp [TrsQueue.markChecked, marked]

/-- The mark moves no bank. -/
theorem TrsQueue.banks_markChecked (q : TrsQueue) (p : Nat) (chk : Bool) :
    (q.markChecked p chk).bankKeys p ((q.markChecked p chk).latest.get 0 p) = q.bankKeys p (q.latest.get 0 p) := by
  rw [TrsQueue.markChecked_eq]
  rfl

/-- The queue after the STREAM `a` has begun: its record is past and its rows are to be injected. -/
def TrsQueue.begin (q : TrsQueue) (a : TrsAct) : TrsQueue :=
  { (q.markChecked a.p a.chk).advance with acts := (q.markChecked a.p a.chk).acts.put a.p a }

theorem TrsQueue.begin_acts (q : TrsQueue) (a : TrsAct) : (q.begin a).acts = q.acts.put a.p a := by
  rw [TrsQueue.begin, TrsQueue.markChecked_eq]

theorem TrsQueue.begin_items (q : TrsQueue) (a : TrsAct) : (q.begin a).items = q.advance.items := by
  rw [TrsQueue.begin, TrsQueue.advance_eq, TrsQueue.advance_eq, TrsQueue.markChecked_eq]

theorem TrsQueue.begin_checked (q : TrsQueue) (a : TrsAct) : (q.begin a).checked = (q.markChecked a.p a.chk).checked := by
  rw [TrsQueue.begin, TrsQueue.advance_eq]

/-- A STREAM with rows begins against the latest block of its problem. -/
theorem exec_trsStream_of_ready {p : Nat} {st : TrsStream} {chk : Bool} (ready : TrsReady s c it (.stream p st) bs) (ht : t = s.trestle c)
    (hi : i = t.serving) (hq : q = t.qu i) (hchk : chk = (st.chk || it.task.cls == 0 || (i == 1 && s.flag (Reg.TRS_CHK_CTRL c) 0)))
    (hasBlock : (q.blkOf.look p).isSome = true)
    (legal : q.streamFault (s.shareSize c it.task.ctx) i p chk (t.loadOf i (q.blkOf.get 0 p)) st = none) (rows : st.m ≠ 0) :
    exec (.trsStream c) s = .next (s.setTrestle c { t.setQu i (q.begin { p := p, op := st, task := it.task, seq := t.seq
                                                                         blk := q.blkOf.get 0 p, chk := chk
                                                                         banks := q.bankKeys p (q.latest.get 0 p), tag := recTag bs }) with
      seq := t.seq + 1 }) := by
  rw [exec, execTrsStream, State.trsOp_of_ready ready rfl rfl, ← q.banks_markChecked p chk]
  simp only [← ht, ← hi, ← hq, ← hchk, hasBlock, if_true, legal, rows, if_false]
  rfl

/-! ### Faults (R62) -/

theorem State.finish_regs (s : State) (t : TaskId) (status cause place : Nat) : (s.finish t status cause place).regs = s.regs := by
  unfold State.finish
  split
  · split <;> rfl
  · rfl

theorem State.trsSettle_regs (s : State) (c i : Nat) : (s.trsSettle c i).regs = s.regs := by
  unfold State.trsSettle
  split
  next => rfl
  next =>
    split
    next => rfl
    next =>
      split
      · exact State.finish_regs ..
      · rfl

/-- A fault writes two registers. -/
theorem State.reg_trsFault (s : State) (c i opc tag cause a : Nat) : (s.trsFault c i opc tag cause).reg a =
    ((s.setReg (Reg.TRS_FAULT c) (1 + 2 * cause + 16 * i + 256 * opc)).setReg (Reg.TRS_FAULT_TAG c) tag).reg a := by
  simp only [State.reg, State.trsFault, State.trsSettle_regs]
  rfl

theorem State.reg_trsFault_word (s : State) (c i opc tag cause : Nat) :
    (s.trsFault c i opc tag cause).reg (Reg.TRS_FAULT c) = (1 + 2 * cause + 16 * i + 256 * opc) % 2 ^ 32 := by
  have apart : Reg.TRS_FAULT_TAG c ≠ Reg.TRS_FAULT c := by simp [Reg.TRS_FAULT_TAG, Reg.TRS_FAULT]
  rw [State.reg_trsFault, State.reg_setReg_other _ _ _ _ apart, State.reg_setReg_same]

theorem State.reg_trsFault_tag (s : State) (c i opc tag cause : Nat) :
    (s.trsFault c i opc tag cause).reg (Reg.TRS_FAULT_TAG c) = tag % 2 ^ 32 := by
  rw [State.reg_trsFault, State.reg_setReg_same]

theorem exec_trestleIllegalOp_of_ready {n : Nat} (ready : TrsReady s c it (.illegal n) bs) :
    exec (.trestleIllegalOp c) s = .next (s.trsFault c (s.trestle c).serving n (recTag bs) trsIllegal) := by
  rw [exec, execTrestleIllegalOp, State.trsOp_of_ready ready rfl rfl]

end

/-! ### The obligation -/

/-- Settles O8. Each op that heads the queue served runs as its row of the table says; that a LOAD without a latest block takes bank 0, or bank 1
while rows in flight select bank 0, is log 12. -/
theorem tileOpsComplete : Obligations.TileOpsComplete := by
  unfold Obligations.TileOpsComplete
  refine ⟨fun _ _ _ _ => exec_trsNop_of_ready, fun _ _ _ _ _ => exec_trsConfig_of_ready, fun _ _ _ _ _ _ _ _ _ => exec_trsLoad_of_ready,
    fun s c p st it bs t i q chk ready ht hi hq hchk hasBlock legal rows => ?stream,
    fun _ _ _ _ _ _ _ _ _ => exec_trsDrain_of_ready, fun _ _ _ _ _ _ => exec_trsWait_of_ready, fun _ _ _ _ _ _ => exec_trsSignal_of_ready,
    fun _ _ _ _ => exec_trsEnd_of_ready,
    fun s _ _ _ _ ready => ⟨_, exec_trestleIllegalOp_of_ready ready, rfl, s.reg_trsFault_word .., s.reg_trsFault_tag ..⟩,
    fun _ _ => exec_trsHalt_of_present⟩
  case stream =>
    refine ⟨_, exec_trsStream_of_ready ready ht hi hq hchk hasBlock legal rows, ?_⟩
    simp only [State.trestle_setTrestle_same, Trestle.qu_seq, Trestle.qu_setQu, TrsQueue.begin_acts, TrsQueue.begin_items,
      TrsQueue.begin_checked]
    refine ⟨trivial, Tab.look_put_same .., fun k other => Tab.look_put_other _ _ _ _ other.symm, trivial, trivial, fun checked => ?_⟩
    rw [checked]
    exact q.mem_checked_markChecked p

end Sys2Proof.Machine
end

section
/-! SUPPORT. Proofs about the instructions of a Pewter unit that act on their queue's state alone (R92, R95, R113, R126): what the instruction at the
head leaves, what an instruction writes in an accumulator set, and the obligation that these rules settle. -/

namespace Sys2Proof.Machine

section
variable {s : State} {u i : Nat}

/-! ### Queues of a Pewter unit -/

@[simp] theorem PwtUnit.qu_setQu (t : PwtUnit) (i : Nat) (q : PwtQueue) : (t.setQu i q).qu i = q := by
  by_cases radio : i = 0 <;> simp [PwtUnit.qu, PwtUnit.setQu, radio]

@[simp] theorem State.pq_setPq_same (s : State) (u i : Nat) (q : PwtQueue) : (s.setPq u i q).pq u i = q := by
  simp [State.pq, State.setPq]

@[simp] theorem State.pq_bump (s : State) (a n u i : Nat) : (s.bump a n).pq u i = s.pq u i := rfl

/-- Going on with the next instruction changes neither registers nor generators (R102, R103). -/
theorem PwtQueue.step_eq (q : PwtQueue) : q.step = { q with pc := q.pc + 8, inTile := true, lines := q.step.lines } := by
  simp only [PwtQueue.step, PwtQueue.buffer]
  split <;> rfl

@[simp] theorem PwtQueue.step_pc (q : PwtQueue) : q.step.pc = q.pc + 8 := by rw [PwtQueue.step_eq]
@[simp] theorem PwtQueue.step_v (q : PwtQueue) : q.step.v = q.v := by rw [PwtQueue.step_eq]
@[simp] theorem PwtQueue.step_a (q : PwtQueue) : q.step.a = q.a := by rw [PwtQueue.step_eq]

/-! ### The instruction at the head -/

@[simp] theorem pq_pwtAfter (s : State) (u i : Nat) (r : PwtQueue × Nat) : (PwtAfter s u i r).pq u i = r.1.step := by
  simp [PwtAfter]

/-- An instruction on a queue's state touches the unit and registers only. -/
theorem pwtAfter_eq (s : State) (u i : Nat) (r : PwtQueue × Nat) :
    PwtAfter s u i r = { s with pwt := (PwtAfter s u i r).pwt, regs := (PwtAfter s u i r).regs } := rfl

variable {issue : PwtRec} {w : PwtInsn}

theorem State.pwtReg_of_head {op : Nat} {f : PwtQueue → PwtInsn → PwtRes} {r : PwtQueue × Nat}
    (head : s.pwtHead u = some (i, issue, some w)) (isOp : w.op = op) (done : f (s.pq u i) w = .ok r) :
    s.pwtReg u op f = PwtAfter s u i r := by
  simp [State.pwtReg, State.pwtOp, head, isOp, done, PwtAfter]

/-- A row of the table that runs `f` completes with what `f` makes of the queue, when the instruction at the head is that row's. -/
theorem exec_of_pwtHead {row : Instr} {op : Nat} {f : PwtQueue → PwtInsn → PwtRes} {r : PwtQueue × Nat}
    (head : s.pwtHead u = some (i, issue, some w)) (runs : exec row s = .next (s.pwtReg u op f)) (isOp : w.op = op)
    (done : f (s.pq u i) w = .ok r) : exec row s = .next (PwtAfter s u i r) := by
  rw [runs, State.pwtReg_of_head head isOp done]

/-! ### SETVL and AGSET in their ranges (R97, R113) -/

variable {q : PwtQueue}

theorem pwtSetvl_of_range (low : 1 ≤ w.imm % 64) (high : w.imm % 64 ≤ 32) : pwtSetvl q w = .ok ({ q with vl := w.imm % 64 }, 0) := by
  simp [pwtSetvl, low, high]

theorem pwtAgset_mode (field : w.imm % 8 = 0) (legal : q.s w.sa ≤ 4) :
    pwtAgset q w = .ok (q.setGen w.ag { q.gen w.ag with mode := q.s w.sa }, 0) := by
  simp [pwtAgset, field, legal.not_gt]

theorem pwtAgset_base (field : w.imm % 8 = 1) (legal : q.s w.sa < 2 ^ 25) :
    pwtAgset q w = .ok (q.setGen w.ag { q.gen w.ag with base := q.s w.sa }, 0) := by
  simp only [pwtAgset, field, legal.not_ge, if_false]

theorem pwtAgset_s (field : w.imm % 8 = 2) :
    pwtAgset q w = .ok (q.setGen w.ag { q.gen w.ag with s := BitVec.ofNat 32 (q.s w.sa) }, 0) := by
  simp [pwtAgset, field]

theorem pwtAgset_modl (field : w.imm % 8 = 3) :
    pwtAgset q w = .ok (q.setGen w.ag { q.gen w.ag with modl := BitVec.ofNat 32 (q.s w.sa) }, 0) := by
  simp [pwtAgset, field]

theorem pwtAgset_p (field : w.imm % 8 = 4) :
    pwtAgset q w = .ok (q.setGen w.ag { q.gen w.ag with p := BitVec.ofNat 32 (q.s w.sa) }, 0) := by
  simp [pwtAgset, field]

/-! ### Accumulator sets (R92, R95) -/

/-- Both parts of accumulator set `acc` on lanes 0 to n − 1: part p of lane l becomes `x l p`, modulo 2^48. -/
def PwtQueue.setAccs (q : PwtQueue) (acc n : Nat) (x : Nat → Nat → Int) : PwtQueue :=
  (List.range n).foldl (fun r l => (r.setAcc acc l 0 (x l 0)).setAcc acc l 1 (x l 1)) q

theorem PwtQueue.setAccs_succ (q : PwtQueue) (acc n : Nat) (x : Nat → Nat → Int) :
    q.setAccs acc (n + 1) x = ((q.setAccs acc n x).setAcc acc n 0 (x n 0)).setAcc acc n 1 (x n 1) := by
  simp [PwtQueue.setAccs, List.range_succ]

/-- Nothing but accumulators is written. -/
theorem PwtQueue.setAccs_eq (q : PwtQueue) (acc n : Nat) (x : Nat → Nat → Int) :
    q.setAccs acc n x = { q with a := (q.setAccs acc n x).a } := by
  induction n with
  | zero => rfl
  | succ n ih => rw [PwtQueue.setAccs_succ, ih]; rfl

/-- The parts of one lane have keys apart from those of every other lane. -/
theorem accKey_inj {acc l l' p p' : Nat} (hp : p < 2) (hp' : p' < 2) :
    2 * (32 * acc + l) + p = 2 * (32 * acc + l') + p' ↔ l = l' ∧ p = p' := by omega

theorem PwtQueue.get_setAccs (q : PwtQueue) (acc n : Nat) (x : Nat → Nat → Int) {l p : Nat} (hl : l < n) (hp : p < 2) :
    (q.setAccs acc n x).a.get 0 (2 * (32 * acc + l) + p) = BitVec.ofInt 48 (x l p) := by
  induction n with
  | zero => omega
  | succ n ih =>
    simp only [PwtQueue.setAccs_succ, PwtQueue.setAcc, Tab.get_set, accKey_inj Nat.zero_lt_two hp, accKey_inj Nat.one_lt_two hp]
    by_cases last : n = l
    · subst last
      obtain rfl | rfl : p = 0 ∨ p = 1 := by omega
      all_goals simp
    · simpa only [last, false_and, if_false] using ih (by omega)

/-- What CMAC leaves in part `p` of lane `l`: the part's value, or the preset, plus that part of the exact product (R95). -/
def PwtQueue.cmacPart (q : PwtQueue) (w : PwtInsn) (l p : Nat) : Int :=
  let prod := cmulC (conjC (bit w.imm 0) (q.ci w.va l)) (conjC (bit w.imm 1) (q.ci w.vb l))
  (if bit w.imm 2 then q.preset.toInt else q.accPart w.acc l p) + if p = 0 then prod.1 else prod.2

theorem pwtCmac_eq (q : PwtQueue) (w : PwtInsn) : pwtCmac q w = .ok (q.setAccs w.acc q.vl (q.cmacPart w), 0) := rfl

/-- What ACCSUM leaves in part `p` of lane `l`: lane 0 receives the sum over the active lanes, the others zero (R126). -/
def PwtQueue.accsumPart (q : PwtQueue) (acc l p : Nat) : Int :=
  if l = 0 then ((List.range q.vl).map fun l => q.accPart acc l p).sum else 0

theorem pwtAccsum_eq (q : PwtQueue) (w : PwtInsn) : pwtAccsum q w = .ok (q.setAccs w.acc q.vl (q.accsumPart w.acc), 0) := by
  simp only [pwtAccsum, PwtQueue.setAccs, PwtQueue.accsumPart, List.sum_eq_foldl, List.foldl_map]

/-- An instruction that leaves `x` in the active lanes of an accumulator set goes on, keeps the vector registers, and touches nothing else. -/
theorem pwtAfter_setAccs (s : State) (u i acc n : Nat) (q : PwtQueue) (x : Nat → Nat → Int) :
    ((PwtAfter s u i (q.setAccs acc n x, 0)).pq u i).pc = q.pc + 8 ∧ ((PwtAfter s u i (q.setAccs acc n x, 0)).pq u i).v = q.v ∧
      ∀ l p, l < n → p < 2 →
        ((PwtAfter s u i (q.setAccs acc n x, 0)).pq u i).a.get 0 (2 * (32 * acc + l) + p) = BitVec.ofInt 48 (x l p) := by
  refine ⟨?_, ?_, fun l p hl hp => ?_⟩
  · rw [pq_pwtAfter, PwtQueue.step_pc, PwtQueue.setAccs_eq]
  · rw [pq_pwtAfter, PwtQueue.step_v, PwtQueue.setAccs_eq]
  · rw [pq_pwtAfter, PwtQueue.step_a, q.get_setAccs acc n x hl hp]

end

/-! ### The obligation -/

/-- Settles O12. Each row runs the function of its rule on the queue's state; CMAC and ACCSUM write both parts of a set on the active lanes. -/
theorem pewterScalarInstructions : Obligations.PewterScalarInstructions := by
  unfold Obligations.PewterScalarInstructions
  rintro s u i r w _ head rfl
  refine ⟨fun op => exec_of_pwtHead head rfl op rfl, fun op => exec_of_pwtHead head rfl op rfl, fun op => exec_of_pwtHead head rfl op rfl,
    fun op => exec_of_pwtHead head rfl op rfl, fun op => exec_of_pwtHead head rfl op rfl, fun op => exec_of_pwtHead head rfl op rfl,
    fun op => exec_of_pwtHead head rfl op rfl, fun op low high => exec_of_pwtHead head rfl op (pwtSetvl_of_range low high),
    fun op field legal => exec_of_pwtHead head rfl op (pwtAgset_mode field legal),
    fun op field legal => exec_of_pwtHead head rfl op (pwtAgset_base field legal),
    fun op field => exec_of_pwtHead head rfl op (pwtAgset_s field), fun op field => exec_of_pwtHead head rfl op (pwtAgset_modl field),
    fun op field => exec_of_pwtHead head rfl op (pwtAgset_p field), fun op => exec_of_pwtHead head rfl op rfl,
    fun op => ?cmac, fun op => ?accsum⟩
  case cmac =>
    obtain ⟨pc, v, acc⟩ := pwtAfter_setAccs s u i w.acc (s.pq u i).vl (s.pq u i) ((s.pq u i).cmacPart w)
    refine ⟨_, exec_of_pwtHead head rfl op (pwtCmac_eq _ w), pc, v, pwtAfter_eq .., ?_⟩
    rintro l _ hl rfl
    exact ⟨acc l 0 hl Nat.zero_lt_two, acc l 1 hl Nat.one_lt_two⟩
  case accsum =>
    obtain ⟨pc, v, acc⟩ := pwtAfter_setAccs s u i w.acc (s.pq u i).vl (s.pq u i) ((s.pq u i).accsumPart w.acc)
    refine ⟨_, exec_of_pwtHead head rfl op (pwtAccsum_eq _ w), pc, v, pwtAfter_eq .., fun p hp => ⟨fun active => acc 0 p active hp, ?_⟩⟩
    intro l pos hl
    rw [acc l p hl hp, PwtQueue.accsumPart, if_neg (by omega)]
    rfl

end Sys2Proof.Machine
end

section
/-! SUPPORT. Proofs about the vector registers of a Pewter unit, its control and memory instructions, and its queues and kernels (R97 to R105,
R110 to R129): what a write through lanes leaves, what the instruction at the head leaves on the whole state, how a kernel enters and starts, and the
obligations that these rules settle. -/

namespace Sys2Proof.Machine

section
variable {s t : State} {u i : Nat} {q : PwtQueue} {w : PwtInsn} {r : PwtRec} {f : Nat → Nat × Nat}

/-! ### Writing through lanes (R97, R98) -/

/-- The write of a vector register on lanes 0 to n − 1 only. -/
def PwtQueue.lanesBelow (q : PwtQueue) (vd : Nat) (f : Nat → Nat × Nat) (n : Nat) : PwtQueue × Nat :=
  (List.range n).foldl (fun (r, k) l => (r.setLane vd l (f l).1, k + (f l).2)) (q, 0)

theorem PwtQueue.lanes_eq_lanesBelow (q : PwtQueue) (vd : Nat) (f : Nat → Nat × Nat) : q.lanes vd f = q.lanesBelow vd f q.vl := rfl

theorem PwtQueue.lanesBelow_succ (q : PwtQueue) (vd : Nat) (f : Nat → Nat × Nat) (n : Nat) :
    q.lanesBelow vd f (n + 1) = ((q.lanesBelow vd f n).1.setLane vd n (f n).1, (q.lanesBelow vd f n).2 + (f n).2) := by
  simp [PwtQueue.lanesBelow, List.range_succ]

/-- Each lane below n holds its value and every other lane of the unit the value that it had. -/
theorem PwtQueue.get_lanesBelow (q : PwtQueue) (vd : Nat) (f : Nat → Nat × Nat) (n k : Nat) :
    (q.lanesBelow vd f n).1.v.get 0 k =
      if 32 * vd ≤ k ∧ k < 32 * vd + n then BitVec.ofNat 32 (f (k - 32 * vd)).1 else q.v.get 0 k := by
  induction n with
  | zero => rw [if_neg (by omega)]; rfl
  | succ n ih =>
    simp only [PwtQueue.lanesBelow_succ, PwtQueue.setLane, Tab.get_set, ih]
    by_cases last : 32 * vd + n = k
    · rw [if_pos last, if_pos (by omega), ← last, Nat.add_sub_cancel_left]
    · rw [if_neg last]
      exact if_congr (by omega) rfl rfl

theorem PwtQueue.lanesBelow_eq (q : PwtQueue) (vd : Nat) (f : Nat → Nat × Nat) (n : Nat) :
    (q.lanesBelow vd f n).1 = { q with v := (q.lanesBelow vd f n).1.v } := by
  induction n with
  | zero => rfl
  | succ n ih => rw [PwtQueue.lanesBelow_succ, ih]; rfl

theorem PwtQueue.lanesBelow_saturations (q : PwtQueue) (vd : Nat) (f : Nat → Nat × Nat) (n : Nat) :
    (q.lanesBelow vd f n).2 = ((List.range n).map fun l => (f l).2).sum := by
  induction n with
  | zero => rfl
  | succ n ih => simp [PwtQueue.lanesBelow_succ, List.range_succ, ih]

theorem PwtQueue.lanes_eq (q : PwtQueue) (vd : Nat) (f : Nat → Nat × Nat) : (q.lanes vd f).1 = { q with v := (q.lanes vd f).1.v } :=
  q.lanesBelow_eq vd f q.vl

theorem PwtQueue.lane_lanes {vd l : Nat} (active : l < q.vl) : (q.lanes vd f).1.lane vd l = (f l).1 % 2 ^ 32 := by
  rw [PwtQueue.lane, PwtQueue.lanes_eq_lanesBelow, PwtQueue.get_lanesBelow, if_pos (by omega), Nat.add_sub_cancel_left, BitVec.toNat_ofNat]

theorem PwtQueue.get_lanes_other {vd k : Nat} (other : ¬ (32 * vd ≤ k ∧ k < 32 * vd + q.vl)) : (q.lanes vd f).1.v.get 0 k = q.v.get 0 k := by
  rw [PwtQueue.lanes_eq_lanesBelow, PwtQueue.get_lanesBelow, if_neg other]

/-! ### Address generators and lanes after the rest of an instruction -/

@[simp] theorem PwtQueue.gen_setGen_same (q : PwtQueue) (k : Nat) (g : PwtAg) : (q.setGen k g).gen k = g := by
  simp [PwtQueue.gen, PwtQueue.setGen]

@[simp] theorem PwtQueue.setGen_pc (q : PwtQueue) (k : Nat) (g : PwtAg) : (q.setGen k g).pc = q.pc := rfl
@[simp] theorem PwtQueue.setGen_v (q : PwtQueue) (k : Nat) (g : PwtAg) : (q.setGen k g).v = q.v := rfl
@[simp] theorem PwtQueue.lane_setGen (q : PwtQueue) (k : Nat) (g : PwtAg) (vd l : Nat) : (q.setGen k g).lane vd l = q.lane vd l := rfl
@[simp] theorem PwtQueue.lane_step (q : PwtQueue) (vd l : Nat) : q.step.lane vd l = q.lane vd l := by simp [PwtQueue.lane]
@[simp] theorem PwtQueue.gen_step (q : PwtQueue) (k : Nat) : q.step.gen k = q.gen k := by rw [PwtQueue.step_eq]; rfl
@[simp] theorem PwtQueue.lanes_pc (q : PwtQueue) (vd : Nat) (f : Nat → Nat × Nat) : (q.lanes vd f).1.pc = q.pc := by rw [PwtQueue.lanes_eq]

/-! ### The instruction at the head, on the whole state -/

@[simp] theorem State.pq_tickNonce (s : State) (u i : Nat) : s.tickNonce.pq u i = s.pq u i := rfl

/-- An instruction has completed: INSNS is counted (R129). -/
def State.pwtCounted (t : State) (u : Nat) : State := t.bump (Reg.PWT_INSNS (u / 4) (u % 4)) 1

@[simp] theorem State.pq_pwtCounted (t : State) (u v i : Nat) : (t.pwtCounted u).pq v i = t.pq v i := rfl

variable {row : Instr} {op : Nat} {run : State → Nat → PwtRec → PwtInsn → Except Nat State}

/-- A row of the table that runs `run` completes with what `run` makes of the state, when the instruction at the head is that row's. -/
theorem exec_of_pwtOp (head : s.pwtHead u = some (i, r, some w)) (runs : exec row s = .next (s.pwtOp u (· == op) run)) (isOp : w.op = op)
    (done : run s i r w = .ok t) : exec row s = .next (t.pwtCounted u) := by
  rw [runs]
  simp [State.pwtOp, head, isOp, done, State.pwtCounted]

/-! ### Control (R103, R110, R126) -/

theorem exec_pwtWait_of_owned (head : s.pwtHead u = some (i, r, some w)) (op : w.op = 0x03)
    (owned : s.latchOwned (u / 4) (w.imm % 256) r.task.ctx = true) :
    exec (.pwtWait u) s =
      .next (((s.setPq u i (s.pq u i).edge).waitOn (u / 4) (w.imm % 256) (pwtWaiter u i) ((s.pq u i).s w.sa)).pwtCounted u) :=
  exec_of_pwtOp head rfl op (by simp [owned])

theorem exec_pwtSignal_of_owned (head : s.pwtHead u = some (i, r, some w)) (op : w.op = 0x04)
    (owned : s.latchOwned (u / 4) (w.imm % 256) r.task.ctx = true) :
    exec (.pwtSignal u) s =
      .next (((s.setPq u i (s.pq u i).step).signal (u / 4) (w.imm % 256) ((s.pq u i).s w.sa)).pwtCounted u) :=
  exec_of_pwtOp head rfl op (by simp [owned])

@[simp] theorem PwtQueue.s_setS_same (q : PwtQueue) (k n : Nat) : (q.setS k n).s k = n % 2 ^ 32 := by simp [PwtQueue.s, PwtQueue.setS]

/-- A scalar register holds 32 bits. -/
theorem PwtQueue.setS_mod (q : PwtQueue) (k n : Nat) : q.setS k (n % 2 ^ 32) = q.setS k n := by
  have word : BitVec.ofNat 32 (n % 2 ^ 32) = BitVec.ofNat 32 n := BitVec.eq_of_toNat_eq (by simp)
  rw [PwtQueue.setS, PwtQueue.setS, word]

/-- LOOP tests the register as it stands after the decrement. -/
theorem exec_loop_of_head {n : Nat} (head : s.pwtHead u = some (i, r, some w)) (op : w.op = 0x05)
    (hn : n = ((s.pq u i).s w.sd + 2 ^ 32 - 1) % 2 ^ 32) :
    exec (.loop u) s = .next ((s.setPq u i (if n = 0 then ((s.pq u i).setS w.sd n).step
      else ((s.pq u i).setS w.sd n).branch (sext 24 w.imm))).pwtCounted u) := by
  refine exec_of_pwtOp head rfl op ?_
  rw [hn, PwtQueue.setS_mod, ← PwtQueue.s_setS_same (s.pq u i) w.sd]
  rfl

theorem exec_rdtime_of_plain (head : s.pwtHead u = some (i, r, some w)) (op : w.op = 0x08) (plain : s.sterling r.task.ctx = false) :
    exec (.rdtime u) s = .next ((s.setPq u i ((s.pq u i).setS w.sd s.ns).step).pwtCounted u) :=
  exec_of_pwtOp head rfl op (by simp [plain])

theorem exec_rdcyc_of_plain (head : s.pwtHead u = some (i, r, some w)) (op : w.op = 0x09) (plain : s.sterling r.task.ctx = false) :
    exec (.rdcyc u) s =
      .next ((s.setPq u i ((s.pq u i).setS w.sd (Config.freeValue s.nonce)).step).tickNonce.pwtCounted u) :=
  exec_of_pwtOp head rfl op (by simp [plain])

/-! ### Memory (R114, R115, R117, R121, R122, R125) -/

theorem exec_pwtLd_of_legal {e : Nat} (head : s.pwtHead u = some (i, r, some w)) (op : w.op = 0x20) (elem : elemOf w.imm = some e)
    (legal : (s.pq u i).accessFault w e (s.shareSize (u / 4) r.task.ctx) = none) :
    exec (.pwtLd u) s = .next ((s.setPq u i ((((s.pq u i).lanes w.vd fun l => (nth 0 (((s.pq u i).addrs w e).map fun a =>
      wrap 32 (sext (8 * e) (fromLE ((s.shareRead (u / 4) r.task.ctx a e).getD [])))) l, 0)).1.setGen w.ag
        (((s.pq u i).gen w.ag).after e (s.pq u i).vl)).step)).pwtCounted u) :=
  exec_of_pwtOp head rfl op (by simp only [elem, legal])

/-- The elements that ST writes, each with its saturation. -/
def PwtQueue.stored (q : PwtQueue) (w : PwtInsn) (e : Nat) : List (Nat × Nat) :=
  (List.range q.vl).map fun l => if e = 4 then (q.lane w.va l, 0) else narrow (8 * e) (q.si w.va l)

theorem exec_pwtSt_of_legal {e : Nat} (head : s.pwtHead u = some (i, r, some w)) (op : w.op = 0x21) (elem : elemOf w.imm = some e)
    (legal : (s.pq u i).accessFault w e (s.shareSize (u / 4) r.task.ctx) = none) :
    exec (.pwtSt u) s = .next ((((s.storeLanes (u / 4) r.task.ctx r.task (bit w.imm 2)
      (((s.pq u i).addrs w e).zip (((s.pq u i).stored w e).map fun v => toLE e v.1)) [] 0).setPq u i
        ((s.pq u i).setGen w.ag (((s.pq u i).gen w.ag).after e (s.pq u i).vl)).step).bump (Reg.PWT_SAT (u / 4) (u % 4))
          (((s.pq u i).stored w e).map (·.2)).sum).pwtCounted u) :=
  exec_of_pwtOp head rfl op (by simp only [elem, legal]; rfl)

/-- A generator in mode LINEAR that has passed over `n` bytes. -/
def PwtAg.past (g : PwtAg) (n : Nat) : PwtAg := { g with p := BitVec.ofNat 32 (g.p.toNat + n) }

/-- R121: part `p` of lane `l`, unpacked from the blocks at share address `a` and not yet narrowed. -/
def State.bfpPart (s : State) (c x a wd l p : Nat) : Int :=
  let bs := (s.shareRead c x (a + l / 12 * (1 + 3 * wd)) (1 + 3 * wd)).getD []
  bfpMant bs wd (2 * (l % 12) + p) * Int.ofNat (2 ^ ((nth 0 bs 0).toNat % 16))

/-- The lane that BFPU writes, with its saturations. -/
def State.bfpLane (s : State) (c x a wd l : Nat) : Nat × Nat :=
  ci16Of (narrow 16 (s.bfpPart c x a wd l 0)) (narrow 16 (s.bfpPart c x a wd l 1))

/-- Blocks are unpacked and packed for 12 or 24 lanes only. -/
theorem blocks_legal {n : Nat} (blocks : n = 12 ∨ n = 24) : ¬ (n ≠ 12 ∧ n ≠ 24) := by omega

/-- BFPU without IMM[4] writes one vector register. -/
theorem exec_bfpu_of_linear {wd a : Nat} (head : s.pwtHead u = some (i, r, some w)) (op : w.op = 0x22) (width : bfpWidth w.imm = some wd)
    (blocks : (s.pq u i).vl = 12 ∨ (s.pq u i).vl = 24) (noExps : bit w.imm 4 = false)
    (lin : (s.pq u i).linear w ((s.pq u i).vl / 12 * (1 + 3 * wd)) (s.shareSize (u / 4) r.task.ctx) = .ok a) :
    exec (.bfpu u) s = .next ((((s.setPq u i (((s.pq u i).lanes w.vd (s.bfpLane (u / 4) r.task.ctx a wd)).1.setGen w.ag
      (((s.pq u i).gen w.ag).past ((s.pq u i).vl / 12 * (1 + 3 * wd)))).step).bump (Reg.PWT_SAT (u / 4) (u % 4))
        ((s.pq u i).lanes w.vd (s.bfpLane (u / 4) r.task.ctx a wd)).2).tickNonce).pwtCounted u) := by
  refine exec_of_pwtOp head rfl op ?_
  simp only [width, blocks_legal blocks, lin, noExps, if_false, Bool.false_and, Bool.false_eq_true]
  rfl

/-- The blocks that BFPK packs, each with its saturations. -/
def PwtQueue.packed (q : PwtQueue) (w : PwtInsn) (wd : Nat) : List (List Byte × Nat) :=
  (List.range (q.vl / 12)).map fun b => q.bfpPack w.va b wd (if bit w.imm 4 then some (q.lane w.vb (12 * b) % 16) else none)

theorem exec_bfpk_of_linear {wd a : Nat} (head : s.pwtHead u = some (i, r, some w)) (op : w.op = 0x23) (width : bfpWidth w.imm = some wd)
    (blocks : (s.pq u i).vl = 12 ∨ (s.pq u i).vl = 24)
    (lin : (s.pq u i).linear w ((s.pq u i).vl / 12 * (1 + 3 * wd)) (s.shareSize (u / 4) r.task.ctx) = .ok a) :
    exec (.bfpk u) s = .next ((((s.pwtWrite u r a (((s.pq u i).packed w wd).flatMap (·.1)) (bit w.imm 5)).setPq u i
      ((s.pq u i).setGen w.ag (((s.pq u i).gen w.ag).past ((s.pq u i).vl / 12 * (1 + 3 * wd)))).step).bump
        (Reg.PWT_SAT (u / 4) (u % 4)) (((s.pq u i).packed w wd).map (·.2)).sum).pwtCounted u) := by
  refine exec_of_pwtOp head rfl op ?_
  simp only [width, blocks_legal blocks, lin, if_false]
  rfl

/-- The bytes that LLR writes, each with its saturation. -/
def PwtQueue.llrs (q : PwtQueue) (w : PwtInsn) : List (Byte × Nat) :=
  (List.range q.vl).flatMap fun l => llrLane (w.imm % 4 + 1) (q.s w.sa % 2 ^ 16) (q.lane w.vb l % 2 ^ 16) w.sh (q.ci w.va l)

theorem exec_llr_of_linear {a : Nat} (head : s.pwtHead u = some (i, r, some w)) (op : w.op = 0x24) (shift : w.sh ≤ 31)
    (lin : (s.pq u i).linear w (2 * (w.imm % 4 + 1) * (s.pq u i).vl) (s.shareSize (u / 4) r.task.ctx) = .ok a) :
    exec (.llr u) s = .next ((((s.pwtWrite u r a (((s.pq u i).llrs w).map (·.1)) (bit w.imm 2)).setPq u i
      ((s.pq u i).setGen w.ag (((s.pq u i).gen w.ag).past (2 * (w.imm % 4 + 1) * (s.pq u i).vl))).step).bump
        (Reg.PWT_SAT (u / 4) (u % 4)) (((s.pq u i).llrs w).map (·.2)).sum).pwtCounted u) := by
  refine exec_of_pwtOp head rfl op ?_
  simp only [shift.not_gt, lin, if_false]
  rfl

/-! ### Faults (R128) -/

theorem State.pwtEnd_regs (s : State) (u i status cause : Nat) : (s.pwtEnd u i status cause).regs = s.regs := by
  simp only [State.pwtEnd]
  split
  next => rfl
  next => exact State.finish_regs ..

/-- A fault writes two registers. -/
theorem State.reg_pwtFault (s : State) (u i op cause a : Nat) : (s.pwtFault u i op cause).reg a =
    ((s.setReg (Reg.PWT_FAULT (u / 4) (u % 4)) (1 + 2 * cause + 16 * i + 256 * op)).setReg (Reg.PWT_FAULT_PC (u / 4) (u % 4))
      ((s.pq u i).pc % 2 ^ 25)).reg a := by
  simp only [State.reg, State.pwtFault, State.pwtEnd_regs]
  rfl

theorem State.reg_pwtFault_word (s : State) (u i op cause : Nat) :
    (s.pwtFault u i op cause).reg (Reg.PWT_FAULT (u / 4) (u % 4)) = (1 + 2 * cause + 16 * i + 256 * op) % 2 ^ 32 := by
  have apart : Reg.PWT_FAULT_PC (u / 4) (u % 4) ≠ Reg.PWT_FAULT (u / 4) (u % 4) := by simp [Reg.PWT_FAULT_PC, Reg.PWT_FAULT]
  rw [State.reg_pwtFault, State.reg_setReg_other _ _ _ _ apart, State.reg_setReg_same]

theorem State.reg_pwtFault_pc (s : State) (u i op cause : Nat) :
    (s.pwtFault u i op cause).reg (Reg.PWT_FAULT_PC (u / 4) (u % 4)) = (s.pq u i).pc % 2 ^ 25 := by
  rw [State.reg_pwtFault, State.reg_setReg_same]
  omega

theorem exec_pewterIllegalOp_of_undefined (head : s.pwtHead u = some (i, r, some w)) (undefined : pwtDefined w.op = false) :
    exec (.pewterIllegalOp u) s = .next (s.pwtFault u i w.op pwtIllegal) := by
  simp [exec, execPewterIllegalOp, State.pwtOp, head, undefined]

/-! ### Pushes (R99, R100) -/

variable {o : PwtOffer}

theorem PwtUnit.qu_setQu_other (t : PwtUnit) {i : Nat} (q : PwtQueue) (hi : i < 2) : (t.setQu i q).qu (1 - i) = t.qu (1 - i) := by
  obtain rfl | rfl : i = 0 ∨ i = 1 := by omega
  all_goals rfl

@[simp] theorem PwtUnit.setQu_offers (t : PwtUnit) (i : Nat) (q : PwtQueue) : (t.setQu i q).offers = t.offers := by
  unfold PwtUnit.setQu
  split <;> rfl

/-- The unit after push `o` has entered its queue. -/
def PwtUnit.push (t : PwtUnit) (o : PwtOffer) : PwtUnit :=
  { t.setQu o.q { t.qu o.q with recs := (t.qu o.q).recs ++ [o.issue] } with offers := t.offers.erase o }

theorem PwtUnit.qu_push (t : PwtUnit) (o : PwtOffer) : (t.push o).qu o.q = { t.qu o.q with recs := (t.qu o.q).recs ++ [o.issue] } :=
  t.qu_setQu o.q _

theorem PwtUnit.qu_push_other (t : PwtUnit) (hq : o.q < 2) : (t.push o).qu (1 - o.q) = t.qu (1 - o.q) := t.qu_setQu_other _ hq

/-- The push pointer reaches every source, and a lone push comes once. -/
theorem offers_in_order {src : Nat} (ho : o.src = src) (hs : src < 3) (p : Nat) :
    ([p % 3, (p + 1) % 3, (p + 2) % 3].flatMap fun k => [o].filter (·.src == k)) = [o] := by
  have each : ∀ k, [o].filter (·.src == k) = if src = k then [o] else [] := by simp [ho, List.filter_singleton]
  simp only [each, List.flatMap_cons, List.flatMap_nil, List.append_nil]
  obtain at0 | at1 | at2 : src = p % 3 ∨ src = (p + 1) % 3 ∨ src = (p + 2) % 3 := by omega
  · rw [if_pos at0, if_neg (by omega), if_neg (by omega)]; rfl
  · rw [if_neg (by omega), if_pos at1, if_neg (by omega)]; rfl
  · rw [if_neg (by omega), if_neg (by omega), if_pos at2]; rfl

/-- The state after the lone push `o` has entered: the push pointer names the source after its own. -/
def State.pushed (s : State) (u : Nat) (o : PwtOffer) : State :=
  let t := s.setPq u o.q { s.pq u o.q with recs := (s.pq u o.q).recs ++ [o.issue] }
  (t.setPewter u { t.pewter u with offers := (t.pewter u).offers.erase o }).setReg (Reg.PWT_PUSH_RR (u / 4) (u % 4)) ((o.src + 1) % 3)

theorem State.pewter_pushed (s : State) (u v : Nat) (o : PwtOffer) :
    (s.pushed u o).pewter v = if u = v then (s.pewter u).push o else s.pewter v := by
  change ((s.setPq u o.q _).setPewter u _).pewter v = _
  simp only [State.pewter_setPewter, State.setPq, if_true, PwtUnit.setQu_offers]
  split <;> rfl

theorem State.pushed_eq (s : State) (u : Nat) (o : PwtOffer) :
    s.pushed u o = { s with pwt := (s.pushed u o).pwt, regs := (s.pushed u o).regs } := rfl

theorem exec_pewterIssuePush_of_alone (on : s.clusterOn (u / 4) = true) (alone : (s.pewter u).offers = [o]) (hs : o.src < 3)
    (enabled : s.pwtEnabled u o.q = true) (room : (s.pq u o.q).recs.length < pwtDepth) :
    exec (.pewterIssuePush u) s = .next (s.pushed u o) := by
  simp only [exec, execPewterIssuePush, on, alone, offers_in_order rfl hs, List.foldl_cons, List.foldl_nil, enabled, room]
  rfl

/-! ### Kernels (R101) and the choice of a queue (R105) -/

/-- The queue of a kernel that has just started from its head record. -/
def PwtRec.start (r : PwtRec) (rest : List PwtRec) : PwtQueue :=
  { recs := r :: rest, run := true, pc := r.kaddr
    sreg := Tab.set 0 (Tab.set 0 (Tab.set 0 (Tab.set 0 [] 0 r.p0) 1 r.p1) 2 r.p2) 3 r.p3
    lines := [r.kaddr / 64] }

/-- What the writes of the parameters to s0 to s3 leave in register `k`. -/
theorem PwtRec.s_start (r : PwtRec) (rest : List PwtRec) (k : Nat) : (r.start rest).s k =
    (if 3 = k then r.p3 else if 2 = k then r.p2 else if 1 = k then r.p1 else if 0 = k then r.p0 else 0).toNat := by
  simp only [PwtQueue.s, PwtRec.start, Tab.get_set]
  rfl

theorem PwtRec.s_start_other (r : PwtRec) (rest : List PwtRec) {k : Nat} (other : 4 ≤ k) : (r.start rest).s k = 0 := by
  rw [PwtRec.s_start, if_neg (by omega), if_neg (by omega), if_neg (by omega), if_neg (by omega)]
  rfl

variable {rest : List PwtRec}

theorem exec_kernelStart_of_aligned (reaped : s.pwtReap u = s) (hi : i = (s.pewter u).serving) (recs : (s.pq u i).recs = r :: rest)
    (idle : (s.pq u i).run = false) (chosen : s.pwtChoice u = some i) (aligned : r.kaddr % 8 = 0) :
    exec (.kernelStart u) s = .next (s.setPq u i (r.start rest)) := by
  simp [exec, execKernelStart, reaped, ← hi, recs, idle, chosen, aligned, PwtRec.start]

theorem exec_pewterQueueChange_of_other (reaped : s.pwtReap u = s) (chosen : s.pwtChoice u = some i) (other : i ≠ (s.pewter u).serving) :
    exec (.pewterQueueChange u) s = .next ((s.setPewter u { s.pewter u with serving := i }).when (i == 0)
      (·.bump (Reg.PWT_PREEMPT (u / 4) (u % 4)) 1)) := by
  simp only [exec, execPewterQueueChange, reaped, chosen, other, if_false]

/-! ### Lines (R102), the tile limit (R104) and HALT (R129) -/

theorem exec_insnLineFetch_of_awaited {l wait : Nat} (hi : i = (s.pewter u).serving) (awaited : (s.pq u i).fetch = some l)
    (on : s.clusterOn (u / 4) = true) (enough : 20 ≤ wait) :
    exec (.insnLineFetch u wait) s = .next ((s.setPq u i ({ s.pq u i with fetch := none }.buffer l)).bump
      (Reg.PWT_STALL_MEM (u / 4) (u % 4)) wait) := by
  simp only [exec, execInsnLineFetch, ← hi, awaited, on, if_true, Nat.max_eq_right enough]

theorem exec_tileLimit_of_tenant {bs : List Byte} (hi : i = (s.pewter u).serving) (recs : (s.pq u i).recs = r :: rest)
    (inside : (s.pq u i).inTile = true) (runs : (s.pq u i).run = true) (on : s.clusterOn (u / 4) = true) (tenant : r.task.cls ≠ 0)
    (read : s.shareRead (u / 4) r.task.ctx (s.pq u i).pc 8 = some bs) :
    exec (.tileLimit u) s =
      .next ((s.bump (Reg.PWT_TILE_LIMIT (u / 4) (u % 4)) 1).pwtFault u i (decodePwt (fromLE bs)).op pwtTileLimit) := by
  have notRadio : (r.task.cls == 0) = false := by simpa using tenant
  simp only [exec, execTileLimit, ← hi, recs, inside, runs, on, read, notRadio, State.when_false, Bool.not_true, Bool.or_self,
    Bool.false_eq_true, if_false]

theorem exec_pwtHalt_of_present (on : Bool) (present : s.clusterPresent (u / 4) = true) :
    exec (.pwtHalt u on) s = .next (s.setField (Reg.PWT_CTRL (u / 4) (u % 4)) 2 2 (b2n on)) := by
  simp [exec, execPwtHalt, present]

end

/-! ### The obligations -/

/-- Settles O10, by induction on the number of lanes written. -/
theorem lanesWriteTheActiveLanes : Obligations.LanesWriteTheActiveLanes := by
  unfold Obligations.LanesWriteTheActiveLanes
  intro q vd f
  exact ⟨fun _ => PwtQueue.lane_lanes, fun _ => PwtQueue.get_lanes_other, q.lanesBelow_saturations vd f q.vl, q.lanes_eq vd f⟩

/-- Settles O13. Each row runs the function of its rule on the state, and an OP of no row faults. -/
theorem pewterControlInstructions : Obligations.PewterControlInstructions := by
  unfold Obligations.PewterControlInstructions
  rintro s u i r w _ head rfl
  refine ⟨fun op => exec_of_pwtOp head rfl op rfl, fun op => exec_of_pwtOp head rfl op rfl, exec_pwtWait_of_owned head,
    exec_pwtSignal_of_owned head, fun n => exec_loop_of_head head, fun op => exec_of_pwtOp head rfl op rfl, exec_rdtime_of_plain head,
    fun op plain => ⟨_, Config.freeValue s.nonce, exec_rdcyc_of_plain head op plain, s.pq_setPq_same .., rfl⟩, fun e => exec_pwtLd_of_legal head, ?st,
    fun wd a op width blocks noExps lin => ?bfpu, ?bfpk, ?llr,
    fun undefined => ⟨_, exec_pewterIllegalOp_of_undefined head undefined, rfl, s.reg_pwtFault_word .., s.reg_pwtFault_pc ..⟩⟩
  case st =>
    rintro e _ op elem legal rfl
    exact exec_pwtSt_of_legal head op elem legal
  case bfpu =>
    refine ⟨_, exec_bfpu_of_linear head op width blocks noExps lin, ?_⟩
    simp only [State.pq_pwtCounted, State.pq_tickNonce, State.pq_bump, State.pq_setPq_same, PwtQueue.step_pc, PwtQueue.step_v,
      PwtQueue.gen_step, PwtQueue.lane_step, PwtQueue.setGen_pc, PwtQueue.setGen_v, PwtQueue.gen_setGen_same, PwtQueue.lane_setGen,
      PwtQueue.lanes_pc, true_and]
    refine ⟨rfl, ?_, fun _ => PwtQueue.get_lanes_other⟩
    rintro l _ part active rfl parts
    rw [PwtQueue.lane_lanes active, parts 0, parts 1]
    rfl
  case bfpk =>
    rintro wd a _ op width blocks lin rfl
    exact exec_bfpk_of_linear head op width blocks lin
  case llr =>
    rintro a _ op shift lin rfl
    exact exec_llr_of_linear head op shift lin

/-- Settles O14. A lone push enters whatever the push pointer is, and a started kernel has its registers reset but for the parameters. -/
theorem pewterQueuesAndKernels : Obligations.PewterQueuesAndKernels := by
  unfold Obligations.PewterQueuesAndKernels
  refine ⟨fun s u o on alone hs hq enabled room => ?push, fun s u i r rest reaped hi recs idle chosen aligned => ?start,
    fun _ _ _ => exec_pewterQueueChange_of_other, fun _ _ _ _ _ => exec_insnLineFetch_of_awaited,
    fun _ _ _ _ _ _ => exec_tileLimit_of_tenant, fun _ _ => exec_pwtHalt_of_present⟩
  case push =>
    have unit : (s.pushed u o).pewter u = (s.pewter u).push o := by rw [State.pewter_pushed, if_pos rfl]
    refine ⟨_, exec_pewterIssuePush_of_alone on alone hs enabled room, ?_, ?_, ?_, ?_, fun v other => ?_, s.pushed_eq u o⟩
    · rw [State.pq, unit, PwtUnit.qu_push]; rfl
    · rw [State.pq, unit, PwtUnit.qu_push_other _ hq]; rfl
    · rw [unit, PwtUnit.push, alone, List.erase_cons_head]
    · rw [State.pushed, State.reg_setReg_same]; omega
    · rw [State.pewter_pushed, if_neg other.symm]
  case start =>
    refine ⟨_, exec_kernelStart_of_aligned reaped hi recs idle chosen aligned, ?_⟩
    rw [State.pq_setPq_same]
    exact ⟨rfl, rfl, rfl, rfl, rfl, rfl, rfl, rfl, rfl, r.s_start rest 0, r.s_start rest 1, r.s_start rest 2, r.s_start rest 3,
      fun _ => r.s_start_other rest⟩

end Sys2Proof.Machine
end

section
/-! SUPPORT. Proofs about the instructions of Tin threads on latches, pushes, digests and random words (R147, R149, R150, R231, R235), about the ND
fault of Sterling contexts (R152, R161) and about what ends a park (R140, R141, R146): what the instruction that issues leaves, what a fault leaves
alone, and the obligations that these rules settle. -/

namespace Sys2Proof.Tab

/-- Applying a function to every value of a table applies it to what a key reads. -/
theorem look_map {α β : Type} (f : α → β) (tab : Tab α) (k : Nat) :
    look (tab.map fun e => (e.1, f e.2)) k = (look tab k).map f := by
  induction tab with
  | nil => rfl
  | cons e tab ih =>
    simp only [List.map_cons, look, ih]
    split <;> rfl

theorem get_map {α β : Type} {f : α → β} {d : α} {d' : β} (keeps : f d = d') (tab : Tab α) (k : Nat) :
    get d' (tab.map fun e => (e.1, f e.2)) k = f (get d tab k) := by
  rw [get, look_map, get, ← keeps]
  cases look tab k <;> rfl

end Sys2Proof.Tab

namespace Sys2Proof.Machine

section
variable {s : State} {m t : Nat} {th : TinThread} {i : TinInsn}

/-! ### Threads of a core -/

@[simp] theorem State.thread_setThread_same (s : State) (m t : Nat) (th : TinThread) : (s.setThread m t th).thread m t = th := by
  simp [State.thread, State.setThread]

@[simp] theorem TinThread.getX_setX_same (th : TinThread) (v : W64) {r : Nat} (notZero : r ≠ 0) : (th.setX r v).getX r = v := by
  simp [TinThread.getX, TinThread.setX, notZero]

theorem State.leave_eq (s : State) (m t : Nat) : s.leave m t = { s with tin := (s.leave m t).tin } := by
  simp only [State.leave]
  split <;> rfl

/-- Counting a thread's time in PARKED_EXT writes registers only. -/
theorem State.parkTime_eq (s : State) (m : Nat) (th : TinThread) : s.parkTime m th = { s with regs := (s.parkTime m th).regs } := by
  unfold State.parkTime
  cases th.st == TinSt.parkedExt <;> rfl

theorem State.reg_parkTime_other (s : State) (m : Nat) (th : TinThread) {a : Nat} (low : Reg.TIN_PARK_CYCLES (m / 8) (m % 8) ≠ a)
    (high : Reg.TIN_PARK_CYCLES (m / 8) (m % 8) + 4 ≠ a) : (s.parkTime m th).reg a = s.reg a := by
  unfold State.parkTime
  cases th.st == TinSt.parkedExt
  · rfl
  · exact State.reg_bump_other _ _ _ _ low high

theorem State.unpark_eq (s : State) (m t : Nat) (th : TinThread) :
    s.unpark m t th = { s with tin := (s.unpark m t th).tin, regs := (s.unpark m t th).regs } := by
  unfold State.unpark
  rw [State.parkTime_eq]
  rfl

@[simp] theorem State.thread_unpark (s : State) (m t : Nat) (th : TinThread) : (s.unpark m t th).thread m t = th.wake (s.tinHalted m) :=
  State.thread_setThread_same ..

/-! ### The instruction that issues -/

theorem State.thread_of_ready (ready : TinReady s m t th i) : s.thread m t = th := ready.2.2.2.symm

/-- The row of the table that runs instructions of `i`'s kind completes with what its function makes of `i`. -/
theorem exec_of_ready {row : Instr} {k : TinKind} {f : Nat → TinThread → TinInsn → State} {u : State} (ready : TinReady s m t th i)
    (runs : exec row s = .next (s.insn m k f)) (kind : i.kind = k) (done : f t th i = u) : exec row s = .next u := by
  obtain ⟨on, cur, word, thread⟩ := ready
  rw [runs, ← done]
  simp only [State.insn, cur, word, kind, on, beq_self_eq_true, Bool.and_self, if_true, thread]

theorem State.insnFault_of_ready (ready : TinReady s m t th i) (cause addr : Nat) :
    s.insnFault m t cause addr = s.tinFault m t cause addr th.pc.toNat := by
  rw [State.insnFault, State.thread_of_ready ready]

/-! ### Latches (R149, R154) -/

variable {rd rs1 rs2 rs3 l n : Nat} {bs : List Byte}

/-- An LSIG or a push with no earlier store unacknowledged enters when it fits (R147). -/
theorem State.tinPush_of_fits {p : TinPush} (ready : TinReady s m t th i) (acked : th.pending = false) (fits : s.pushFits m th p = true) :
    s.tinPush m t p = (s.pushEnter m th p).retire m t th := by
  simp only [State.tinPush, State.thread_of_ready ready, acked, fits, Bool.false_eq_true, if_false, if_true]

theorem exec_lsig_of_legal (ready : TinReady s m t th i) (isOp : i = .lsig rs1 rs2) (hl : l = (th.getX rs1).toNat % 256)
    (hn : n = (th.getX rs2).toNat) (legal : s.latchFault m th l n = none) (acked : th.pending = false) :
    exec (.lsig m) s = .next ((s.signal (m / 8) l n).retire m t th) := by
  subst isOp hl hn
  refine exec_of_ready ready rfl rfl ?_
  simp only [legal]
  exact State.tinPush_of_fits ready acked rfl

theorem exec_lwait_of_count (ready : TinReady s m t th i) (isOp : i = .lwait rs1 rs2) (hl : l = (th.getX rs1).toNat % 256)
    (hn : n = (th.getX rs2).toNat) (legal : s.latchFault m th l n = none) (notZero : n ≠ 0) :
    exec (.lwait m) s = .next ((s.park m t th.next .parkedLatch .latch).waitOn (m / 8) l (tinWaiter m t) n) := by
  subst isOp hl hn
  refine exec_of_ready ready rfl rfl ?_
  simp only [legal, notZero, if_false]

theorem exec_lwait_of_zero (ready : TinReady s m t th i) (isOp : i = .lwait rs1 rs2) (hl : l = (th.getX rs1).toNat % 256)
    (zero : (th.getX rs2).toNat = 0) (legal : s.latchFault m th l 0 = none) :
    exec (.lwait m) s = .next ((s.retire m t th).bump (Reg.LAT_WAITS (m / 8)) 1) := by
  subst isOp hl
  refine exec_of_ready ready rfl rfl ?_
  simp only [zero, legal, State.waitOn, if_true]

/-- LTRY subtracts where the count is there, and answers whether it did. -/
theorem exec_ltry_of_legal (ready : TinReady s m t th i) (isOp : i = .ltry rd rs1 rs2) (hl : l = (th.getX rs1).toNat % 256)
    (hn : n = (th.getX rs2).toNat) (legal : s.latchFault m th l n = none) (plain : s.sterling th.ctx = false) :
    exec (.ltry m) s = .next (if n ≤ s.reg (Reg.LAT_COUNT (m / 8) l) then
      (s.setReg (Reg.LAT_COUNT (m / 8) l) (s.reg (Reg.LAT_COUNT (m / 8) l) - n)).retire m t (th.setX rd 1)
    else s.retire m t (th.setX rd 0)) := by
  subst isOp hl hn
  refine exec_of_ready ready rfl rfl ?_
  simp only [State.ndFault, plain, Bool.false_eq_true, if_false, legal]

theorem exec_lrd_of_legal (ready : TinReady s m t th i) (isOp : i = .lrd rd rs1) (hl : l = (th.getX rs1).toNat % 256)
    (legal : s.latchFault m th l 0 = none) (plain : s.sterling th.ctx = false) :
    exec (.lrd m) s = .next (s.retire m t (th.setX rd (BitVec.ofNat 64 (s.reg (Reg.LAT_COUNT (m / 8) l))))) := by
  subst isOp hl
  refine exec_of_ready ready rfl rfl ?_
  simp only [State.ndFault, plain, Bool.false_eq_true, if_false, legal]

/-! ### Pushes (R147, R149, R150) -/

theorem exec_trpush_of_fits (ready : TinReady s m t th i) (isOp : i = .trpush rs1 rs2) (hn : n = (th.getX rs2).toNat) (low : 1 ≤ n)
    (high : n ≤ 64) (read : s.shareRead (m / 8) th.ctx (th.getX rs1).toNat (64 * n) = some bs) (acked : th.pending = false)
    (fits : s.pushFits m th (.trpush (records bs n)) = true) :
    exec (.trpush m) s = .next ((s.pushEnter m th (.trpush (records bs n))).retire m t th) := by
  subst isOp hn
  have inRange : ¬ ((th.getX rs2).toNat = 0 ∨ 64 < (th.getX rs2).toNat) := by omega
  refine exec_of_ready ready rfl rfl ?_
  simp only [inRange, if_false, read, State.tinPush_of_fits ready acked fits]

theorem exec_dmaq_of_fits {v : Nat} (ready : TinReady s m t th i) (isOp : i = .dmaq rs1 rs2) (hv : v = (th.getX rs2).toNat)
    (owned : v / 2 ^ 32 ≠ 0 → s.latchOwned (m / 8) (v % 256) th.ctx = true)
    (read : s.shareRead (m / 8) th.ctx (th.getX rs1).toNat 32 = some bs) (acked : th.pending = false)
    (fits : s.pushFits m th (.dmaq bs (v % 256) (v / 2 ^ 32)) = true) :
    exec (.dmaq m) s = .next ((s.pushEnter m th (.dmaq bs (v % 256) (v / 2 ^ 32))).retire m t th) := by
  subst isOp hv
  have granted : ¬ ((th.getX rs2).toNat / 2 ^ 32 ≠ 0 ∧ ¬ s.latchOwned (m / 8) ((th.getX rs2).toNat % 256) th.ctx = true) :=
    fun h => h.2 (owned h.1)
  refine exec_of_ready ready rfl rfl ?_
  simp only [granted, if_false, read, State.tinPush_of_fits ready acked fits]

theorem exec_pwissue_of_fits {p : TinPush} (ready : TinReady s m t th i) (isOp : i = .pwissue rs1 rs2 rs3)
    (hp : p = .pwissue (th.getX rs1).toNat (BitVec.ofNat 32 (th.getX rs2).toNat) (BitVec.ofNat 32 ((th.getX rs2).toNat / 2 ^ 32))
      (BitVec.ofNat 32 (th.getX rs3).toNat) (BitVec.ofNat 32 ((th.getX rs3).toNat / 2 ^ 32)))
    (acked : th.pending = false) (fits : s.pushFits m th p = true) :
    exec (.pwissue m) s = .next ((s.pushEnter m th p).retire m t th) := by
  subst isOp
  refine exec_of_ready ready rfl rfl ?_
  simp only [Nat.pow_zero, Nat.div_one, ← hp, State.tinPush_of_fits ready acked fits]

/-! ### Digests and random words (R149, R231, R235) -/

theorem exec_dgadd_of_legal {a : Nat} (ready : TinReady s m t th i) (isOp : i = .dgadd rs1 rs2) (ha : a = (th.getX rs1).toNat)
    (hn : n = (th.getX rs2).toNat) (notZero : n ≠ 0) (device : a < 2 ^ 57) (near : spaceOf a ∉ [1, 3, 256])
    (right : s.tinCheck m th.id false false 1 a n = none) :
    exec (.dgadd m) s = .next ((s.mark th.id (if spaceOf a = 2 then shareMark (offOf a) else a) n).retire m t th) := by
  subst isOp ha hn
  have notFar : ¬ (spaceOf (th.getX rs1).toNat = 1 ∨ spaceOf (th.getX rs1).toNat = 3 ∨ spaceOf (th.getX rs1).toNat = 256) := by
    simpa using near
  refine exec_of_ready ready rfl rfl ?_
  simp only [notZero, if_false, device.not_ge, notFar, right]

theorem exec_rngw_of_range (ready : TinReady s m t th i) (isOp : i = .rngw rd rs1 rs2) (inRange : (th.getX rs2).toNat < 2 ^ 50) :
    exec (.rngw m) s = .next
      (s.retire m t (th.setX rd (BitVec.ofNat 64 (s.taskWord th.id ((th.getX rs1).toNat % 2 ^ 16) (th.getX rs2).toNat)))) := by
  subst isOp
  refine exec_of_ready ready rfl rfl ?_
  simp only [inRange.not_ge, if_false]

theorem exec_rngd_of_range (ready : TinReady s m t th i) (isOp : i = .rngd rd rs1 rs2) (hn : n = (th.getX rs2).toNat) (inRange : n < 2 ^ 49) :
    exec (.rngd m) s = .next
      (s.retire m t (th.setX rd (BitVec.ofNat 64 (s.taskWord th.id ((th.getX rs1).toNat % 2 ^ 16) (2 * n) +
        2 ^ 32 * s.taskWord th.id ((th.getX rs1).toNat % 2 ^ 16) (2 * n + 1))))) := by
  subst isOp hn
  refine exec_of_ready ready rfl rfl ?_
  simp only [inRange.not_ge, if_false]

theorem exec_trng_of_plain (ready : TinReady s m t th i) (isOp : i = .trng rd) (plain : s.sterling th.ctx = false) :
    exec (.trng m) s = .next ((s.retire m t (th.setX rd (BitVec.ofNat 64 (Config.freeValue s.nonce)))).tickNonce) := by
  subst isOp
  refine exec_of_ready ready rfl rfl ?_
  simp only [State.ndFault, plain, Bool.false_eq_true, if_false]

/-! ### ND operations of a Sterling context (R152) -/

/-- An ND operation of a Sterling context faults, whatever it would do elsewhere. -/
theorem State.ndFault_of_sterling {u : State} (ready : TinReady s m t th i) (sterling : s.sterling th.ctx = true) :
    (if s.ndFault th = true then s.insnFault m t tinNd 0 else u) = s.tinFault m t tinNd 0 th.pc.toNat := by
  rw [if_pos (show s.ndFault th = true from sterling), State.insnFault_of_ready ready]

theorem exec_ltry_of_sterling (ready : TinReady s m t th i) (sterling : s.sterling th.ctx = true) (isOp : i = .ltry rd rs1 rs2) :
    exec (.ltry m) s = .next (s.tinFault m t tinNd 0 th.pc.toNat) := by
  subst isOp
  exact exec_of_ready ready rfl rfl (State.ndFault_of_sterling ready sterling)

theorem exec_lrd_of_sterling (ready : TinReady s m t th i) (sterling : s.sterling th.ctx = true) (isOp : i = .lrd rd rs1) :
    exec (.lrd m) s = .next (s.tinFault m t tinNd 0 th.pc.toNat) := by
  subst isOp
  exact exec_of_ready ready rfl rfl (State.ndFault_of_sterling ready sterling)

theorem exec_trng_of_sterling (ready : TinReady s m t th i) (sterling : s.sterling th.ctx = true) (isOp : i = .trng rd) :
    exec (.trng m) s = .next (s.tinFault m t tinNd 0 th.pc.toNat) := by
  subst isOp
  exact exec_of_ready ready rfl rfl (State.ndFault_of_sterling ready sterling)

/-- Both widths of FAADD fault alike. -/
theorem State.faaddInsn_of_sterling {dbl : Bool} (ready : TinReady s m t th i) (sterling : s.sterling th.ctx = true)
    (isOp : i = .faadd dbl rd rs1 rs2) : s.faaddInsn m t th i = s.tinFault m t tinNd 0 th.pc.toNat := by
  subst isOp
  exact State.ndFault_of_sterling ready sterling

theorem exec_faaddD_of_sterling (ready : TinReady s m t th i) (sterling : s.sterling th.ctx = true) (isOp : i = .faadd true rd rs1 rs2) :
    exec (.faaddD m) s = .next (s.tinFault m t tinNd 0 th.pc.toNat) :=
  exec_of_ready ready rfl (by rw [isOp]; rfl) (State.faaddInsn_of_sterling ready sterling isOp)

theorem exec_faaddS_of_sterling (ready : TinReady s m t th i) (sterling : s.sterling th.ctx = true) (isOp : i = .faadd false rd rs1 rs2) :
    exec (.faaddS m) s = .next (s.tinFault m t tinNd 0 th.pc.toNat) :=
  exec_of_ready ready rfl (by rw [isOp]; rfl) (State.faaddInsn_of_sterling ready sterling isOp)

/-- A read of cycle, time or instret: the CSR instruction's form writes nothing. -/
theorem exec_tinCsrAccess_of_sterling {f3 num : Nat} (ready : TinReady s m t th i) (sterling : s.sterling th.ctx = true)
    (isOp : i = .csr f3 rd 0 num) (reads : f3 % 4 ≠ 1) (counter : num ∈ [0xC00, 0xC01, 0xC02]) :
    exec (.tinCsrAccess m) s = .next (s.tinFault m t tinNd 0 th.pc.toNat) := by
  subst isOp
  have isCounter : num = 0xC00 ∨ num = 0xC01 ∨ num = 0xC02 := by simpa using counter
  have noWrite : (f3 % 4 == 1 || (0 : Nat) != 0) = false := by simpa using reads
  refine exec_of_ready ready rfl rfl ?_
  simp only [State.csrInsn, isCounter, if_true, noWrite, Bool.false_eq_true, if_false, State.ndFault_of_sterling ready sterling]

end

/-! ### Fills that go on when a reader leaves (R269 to R273) -/

section
variable {s t u : State}

/-- The counters that the Dumbwaiter's queue moves. -/
def fillCounters : List Nat := [Reg.DMW_EVICTS, Reg.DMW_EVICTS + 4, Reg.DMW_FILL_WAIT, Reg.DMW_FILL_WAIT + 4]

/-- `t` is `s` but for the tables of the tiers (shelves, granules, fills) and the counters of fills. -/
def FillsOnly (s t : State) : Prop :=
  t = { s with tiers := t.tiers, regs := t.regs } ∧ ∀ a, a ∉ fillCounters → t.reg a = s.reg a

theorem FillsOnly.refl (s : State) : FillsOnly s s := ⟨rfl, fun _ _ => rfl⟩

theorem FillsOnly.trans (first : FillsOnly s t) (second : FillsOnly t u) : FillsOnly s u := by
  obtain ⟨ht, hta⟩ := first
  obtain ⟨hu, hua⟩ := second
  refine ⟨?_, fun a ha => (hua a ha).trans (hta a ha)⟩
  rw [hu, ht]

theorem FillsOnly.of_tiers (s : State) (v : Tiers) : FillsOnly s { s with tiers := v } := ⟨rfl, fun _ _ => rfl⟩

theorem FillsOnly.setShelf (s : State) (i : Nat) (v : Shelf) : FillsOnly s (s.setShelf i v) := FillsOnly.of_tiers s _

theorem FillsOnly.bump {a : Nat} (n : Nat) (low : a ∈ fillCounters) (high : a + 4 ∈ fillCounters) : FillsOnly s (s.bump a n) :=
  ⟨rfl, fun _ hb => State.reg_bump_other _ _ _ _ (fun h => hb (h ▸ low)) (fun h => hb (h ▸ high))⟩

theorem FillsOnly.dropMapping (s : State) (sh : Nat) : FillsOnly s (s.dropMapping sh) :=
  (FillsOnly.of_tiers s _).trans (FillsOnly.bump 1 (by simp [fillCounters]) (by simp [fillCounters]))

theorem FillsOnly.makeRoom {fn : Nat} {cost : List (Nat × Nat)} {n : Nat} (made : s.makeRoom fn cost n = some t) : FillsOnly s t := by
  induction n generalizing s with
  | zero => cases made
  | succ n ih =>
    rw [State.makeRoom] at made
    split at made
    · split at made
      · exact (FillsOnly.dropMapping s _).trans (ih made)
      · cases made
    · split at made
      · exact Option.some.inj made ▸ FillsOnly.refl s
      · split at made
        · exact (FillsOnly.dropMapping s _).trans (ih made)
        · cases made

theorem FillsOnly.when {b : Bool} {f : State → State} (each : FillsOnly s (f s)) : FillsOnly s (s.when b f) := by
  cases b
  · exact FillsOnly.refl s
  · exact each

theorem FillsOnly.grantFill (s : State) (f : Fill) : FillsOnly s (s.grantFill f) := by
  unfold State.grantFill
  split
  next v made => exact (FillsOnly.makeRoom made).trans (FillsOnly.of_tiers v _)
  next =>
    exact (FillsOnly.setShelf s f.shelf { s.shelf f.shelf with waited := true }).trans
      (FillsOnly.when (FillsOnly.bump (a := Reg.DMW_FILL_WAIT) 1 (by simp [fillCounters]) (by simp [fillCounters])))

theorem FillsOnly.pumpFills (s : State) (fs : List Fill) (n : Nat) : FillsOnly s (s.pumpFills fs n) := by
  induction n generalizing s fs with
  | zero => exact FillsOnly.refl s
  | succ n ih =>
    rw [State.pumpFills]
    split
    · exact (FillsOnly.grantFill s _).trans (ih _ _)
    · exact FillsOnly.refl s

theorem FillsOnly.runFills (s : State) : FillsOnly s s.runFills := by
  unfold State.runFills
  split
  · exact FillsOnly.pumpFills ..
  · exact FillsOnly.refl s

theorem FillsOnly.foldl {f : State → Nat → State} (each : ∀ s k, FillsOnly s (f s k)) (s : State) (ks : List Nat) :
    FillsOnly s (ks.foldl f s) := by
  induction ks generalizing s with
  | nil => exact FillsOnly.refl s
  | cons k ks ih => exact (each s k).trans (ih _)

/-- A reader's references go; EVICTING shelves without another lose their mapping, and fills that waited go on. -/
theorem FillsOnly.dropReader (s : State) (r : Reader) : FillsOnly s (s.dropReader r) := by
  refine (FillsOnly.of_tiers s _).trans (FillsOnly.foldl (fun v sh => ?_) _ _)
  split
  · exact (FillsOnly.dropMapping v sh).trans (FillsOnly.runFills _)
  · exact FillsOnly.refl v

end

/-! ### The end of a thread and its fault (R148, R161) -/

/-- No register from 0x1000000 up, where those of the clusters stand, counts fills. -/
theorem notMem_fillCounters {a : Nat} (above : 0x1000000 ≤ a) : a ∉ fillCounters := by
  simp only [fillCounters, Reg.DMW_EVICTS, Reg.DMW_FILL_WAIT, List.mem_cons, List.not_mem_nil, or_false]
  omega

/-- The state that the end of a thread leaves beside the thread itself. -/
def State.tinLeft (s : State) (m t : Nat) : State := ((s.parkTime m (s.thread m t)).dropReader (.tin m t)).leave m t

theorem State.tinLeft_eq (s : State) (m t : Nat) :
    s.tinLeft m t = { s with tin := (s.tinLeft m t).tin, regs := (s.tinLeft m t).regs, tiers := (s.tinLeft m t).tiers } := by
  unfold State.tinLeft
  rw [State.leave_eq, (FillsOnly.dropReader _ _).1, State.parkTime_eq]

/-- The end of a thread counts its time in PARKED_EXT and writes no other register of the cluster. -/
theorem State.reg_tinEnd_other (s : State) (m t status cause : Nat) {a : Nat} (notFill : a ∉ fillCounters)
    (low : Reg.TIN_PARK_CYCLES (m / 8) (m % 8) ≠ a) (high : Reg.TIN_PARK_CYCLES (m / 8) (m % 8) + 4 ≠ a) :
    (s.tinEnd m t status cause).reg a = s.reg a := by
  calc (s.tinEnd m t status cause).reg a
    _ = (s.tinLeft m t).reg a := rfl
    _ = ((s.parkTime m (s.thread m t)).dropReader (.tin m t)).reg a := by rw [State.tinLeft, State.leave_eq]; rfl
    _ = (s.parkTime m (s.thread m t)).reg a := (FillsOnly.dropReader _ _).2 a notFill
    _ = s.reg a := State.reg_parkTime_other _ _ _ low high

/-- A thread that has ended with an end `e`: it keeps its registers. -/
def TinThread.ended (th : TinThread) (e : Nat × Nat) (clk : Nat) : TinThread :=
  { th with st := .parkedFence, wait := .ending, ending := some e, parkedAt := clk, resv := none, woken := false }

theorem State.tinEnd_eq (s : State) (m t status cause : Nat) : s.tinEnd m t status cause = (s.tinLeft m t).setThread m t
    ((s.thread m t).ended (if status = 0 then (0, 0) else (s.thread m t).pushStat.getD (status, cause)) (s.tinLeft m t).clk) := rfl

/-- The state with a fault recorded in the three registers of the core (R161). -/
def State.faultRecorded (s : State) (m t cause addr pc : Nat) : State :=
  ((s.setReg (Reg.TIN_FAULT (m / 8) (m % 8)) (1 + 2 * cause + 16 * t + 256 * (s.thread m t).ctx)).setReg64
    (Reg.TIN_FAULT_PC (m / 8) (m % 8)) pc).setReg64 (Reg.TIN_FAULT_ADDR (m / 8) (m % 8)) addr

theorem State.tinFault_eq (s : State) (m t cause addr pc : Nat) :
    s.tinFault m t cause addr pc = (s.faultRecorded m t cause addr pc).tinEnd m t 1 cause := rfl

theorem State.reg_setReg64_other (s : State) (a v b : Nat) (low : a ≠ b) (high : a + 4 ≠ b) : (s.setReg64 a v).reg b = s.reg b := by
  rw [State.setReg64, State.reg_setReg_other _ _ _ _ high, State.reg_setReg_other _ _ _ _ low]

/-- The word of TIN_FAULT outlasts the writes of PC and address and the end of the thread. -/
theorem State.reg_tinFault_word (s : State) (m t cause addr pc : Nat) : (s.tinFault m t cause addr pc).reg (Reg.TIN_FAULT (m / 8) (m % 8)) =
    (1 + 2 * cause + 16 * t + 256 * (s.thread m t).ctx) % 2 ^ 32 := by
  calc (s.tinFault m t cause addr pc).reg (Reg.TIN_FAULT (m / 8) (m % 8))
    _ = (s.faultRecorded m t cause addr pc).reg (Reg.TIN_FAULT (m / 8) (m % 8)) := by
      refine State.reg_tinEnd_other _ m t 1 cause (notMem_fillCounters ?_) ?_ ?_ <;>
        simp only [Reg.TIN_FAULT, Reg.TIN_PARK_CYCLES] <;> omega
    _ = (s.setReg (Reg.TIN_FAULT (m / 8) (m % 8)) (1 + 2 * cause + 16 * t + 256 * (s.thread m t).ctx)).reg
          (Reg.TIN_FAULT (m / 8) (m % 8)) := by
      rw [State.faultRecorded, State.reg_setReg64_other, State.reg_setReg64_other] <;>
        simp only [Reg.TIN_FAULT, Reg.TIN_FAULT_PC, Reg.TIN_FAULT_ADDR] <;> omega
    _ = _ := State.reg_setReg_same ..

/-- No latch counts at a fault. -/
theorem State.reg_tinFault_latch (s : State) (m t cause addr pc : Nat) {c l : Nat} (hl : l < 256) :
    (s.tinFault m t cause addr pc).reg (Reg.LAT_COUNT c l) = s.reg (Reg.LAT_COUNT c l) := by
  calc (s.tinFault m t cause addr pc).reg (Reg.LAT_COUNT c l)
    _ = (s.faultRecorded m t cause addr pc).reg (Reg.LAT_COUNT c l) := by
      refine State.reg_tinEnd_other _ m t 1 cause (notMem_fillCounters ?_) ?_ ?_ <;>
        simp only [Reg.LAT_COUNT, Reg.TIN_PARK_CYCLES] <;> omega
    _ = s.reg (Reg.LAT_COUNT c l) := by
      rw [State.faultRecorded, State.reg_setReg64_other, State.reg_setReg64_other, State.reg_setReg_other] <;>
        simp only [Reg.LAT_COUNT, Reg.TIN_FAULT, Reg.TIN_FAULT_PC, Reg.TIN_FAULT_ADDR] <;> omega

theorem State.thread_tinFault (s : State) (m t cause addr pc : Nat) : ∃ e clk,
    (s.tinFault m t cause addr pc).thread m t = (s.thread m t).ended e clk :=
  ⟨_, _, State.thread_setThread_same ..⟩

/-- A fault writes the thread, registers, and the tables of fills that its references held up. -/
theorem State.tinFault_frame (s : State) (m t cause addr pc : Nat) : s.tinFault m t cause addr pc =
    { s with
      tin := (s.tinFault m t cause addr pc).tin
      regs := (s.tinFault m t cause addr pc).regs
      tiers := (s.tinFault m t cause addr pc).tiers } := by
  rw [State.tinFault_eq, State.tinEnd_eq, State.tinLeft_eq]
  rfl

/-! ### Writes of the tier range and the threads (R134, R140) -/

section
variable {s : State} {m t : Nat}

/-- The core after its threads have lost their reservations on granules. -/
def TinCore.lose (gs : List Nat) (v : TinCore) : TinCore := { v with threads := v.threads.map fun e => (e.1, e.2.lose gs) }

theorem State.core_loseResv (s : State) (gs : List Nat) (m : Nat) : (s.loseResv gs).core m = (s.core m).lose gs :=
  Tab.get_map (f := TinCore.lose gs) (d := {}) rfl s.tin m

/-- A store ends reservations and changes nothing else of a thread. -/
theorem State.thread_loseResv (s : State) (gs : List Nat) (m t : Nat) : (s.loseResv gs).thread m t = (s.thread m t).lose gs := by
  rw [State.thread, State.core_loseResv]
  exact Tab.get_map (f := TinThread.lose gs) (d := {}) rfl (s.core m).threads t

theorem TinThread.lose_eq (th : TinThread) (gs : List Nat) : th.lose gs = { th with resv := (th.lose gs).resv } := by
  unfold TinThread.lose
  split
  · split <;> rfl
  · rfl

theorem State.thread_tierWrite (s : State) (a : Nat) (bs : List Byte) (m t : Nat) :
    (s.tierWrite a bs).thread m t = { s.thread m t with resv := ((s.tierWrite a bs).thread m t).resv } := by
  rw [State.tierWrite, State.thread_loseResv, TinThread.lose_eq]
  rfl

/-- The data cache is no part of a thread. -/
theorem State.thread_dUpdate (s : State) (m x o : Nat) (bs : List Byte) (t : Nat) : (s.dUpdate m x o bs).thread m t = s.thread m t := by
  simp only [State.dUpdate]
  split
  · rfl
  · simp only [State.thread, State.core_setCore_same]

theorem State.dUpdate_eq (s : State) (m x o : Nat) (bs : List Byte) : s.dUpdate m x o bs = { s with tin := (s.dUpdate m x o bs).tin } := by
  simp only [State.dUpdate]
  split <;> rfl

/-- Beside what `f` does, keeping a thread's own reservation (R134) touches the cores only. -/
theorem State.keepResv_eq (s : State) (m t : Nat) (f : State → State) :
    s.keepResv m t f = { f s with tin := (s.keepResv m t f).tin } := by
  simp only [State.keepResv]
  split <;> rfl

theorem State.thread_keepResv (s : State) (m t : Nat) (f : State → State) :
    (s.keepResv m t f).thread m t = { (f s).thread m t with resv := ((s.keepResv m t f).thread m t).resv } := by
  simp only [State.keepResv]
  split
  · simp only [State.thread_setThread_same]
  · rfl

/-- A write of a context of the secure world meets no region filter (R449). -/
theorem State.worldWrite_of_secure {x a who : Nat} {bs : List Byte} (secure : s.secureCtx x = true) (nonempty : bs ≠ []) :
    s.worldWrite who x a bs = s.tierWrite a bs := by
  simp [State.worldWrite, secure, nonempty]

variable {a : Nat} {bs : List Byte}

/-- A thread's store to the tier range is a write there and in the data cache. -/
theorem State.tinWrite_of_tier (tier : spaceOf a = 0) (secure : s.secureCtx (s.thread m t).ctx = true) (nonempty : bs ≠ []) :
    s.tinWrite m t a bs = (s.keepResv m t fun s => s.tierWrite (offOf a) bs).dUpdate m (s.thread m t).ctx (offOf a) bs := by
  have world : (s.keepResv m t fun v => v.worldWrite whoTin (s.thread m t).ctx (offOf a) bs) =
      s.keepResv m t fun v => v.tierWrite (offOf a) bs := by
    simp only [State.keepResv, State.worldWrite_of_secure secure nonempty]
  simp [State.tinWrite, tier, world]

theorem State.tinWrite_frame (tier : spaceOf a = 0) (secure : s.secureCtx (s.thread m t).ctx = true) (nonempty : bs ≠ []) :
    s.tinWrite m t a bs = { s.tierWrite (offOf a) bs with tin := (s.tinWrite m t a bs).tin } := by
  rw [State.tinWrite_of_tier tier secure nonempty, State.dUpdate_eq, State.keepResv_eq]

theorem State.thread_tinWrite (tier : spaceOf a = 0) (secure : s.secureCtx (s.thread m t).ctx = true) (nonempty : bs ≠ []) :
    (s.tinWrite m t a bs).thread m t = { s.thread m t with resv := ((s.tinWrite m t a bs).thread m t).resv } := by
  rw [State.tinWrite_of_tier tier secure nonempty, State.thread_dUpdate, State.thread_keepResv, State.thread_tierWrite]

/-! ### What ends a park (R140, R141, R146) -/

/-- Waking changes what the thread waits for, and makes it READY unless TIN_CTRL.HALT holds it (R162). -/
theorem TinThread.wake_eq (th : TinThread) (halt : Bool) :
    th.wake halt = { th with wait := .none, woken := halt, st := if halt then th.st else .ready } := by
  cases halt <;> rfl

/-- The thread after an atomic's result `v` has come for register `rd`. -/
def TinThread.resulted (th : TinThread) (rd : Nat) (v : W64) : TinThread :=
  ({ th with outs := th.outs.filter (·.store) }.setX rd v).next

theorem TinThread.resulted_eq (th : TinThread) (rd : Nat) (v : W64) : th.resulted rd v =
    { th with
      x := (th.setX rd v).x
      outs := th.outs.filter (·.store)
      pc := th.next.pc
      instret := th.next.instret } := by
  unfold TinThread.resulted TinThread.setX
  split <;> rfl

theorem State.amoResult_of_plain (s : State) (m t rd : Nat) (v : W64) :
    s.amoResult m t rd v false = s.unpark m t ((s.thread m t).resulted rd v) := rfl

theorem exec_extResponseArrive_of_result {x e rd : Nat} {v : W64} (owns : (s.thread m t).owns x e = true)
    (waits : (s.thread m t).wait = .result rd v false) (turn : (s.thread m t).turn = true) :
    exec (.extResponseArrive m t x e none) s = .next (s.unpark m t ((s.thread m t).resulted rd v)) := by
  simp only [exec, execExtResponseArrive, owns, waits, turn, Bool.not_true, Bool.false_eq_true, if_false, if_true,
    State.amoResult_of_plain]

theorem exec_extResponseArrive_of_freed {x e : Nat} (freed : (s.thread m t).owns x e = false) (stray : (s.core m).stray ≠ 0) :
    exec (.extResponseArrive m t x e none) s = .next ((s.setCore m { s.core m with stray := (s.core m).stray - 1 }).bump
      (Reg.TIN_LATE_DROP (m / 8) (m % 8)) 1) := by
  simp only [exec, execExtResponseArrive, freed, Bool.not_false, if_true, State.lateDrop, stray, if_false]

/-- The oldest store of the path goes, and what waited for it is looked at again. -/
theorem exec_storeAck_of_posted {x e path : Nat} {o : TinOut} (owns : (s.thread m t).owns x e = true) (near : path < 4)
    (oldest : (s.thread m t).outs.find? (fun o => o.store && o.path == path) = some o) :
    exec (.storeAck m t x e path) s =
      .next ((s.setThread m t { s.thread m t with outs := (s.thread m t).outs.erase o }).tinPoll m t) := by
  simp only [exec, execStoreAck, owns, near, oldest, Bool.not_true, Bool.false_eq_true, if_false, if_true]

theorem exec_queueRoom_of_fits {p : TinPush} (waits : (s.thread m t).wait = .room p) (on : s.clusterOn (m / 8) = true)
    (fits : s.pushFits m (s.thread m t) p = true) :
    exec (.queueRoom m t) s = .next ((s.pushEnter m (s.thread m t) p).unpark m t (s.thread m t).next) := by
  simp only [exec, execQueueRoom, waits, on, fits, Bool.and_self, if_true]

/-- An address outside the cluster has one path. -/
theorem pathsOf_single (far : pathOf a ≠ 2) : pathsOf [a] = [pathOf a] := by
  simp [pathsOf, far]

/-- A store whose acceptance leaves at most 16 unacknowledged is written and outstanding, and its thread goes on. -/
theorem exec_outboundBufferAccept_of_one (waits : (s.thread m t).wait = .accept [(a, bs)]) (far : pathOf a ≠ 2)
    (few : (s.thread m t).posted < 16) (lives : ((s.tinWrite m t a bs).thread m t).task.isSome = true) :
    exec (.outboundBufferAccept m t) s = .next (((s.tinWrite m t a bs).addOuts m t [a] bs.length true).unpark m t
      (((s.tinWrite m t a bs).addOuts m t [a] bs.length true).thread m t).next) := by
  have room : ¬ 16 < (s.thread m t).posted + 1 := by omega
  have alive : ((s.tinWrite m t a bs).thread m t).task.isNone = false := by
    rw [← Option.not_isSome, lives]
    rfl
  simp only [exec, execOutboundBufferAccept, waits, List.map_cons, List.map_nil, pathsOf_single far, List.length_singleton, room, if_false,
    List.foldl_cons, List.foldl_nil, alive, Bool.false_eq_true, List.sum_cons, List.sum_nil, Nat.add_zero]

theorem State.addOuts_eq (s : State) (m t : Nat) (as : List Nat) (n : Nat) (st : Bool) :
    s.addOuts m t as n st = { s with tin := (s.addOuts m t as n st).tin, regs := (s.addOuts m t as n st).regs } := rfl

/-- A posted store is one more that has not been acknowledged. -/
theorem State.posted_addOuts_one (s : State) (m t : Nat) (far : pathOf a ≠ 2) (n : Nat) :
    ((s.addOuts m t [a] n true).thread m t).posted = (s.thread m t).posted + 1 := by
  have thread : (s.addOuts m t [a] n true).thread m t = _ := State.thread_setThread_same s m t _
  rw [thread, pathsOf_single far]
  simp [TinThread.posted]

end

/-! ### The obligations -/

/-- Settles O20. That a store is written at its home when the outbound buffer accepts it is log 90; that a response or an acknowledgement names
the context and epoch of its access, and is late where they fit no thread, is log 97. -/
theorem tinParkedThreadsGoOn : Obligations.TinParkedThreadsGoOn := by
  unfold Obligations.TinParkedThreadsGoOn
  refine ⟨fun s m t x e rd v owns waits turn running notZero => ?result, fun _ _ _ _ _ => exec_extResponseArrive_of_freed,
    fun _ _ _ _ _ _ _ => exec_storeAck_of_posted, fun s m t a bs waits tier few lives secure nonempty => ?accept,
    fun _ _ _ _ => exec_queueRoom_of_fits⟩
  case result =>
    refine ⟨_, exec_extResponseArrive_of_result owns waits turn, ?_⟩
    rw [State.thread_unpark, running, TinThread.wake_eq, TinThread.resulted_eq]
    exact ⟨TinThread.getX_setX_same _ _ notZero, rfl, rfl, rfl, rfl, State.unpark_eq ..⟩
  case accept =>
    have thread := State.thread_tinWrite tier secure nonempty
    have far : pathOf a ≠ 2 := by simp [pathOf, tier]
    have frame := State.tinWrite_frame tier secure nonempty
    refine ⟨_, exec_outboundBufferAccept_of_one waits far few (by rw [thread]; exact lives), ?_, ?_, ?_, ?_⟩
    · rw [State.unpark_eq, State.addOuts_eq, frame]
    · rw [State.unpark_eq, State.addOuts_eq, frame]
      rfl
    · rw [State.thread_unpark, TinThread.wake_eq]
    · rw [State.thread_unpark, TinThread.wake_eq]
      calc (((s.tinWrite m t a bs).addOuts m t [a] bs.length true).thread m t).posted
        _ = ((s.tinWrite m t a bs).thread m t).posted + 1 := State.posted_addOuts_one _ m t far _
        _ = (s.thread m t).posted + 1 := by rw [thread]; rfl

/-- Settles O18. That LWAIT(n) parks also where the count is there already, and that each TRPUSH is an item of its own, is log 94. -/
theorem tinLatchesAndPushes : Obligations.TinLatchesAndPushes := by
  unfold Obligations.TinLatchesAndPushes
  intro s m t th i ready
  exact ⟨fun _ _ _ _ => exec_lsig_of_legal ready, fun _ _ _ _ => exec_lwait_of_count ready, fun _ _ _ => exec_lwait_of_zero ready,
    fun _ _ _ _ _ => exec_ltry_of_legal ready, fun _ _ _ => exec_lrd_of_legal ready, fun _ _ _ _ => exec_trpush_of_fits ready,
    fun _ _ _ _ => exec_dmaq_of_fits ready, fun _ _ _ _ => exec_pwissue_of_fits ready, fun _ _ _ _ => exec_dgadd_of_legal ready,
    fun _ _ _ => exec_rngw_of_range ready, fun _ _ _ _ => exec_rngd_of_range ready,
    fun _ isOp plain => ⟨_, exec_trng_of_plain ready isOp plain⟩⟩

/-- Settles O56. Each form faults before it does anything else, and the end of the faulting thread leaves its registers, latches and memories. -/
theorem sterlingThreadsFaultOnNd : Obligations.SterlingThreadsFaultOnNd := by
  unfold Obligations.SterlingThreadsFaultOnNd
  refine ⟨fun s m t th i ready sterling => ?row, ?fault⟩
  case row =>
    exact ⟨fun _ _ _ => exec_ltry_of_sterling ready sterling, fun _ _ => exec_lrd_of_sterling ready sterling,
      fun _ => exec_trng_of_sterling ready sterling, fun _ _ _ => exec_faaddD_of_sterling ready sterling,
      fun _ _ _ => exec_faaddS_of_sterling ready sterling, fun _ _ _ => exec_tinCsrAccess_of_sterling ready sterling⟩
  case fault =>
    rintro s _ m t pc rfl _ _
    obtain ⟨e, clk, thread⟩ := s.thread_tinFault m t 6 0 pc
    have frame := s.tinFault_frame m t 6 0 pc
    refine ⟨by rw [thread]; rfl, by rw [thread]; rfl, by rw [frame], fun c l _ hl => s.reg_tinFault_latch m t 6 0 pc hl, ?_,
      by rw [frame], by rw [frame]⟩
    rw [State.field, State.reg_tinFault_word, bits, Nat.shiftRight_eq_div_pow]
    omega

end Sys2Proof.Machine
end

section
/-! SUPPORT. Proofs about the rows of a DMA transfer within a cluster's shares and about their acknowledgements (R167, R168, R181): what the engine
does with the transfer at the head of the radio queue, what the end of a transfer leaves, and the obligation that these rules settle. -/

namespace Sys2Proof.Machine

section
variable {s u : State} {c q k : Nat} {x : DmaXfer} {rest : List DmaXfer} {bs : List Byte}

/-! ### The queues of an engine -/

@[simp] theorem State.dmaQ_setDmaQ_same (s : State) (c q : Nat) (xs : List DmaXfer) : (s.setDmaQ c q xs).dmaQ c q = xs := by
  by_cases radio : q = 0 <;> simp [State.dmaQ, State.setDmaQ, radio]

/-- The radio queue's rows leave the tenant queue. -/
@[simp] theorem State.dmaQ_setDmaQ_tenant (s : State) (c : Nat) (xs : List DmaXfer) : (s.setDmaQ c 0 xs).dmaQ c 1 = s.dmaQ c 1 := by
  simp [State.dmaQ, State.setDmaQ]

theorem State.setDmaQ_eq (s : State) (c q : Nat) (xs : List DmaXfer) : s.setDmaQ c q xs = { s with dma := (s.setDmaQ c q xs).dma } := rfl

/-- A state with the same engines has the same queues. -/
theorem State.dmaQ_of_dma (same : u.dma = s.dma) (c q : Nat) : u.dmaQ c q = s.dmaQ c q := by
  simp only [State.dmaQ, State.dmaEng, same]

theorem eraseIdx_setNth (xs : List DmaXfer) (k : Nat) (y : DmaXfer) : (setNth xs k y).eraseIdx k = xs.eraseIdx k := by
  induction xs generalizing k with
  | nil => rfl
  | cons x xs ih =>
    cases k with
    | zero => rfl
    | succ k => simp [setNth, ih]

/-! ### A row between shares (R167, R168) -/

/-- The transfer is a started one of a task, and its next row lies in the shares at both ends and is not marked for a digest. -/
structure ShareRow (x : DmaXfer) : Prop where
  use : x.use = .task
  started : x.started = true
  live : x.fin = false ∧ x.err = none
  more : x.next < x.desc.rows
  src : x.desc.srcShare = true
  dst : x.desc.dstShare = true
  noDigest : x.desc.digest = false

/-- The head of a queue is the transfer whose row comes next. -/
theorem State.dmaNext_of_shareRow (row : ShareRow x) (head : s.dmaQ c q = x :: rest) : s.dmaNext c q = some (0, x) := by
  obtain ⟨notOver, noErr⟩ := row.live
  simp [State.dmaNext, head, List.findIdx?_cons, notOver, noErr, row.more]

theorem State.dmaNext_of_empty (empty : s.dmaQ c q = []) : s.dmaNext c q = none := by
  simp [State.dmaNext, empty]

/-- No test and no Solder load is left to a started transfer between shares: its entry of the queue is written as it was. -/
theorem State.dmaBegin_of_shareRow (row : ShareRow x) (head : s.dmaQ c q = x :: rest) :
    s.dmaBegin c q = s.setDmaQ c q (x :: rest) := by
  have same : { x with started := true } = x := by rw [← row.started]
  simp [State.dmaBegin, State.dmaNext_of_shareRow row head, row.started, row.src, dmaSpace, State.setXfer, head, setNth, same]

theorem State.dmaBegin_of_empty (empty : s.dmaQ c q = []) : s.dmaBegin c q = s := by
  rw [State.dmaBegin, State.dmaNext_of_empty empty]

/-! ### Writes of a share (R200) -/

/-- The contents of the scratchpads decide what a write of a share leaves there. -/
theorem State.slotWrite_spad_congr {r : ResSlot} {o : Nat} (same : u.spad = s.spad) :
    (u.slotWrite c r o bs).spad = (s.slotWrite c r o bs).spad := by
  induction bs generalizing s u o with
  | nil => exact same
  | cons b bs ih => exact ih (by simp only [same])

variable {ctx o : Nat}

/-- A write of bytes that fit in the share is performed. -/
theorem State.shareWrite_of_fits (fits : o + bs.length ≤ s.shareSize c ctx) (nonempty : bs ≠ []) :
    ∃ v, s.shareWrite c ctx o bs = some v := by
  have pos := List.length_pos_of_ne_nil nonempty
  unfold State.shareSize at fits
  unfold State.shareWrite
  cases slot : s.resSlot c ctx with
  | none =>
    rw [slot] at fits
    change o + bs.length ≤ 0 at fits
    omega
  | some e =>
    rw [slot] at fits
    simp [fits]

/-- A read of a share gives as many bytes as were asked for. -/
theorem State.length_shareRead {n : Nat} (read : s.shareRead c ctx o n = some bs) : bs.length = n := by
  unfold State.shareRead at read
  split at read
  · split at read
    · rw [← Option.some.inj read, State.slotRead, List.length_map, List.length_range]
    · cases read
  · cases read

/-- Besides the scratchpads a write of a share touches the reservations of threads. -/
theorem State.shareWrite_frame {v : State} (written : s.shareWrite c ctx o bs = some v) :
    v = { s with spad := v.spad, tin := v.tin } := by
  unfold State.shareWrite at written
  split at written
  · split at written
    · rw [← Option.some.inj written, State.slotWrite_eq]
      rfl
    · cases written
  · cases written

theorem State.shareWrite_spad_congr (cl : u.cl = s.cl) (spad : u.spad = s.spad) :
    (u.shareWrite c ctx o bs).map (·.spad) = (s.shareWrite c ctx o bs).map (·.spad) := by
  have slot : u.resSlot c ctx = s.resSlot c ctx := by simp only [State.resSlot, State.cluster, cl]
  unfold State.shareWrite
  rw [slot]
  split
  · split
    · simp only [Option.map_some, State.loseResv_spad, State.slotWrite_spad_congr spad]
    · rfl
  · rfl

/-! ### The row moves -/

theorem State.dmaRead_of_shareRow {ext : Option ExtData} (row : ShareRow x)
    (read : s.shareRead c x.task.ctx (x.desc.srcRow x.next).toNat x.desc.rowBytes = some bs) : s.dmaRead c q x ext = .data s bs := by
  simp only [State.dmaRead, dmaSpace, dmaOff, row.src, if_true, read]

theorem State.dmaWrite_of_shareRow (row : ShareRow x)
    (written : s.shareWrite c x.task.ctx (x.desc.dstRow x.next).toNat bs = some u) : s.dmaWrite c q x bs = u := by
  simp only [State.dmaWrite, dmaSpace, dmaOff, row.dst, row.noDigest, if_true, written, Option.getD_some, Bool.false_eq_true, if_false]

/-- The transfer after its next row has been written and waits for its acknowledgement. -/
def DmaXfer.rowWritten (x : DmaXfer) : DmaXfer := { x with next := x.next + 1, unacked := x.unacked + 1, asked := false }

theorem State.dmaRow_of_shareRow {ext : Option ExtData} (row : ShareRow x) (head : s.dmaQ c q = x :: rest)
    (read : s.shareRead c x.task.ctx (x.desc.srcRow x.next).toNat x.desc.rowBytes = some bs)
    (written : s.shareWrite c x.task.ctx (x.desc.dstRow x.next).toNat bs = some u) :
    s.dmaRow c q ext = some (u.setXfer c q 0 x.rowWritten) := by
  simp only [State.dmaRow, State.dmaNext_of_shareRow row head, row.started, Bool.not_true, Bool.false_eq_true, if_false, row.use,
    State.dmaRead_of_shareRow row read, State.dmaWrite_of_shareRow row written, DmaXfer.rowWritten, Nat.add_zero]

/-- The radio queue's row goes out, whatever host memory has answered. -/
theorem exec_dmaRow_of_shareRow {ext ext' : Option ExtData} (on : s.clusterOn c = true) (steady : s.holding c = false) (row : ShareRow x)
    (head : s.dmaQ c 0 = x :: rest) (noTenant : s.dmaQ c 1 = [])
    (read : s.shareRead c x.task.ctx (x.desc.srcRow x.next).toNat x.desc.rowBytes = some bs)
    (written : (s.setDmaQ c 0 (x :: rest)).shareWrite c x.task.ctx (x.desc.dstRow x.next).toNat bs = some u) :
    exec (.dmaRow c ext ext') s = .next (u.setXfer c 0 0 x.rowWritten) := by
  have begun : (s.dmaBegin c 0).dmaBegin c 1 = s.setDmaQ c 0 (x :: rest) := by
    rw [State.dmaBegin_of_shareRow row head, State.dmaBegin_of_empty (by rw [State.dmaQ_setDmaQ_tenant, noTenant])]
  have moved := State.dmaRow_of_shareRow (ext := ext) row (State.dmaQ_setDmaQ_same s c 0 (x :: rest)) read written
  simp only [exec, execDmaRow, on, steady, Bool.not_true, Bool.or_self, Bool.false_eq_true, if_false, begun, moved]

/-! ### Acknowledgements (R181) -/

/-- The transfer after its oldest unacknowledged row has been acknowledged. -/
def DmaXfer.acked (x : DmaXfer) : DmaXfer := { x with unacked := x.unacked - 1 }

theorem exec_dmaRowAck_of_more (entry : (s.dmaQ c q)[k]? = some x) (more : 1 < x.unacked)
    (near : dmaSpace x.desc.dstShare x.desc.dst ≠ 256) : exec (.dmaRowAck c q k) s = .next (s.setXfer c q k x.acked) := by
  have unacked : x.unacked ≠ 0 := by omega
  have left : x.unacked - 1 ≠ 0 := by omega
  cases err : x.err <;>
    simp [exec, execDmaRowAck, entry, near, unacked, left, err, DmaXfer.acked, firstBad]

/-- The last row's acknowledgement ends a task's transfer OK, and the transfer leaves its queue. -/
theorem exec_dmaRowAck_of_last (entry : (s.dmaQ c q)[k]? = some x) (use : x.use = .task) (own : x.task.thread = false)
    (last : x.unacked = 1) (ok : x.err = none) (all : x.desc.rows ≤ x.next) (near : dmaSpace x.desc.dstShare x.desc.dst ≠ 256) :
    exec (.dmaRowAck c q k) s =
      .next (((s.setXfer c q k x.acked).setDmaQ c q ((s.dmaQ c q).eraseIdx k)).pushDone ⟨x.task, 0, 0, c⟩) := by
  have ended : (s.setXfer c q k x.acked).dmaOver c q k x.acked 0 0 =
      ((s.setXfer c q k x.acked).setDmaQ c q ((s.dmaQ c q).eraseIdx k)).pushDone ⟨x.task, 0, 0, c⟩ := by
    simp [State.dmaOver, DmaXfer.acked, use, State.setXfer, eraseIdx_setNth, State.finish, own]
  rw [← ended]
  simp [exec, execDmaRowAck, entry, near, last, ok, all, DmaXfer.acked, firstBad]

end

/-! ### The obligation -/

/-- Settles O27. The row is the one heading the radio queue; its write of the share touches the scratchpads and reservations only. -/
theorem dmaRowsMoveAndAcknowledge : Obligations.DmaRowsMoveAndAcknowledge := by
  unfold Obligations.DmaRowsMoveAndAcknowledge
  refine ⟨fun s c a b n x rest bs ext ext' on steady radio tenant use started notOver noErr more src dst noDigest hn pos ha hb read fits => ?row,
    fun s c q k x entry use own last ok all near => ?last, fun _ _ _ _ _ => exec_dmaRowAck_of_more⟩
  case row =>
    subst hn ha hb
    have row : ShareRow x := ⟨use, started, ⟨notOver, noErr⟩, more, src, dst, noDigest⟩
    have length : bs.length = x.desc.rowBytes := State.length_shareRead read
    obtain ⟨u, written⟩ := (s.setDmaQ c 0 (x :: rest)).shareWrite_of_fits (c := c) (ctx := x.task.ctx) (o := (x.desc.dstRow x.next).toNat)
      (bs := bs) (by rw [length]; exact fits) (fun empty => pos (by rw [← length, empty]; rfl))
    have frame := State.shareWrite_frame written
    refine ⟨_, exec_dmaRow_of_shareRow on steady row radio tenant read written, ?_, ?_, ?_, ?_⟩
    · rw [State.setXfer, State.dmaQ_setDmaQ_same, State.dmaQ_of_dma (s := s.setDmaQ c 0 (x :: rest)) (by rw [frame]), State.dmaQ_setDmaQ_same]
      rfl
    · rw [← State.shareWrite_spad_congr (s := s) (u := s.setDmaQ c 0 (x :: rest)) rfl rfl, written]
      rfl
    · rw [State.setXfer, State.setDmaQ_eq, frame]
      rfl
    · rw [State.setXfer, State.setDmaQ_eq, frame]
      rfl
  case last =>
    exact ⟨_, exec_dmaRowAck_of_last entry use own last ok all near, rfl,
      (State.dmaQ_of_dma rfl c q).trans (State.dmaQ_setDmaQ_same (s.setXfer c q k x.acked) c q _), rfl⟩

end Sys2Proof.Machine
end

section
/-! SUPPORT. Proofs about what Cabinet creates (R163 to R165, R187, R220): what a taken mailbox command leaves, the lowest free numbers and slot
runs, and the obligation that these rules settle. -/

namespace Sys2Proof.Machine

section
variable {s u : State} {i : Issuer} {x : Nat}

/-! ### Commands of a box (R416, R419) -/

section
variable {code status : Nat} {f : Nat → Nat → CmdRes} {body : List Nat}

/-- A taken command that is carried out is answered OK. -/
theorem State.command_of_ok (taken : Taken s i code) (done : f (s.issuerFn i) (s.box i).version = .ok (u, body)) :
    s.command i code f = u.answer i 0 0 body := by
  obtain ⟨busy, isCode, served⟩ := taken
  have runs : ((s.box i).busy && (s.box i).command == code && s.served i) = true := by simp [busy, isCode, served]
  simp only [State.command, runs, if_true, done, stOk]

/-- A refusal that blames no argument has DETAIL 0. -/
theorem State.command_of_error (taken : Taken s i code) (notArgument : status ≠ stArgument)
    (refused : f (s.issuerFn i) (s.box i).version = .error status) : s.command i code f = s.answer i status 0 [] := by
  obtain ⟨busy, isCode, served⟩ := taken
  have runs : ((s.box i).busy && (s.box i).command == code && s.served i) = true := by simp [busy, isCode, served]
  simp only [State.command, runs, if_true, refused, State.refuse, notArgument, if_false]

end

/-- The issuer's function may name context `x` (log 10). -/
theorem State.ctxFor_of_valid (valid : (s.ctx x).valid = true) (may : s.issuerFn i = 0 ∨ (s.ctx x).fn = s.issuerFn i) :
    s.ctxFor (s.issuerFn i) x = .ok (s.ctx x) := by
  have allowed : ¬ (s.issuerFn i ≠ 0 ∧ (s.ctx x).fn ≠ s.issuerFn i) := by tauto
  simp only [State.ctxFor, valid, Bool.not_true, Bool.false_eq_true, if_false, allowed]

/-! ### Lowest free numbers and slot runs (R163, R164) -/

theorem lowestFree_eq_some_iff {n : Nat} {used : Nat → Bool} :
    lowestFree n used = some x ↔ x < n ∧ used x = false ∧ ∀ y, y < x → used y = true := by
  simp only [lowestFree, List.find?_range_eq_some, List.mem_range, Bool.not_eq_eq_eq_not, Bool.not_true, Bool.not_false]
  tauto

/-- The slots from `b` to `b + n` meet no context's slots and lie in the slot table. -/
def State.runFree (s : State) (n b : Nat) : Bool :=
  decide (b + n ≤ 131072) && s.liveCtxs.all fun e => decide (b + n ≤ e.2.slotBase) || decide (e.2.slotBase + e.2.slotCount ≤ b)

theorem State.runFree_iff {n b : Nat} : s.runFree n b = true ↔
    (∀ e ∈ s.liveCtxs, b + n ≤ e.2.slotBase ∨ e.2.slotBase + e.2.slotCount ≤ b) ∧ b + n ≤ 131072 := by
  simp only [State.runFree, Bool.and_eq_true, decide_eq_true_eq, List.all_eq_true, Bool.or_eq_true]
  tauto

/-- Where a lowest run can start: at 0, or behind the slots of a context. -/
def State.runStarts (s : State) : List Nat := 0 :: s.liveCtxs.map fun e => e.2.slotBase + e.2.slotCount

/-- Cabinet takes the lowest of the starts that fit. -/
theorem State.freeRun_eq_min? (s : State) (n : Nat) : s.freeRun n = (s.runStarts.filter (s.runFree n)).min? := by
  have fits : s.runFree n = fun b => decide (b + n ≤ 131072) && (s.liveCtxs.map (·.2)).all fun c =>
      decide (b + n ≤ c.slotBase) || decide (c.slotBase + c.slotCount ≤ b) := by
    funext b
    rw [State.runFree, List.all_map]
    rfl
  simp only [State.freeRun, State.runStarts, fits, List.map_map, Function.comp_def]
  generalize List.filter _ _ = starts
  cases starts with
  | nil => rfl
  | cons a starts =>
    rw [List.min?_cons', List.foldl_cons]
    induction starts generalizing a with
    | nil => rfl
    | cons b starts ih => exact ih (min a b)

/-- At or below a free run some start is free too: the last of the ends of slots, and 0, that do not lie beyond the run. -/
theorem State.exists_runStart_le {n k : Nat} (free : s.runFree n k = true) : ∃ b ∈ s.runStarts, s.runFree n b = true ∧ b ≤ k := by
  obtain ⟨apart, inside⟩ := State.runFree_iff.mp free
  obtain ⟨b, last⟩ : ∃ b, (s.runStarts.filter (· ≤ k)).max? = some b := by
    rw [State.runStarts, List.filter_cons_of_pos (by simp)]
    exact ⟨_, List.max?_cons'⟩
  obtain ⟨mem, greatest⟩ := List.max?_eq_some_iff.mp last
  obtain ⟨isStart, below⟩ := List.mem_filter.mp mem
  have below : b ≤ k := of_decide_eq_true below
  refine ⟨b, isStart, State.runFree_iff.mpr ⟨fun e he => ?_, by omega⟩, below⟩
  rcases apart e he with before | behind
  · exact .inl (by omega)
  · have isStart : e.2.slotBase + e.2.slotCount ∈ s.runStarts := List.mem_cons_of_mem _ (List.mem_map_of_mem he)
    exact .inr (greatest _ (List.mem_filter.mpr ⟨isStart, decide_eq_true behind⟩))

/-- A free run that is found is free, and none below it is. -/
theorem State.freeRun_spec {n b : Nat} (found : s.freeRun n = some b) :
    s.runFree n b = true ∧ ∀ k, s.runFree n k = true → b ≤ k := by
  rw [State.freeRun_eq_min?, List.min?_eq_some_iff] at found
  obtain ⟨mem, least⟩ := found
  refine ⟨(List.mem_filter.mp mem).2, fun k free => ?_⟩
  obtain ⟨a, isStart, startFree, below⟩ := State.exists_runStart_le free
  exact (least a (List.mem_filter.mpr ⟨isStart, startFree⟩)).trans below

/-! ### Creation of a context (R163, R164, R195) -/

theorem State.clearCtxCounters_eq (s : State) (x : Nat) : s.clearCtxCounters x = { s with regs := (s.clearCtxCounters x).regs } := rfl

/-- CAB_CTX_REFUSED is the last of the counters that are cleared. -/
theorem State.reg64_clearCtxCounters_refused (s : State) (x : Nat) : (s.clearCtxCounters x).reg64 (Reg.CAB_CTX_REFUSED x) = 0 :=
  State.reg64_setReg64 ..

/-- The context that a creation makes, of number `x`, with the slots from `b`, event queue `q` and window `w`. -/
def createdCtx (i : Issuer) (owner b slots floor weight q w : Nat) : Ctx :=
  { valid := true, fn := owner, slotBase := b, slotCount := slots, floor := floor, weight := weight, evq := q, window := w
    l1 := i == .firmware, secure := floor == 0 && i == .mbox 0 0 }

/-- The state in which context `x` has been created as `c`. -/
def State.created (s : State) (x : Nat) (c : Ctx) : State :=
  { (s.setCtx x c).clearCtxCounters x with
    slots := s.slots.filter fun e => decide (e.1 < c.slotBase) || decide (c.slotBase + c.slotCount ≤ e.1) }

theorem State.created_eq (s : State) (x : Nat) (c : Ctx) : s.created x c =
    { s with ctxs := (s.created x c).ctxs, slots := (s.created x c).slots, regs := (s.created x c).regs } := by
  rw [State.created, State.clearCtxCounters_eq]
  rfl

theorem State.ctx_created (s : State) (x y : Nat) (c : Ctx) : (s.created x c).ctx y = if x = y then c else s.ctx y :=
  State.ctx_setCtx s x y c

theorem State.reg64_created_refused (s : State) (x : Nat) (c : Ctx) : (s.created x c).reg64 (Reg.CAB_CTX_REFUSED x) = 0 :=
  (s.setCtx x c).reg64_clearCtxCounters_refused x

variable {owner slots floor weight evq q b w : Nat}

/-- What a creation needs of its operands and of the queue, numbers, slots, quota and window that Cabinet finds for it. -/
structure Creates (s : State) (fn owner slots floor weight evq q x b w : Nat) : Prop where
  may : fn = 0 ∨ (owner = fn ∧ 2 ≤ floor)
  enough : 64 ≤ slots
  whole : slots % 64 = 0
  isClass : floor ≤ 7
  weighed : 1 ≤ weight ∧ weight ≤ 255
  isFn : owner < 1024
  queue : s.poolQueue owner evq = some q
  enabled : (s.queue q).en = true
  forEvents : (s.queue q).typ = 2
  owned : (s.queue q).fn = owner
  number : lowestFree 4096 (fun x => (s.ctx x).valid) = some x
  run : s.freeRun slots = some b
  quota : s.ctxCount owner < s.ctxQuota owner
  window : lowestFree 256 (fun w => s.liveCtxs.any fun c => c.2.fn == owner && c.2.window == w) = some w

theorem State.createCtx_of_creates {fn : Nat} (creates : Creates s fn owner slots floor weight evq q x b w) :
    s.createCtx i fn owner slots floor weight evq = .ok (s.created x (createdCtx i owner b slots floor weight q w), [x, b, w]) := by
  obtain ⟨may, enough, whole, isClass, ⟨weightLow, weightHigh⟩, isFn, queue, enabled, forEvents, owned, number, run, quota, window⟩ := creates
  have permitted : ¬ (fn ≠ 0 ∧ (owner ≠ fn ∨ floor < 2)) := by omega
  have inRange : ¬ (slots < 64 ∨ slots % 64 ≠ 0 ∨ 7 < floor ∨ weight = 0 ∨ 255 < weight ∨ 1024 ≤ owner) := by omega
  simp only [State.createCtx, permitted, inRange, if_false, queue, enabled, forEvents, owned, Bool.not_true, bne_self_eq_false, Bool.or_self,
    Bool.false_eq_true, number, run, Nat.not_le.mpr quota, window]
  rfl

theorem exec_cabCtxCreate_of_creates (host : i ≠ .firmware) (taken : Taken s i 0x0201)
    (creates : Creates s (s.issuerFn i) owner slots floor weight evq q x b w) : exec (.cabCtxCreate i owner slots floor weight evq) s =
      .next ((s.created x (createdCtx i owner b slots floor weight q w)).answer i 0 0 [x, b, w]) := by
  simp only [exec, execCabCtxCreate, host, if_false]
  rw [State.command_of_ok taken]
  exact State.createCtx_of_creates creates

/-! ### Weight, seed and barriers (R165, R187, R220) -/

theorem exec_cabCtxSetWeight_of_valid (taken : Taken s i 0x0202) (valid : (s.ctx x).valid = true)
    (may : s.issuerFn i = 0 ∨ (s.ctx x).fn = s.issuerFn i) (low : 1 ≤ weight) (high : weight ≤ 255) :
    exec (.cabCtxSetWeight i x weight) s = .next ((s.setCtx x { s.ctx x with weight := weight }).answer i 0 0 []) := by
  have inRange : ¬ (weight = 0 ∨ 255 < weight) := by omega
  simp only [exec, execCabCtxSetWeight]
  rw [State.command_of_ok taken]
  simp only [State.ctxFor_of_valid valid may, inRange, if_false]

theorem exec_cabCtxSetSeed_of_valid {seed : Nat} (taken : Taken s i 0x0208) (valid : (s.ctx x).valid = true)
    (may : s.issuerFn i = 0 ∨ (s.ctx x).fn = s.issuerFn i) :
    exec (.cabCtxSetSeed i x seed) s = .next ((s.setCtx x { s.ctx x with seed := seed % 2 ^ 64 }).answer i 0 0 []) := by
  simp only [exec, execCabCtxSetSeed]
  rw [State.command_of_ok taken]
  simp only [State.ctxFor_of_valid valid may]

theorem exec_cabBarAlloc_of_free {p : Nat} (taken : Taken s i 0x0204) (low : 1 ≤ p) (high : p ≤ 65535)
    (free : lowestFree 4096 (fun b => (s.bar b).valid) = some b) :
    exec (.cabBarAlloc i p) s = .next ((s.setBar b { valid := true, fn := s.issuerFn i, p := p }).answer i 0 0 [b]) := by
  have inRange : ¬ (p = 0 ∨ 65535 < p) := by omega
  simp only [exec, execCabBarAlloc]
  rw [State.command_of_ok taken]
  simp only [inRange, if_false, free]

end

/-! ### The obligation -/

/-- Settles O22. That Cabinet takes the lowest free number, slot run and barrier is the model's choice (the spec says it of the window, R195). -/
theorem cabinetCreatesContextsAndBarriers : Obligations.CabinetCreatesContextsAndBarriers := by
  unfold Obligations.CabinetCreatesContextsAndBarriers
  refine ⟨fun s i owner slots floor weight evq q x b w host taken may enough whole isClass low high isFn queue enabled forEvents owned number
    run quota window => ?create, fun _ _ _ => lowestFree_eq_some_iff, fun s n b found => ?run, fun _ _ _ _ => exec_cabCtxSetWeight_of_valid,
    fun _ _ _ _ => exec_cabCtxSetSeed_of_valid, fun _ _ _ _ => exec_cabBarAlloc_of_free⟩
  case create =>
    have creates : Creates s (s.issuerFn i) owner slots floor weight evq q x b w :=
      ⟨may, enough, whole, isClass, ⟨low, high⟩, isFn, queue, enabled, forEvents, owned, number, run, quota, window⟩
    have byHost : (i == Issuer.firmware) = false := beq_false_of_ne host
    refine ⟨_, exec_cabCtxCreate_of_creates host taken creates, ?_, fun y other => ?_, s.reg64_created_refused x _, rfl,
      s.created_eq x _⟩
    · rw [State.ctx_created, if_pos rfl, createdCtx, byHost]
    · rw [State.ctx_created, if_neg other.symm]
  case run =>
    obtain ⟨free, least⟩ := State.freeRun_spec found
    obtain ⟨apart, inside⟩ := State.runFree_iff.mp free
    exact ⟨apart, inside, fun k apart inside => least k (State.runFree_iff.mpr ⟨apart, inside⟩)⟩

end Sys2Proof.Machine
end

section
/-! SUPPORT. Proofs about the tasks in Cabinet's slots (R169 to R176, R183): what settling leaves of a task, what acceptance and COMMIT leave of
the state, and the obligation that these rules settle. -/

namespace Sys2Proof.Machine

/-- A fold stays in a reflexive and transitive relation in which every step of it stays. -/
theorem rel_foldl {α β : Type} {R : α → α → Prop} (refl : ∀ s, R s s) (trans : ∀ {s t u}, R s t → R t u → R s u) {f : α → β → α}
    (each : ∀ s b, R s (f s b)) (s : α) (bs : List β) : R s (bs.foldl f s) := by
  induction bs generalizing s with
  | nil => exact refl s
  | cons b bs ih => exact trans (each s b) (ih (f s b))

section
variable {s t u : State}

/-! ### Tasks that settle (R183) -/

theorem State.slot_mapTasks (s : State) (f : Task → Task) (j : Nat) :
    (s.mapTasks f).slot j = { s.slot j with task := (s.slot j).task.map f } :=
  Tab.get_map (f := fun v : Slot => ({ v with task := v.task.map f } : Slot)) (d := ({} : Slot)) rfl s.slots j

/-- Settling slot i does nothing, or moves its task on to `st`, with `done` the ends that are reported then. -/
theorem State.settleTask_cases (s : State) (i : Nat) : s.settleTask i = s ∨ ∃ k st done, (s.slot i).task = some k ∧
    s.settleTask i = { s.setSlot i { s.slot i with task := some { k with st := st, readyNo := s.sched.readyNo } } with done := done } := by
  rw [State.settleTask]
  dsimp only
  split
  next => exact .inl rfl
  next k task =>
    split
    next =>
      right
      split
      next => exact ⟨k, .ending, _, task, rfl⟩
      next =>
        split
        · exact ⟨k, .ending, _, task, rfl⟩
        · exact ⟨k, .ready, s.done, task, rfl⟩
    next => exact .inl rfl

/-- `t` is `s` after some tasks have settled: in a slot only its task moves on, and of a task its state and its place in the order of readiness. -/
structure Settled (s t : State) : Prop where
  frame : t = { s with slots := t.slots, sched := t.sched, done := t.done }
  slot : ∀ j, t.slot j = { s.slot j with task := (t.slot j).task }
  task : ∀ j k, (s.slot j).task = some k → ∃ st n, (t.slot j).task = some { k with st := st, readyNo := n }

theorem Settled.refl (s : State) : Settled s s := ⟨rfl, fun _ => rfl, fun _ k task => ⟨k.st, k.readyNo, task⟩⟩

theorem Settled.trans (first : Settled s t) (second : Settled t u) : Settled s u := by
  refine ⟨?_, fun j => ?_, fun j k task => ?_⟩
  · rw [second.frame, first.frame]
  · rw [second.slot, first.slot]
  · obtain ⟨st, n, task⟩ := first.task j k task
    obtain ⟨st, n, task⟩ := second.task j _ task
    exact ⟨st, n, task⟩

theorem State.slot_settleTask_other (s : State) {i j : Nat} (other : i ≠ j) : (s.settleTask i).slot j = s.slot j := by
  rcases s.settleTask_cases i with same | ⟨k, st, done, _, moved⟩
  · rw [same]
  · rw [moved]
    exact (State.slot_setSlot s i j _).trans (if_neg other)

theorem Settled.settleTask (s : State) (i : Nat) : Settled s (s.settleTask i) := by
  rcases s.settleTask_cases i with same | ⟨k, st, done, task, moved⟩
  · rw [same]
    exact Settled.refl s
  · have slot : (s.settleTask i).slot i = { s.slot i with task := some { k with st := st, readyNo := s.sched.readyNo } } := by
      rw [moved]
      exact State.slot_setSlot_same ..
    refine ⟨by rw [moved]; rfl, fun j => ?_, fun j k' task' => ?_⟩
    · by_cases same : i = j
      · rw [← same, slot]
      · rw [State.slot_settleTask_other s same]
    · by_cases same : i = j
      · subst same
        obtain rfl : k = k' := Option.some.inj (task.symm.trans task')
        exact ⟨st, s.sched.readyNo, by rw [slot]⟩
      · exact ⟨k'.st, k'.readyNo, by rw [State.slot_settleTask_other s same, task']⟩

theorem Settled.settleAll (s : State) (is : List Nat) : Settled s (s.settleAll is) := by
  obtain ⟨frame, slot, task⟩ := rel_foldl Settled.refl Settled.trans Settled.settleTask s is
  exact ⟨by rw [State.settleAll, frame], slot, task⟩

theorem State.slot_settleAll_one (s : State) {i j : Nat} (other : i ≠ j) : (s.settleAll [i]).slot j = s.slot j :=
  s.slot_settleTask_other other

/-! ### Acceptance (R169 to R176) -/

variable {data : ExtData} {q : Nat} {bs : List Byte}

/-- The task that acceptance makes of a descriptor. -/
def State.newTask (s : State) (fn q pos : Nat) (d : TaskDesc) (committed : Bool) : Task :=
  { desc := { d with cq := (s.cqOf fn d.cq).getD d.cq }, fn := fn, sq := q, pos := pos, committed := committed
    preds := d.preds.map s.resolvePred, commitNo := s.sched.commitNo, worst := 0, inst := none }

/-- The state in which the descriptor's slot holds the task `k` and no mark, before the task settles. -/
def State.slotTaken (s : State) (h : Nat) (k : Task) : State :=
  { s.setSlot (slotOf h) { s.slot (slotOf h) with gen := genOf h, busy := true, task := some k } with
    marks := s.marks.del (slotOf h), sched := { s.sched with commitNo := s.sched.commitNo + 1 } }

theorem State.slot_slotTaken (s : State) (h : Nat) (k : Task) (j : Nat) : (s.slotTaken h k).slot j =
    if slotOf h = j then { s.slot (slotOf h) with gen := genOf h, busy := true, task := some k } else s.slot j :=
  State.slot_setSlot ..

section
variable (s : State) (fn q pos : Nat) (d : TaskDesc) (committed : Bool)

theorem State.acceptTask_eq_settleAll : s.acceptTask fn q pos d committed 0 none =
    (s.slotTaken d.handle (s.newTask fn q pos d committed)).settleAll [slotOf d.handle] := rfl

/-- The slot of the descriptor holds its task, which may have settled. -/
theorem State.slot_acceptTask_same : ∃ st n, (s.acceptTask fn q pos d committed 0 none).slot (slotOf d.handle) =
    { s.slot (slotOf d.handle) with
      gen := genOf d.handle, busy := true, task := some { s.newTask fn q pos d committed with st := st, readyNo := n } } := by
  have taken := s.slot_slotTaken d.handle (s.newTask fn q pos d committed) (slotOf d.handle)
  rw [if_pos rfl] at taken
  obtain ⟨_, slot, task⟩ := Settled.settleAll (s.slotTaken d.handle (s.newTask fn q pos d committed)) [slotOf d.handle]
  obtain ⟨st, n, moved⟩ := task (slotOf d.handle) _ (by rw [taken])
  exact ⟨st, n, by rw [State.acceptTask_eq_settleAll, slot, moved, taken]⟩

theorem State.slot_acceptTask_other {j : Nat} (other : j ≠ slotOf d.handle) :
    (s.acceptTask fn q pos d committed 0 none).slot j = s.slot j := by
  rw [State.acceptTask_eq_settleAll, State.slot_settleAll_one _ other.symm, State.slot_slotTaken, if_neg other.symm]

theorem State.acceptTask_eq : s.acceptTask fn q pos d committed 0 none =
    { s with
      slots := (s.acceptTask fn q pos d committed 0 none).slots
      sched := (s.acceptTask fn q pos d committed 0 none).sched
      marks := (s.acceptTask fn q pos d committed 0 none).marks
      done := (s.acceptTask fn q pos d committed 0 none).done } := by
  rw [State.acceptTask_eq_settleAll, (Settled.settleAll ..).frame]
  rfl

end

/-- The state in which Cabinet has fetched the next entry of submission queue `q`. -/
def State.fetched (s : State) (q : Nat) : State := ({ s with sched := { s.sched with fetchRr := q + 1 } } : State).consume q

theorem State.fetched_eq (s : State) (q : Nat) : s.fetched q = { s with host := (s.fetched q).host, sched := (s.fetched q).sched } := rfl

theorem State.queue_fetched (s : State) (q : Nat) :
    (s.fetched q).queue q = { s.queue q with cons := ((s.queue q).cons + 1) % 2 ^ 32 } :=
  State.queue_setQueue_same ..

theorem exec_descriptorAccept_of_entry (on : s.flag Reg.CAB_CTRL 0 = true) (next : s.nextSubmission = some q)
    (entry : s.ringEntry q (s.queue q).cons 128 data = some bs) : exec (.descriptorAccept data) s =
      .next (if (decodeTask (wordsOf 32 bs)).fgen ≠ (s.func (s.queue q).fn).gen then (s.fetched q).bump Reg.CAB_STALE_FGEN_DROP 1
        else if (s.fetched q).refusal (s.queue q).fn (decodeTask (wordsOf 32 bs)) false ≠ 0 then
          (s.fetched q).refuseDesc (s.queue q).fn (decodeTask (wordsOf 32 bs))
            ((s.fetched q).refusal (s.queue q).fn (decodeTask (wordsOf 32 bs)) false)
        else (s.fetched q).acceptTask (s.queue q).fn q (s.queue q).cons (decodeTask (wordsOf 32 bs))
          (seqNewer 32 (s.queue q).commit (s.queue q).cons) 0 none) := by
  have entry' : ({ s with sched := { s.sched with fetchRr := q + 1 } } : State).ringEntry q (s.queue q).cons 128 data = some bs := entry
  simp only [exec, execDescriptorAccept, on, next, entry', Bool.not_true, Bool.false_eq_true, if_false]
  rfl

/-! ### COMMIT (R173, R174) -/

/-- A fetched task of queue `q` and function `fn` that a commit up to `upto` reaches. -/
def Task.reached (q fn upto : Nat) (k : Task) : Bool :=
  k.sq == q && k.fn == fn && !k.committed && k.inst.isNone && seqNewer 32 upto k.pos

/-- The task after a commit up to `upto` of number `n`. -/
def Task.commit (q fn upto n : Nat) (k : Task) : Task :=
  if k.reached q fn upto then { k with committed := true, commitNo := n } else k

theorem Task.committed_commit {fn upto n : Nat} {k : Task} (sq : k.sq = q) (own : k.fn = fn) (plain : k.inst = none)
    (before : seqNewer 32 upto k.pos = true) : (k.commit q fn upto n).committed = true ∧ (k.commit q fn upto n).desc = k.desc := by
  cases committed : k.committed <;> simp [Task.commit, Task.reached, sq, own, plain, before, committed]

/-- The state in which queue `q` is committed up to `value`, before its tasks settle. -/
def State.committed (s : State) (q value : Nat) : State :=
  { (s.setQueue q { s.queue q with commit := value }).mapTasks (Task.commit q (s.queue q).fn value s.sched.commitNo) with
    sched := { s.sched with commitNo := s.sched.commitNo + 1 } }

theorem State.committed_eq (s : State) (q value : Nat) : s.committed q value =
    { s with host := (s.committed q value).host, slots := (s.committed q value).slots, sched := (s.committed q value).sched } := rfl

theorem State.queue_committed (s : State) (q value : Nat) : (s.committed q value).queue q = { s.queue q with commit := value } :=
  State.queue_setQueue_same ..

theorem State.slot_committed (s : State) (q value j : Nat) : (s.committed q value).slot j =
    { s.slot j with task := (s.slot j).task.map (Task.commit q (s.queue q).fn value s.sched.commitNo) } :=
  State.slot_mapTasks ..

variable {value : Nat}

theorem exec_commit_of_newer (en : (s.queue q).en = true) (submission : (s.queue q).typ = 0) (word : value < 2 ^ 32)
    (newer : seqNewer 32 value (s.queue q).commit = true) (produced : seqNewer 32 value (s.queue q).prod = false) :
    ∃ is, exec (.commit q value) s = .next ((s.committed q value).settleAll is) := by
  have live : (!(s.queue q).en || (s.queue q).typ != 0 || !seqNewer 32 value (s.queue q).commit) = false := by simp [en, submission, newer]
  simp only [exec, execCommit, Nat.mod_eq_of_lt word, live, produced, Bool.false_eq_true, if_false]
  exact ⟨_, rfl⟩

theorem exec_commit_of_stale (stale : seqNewer 32 (value % 2 ^ 32) (s.queue q).commit = false) : exec (.commit q value) s = .next s := by
  simp only [exec, execCommit, stale, Bool.not_false, Bool.or_true, if_true]

end

/-! ### The obligation -/

/-- Settles O24. A task that is accepted or committed may settle at once, which moves on its state alone. -/
theorem descriptorsAreAcceptedAndCommitted : Obligations.DescriptorsAreAcceptedAndCommitted := by
  unfold Obligations.DescriptorsAreAcceptedAndCommitted
  refine ⟨fun s v data q bs d on next entry hd hv => ?accept, fun s q value en submission word newer produced => ?commit,
    fun _ _ _ => exec_commit_of_stale⟩
  case accept =>
    subst hd
    obtain rfl : v = s.fetched q := hv
    have accept := exec_descriptorAccept_of_entry on next entry
    refine ⟨fun current sound => ?_, fun cause current refused isCause => ?_, fun stale => ?_⟩
    · rw [if_neg (not_not.mpr current), if_neg (not_not.mpr sound)] at accept
      generalize decodeTask (wordsOf 32 bs) = d at accept ⊢
      have frame := (s.fetched q).acceptTask_eq (s.queue q).fn q (s.queue q).cons d (seqNewer 32 (s.queue q).commit (s.queue q).cons)
      obtain ⟨st, n, slot⟩ := (s.fetched q).slot_acceptTask_same (s.queue q).fn q (s.queue q).cons d
        (seqNewer 32 (s.queue q).commit (s.queue q).cons)
      refine ⟨_, _, accept, ?_, congrArg Slot.task slot, congrArg Slot.gen slot, congrArg Slot.busy slot, rfl, rfl, rfl, rfl, rfl,
        fun j other => State.slot_acceptTask_other _ _ _ _ d _ other, ?_⟩
      · rw [frame]
        exact congrArg Queue.cons (s.queue_fetched q)
      · rw [frame, State.fetched_eq]
    · rw [accept, if_neg (not_not.mpr current), refused, if_pos isCause]
    · rw [accept, if_pos stale]
  case commit =>
    obtain ⟨is, done⟩ := exec_commit_of_newer en submission word newer produced
    obtain ⟨frame, _, task⟩ := Settled.settleAll (s.committed q value) is
    refine ⟨_, done, ?_, fun j k hk sq own plain before => ?_, ?_⟩
    · calc ((s.committed q value).settleAll is).queue q
        _ = (s.committed q value).queue q := by rw [frame]; rfl
        _ = _ := s.queue_committed q value
    · obtain ⟨st, n, moved⟩ := task j (k.commit q (s.queue q).fn value s.sched.commitNo) (by rw [State.slot_committed, hk]; rfl)
      exact ⟨_, moved, Task.committed_commit sq own plain before⟩
    · rw [frame, State.committed_eq]
end Sys2Proof.Machine
end

section
/-! SUPPORT. Proofs about the dispatch, the end and the completion record of a task (R177 to R186, R215): which task a decision picks, what recording
an end leaves, what posting a record leaves, and the obligation that these rules settle. -/

namespace Sys2Proof.Machine

section
variable {s t u : State} {i place : Nat} {k : Task}

/-! ### The decision (R177, R178) -/

/-- A running choice between entries ends with one of them. -/
theorem foldl_choice_mem (lt : Task → Task → Bool) (es : List (Nat × Task)) (e : Nat × Task) :
    es.foldl (fun b e => if lt e.2 b.2 then e else b) e ∈ e :: es := by
  induction es generalizing e with
  | nil => simp
  | cons a es ih =>
    rw [List.foldl_cons]
    cases lt a.2 e.2
    · rcases List.mem_cons.mp (ih e) with same | mem
      · exact List.mem_cons.mpr (.inl same)
      · exact List.mem_cons_of_mem _ (List.mem_cons_of_mem _ mem)
    · exact List.mem_cons_of_mem _ (ih a)

theorem mem_of_firstBy {lt : Task → Task → Bool} {es : List (Nat × Task)} {e : Nat × Task} (first : firstBy lt es = some e) : e ∈ es := by
  cases es with
  | nil => cases first
  | cons a es => exact Option.some.inj first ▸ foldl_choice_mem lt es a

theorem eq_nil_of_firstBy {lt : Task → Task → Bool} {es : List (Nat × Task)} (noFirst : firstBy lt es = none) : es = [] := by
  cases es with
  | nil => rfl
  | cons a es => cases noFirst

theorem State.eligible_of_mem (mem : (i, k) ∈ s.eligibles) : s.eligible k = true := by
  obtain ⟨⟨j, v⟩, _, found⟩ := List.mem_filterMap.mp mem
  dsimp only at found
  split at found
  · split at found
    next eligible =>
      obtain ⟨_, same⟩ := Prod.mk.inj (Option.some.inj found)
      exact same ▸ eligible
    next => cases found
  · cases found

/-- The pick is the first eligible task of class 0, or, where none is of class 0, an eligible one. -/
theorem State.nextDispatch_cases {sch : Sched} (picks : s.nextDispatch = some (i, k, sch)) :
    (i, k) ∈ s.eligibles.filter (·.2.desc.cls == 0) ∨ s.eligibles.filter (·.2.desc.cls == 0) = [] ∧ (i, k) ∈ s.eligibles := by
  unfold State.nextDispatch at picks
  dsimp only at picks
  split at picks
  next first =>
    cases picks
    exact .inl (mem_of_firstBy first)
  next noFirst =>
    refine .inr ⟨eq_nil_of_firstBy noFirst, ?_⟩
    split at picks
    next => cases picks
    next =>
      split at picks
      next => cases picks
      next =>
        obtain ⟨e, first, same⟩ := Option.map_eq_some_iff.mp picks
        cases same
        exact List.mem_of_mem_filter (List.mem_of_mem_filter (mem_of_firstBy first))

theorem State.nextDispatch_mem {sch : Sched} (picks : s.nextDispatch = some (i, k, sch)) : (i, k) ∈ s.eligibles := by
  rcases s.nextDispatch_cases picks with mem | ⟨_, mem⟩
  · exact List.mem_of_mem_filter mem
  · exact mem

theorem State.nextDispatch_class0 {sch : Sched} (picks : s.nextDispatch = some (i, k, sch)) (some0 : ∃ e ∈ s.eligibles, e.2.desc.cls = 0) :
    k.desc.cls = 0 := by
  obtain ⟨e, mem, cls⟩ := some0
  rcases s.nextDispatch_cases picks with first | ⟨none0, _⟩
  · exact eq_of_beq (List.mem_filter.mp first).2
  · have listed : e ∈ s.eligibles.filter (·.2.desc.cls == 0) := List.mem_filter.mpr ⟨mem, beq_iff_eq.mpr cls⟩
    rw [none0] at listed
    cases listed

theorem exec_dispatchDecision_of_place {p : Nat} {sch : Sched} (on : s.flag Reg.CAB_CTRL 1 = true) (picks : s.nextDispatch = some (i, k, sch))
    (goes : s.placeOf k.desc k.fn = some p)
    (charges : ∀ r, k.desc.op.region = some r → u = ({ s with sched := sch } : State).charge r k.desc.cls k.desc.energy)
    (free : k.desc.op.region = none → u = { s with sched := sch }) :
    exec .dispatchDecision s = .next ((((u.setSlot i { u.slot i with task := some { k with st := .dispatched, place := p } }).bump
      Reg.CAB_DISPATCHED 1).bump (Reg.CAB_CTX_DISPATCHED k.desc.ctx) 1).deliver k p) := by
  simp only [exec, execDispatchDecision, on, picks, goes, Bool.not_true, Bool.false_eq_true, if_false]
  cases region : k.desc.op.region with
  | none => rw [free region]
  | some r => rw [charges r region]

/-! ### The end of a task (R181, R184) -/

variable {d : Done} {rest : List Done}

theorem exec_taskComplete_of_task (reported : s.done = d :: rest) (task : (s.slot (slotOf d.task.handle)).task = some k)
    (handle : k.desc.handle = d.task.handle) (ctx : k.desc.ctx = d.task.ctx) (runs : k.fin = none) :
    exec .taskComplete s = .next (({ s with done := rest } : State).endTask (slotOf d.task.handle) d.status d.cause d.place) := by
  have task' : (({ s with done := rest } : State).slot (slotOf d.task.handle)).task = some k := task
  simp only [exec, execTaskComplete, reported, task', handle, ctx, runs, and_self, if_true]

theorem exec_taskComplete_of_late (reported : s.done = d :: rest)
    (late : ∀ t, (s.slot (slotOf d.task.handle)).task = some t → t.desc.handle ≠ d.task.handle ∨ t.desc.ctx ≠ d.task.ctx ∨ t.fin ≠ none) :
    exec .taskComplete s = .next (({ s with done := rest } : State).bump Reg.CAB_LATE_DROP 1) := by
  cases task : (s.slot (slotOf d.task.handle)).task with
  | none =>
    have task' : (({ s with done := rest } : State).slot (slotOf d.task.handle)).task = none := task
    simp only [exec, execTaskComplete, reported, task']
  | some t =>
    have task' : (({ s with done := rest } : State).slot (slotOf d.task.handle)).task = some t := task
    have other : ¬ (t.desc.handle = d.task.handle ∧ t.desc.ctx = d.task.ctx ∧ t.fin = none) := by
      have := late t task
      tauto
    simp only [exec, execTaskComplete, reported, task', other, if_false]

/-! ### Recording an end (R185, R186) -/

theorem State.slot_freeSlot_same (s : State) (i : Nat) :
    (s.freeSlot i).slot i = { s.slot i with busy := false, lastCls := (s.slot i).cls, task := none } :=
  State.slot_setSlot_same ..

theorem State.resolve_eq (s : State) (j status : Nat) : s.resolve j status =
    { s with slots := (s.resolve j status).slots, sched := (s.resolve j status).sched, done := (s.resolve j status).done } := by
  rw [State.resolve, (Settled.settleAll ..).frame]
  rfl

theorem State.ctx_resolve (s : State) (j status x : Nat) : (s.resolve j status).ctx x = s.ctx x := by
  rw [State.resolve_eq]
  rfl

theorem State.reg64_resolve (s : State) (j status a : Nat) : (s.resolve j status).reg64 a = s.reg64 a := by
  rw [State.resolve_eq]
  rfl

/-- What the successors learn leaves of every slot all but its task. -/
theorem State.slot_resolve (s : State) (j status i : Nat) :
    (s.resolve j status).slot i = { s.slot i with task := ((s.resolve j status).slot i).task } := by
  rw [State.resolve, (Settled.settleAll ..).slot, State.slot_mapTasks]

/-- The counters of an end of a task of context `x`. -/
def State.countEnd (s : State) (x status : Nat) : State :=
  if status = 0 then (s.bump Reg.CAB_COMPLETED 1).bump (Reg.CAB_CTX_COMPLETED x) 1 else (s.bump Reg.CAB_COMPLETED 1).bump (Reg.CAB_CTX_FAULTED x) 1

theorem State.countEnd_eq (s : State) (x status : Nat) : s.countEnd x status = { s with regs := (s.countEnd x status).regs } := by
  unfold State.countEnd
  split <;> rfl

theorem State.reg64_bump_other (s : State) (a n : Nat) {b : Nat} (apart : a + 4 < b ∨ b + 4 < a) : (s.bump a n).reg64 b = s.reg64 b := by
  rw [State.reg64, State.reg64, State.reg_bump_other, State.reg_bump_other] <;> omega

theorem State.reg64_countEnd (s : State) (x status : Nat) :
    (s.countEnd x status).reg64 Reg.CAB_COMPLETED = (s.reg64 Reg.CAB_COMPLETED + 1) % 2 ^ 64 := by
  unfold State.countEnd
  split <;> rw [State.reg64_bump_other, State.reg64_bump] <;>
    simp only [Reg.CAB_COMPLETED, Reg.CAB_CTX_COMPLETED, Reg.CAB_CTX_FAULTED] <;> omega

/-- The state in which the end of task `k` in slot `i` is recorded, before its slot is freed or its record waits. -/
def State.recorded (s : State) (i : Nat) (k : Task) : State :=
  (((((s.countEnd k.desc.ctx (k.fin.getD (0, 0)).1).setCtx k.desc.ctx { s.ctx k.desc.ctx with lastDone := k.desc.handle }).setSlot i
    { s.slot i with last := (k.fin.getD (0, 0)).1, task := some { k with st := .recording, finTime := s.now } }).resolve i
      (k.fin.getD (0, 0)).1).slackDone k)

/-- An end is recorded, and the slot is freed or a record of the task is sent. -/
theorem State.recordTask_cases (task : (s.slot i).task = some k) (record : Bool) :
    s.recordTask i record = (s.recorded i k).freeSlot i ∨
      (record && (k.desc.cqEn || (k.fin.getD (0, 0)).1 != 0)) = true ∧
        ∃ bs, s.recordTask i record = (s.recorded i k).sendRec k.desc.cq k.fn k.desc.fgen (.task i) bs := by
  have counted : (if (k.fin.getD (0, 0)).1 = 0 then (s.bump Reg.CAB_COMPLETED 1).bump (Reg.CAB_CTX_COMPLETED k.desc.ctx) 1
    else (s.bump Reg.CAB_COMPLETED 1).bump (Reg.CAB_CTX_FAULTED k.desc.ctx) 1) = s.countEnd k.desc.ctx (k.fin.getD (0, 0)).1 := rfl
  unfold State.recordTask State.recorded
  dsimp only
  rw [task]
  dsimp only
  rw [counted, State.countEnd_eq]
  split
  next due => exact .inr ⟨due, _, rfl⟩
  next => exact .inl rfl

/-- A task that no template has posted moves no slack tracker. -/
theorem State.recorded_of_plain (plain : k.inst = none) : s.recorded i k =
    ((((s.countEnd k.desc.ctx (k.fin.getD (0, 0)).1).setCtx k.desc.ctx { s.ctx k.desc.ctx with lastDone := k.desc.handle }).setSlot i
      { s.slot i with last := (k.fin.getD (0, 0)).1, task := some { k with st := .recording, finTime := s.now } }).resolve i
        (k.fin.getD (0, 0)).1) := by
  simp only [State.recorded, State.slackDone, plain]

theorem State.slot_recorded_of_plain (plain : k.inst = none) : (s.recorded i k).slot i =
    { s.slot i with last := (k.fin.getD (0, 0)).1, task := ((s.recorded i k).slot i).task } := by
  rw [State.recorded_of_plain plain, State.slot_resolve, State.slot_setSlot_same]

theorem State.ctx_recorded_of_plain (plain : k.inst = none) :
    (s.recorded i k).ctx k.desc.ctx = { s.ctx k.desc.ctx with lastDone := k.desc.handle } := by
  rw [State.recorded_of_plain plain, State.ctx_resolve]
  exact State.ctx_setCtx_same ..

theorem State.reg64_recorded_of_plain (plain : k.inst = none) :
    (s.recorded i k).reg64 Reg.CAB_COMPLETED = (s.reg64 Reg.CAB_COMPLETED + 1) % 2 ^ 64 := by
  rw [State.recorded_of_plain plain, State.reg64_resolve]
  exact s.reg64_countEnd _ _

/-- Slot i's task has ended with `status` at `place`, and its digest marks are gone. -/
def State.ended (s : State) (i : Nat) (k : Task) : State :=
  { s.setSlot i { s.slot i with task := some k } with marks := s.marks.del i }

/-- The task `k` after its end with a status and cause at a place. -/
def Task.ended (k : Task) (status cause place : Nat) : Task := { k with fin := some (status, cause), place := place }

theorem State.endTask_of_noDigest {status cause : Nat} (task : (s.slot i).task = some k) (noDigest : k.desc.digest = false) :
    s.endTask i status cause place = (s.ended i (k.ended status cause place)).recordTask i true := by
  simp only [State.endTask, task, noDigest, Bool.false_and, Bool.false_eq_true, if_false]
  rfl

/-- A task without DIGEST that ends OK and asks for no record frees its slot as soon as its end is recorded. -/
theorem State.endTask_of_silent (task : (s.slot i).task = some k) (noDigest : k.desc.digest = false) (silent : k.desc.cqEn = false) :
    s.endTask i 0 0 place = ((s.ended i (k.ended 0 0 place)).recorded i (k.ended 0 0 place)).freeSlot i := by
  rw [State.endTask_of_noDigest task noDigest]
  have held : ((s.ended i (k.ended 0 0 place)).slot i).task = some (k.ended 0 0 place) := congrArg Slot.task (State.slot_setSlot_same ..)
  rcases State.recordTask_cases held true with freed | ⟨due, _⟩
  · exact freed
  · simp [Task.ended, silent] at due

/-! ### Posting a record (R186, R396) -/

theorem State.devWrite_eq (s : State) (fn a : Nat) (bs : List Byte) : s.devWrite fn a bs =
    { s with
      tin := (s.devWrite fn a bs).tin, tier := (s.devWrite fn a bs).tier, tiers := (s.devWrite fn a bs).tiers
      hostOut := (s.devWrite fn a bs).hostOut } := by
  unfold State.devWrite
  split <;> rfl

/-- A vector that fires leaves its message, or its pending bit. -/
theorem State.fire_eq (s : State) (fn v : Nat) : s.fire fn v =
    { s with host := { s.host with pba := (s.fire fn v).host.pba, fired := (s.fire fn v).host.fired } } := by
  unfold State.fire
  split
  · rfl
  · dsimp only
    split
    · split <;> rfl
    · rfl

/-- The queue after one more record has been posted into it. -/
def Queue.posted (v : Queue) : Queue :=
  { v with prod := (v.prod + 1) % 2 ^ 32, since := v.since + 1, armed := v.armed && !(v.armed && decide (max 1 v.coalCount ≤ v.since + 1)) }

/-- The state in which a record stands in its ring and its queue's vector has fired, before the record's slot is freed. -/
def State.ringWritten (s : State) (r : PostRec) : State :=
  let v := s.queue r.queue
  let s := s.devWrite v.fn (v.base + v.prod % v.size * 32) (s.postBytes r)
  let s := s.devWrite v.fn v.wb (toLE 4 ((v.prod + 1) % 2 ^ 32))
  (s.setQueue r.queue v.posted).when (v.armed && decide (max 1 v.coalCount ≤ v.since + 1)) (·.fire v.fn v.vector)

theorem State.writeRec_eq (s : State) (r : PostRec) : s.writeRec r = ((s.ringWritten r).freeTaskSlot r.use).unblock r.use := rfl

theorem State.when_fire_eq (s : State) (b : Bool) (fn v : Nat) : s.when b (·.fire fn v) =
    { s with host := { s.host with pba := (s.when b (·.fire fn v)).host.pba, fired := (s.when b (·.fire fn v)).host.fired } } := by
  cases b
  · rfl
  · exact s.fire_eq fn v

theorem State.queue_ringWritten (s : State) (r : PostRec) : (s.ringWritten r).queue r.queue = (s.queue r.queue).posted := by
  unfold State.ringWritten
  dsimp only
  rw [State.when_fire_eq]
  exact State.queue_setQueue_same ..

theorem State.slot_ringWritten (s : State) (r : PostRec) (i : Nat) : (s.ringWritten r).slot i = s.slot i := by
  unfold State.ringWritten
  dsimp only
  rw [State.when_fire_eq, State.devWrite_eq, State.devWrite_eq]
  rfl

theorem State.writeRec_of_task {r : PostRec} (use : r.use = .task i) (task : (s.slot i).task = some k) (waits : k.st = .recording) :
    s.writeRec r = (s.ringWritten r).freeSlot i := by
  have held : ((s.ringWritten r).slot i).task = some k := by rw [State.slot_ringWritten, task]
  simp only [State.writeRec_eq, use, State.freeTaskSlot, State.unblock, held, waits, beq_self_eq_true, if_true]

variable {q : Nat} {r : PostRec}

/-- A record of a current generation goes into a ring with room. -/
theorem exec_completionRecordPost_of_room (oldest : s.host.outbox.find? (fun r => r.queue == q) = some r) (use : r.use = .task i)
    (current : r.gen = (s.func r.fn).gen) (en : (s.queue q).en = true) (own : (s.queue q).fn = r.fn) (sound : (s.queue q).failed = false)
    (room : (s.queue q).full = false) : exec (.completionRecordPost q 0) s =
      .next (({ s with host := { s.host with outbox := s.host.outbox.erase r } } : State).writeRec r) := by
  have queue : r.queue = q := by simpa using List.find?_some oldest
  have first : s.firstRec q RecFor.isTask = some r := by simp only [State.firstRec, oldest, Option.filter_some, use, RecFor.isTask, if_true]
  have notEvent : (r.use == RecFor.event) = false := by rw [use]; rfl
  simp only [exec, execCompletionRecordPost, first, State.postRec, current, queue, en, own, sound, room, notEvent, ne_eq, not_true_eq_false,
    if_false, if_true, Bool.false_and, Bool.not_true, bne_self_eq_false, Bool.or_self, Bool.false_eq_true]

end

/-! ### The obligation -/

/-- Settles O25. A task that ends OK without DIGEST, record and template waits for nothing: its end is recorded and its slot freed in one effect. -/
theorem tasksDispatchEndAndPost : Obligations.TasksDispatchEndAndPost := by
  unfold Obligations.TasksDispatchEndAndPost
  refine ⟨fun _ _ _ _ _ _ => exec_dispatchDecision_of_place,
    fun _ _ _ _ picks => ⟨State.eligible_of_mem (State.nextDispatch_mem picks), State.nextDispatch_mem picks, State.nextDispatch_class0 picks⟩,
    fun _ _ _ _ => exec_taskComplete_of_task, fun _ _ _ => exec_taskComplete_of_late,
    fun s i place k task noDigest silent plain => ?ends, fun s q i r k v oldest use current en own sound room task waits hv => ?posts⟩
  case ends =>
    have plain' : (k.ended 0 0 place).inst = none := plain
    rw [State.endTask_of_silent task noDigest silent, State.slot_freeSlot_same, State.slot_recorded_of_plain plain']
    exact ⟨rfl, rfl, rfl, congrArg Ctx.lastDone (State.ctx_recorded_of_plain plain'), State.reg64_recorded_of_plain plain'⟩
  case posts =>
    have queue : r.queue = q := by simpa using List.find?_some oldest
    have task' : (v.slot i).task = some k := by rw [hv]; exact task
    have same : v.queue q = s.queue q := by rw [hv]; rfl
    refine ⟨hv ▸ exec_completionRecordPost_of_room oldest use current en own sound room, ?_, ?_⟩
    · rw [State.writeRec_of_task use task' waits, State.slot_freeSlot_same]
    · calc ((v.writeRec r).queue q).prod
        _ = ((v.ringWritten r).queue r.queue).prod := by rw [State.writeRec_of_task use task' waits, queue]; rfl
        _ = ((s.queue q).prod + 1) % 2 ^ 32 := by rw [State.queue_ringWritten, queue, same]; rfl

end Sys2Proof.Machine
end

section
/-! SUPPORT. Proofs about the teardown of contexts and the freeing of barriers (R190, R191): what ends of tasks, freed threads and dropped work leave
alone, and the obligation that these rules settle. -/

namespace Sys2Proof.Tab

variable {α : Type}

theorem mem_of_look {tab : Tab α} {k : Nat} {v : α} (listed : look tab k = some v) : (k, v) ∈ tab := by
  induction tab with
  | nil => cases listed
  | cons e tab ih =>
    obtain ⟨k', v'⟩ := e
    simp only [look] at listed
    split at listed
    next same => exact List.mem_cons.mpr (.inl (by rw [same, Option.some.inj listed]))
    next => exact List.mem_cons_of_mem _ (ih listed)

/-- A key whose entries a filter drops reads as the default. -/
theorem get_filter_of_dropped {p : Nat × α → Bool} {k : Nat} (d : α) (dropped : ∀ v, p (k, v) = false) (tab : Tab α) :
    get d (tab.filter p) k = d := by
  cases listed : look (tab.filter p) k with
  | none => rw [get, listed, Option.getD_none]
  | some v =>
    have kept := (List.mem_filter.mp (mem_of_look listed)).2
    rw [dropped] at kept
    cases kept

end Sys2Proof.Tab

namespace Sys2Proof.Machine

section
variable {s t u : State} {x : Nat}

/-- What every step of a fold keeps, the fold keeps. -/
theorem foldl_keeps {α β : Type} {p : State → α} {f : State → β → State} (each : ∀ s b, p (f s b) = p s) (bs : List β) (s : State) :
    p (bs.foldl f s) = p s :=
  rel_foldl (R := fun s t => p t = p s) (fun _ => rfl) (fun first second => second.trans first) each s bs

/-! ### What the ends of tasks move (R185, R186, R191) -/

theorem State.eventTo_eq (s : State) (q : Option Nat) (fn kind ctx e4 e5 e6 e7 : Nat) : s.eventTo q fn kind ctx e4 e5 e6 e7 =
    { s with regs := (s.eventTo q fn kind ctx e4 e5 e6 e7).regs, host := (s.eventTo q fn kind ctx e4 e5 e6 e7).host } := by
  cases q <;> rfl

/-- `t` is `s` but for what the ends of tasks move: of a context, the handle of its last end and the counts of its teardown. -/
structure EndsOnly (s t : State) : Prop where
  frame : t = { s with
    ctxs := t.ctxs, slots := t.slots, regs := t.regs, sched := t.sched, slack := t.slack, done := t.done, marks := t.marks
    host := t.host, tpls := t.tpls }
  ctx : ∀ y, t.ctx y = { s.ctx y with lastDone := (t.ctx y).lastDone, aborted := (t.ctx y).aborted, freed := (t.ctx y).freed }

theorem EndsOnly.refl (s : State) : EndsOnly s s := ⟨rfl, fun _ => rfl⟩

theorem EndsOnly.trans (first : EndsOnly s t) (second : EndsOnly t u) : EndsOnly s u := by
  refine ⟨?_, fun y => ?_⟩
  · rw [second.frame, first.frame]
  · rw [second.ctx, first.ctx]

/-- What moves no context moves none of their fields. -/
theorem EndsOnly.of_frame (frame : t = { s with
    slots := t.slots, regs := t.regs, sched := t.sched, slack := t.slack, done := t.done, marks := t.marks, host := t.host, tpls := t.tpls }) :
    EndsOnly s t := by
  refine ⟨?_, fun y => ?_⟩ <;> rw [frame]
  rfl

theorem EndsOnly.setCtx (s : State) (x lastDone aborted freed : Nat) :
    EndsOnly s (s.setCtx x { s.ctx x with lastDone := lastDone, aborted := aborted, freed := freed }) := by
  refine ⟨rfl, fun y => ?_⟩
  rw [State.ctx_setCtx]
  split
  next same => rw [same]
  next => rfl

theorem EndsOnly.foldl {f : State → Nat → State} (each : ∀ s k, EndsOnly s (f s k)) (s : State) (ks : List Nat) :
    EndsOnly s (ks.foldl f s) :=
  rel_foldl EndsOnly.refl EndsOnly.trans each s ks

theorem EndsOnly.pfEvent (s : State) (kind e4 e5 e6 e7 : Nat) : EndsOnly s (s.pfEvent kind e4 e5 e6 e7) :=
  EndsOnly.of_frame (by rw [State.pfEvent, State.fnEvent, State.eventTo_eq])

theorem EndsOnly.slackCheck (s : State) (g : Nat) : EndsOnly s (s.slackCheck g) := by
  unfold State.slackCheck
  dsimp only
  split
  · exact EndsOnly.refl s
  · split <;> split
    · exact ((EndsOnly.of_frame rfl).trans (EndsOnly.pfEvent _ 0x0105 g 0 0 0)).trans (EndsOnly.pfEvent ..)
    · exact EndsOnly.of_frame rfl |>.trans (EndsOnly.pfEvent ..)
    · exact EndsOnly.of_frame rfl |>.trans (EndsOnly.pfEvent ..)
    · exact EndsOnly.of_frame rfl

theorem EndsOnly.slackSettle (s : State) (g : Nat) : EndsOnly s (s.slackSettle g) := by
  unfold State.slackSettle
  dsimp only
  split
  · split
    · exact EndsOnly.of_frame rfl
    · exact (EndsOnly.of_frame rfl).trans (EndsOnly.slackCheck ..)
  · exact EndsOnly.refl s

theorem EndsOnly.slackDone (s : State) (k : Task) : EndsOnly s (s.slackDone k) := by
  unfold State.slackDone
  split
  · exact EndsOnly.refl s
  · dsimp only
    split
    · exact EndsOnly.refl s
    · exact ((EndsOnly.of_frame rfl).trans (EndsOnly.slackCheck ..)).trans (EndsOnly.slackSettle ..)

theorem EndsOnly.resolve (s : State) (j status : Nat) : EndsOnly s (s.resolve j status) :=
  EndsOnly.of_frame (by rw [State.resolve_eq])

theorem EndsOnly.countEnd (s : State) (x status : Nat) : EndsOnly s (s.countEnd x status) :=
  EndsOnly.of_frame (by rw [State.countEnd_eq])

theorem EndsOnly.recorded (s : State) (i : Nat) (k : Task) : EndsOnly s (s.recorded i k) := by
  have ctx : (s.countEnd k.desc.ctx (k.fin.getD (0, 0)).1).ctx k.desc.ctx = s.ctx k.desc.ctx := by rw [State.countEnd_eq]; rfl
  have named := EndsOnly.setCtx (s.countEnd k.desc.ctx (k.fin.getD (0, 0)).1) k.desc.ctx k.desc.handle (s.ctx k.desc.ctx).aborted
    (s.ctx k.desc.ctx).freed
  rw [ctx] at named
  exact ((((EndsOnly.countEnd ..).trans named).trans (EndsOnly.of_frame rfl)).trans (EndsOnly.resolve ..)).trans (EndsOnly.slackDone ..)

theorem EndsOnly.recordTask (s : State) (i : Nat) (record : Bool) : EndsOnly s (s.recordTask i record) := by
  cases task : (s.slot i).task with
  | none =>
    simp only [State.recordTask, task]
    exact EndsOnly.refl s
  | some k =>
    rcases State.recordTask_cases task record with freed | ⟨_, bs, sent⟩
    · rw [freed]
      exact (EndsOnly.recorded s i k).trans (EndsOnly.of_frame rfl)
    · rw [sent]
      exact (EndsOnly.recorded s i k).trans (EndsOnly.of_frame rfl)

theorem EndsOnly.abortTask (s : State) (i : Nat) : EndsOnly s (s.abortTask i) := by
  unfold State.abortTask
  dsimp only
  split
  · exact EndsOnly.refl s
  · exact (EndsOnly.of_frame rfl).trans (EndsOnly.recordTask ..)

theorem EndsOnly.abortTasks (s : State) (x : Nat) (f : TaskSt → Bool) : EndsOnly s (s.abortTasks x f) :=
  ((EndsOnly.of_frame rfl).trans (EndsOnly.foldl EndsOnly.abortTask _ _)).trans (EndsOnly.setCtx ..)

/-! ### Threads of a context (R191) -/

/-- `t` has the contexts and the Tin cores of `s`. -/
structure SameCtxsCores (s t : State) : Prop where
  ctxs : t.ctxs = s.ctxs
  tin : t.tin = s.tin

theorem SameCtxsCores.refl (s : State) : SameCtxsCores s s := ⟨rfl, rfl⟩

theorem SameCtxsCores.trans (first : SameCtxsCores s t) (second : SameCtxsCores t u) : SameCtxsCores s u :=
  ⟨second.ctxs.trans first.ctxs, second.tin.trans first.tin⟩

/-- A step that touches neither comes before one that keeps them. -/
theorem SameCtxsCores.after (second : SameCtxsCores t u) (ctxs : t.ctxs = s.ctxs) (tin : t.tin = s.tin) : SameCtxsCores s u :=
  SameCtxsCores.trans ⟨ctxs, tin⟩ second

theorem SameCtxsCores.foldl {α : Type} {f : State → α → State} (each : ∀ s a, SameCtxsCores s (f s a)) (s : State) (as : List α) :
    SameCtxsCores s (as.foldl f s) :=
  rel_foldl SameCtxsCores.refl SameCtxsCores.trans each s as

theorem SameCtxsCores.ite {b : Bool} (move : SameCtxsCores s t) : SameCtxsCores s (if b then t else s) := by
  cases b
  · exact SameCtxsCores.refl s
  · exact move

theorem SameCtxsCores.dropReader (s : State) (r : Reader) : SameCtxsCores s (s.dropReader r) := by
  have frame := (FillsOnly.dropReader s r).1
  constructor <;> rw [frame]

theorem SameCtxsCores.ctx (same : SameCtxsCores s t) (x : Nat) : t.ctx x = s.ctx x := by
  rw [State.ctx, State.ctx, same.ctxs]

theorem SameCtxsCores.thread (same : SameCtxsCores s t) (m i : Nat) : t.thread m i = s.thread m i := by
  rw [State.thread, State.thread, State.core, State.core, same.tin]

/-- The core without its thread `t`, whose accesses are stray. -/
def TinCore.without (v : TinCore) (t : Nat) : TinCore :=
  { v with
    threads := v.threads.del t, cur := if v.cur = some t then none else v.cur
    stray := v.stray + ((v.threads.get {} t).outs.filter fun o => decide (o.path < 4)).length }

theorem SameCtxsCores.freeThread (s : State) (m t : Nat) : SameCtxsCores (s.setCore m ((s.core m).without t)) (s.freeThread m t) := by
  unfold State.freeThread
  exact (SameCtxsCores.dropReader ..).after rfl rfl

/-- A freed thread is as after reset; the others keep theirs. -/
theorem State.thread_freeThread (s : State) (m t m' t' : Nat) :
    (s.freeThread m t).thread m' t' = if (m, t) = (m', t') then {} else s.thread m' t' := by
  rw [(SameCtxsCores.freeThread s m t).thread, State.thread, State.core_setCore]
  by_cases sameCore : m = m'
  · rw [if_pos sameCore, TinCore.without, Tab.get_del, ← sameCore, State.thread]
    simp only [Prod.mk.injEq, true_and]
  · simp only [sameCore, Prod.mk.injEq, false_and, if_false, State.thread]

theorem State.ctxs_freeThread (s : State) (m t : Nat) : (s.freeThread m t).ctxs = s.ctxs :=
  (SameCtxsCores.freeThread s m t).ctxs

/-- Thread `t` of core `m` runs a task of context `x`. -/
def State.threadOf (s : State) (x m t : Nat) : Prop := (s.thread m t).task.map (·.ctx) = some x

theorem State.mem_ctxThreads {m t : Nat} (runs : s.threadOf x m t) : (m, t) ∈ s.ctxThreads x := by
  unfold State.threadOf at runs
  cases core : s.tin.look m with
  | none =>
    have isCore : s.core m = {} := by rw [State.core, Tab.get, core]; rfl
    rw [State.thread, isCore] at runs
    cases runs
  | some v =>
    have isCore : s.core m = v := by rw [State.core, Tab.get, core]; rfl
    cases thread : v.threads.look t with
    | none =>
      rw [State.thread, isCore, Tab.get, thread] at runs
      cases runs
    | some th =>
      have isThread : s.thread m t = th := by rw [State.thread, isCore, Tab.get, thread]; rfl
      rw [isThread] at runs
      refine List.mem_flatMap.mpr ⟨(m, v), Tab.mem_of_look core, List.mem_map.mpr ⟨(t, th), ?_, rfl⟩⟩
      exact List.mem_filter.mpr ⟨Tab.mem_of_look thread, beq_iff_eq.mpr runs⟩

/-- Freeing a list of threads that holds all those of a context leaves it none. -/
theorem State.not_threadOf_foldl_freeThread {ths : List (Nat × Nat)} (all : ∀ m t, s.threadOf x m t → (m, t) ∈ ths) (m t : Nat) :
    ¬ (ths.foldl (fun s p => s.freeThread p.1 p.2) s).threadOf x m t := by
  induction ths generalizing s with
  | nil => exact fun runs => List.not_mem_nil (all m t runs)
  | cons p ths ih =>
    refine ih fun m t runs => ?_
    rw [State.threadOf, State.thread_freeThread] at runs
    split at runs
    next => cases runs
    next other => exact (List.mem_cons.mp (all m t runs)).resolve_left (Ne.symm other)

/-! ### The rest of a context's work (R191, R204) -/

theorem SameCtxsCores.pwtReap (s : State) (n : Nat) : SameCtxsCores s (s.pwtReap n) := ⟨rfl, rfl⟩

theorem SameCtxsCores.dropWaits (s : State) (x : Nat) : SameCtxsCores s (s.dropWaits x) := ⟨rfl, rfl⟩

theorem SameCtxsCores.dropDma (s : State) (c x : Nat) : SameCtxsCores s (s.dropDma c x) := by
  refine (SameCtxsCores.foldl (fun s q => ?_) s (List.range 2)).trans ⟨rfl, rfl⟩
  split
  · split
    · exact SameCtxsCores.refl s
    · exact SameCtxsCores.dropReader ..
  · exact SameCtxsCores.refl s

theorem SameCtxsCores.dropBronze (s : State) (n x : Nat) : SameCtxsCores s (s.dropBronze n x) := by
  unfold State.dropBronze State.when
  dsimp only
  split
  · exact (SameCtxsCores.dropReader ..).after rfl rfl
  · exact ⟨rfl, rfl⟩

theorem SameCtxsCores.eventTo (s : State) (q : Option Nat) (fn kind ctx e4 e5 e6 e7 : Nat) :
    SameCtxsCores s (s.eventTo q fn kind ctx e4 e5 e6 e7) :=
  ⟨State.eventTo_ctxs .., State.eventTo_tin ..⟩

/-- A region's Sterling profile stands in its registers, its step change and its rail (R24). -/
theorem State.sterlingSync_eq (s : State) (r : Nat) : s.sterlingSync r =
    { s with regs := (s.sterlingSync r).regs, rg := (s.sterlingSync r).rg, rails := (s.sterlingSync r).rails } := by
  unfold State.sterlingSync
  dsimp only
  split
  · rfl
  · split
    · split
      · rfl
      · unfold State.raiseRail
        split <;> rfl
    · rfl

theorem SameCtxsCores.sterlingSync (s : State) (r : Nat) : SameCtxsCores s (s.sterlingSync r) := by
  constructor <;> rw [State.sterlingSync_eq]

theorem SameCtxsCores.setLatGran (s : State) (c g : Nat) (owner : Option Nat) : SameCtxsCores s (s.setLatGran c g owner) := by
  unfold State.setLatGran
  constructor
  · rw [State.setReg_ctxs]
    refine foldl_keeps (p := State.ctxs) (fun _ _ => ?_) _ _
    rfl
  · rw [State.setReg_tin]
    refine foldl_keeps (p := State.tin) (fun _ _ => ?_) _ _
    rfl

theorem SameCtxsCores.becomeResident (s : State) (c k : Nat) (r : ResSlot) : SameCtxsCores s (s.becomeResident c k r) := by
  unfold State.becomeResident State.resEvent
  dsimp only
  refine SameCtxsCores.trans ?_ (SameCtxsCores.sterlingSync ..)
  split <;> exact (SameCtxsCores.eventTo ..).after rfl rfl

theorem SameCtxsCores.holdObj (s : State) (a n : Nat) (d : Int) : SameCtxsCores s (s.holdObj a n d) := by
  unfold State.holdObj
  split <;> exact ⟨rfl, rfl⟩

theorem SameCtxsCores.startCopy (s : State) (c x : Nat) (use : DmaUse) (d : DmaDesc) : SameCtxsCores s (s.startCopy c x use d) :=
  ⟨rfl, rfl⟩

theorem SameCtxsCores.grant (s : State) (c : Nat) (q : ResReq) : SameCtxsCores s (s.grant c q) := by
  unfold State.grant
  split
  · exact SameCtxsCores.refl s
  · dsimp only
    have given := (SameCtxsCores.foldl (fun v g => SameCtxsCores.setLatGran v c g (some q.ctx)) (s.scrubGrans c ((s.freeGrans c).take q.grans))
      ((s.freeLats c).take q.lats)).after (s := s) rfl rfl
    split
    · exact given.trans (SameCtxsCores.becomeResident ..)
    · refine SameCtxsCores.trans ?_ (SameCtxsCores.startCopy ..)
      refine SameCtxsCores.trans ?_ (SameCtxsCores.holdObj ..)
      exact given.trans ⟨rfl, rfl⟩

theorem SameCtxsCores.grantPending (s : State) (c : Nat) (qs : List ResReq) : SameCtxsCores s (s.grantPending c qs) := by
  induction qs generalizing s with
  | nil => exact SameCtxsCores.refl s
  | cons q qs ih =>
    rw [State.grantPending]
    split
    · exact ((SameCtxsCores.grant _ c q).trans (ih _)).after rfl rfl
    · exact SameCtxsCores.refl s

theorem SameCtxsCores.dropRequests (s : State) (c x : Nat) : SameCtxsCores s (s.dropRequests c x) := by
  unfold State.dropRequests
  refine ((SameCtxsCores.foldl (fun v _ => ?_) _ _).trans (SameCtxsCores.grantPending ..)).after rfl rfl
  exact SameCtxsCores.eventTo ..

/-! ### Steps 1 to 3 of a teardown (R191) -/

/-- The state once the tasks of the context that no engine holds have ended. -/
def State.tasksEnded (s : State) (x : Nat) : State :=
  let s := s.setCtx x { s.ctx x with tearing := true, aborted := 0 }
  let keep (d : Done) : Bool := d.task.ctx != x || match (s.slot (slotOf d.task.handle)).task with
    | some t => t.st != .ending
    | none => true
  State.abortTasks { s with done := s.done.filter keep } x
    fun (st : TaskSt) => [TaskSt.waiting, TaskSt.ready, TaskSt.ending, TaskSt.atBarrier].contains st

/-- The state once the threads of the context are free, too. -/
def State.threadsFreed (s : State) (x : Nat) : State :=
  (s.ctxThreads x).foldl (fun s p => s.freeThread p.1 p.2) (s.setCtx x { s.ctx x with freed := (s.ctxThreads x).length })

theorem State.tearing_tasksEnded (s : State) (x : Nat) : ((s.tasksEnded x).ctx x).tearing = true := by
  rw [State.tasksEnded, (EndsOnly.abortTasks ..).ctx]
  exact congrArg Ctx.tearing (State.ctx_setCtx_same ..)

theorem State.ctxs_threadsFreed (s : State) (x : Nat) :
    (s.threadsFreed x).ctxs = (s.setCtx x { s.ctx x with freed := (s.ctxThreads x).length }).ctxs :=
  foldl_keeps (p := State.ctxs) (fun v (p : Nat × Nat) => v.ctxs_freeThread p.1 p.2) _ _

theorem State.not_threadOf_threadsFreed (s : State) (x m t : Nat) : ¬ (s.threadsFreed x).threadOf x m t := by
  refine State.not_threadOf_foldl_freeThread (fun m t runs => ?_) m t
  exact State.mem_ctxThreads (s := s) runs

/-- What is left of steps 1 to 3 once its tasks have ended and its threads are free touches neither contexts nor cores. -/
theorem SameCtxsCores.tearCtx (s : State) (x : Nat) : SameCtxsCores ((s.tasksEnded x).threadsFreed x) (s.tearCtx x) := by
  unfold State.tearCtx
  refine SameCtxsCores.trans ?_ (SameCtxsCores.foldl (fun v c => SameCtxsCores.ite (SameCtxsCores.dropRequests v c x)) _ (List.range 24))
  refine SameCtxsCores.trans ?_ (SameCtxsCores.dropWaits ..)
  refine SameCtxsCores.trans ?_ (SameCtxsCores.foldl (fun v n => SameCtxsCores.ite (SameCtxsCores.dropBronze v n x)) _ (List.range 48))
  refine SameCtxsCores.trans ?_ (SameCtxsCores.foldl (fun v c => SameCtxsCores.ite (SameCtxsCores.dropDma v c x)) _ (List.range 24))
  refine SameCtxsCores.trans ?_ (SameCtxsCores.foldl (fun v n => SameCtxsCores.ite (SameCtxsCores.pwtReap v n)) _ (List.range 96))
  exact ⟨rfl, rfl⟩

theorem State.tearing_tearCtx (s : State) (x : Nat) : ((s.tearCtx x).ctx x).tearing = true := by
  rw [(SameCtxsCores.tearCtx s x).ctx, State.ctx, State.ctxs_threadsFreed, ← State.ctx, State.ctx_setCtx_same]
  exact s.tearing_tasksEnded x

theorem State.not_threadOf_tearCtx (s : State) (x m t : Nat) : ¬ (s.tearCtx x).threadOf x m t := by
  rw [State.threadOf, (SameCtxsCores.tearCtx s x).thread]
  exact State.not_threadOf_threadsFreed _ x m t

/-! ### Steps 4 and 5 of a teardown (R191, R205) -/

/-- The state once every Pewter unit has discarded the kernels and records of contexts that are being torn down. -/
def State.reaped (s : State) : State := (List.range 96).foldl (fun s u => if (s.pwt.look u).isSome then s.pwtReap u else s) s

/-- What a reaping of one unit keeps, the reaping of all keeps. -/
theorem State.reaped_keeps {α : Type} {p : State → α} (each : ∀ s u, p (State.pwtReap s u) = p s) (s : State) : p s.reaped = p s := by
  refine foldl_keeps (p := p) (fun s u => ?_) _ _
  split
  · exact each s u
  · rfl

/-- The state once the tasks that engines held have ended too, and the ends of the context's tasks are no longer reported. -/
def State.workEnded (s : State) (x : Nat) : State :=
  let s := s.abortTasks x fun (st : TaskSt) => st == .dispatched || st == .digesting
  { s with done := s.done.filter (·.task.ctx != x) }

theorem EndsOnly.workEnded (s : State) (x : Nat) : EndsOnly s (s.workEnded x) :=
  (EndsOnly.abortTasks ..).trans (EndsOnly.of_frame rfl)

/-- The context has its slots still. -/
theorem State.ctx_workEnded_slots (s : State) (x : Nat) :
    ((s.workEnded x).ctx x).slotBase = (s.ctx x).slotBase ∧ ((s.workEnded x).ctx x).slotCount = (s.ctx x).slotCount := by
  rw [(EndsOnly.workEnded s x).ctx]
  exact ⟨rfl, rfl⟩

/-- The end of a teardown is posted to the context's event queue, or counted where the function is not ACTIVE. -/
def State.teardownPosted (s : State) (x : Nat) : State :=
  if (s.func (s.ctx x).fn).st == .active then s.ctxEvent x 0x0102 (s.ctx x).aborted (s.ctx x).freed 0 0 else s.staleDrop (s.ctx x).fn

theorem State.teardownPosted_eq (s : State) (x : Nat) :
    s.teardownPosted x = { s with regs := (s.teardownPosted x).regs, host := (s.teardownPosted x).host } := by
  unfold State.teardownPosted
  split
  · rw [State.ctxEvent, State.eventTo_eq]
  · rfl

/-- The state in which the context's residency slots are ORPHANED. -/
def State.orphaned (s : State) (x : Nat) : State := (List.range 24).foldl (fun s c => if (s.cl.look c).isSome then s.orphan c x else s) s

theorem State.orphaned_keeps {α : Type} {p : State → α} (each : ∀ s c x, p (State.orphan s c x) = p s) (s : State) (x : Nat) :
    p (s.orphaned x) = p s := by
  refine foldl_keeps (p := p) (fun s c => ?_) _ _
  split
  · exact each s c x
  · rfl

/-- The state without context `x` and without the slots that `c` had. -/
def State.ctxFreed (s : State) (x : Nat) (c : Ctx) : State :=
  { s with
    ctxs := s.ctxs.del x
    slots := s.slots.filter fun e => decide (e.1 < c.slotBase) || decide (c.slotBase + c.slotCount ≤ e.1) }

theorem State.ctx_ctxFreed (s : State) (x y : Nat) (c : Ctx) : (s.ctxFreed x c).ctx y = if x = y then {} else s.ctx y :=
  Tab.get_del ..

theorem State.slot_ctxFreed (s : State) (x : Nat) {c : Ctx} {k : Nat} (low : c.slotBase ≤ k) (high : k < c.slotBase + c.slotCount) :
    (s.ctxFreed x c).slot k = {} := by
  refine Tab.get_filter_of_dropped {} (fun _ => ?_) s.slots
  simp only [Bool.or_eq_false_iff, decide_eq_false_iff_not]
  omega

/-- The regions of every cluster look at their Sterling profile. -/
def State.sterlingSynced (s : State) : State := (List.range 12).foldl (fun s r => s.sterlingSync r) s

theorem State.sterlingSynced_keeps {α : Type} {p : State → α} (each : ∀ s r, p (State.sterlingSync s r) = p s) (s : State) :
    p s.sterlingSynced = p s :=
  foldl_keeps (p := p) each _ _

/-- The state in which nothing of the context is left, before the regions look at their Sterling profile. -/
def State.ctxGone (s : State) (x : Nat) : State :=
  (((s.reaped.workEnded x).teardownPosted x).orphaned x).ctxFreed x ((s.reaped.workEnded x).ctx x)

theorem State.tornDown_eq (s : State) (x : Nat) : s.tornDown x = (s.ctxGone x).sterlingSynced := by
  unfold State.tornDown State.sterlingSynced State.ctxGone State.ctxFreed State.orphaned State.teardownPosted State.workEnded State.reaped
  rfl

theorem State.ctx_tornDown (s : State) (x : Nat) : (s.tornDown x).ctx x = {} := by
  rw [State.tornDown_eq, State.sterlingSynced_keeps (p := fun s => s.ctx x) (fun s r => by rw [State.sterlingSync_eq]; rfl)]
  rw [State.ctxGone, State.ctx_ctxFreed, if_pos rfl]

theorem State.slot_tornDown (s : State) {x k : Nat} (low : (s.ctx x).slotBase ≤ k) (high : k < (s.ctx x).slotBase + (s.ctx x).slotCount) :
    (s.tornDown x).slot k = {} := by
  have reaped : s.reaped.ctx x = s.ctx x := State.reaped_keeps (p := fun s => s.ctx x) (fun _ _ => rfl) s
  obtain ⟨base, count⟩ := s.reaped.ctx_workEnded_slots x
  rw [State.tornDown_eq, State.sterlingSynced_keeps (p := fun s => s.slot k) (fun s r => by rw [State.sterlingSync_eq]; rfl)]
  exact State.slot_ctxFreed _ x (by rw [base, reaped]; exact low) (by rw [base, count, reaped]; exact high)

/-- What every part of a teardown keeps. -/
theorem State.tornDown_keeps {α : Type} {p : State → α} (reap : ∀ s u, p (State.pwtReap s u) = p s) (ends : ∀ s t, EndsOnly s t → p t = p s)
    (posted : ∀ s x, p (State.teardownPosted s x) = p s) (orphan : ∀ s c x, p (State.orphan s c x) = p s)
    (freed : ∀ s x c, p (State.ctxFreed s x c) = p s) (sync : ∀ s r, p (State.sterlingSync s r) = p s) (s : State) (x : Nat) :
    p (s.tornDown x) = p s := by
  rw [State.tornDown_eq, State.sterlingSynced_keeps sync, State.ctxGone, freed, State.orphaned_keeps orphan, posted,
    ends _ _ (EndsOnly.workEnded _ x), State.reaped_keeps reap]

theorem State.tornDown_tier (s : State) (x : Nat) : (s.tornDown x).tier = s.tier :=
  State.tornDown_keeps (p := State.tier) (fun _ _ => rfl) (fun _ _ ends => by rw [ends.frame])
    (fun _ _ => by rw [State.teardownPosted_eq]) (fun _ _ _ => rfl) (fun _ _ _ => rfl) (fun _ _ => by rw [State.sterlingSync_eq]) s x

theorem State.tornDown_spad (s : State) (x : Nat) : (s.tornDown x).spad = s.spad :=
  State.tornDown_keeps (p := State.spad) (fun _ _ => rfl) (fun _ _ ends => by rw [ends.frame])
    (fun _ _ => by rw [State.teardownPosted_eq]) (fun _ _ _ => rfl) (fun _ _ _ => rfl) (fun _ _ => by rw [State.sterlingSync_eq]) s x

/-! ### The commands -/

variable {i : Issuer} {b : Nat}

theorem exec_cabCtxTeardown_of_live (taken : Taken s i 0x0203) (valid : (s.ctx x).valid = true)
    (may : s.issuerFn i = 0 ∨ (s.ctx x).fn = s.issuerFn i) (live : (s.ctx x).tearing = false) :
    exec (.cabCtxTeardown i x) s = .next ((s.tearCtx x).answer i 0 0 []) := by
  simp only [exec, execCabCtxTeardown]
  rw [State.command_of_ok taken]
  simp only [State.ctxFor_of_valid valid may, live, Bool.false_eq_true, if_false]

theorem exec_cabCtxTeardown_of_tearing (taken : Taken s i 0x0203) (valid : (s.ctx x).valid = true)
    (may : s.issuerFn i = 0 ∨ (s.ctx x).fn = s.issuerFn i) (tearing : (s.ctx x).tearing = true) :
    exec (.cabCtxTeardown i x) s = .next (s.answer i 8 0 []) := by
  simp only [exec, execCabCtxTeardown]
  rw [State.command_of_error (status := stBusy) taken (by decide)]
  · rfl
  · simp only [State.ctxFor_of_valid valid may, tearing, if_true]

theorem exec_teardownEnginesStopped_of_stopped (valid : (s.ctx x).valid = true) (tearing : (s.ctx x).tearing = true)
    (stopped : s.stopped x = true) : exec (.teardownEnginesStopped x) s = .next (s.tornDown x).vfSettle := by
  simp only [exec, execTeardownEnginesStopped, valid, tearing, stopped, Bool.and_self, if_true]

theorem exec_cabBarFree_of_valid {hs : List Nat} (taken : Taken s i 0x0205) (valid : (s.bar b).valid = true)
    (may : s.issuerFn i = 0 ∨ (s.bar b).fn = s.issuerFn i) (standing : hs = ((s.bar b).arrived ++ (s.bar b).early).filter s.atBarrier) :
    exec (.cabBarFree i b) s = .next (((hs.foldl (fun s h => s.endTask (slotOf h) 4 0 0xFF) (s.setBar b {})).fnEvent (s.bar b).fn 0x0107 0xFFF b
      hs.length 0 0).answer i 0 0 []) := by
  have allowed : ¬ (s.issuerFn i ≠ 0 ∧ (s.bar b).fn ≠ s.issuerFn i) := by tauto
  simp only [exec, execCabBarFree]
  rw [State.command_of_ok taken]
  simp only [valid, allowed, Bool.not_true, Bool.false_eq_true, if_false, standing]

end

/-! ### The obligation -/

/-- Settles O23. That steps 1 to 3 of R191 are one effect of the command, and the rest that of TEARDOWN_ENGINES_STOPPED, is log 73. -/
theorem cabinetTearsDownAndFrees : Obligations.CabinetTearsDownAndFrees := by
  unfold Obligations.CabinetTearsDownAndFrees
  exact ⟨fun s _ x taken valid may live =>
      ⟨exec_cabCtxTeardown_of_live taken valid may live, s.tearing_tearCtx x, s.not_threadOf_tearCtx x⟩,
    fun _ _ _ => exec_cabCtxTeardown_of_tearing,
    fun s x valid tearing stopped => ⟨exec_teardownEnginesStopped_of_stopped valid tearing stopped, congrArg Ctx.valid (s.ctx_tornDown x),
      fun _ => s.slot_tornDown, s.tornDown_tier x, s.tornDown_spad x⟩,
    fun _ _ _ _ => exec_cabBarFree_of_valid⟩

end Sys2Proof.Machine
end

section
/-! SUPPORT. Proofs about the residency of contexts on clusters (R200 to R207): what a grant leaves in its slot and its granules, the answers of the
two commands, and the obligation that these rules settle. -/

namespace Sys2Proof.Machine

section
variable {s : State} {i : Issuer} {c k : Nat} {q : ResReq} {r : ResSlot}

/-! ### What a grant moves (R201, R205) -/

/-- A latch granule stands in registers and latches. -/
theorem State.setLatGran_eq (s : State) (c g : Nat) (owner : Option Nat) : s.setLatGran c g owner =
    { s with regs := (s.setLatGran c g owner).regs, lat := (s.setLatGran c g owner).lat } := by
  have zeroed : ∀ (ks : List Nat) (s : State),
      ks.foldl (fun s k => (s.setReg (Reg.LAT_COUNT c (8 * g + k)) 0).setLatch c (8 * g + k) {}) s =
        { s with
          regs := (ks.foldl (fun s k => (s.setReg (Reg.LAT_COUNT c (8 * g + k)) 0).setLatch c (8 * g + k) {}) s).regs
          lat := (ks.foldl (fun s k => (s.setReg (Reg.LAT_COUNT c (8 * g + k)) 0).setLatch c (8 * g + k) {}) s).lat } := by
    intro ks
    induction ks with
    | nil => exact fun _ => rfl
    | cons k ks ih => exact fun s => ih _
  unfold State.setLatGran
  rw [zeroed]
  rfl

/-- What owning latch granules does not move, owning several does not. -/
theorem State.setLatGrans_keeps {α : Type} {p : State → α} (each : ∀ s regs lat, p { s with regs := regs, lat := lat } = p s) (s : State) (c : Nat)
    (owner : Option Nat) (gs : List Nat) : p (gs.foldl (fun s g => s.setLatGran c g owner) s) = p s :=
  foldl_keeps (fun s g => by rw [State.setLatGran_eq, each]) gs s

/-- What the event and the Sterling profile do not move, a slot that becomes RESIDENT moves only in its cluster. -/
theorem State.becomeResident_keeps {α : Type} {p : State → α} (event : ∀ s host regs, p { s with host := host, regs := regs } = p s)
    (sync : ∀ s regs rg rails, p { s with regs := regs, rg := rg, rails := rails } = p s) (s : State) (c k : Nat) (r : ResSlot) :
    p (s.becomeResident c k r) = p (s.setCluster c { s.cluster c with slots := (s.cluster c).slots.put k { r with st := .resident }, allBlk := false }) := by
  unfold State.becomeResident State.resEvent
  dsimp only
  rw [State.sterlingSync_eq, sync]
  split <;> exact (congrArg p (State.eventTo_eq ..)).trans (event ..)

/-- The granules and latch granules of a request, owned and cleared. -/
def State.granted (s : State) (c : Nat) (q : ResReq) : State :=
  ((s.freeLats c).take q.lats).foldl (fun s g => s.setLatGran c g (some q.ctx)) (s.scrubGrans c ((s.freeGrans c).take q.grans))

/-- The residency slot of a request. -/
def State.grantedSlot (s : State) (c : Nat) (q : ResReq) : ResSlot :=
  { st := .restoring, ctx := q.ctx, fn := q.fn, grans := (s.freeGrans c).take q.grans, lats := (s.freeLats c).take q.lats }

theorem State.grant_of_no_restore (free : s.freeResSlot c = some k) (plain : q.restore = 0) :
    s.grant c q = (s.granted c q).becomeResident c k (s.grantedSlot c q) := by
  simp only [State.grant, free, plain, if_true, State.granted, State.grantedSlot]

theorem State.slot_grant_of_no_restore (free : s.freeResSlot c = some k) (plain : q.restore = 0) :
    ((s.grant c q).cluster c).slots.get {} k = { s.grantedSlot c q with st := .resident } := by
  rw [State.grant_of_no_restore free plain, State.becomeResident_keeps (p := fun s => s.cluster c) (fun _ _ _ => rfl) (fun _ _ _ _ => rfl)]
  simp

theorem State.spad_grant_of_no_restore (free : s.freeResSlot c = some k) (plain : q.restore = 0) :
    (s.grant c q).spad = (s.scrubGrans c ((s.freeGrans c).take q.grans)).spad := by
  rw [State.grant_of_no_restore free plain, State.becomeResident_keeps (p := State.spad) (fun _ _ _ => rfl) (fun _ _ _ _ => rfl)]
  exact State.setLatGrans_keeps (p := State.spad) (fun _ _ _ => rfl) ..

theorem State.tier_grant_of_no_restore (free : s.freeResSlot c = some k) (plain : q.restore = 0) : (s.grant c q).tier = s.tier := by
  rw [State.grant_of_no_restore free plain, State.becomeResident_keeps (p := State.tier) (fun _ _ _ => rfl) (fun _ _ _ _ => rfl)]
  exact State.setLatGrans_keeps (p := State.tier) (fun _ _ _ => rfl) ..

theorem State.freeGrans_lt {g : Nat} (free : g ∈ s.freeGrans c) : g < granCount :=
  List.mem_range.mp (List.mem_filter.mp free).1

/-- R203: every byte of a scrubbed granule reads as zero. -/
theorem State.byte_scrubGrans {gs : List Nat} {g o : Nat} (mem : g ∈ gs) (granule : g < granCount) (inside : o < shareGran) :
    Mem.byte (s.scrubGrans c gs).spad (c * 2 ^ 25 + g * shareGran + o) = 0 := by
  simp only [granCount, shareGran] at granule inside
  refine Tab.get_filter_of_dropped 0 (fun _ => ?_) _
  have cluster : (c * 2 ^ 25 + g * 2 ^ 18 + o) / 2 ^ 25 = c := by omega
  have gran : (c * 2 ^ 25 + g * 2 ^ 18 + o) % 2 ^ 25 / 2 ^ 18 = g := by omega
  simp only [shareGran, cluster, gran, List.contains_iff_mem.mpr mem, beq_self_eq_true, Bool.and_self, Bool.not_true]

/-! ### The commands -/

/-- The operands of a CAB_RES_GRANT pass its tests, but for the room on the cluster. -/
structure GrantValid (s : State) (i : Issuer) (x c grans lats restore : Nat) : Prop where
  valid : (s.ctx x).valid = true
  may : s.issuerFn i = 0 ∨ (s.ctx x).fn = s.issuerFn i
  present : s.clusterPresent c = true
  least : 1 ≤ grans
  most : grans ≤ 96
  mostLats : lats ≤ 32
  noSlot : ∀ e ∈ (s.cluster c).slots, e.2.holds = true → e.2.ctx = x → e.2.orphan = true ∨ e.2.st = .orphaned
  noRequest : ∀ r ∈ (s.cluster c).pend, r.ctx ≠ x
  sterling : (s.ctx x).stl.st = .off ∨ 2 ≤ s.field (Reg.BIM_REG_FLOOR (c / 2)) 1 0
  range : restore = 0 ∨ s.copyRange (s.ctx x).fn restore (grans * shareGran) = true
  quota : s.issuerFn i = 0 ∨ ((s.fnGrans (s.ctx x).fn).1 + grans ≤ (s.func (s.ctx x).fn).shareGran ∧
    (s.fnGrans (s.ctx x).fn).2 + lats ≤ (s.func (s.ctx x).fn).latchGran)

/-- What becomes of a valid request: granted, pending or refused (R201, R202). -/
def State.decideGrant (s : State) (c : Nat) (q : ResReq) (wait : Bool) : CmdRes :=
  if s.fits c q && (s.cluster c).pend.isEmpty then .ok (s.grant c q, [])
  else if wait && decide ((s.cluster c).pend.length < 8) then
    .ok (s.setCluster c { s.cluster c with pend := (s.cluster c).pend ++ [q] }, [])
  else .error stResource

/-- A valid request comes down to the room on the cluster. -/
theorem exec_cabResGrant_of_valid {x grans lats restore : Nat} {wait : Bool} (ok : GrantValid s i x c grans lats restore)
    (request : q = { ctx := x, fn := (s.ctx x).fn, grans := grans, lats := lats, restore := restore }) :
    ∃ f, exec (.cabResGrant i x c grans lats restore wait) s = .next (s.command i 0x0206 f) ∧
      f (s.issuerFn i) (s.box i).version = s.decideGrant c q wait := by
  refine ⟨_, rfl, ?_⟩
  obtain ⟨valid, may, present, least, most, mostLats, noSlot, noRequest, sterling, range, quota⟩ := ok
  have operands : (!s.clusterPresent c || decide (grans = 0) || decide (granCount < grans) || decide (32 < lats)) = false := by
    simp [present, granCount, Nat.ne_of_gt least, Nat.not_lt.mpr most, mostLats]
  have free : (((s.cluster c).slots.any fun (_, r) => r.holds && r.ctx == x && !r.orphan && r.st != .orphaned) ||
      (s.cluster c).pend.any (·.ctx == x)) = false := by
    rw [Bool.or_eq_false_iff, List.any_eq_false, List.any_eq_false]
    grind
  have profile : ((s.ctx x).stl.st != .off && decide (s.field (Reg.BIM_REG_FLOOR (c / 2)) 1 0 < 2)) = false := by
    grind
  have source : (decide (restore ≠ 0) && !s.copyRange (s.ctx x).fn restore (grans * shareGran)) = false := by
    grind
  have room : (decide (s.issuerFn i ≠ 0) && (decide ((s.func (s.ctx x).fn).shareGran < (s.fnGrans (s.ctx x).fn).1 + grans) ||
      decide ((s.func (s.ctx x).fn).latchGran < (s.fnGrans (s.ctx x).fn).2 + lats))) = false := by
    grind
  subst request
  simp only [State.ctxFor_of_valid valid may, operands, free, profile, source, room, Bool.false_eq_true, if_false, State.decideGrant]

theorem exec_cabResGrant_of_room {x grans lats restore : Nat} {wait : Bool} (taken : Taken s i 0x0206) (ok : GrantValid s i x c grans lats restore)
    (request : q = { ctx := x, fn := (s.ctx x).fn, grans := grans, lats := lats, restore := restore }) (fits : s.fits c q = true)
    (first : (s.cluster c).pend = []) : exec (.cabResGrant i x c grans lats restore wait) s = .next ((s.grant c q).answer i 0 0 []) := by
  obtain ⟨f, runs, gives⟩ := exec_cabResGrant_of_valid (wait := wait) ok request
  rw [runs, State.command_of_ok taken (gives.trans _)]
  simp [State.decideGrant, fits, first]

theorem exec_cabResGrant_of_wait {x grans lats restore : Nat} (taken : Taken s i 0x0206) (ok : GrantValid s i x c grans lats restore)
    (request : q = { ctx := x, fn := (s.ctx x).fn, grans := grans, lats := lats, restore := restore })
    (full : s.fits c q = false ∨ (s.cluster c).pend ≠ []) (room : (s.cluster c).pend.length < 8) :
    exec (.cabResGrant i x c grans lats restore true) s =
      .next ((s.setCluster c { s.cluster c with pend := (s.cluster c).pend ++ [q] }).answer i 0 0 []) := by
  obtain ⟨f, runs, gives⟩ := exec_cabResGrant_of_valid (wait := true) ok request
  rw [runs, State.command_of_ok taken (gives.trans _)]
  have notNow : (s.fits c q && (s.cluster c).pend.isEmpty) = false := by simpa [imp_iff_not_or] using full
  simp [State.decideGrant, notNow, room]

theorem exec_cabResGrant_of_no_wait {x grans lats restore : Nat} (taken : Taken s i 0x0206) (ok : GrantValid s i x c grans lats restore)
    (request : q = { ctx := x, fn := (s.ctx x).fn, grans := grans, lats := lats, restore := restore })
    (full : s.fits c q = false ∨ (s.cluster c).pend ≠ []) :
    exec (.cabResGrant i x c grans lats restore false) s = .next (s.answer i 7 0 []) := by
  obtain ⟨f, runs, gives⟩ := exec_cabResGrant_of_valid (wait := false) ok request
  rw [runs, State.command_of_error (status := stResource) taken (by decide) (gives.trans _)]
  · rfl
  · have notNow : (s.fits c q && (s.cluster c).pend.isEmpty) = false := by simpa [imp_iff_not_or] using full
    simp [State.decideGrant, notNow]

/-- CAB_RES_RELEASE without SAVE_ADDR of a RESIDENT slot that runs nothing (R203). -/
theorem exec_cabResRelease_of_idle (taken : Taken s i 0x0207) (present : s.clusterPresent c = true) (hk : k < 8)
    (slot : (s.cluster c).slots.get {} k = r) (resident : r.st = .resident) (may : s.issuerFn i = 0 ∨ r.fn = s.issuerFn i)
    (idle : s.resRun c r.ctx = 0) (cold : (s.ctx r.ctx).floor ≠ 0 ∨ s.warm c = false) :
    exec (.cabResRelease i c k 0) s = .next (((s.setCluster c { s.cluster c with
      slots := (s.cluster c).slots.put k { r with st := .releasing, orphan := false, saving := false }
      allBlk := false }).sterlingSync (c / 2)).answer i 0 0 []) := by
  have allowed : ¬ (s.issuerFn i ≠ 0 ∧ r.fn ≠ s.issuerFn i) := by tauto
  have unused : ¬ ((s.ctx r.ctx).floor = 0 ∧ s.warm c = true) := by rintro ⟨zero, warm⟩; simp [zero, warm] at cold
  simp only [exec, execCabResRelease]
  rw [State.command_of_ok taken]
  simp [present, Nat.not_le.mpr hk, slot, ResSlot.holds, resident, allowed, idle, unused]
  rfl

/-- SHARE_SCRUB_DONE on a cluster where no request waits (R203). -/
theorem exec_shareScrubDone_of_releasing (slot : (s.cluster c).slots.get {} k = r) (releasing : r.st = .releasing) (noCopy : r.saving = false)
    (alone : (s.cluster c).pend = []) :
    exec (.shareScrubDone c k) s = .next (((r.lats.foldl (fun s g => s.setLatGran c g none) (s.scrubGrans c r.grans)).setCluster c
      { s.cluster c with slots := (s.cluster c).slots.del k }).resEvent r 0x010A c k 0 r.poisoned).vfSettle := by
  have cluster : (r.lats.foldl (fun s g => s.setLatGran c g none) (s.scrubGrans c r.grans)).cluster c = s.cluster c :=
    State.setLatGrans_keeps (p := fun s => s.cluster c) (fun _ _ _ => rfl) ..
  have same : ∀ e : State, (e.resEvent r 0x010A c k 0 r.poisoned).cluster c = e.cluster c := fun e => by
    unfold State.resEvent
    split <;> exact congrArg (·.get {} c) (State.eventTo_cl ..)
  simp [exec, execShareScrubDone, slot, releasing, noCopy, cluster, same, alone, State.grantPending]

/-- SHARE_COPY_DONE of a restore that its context still waits for (R205). -/
theorem exec_shareCopyDone_of_restored {x : DmaXfer} (copy : s.copyOf c k = some x) (fin : x.fin = true)
    (slot : (s.cluster c).slots.get {} k = r) (restoring : r.st = .restoring) (wanted : r.orphan = false) (read : x.desc.srcShare = false) :
    exec (.shareCopyDone c k) s = .next (((s.setDma c { s.dmaEng c with
      rq := (s.dmaEng c).rq.filter (· != x)
      tq := (s.dmaEng c).tq.filter (· != x) }).holdObj x.desc.src r.size (-1)).becomeResident c k { r with zeroed := x.bad }) := by
  simp [exec, execShareCopyDone, copy, fin, slot, restoring, wanted, read]

theorem exec_allBlocked_of_blocked (blocked : s.allBlocked c = true) (fresh : (s.cluster c).allBlk = false)
    (timed : s.reg (Reg.CAB_RES_ALLBLK_US c) ≠ 0) :
    exec (.allBlocked c) s =
      .next (((s.setCluster c { s.cluster c with allBlk := true }).bump (Reg.CAB_RES_ALLBLK_CNT c) 1).pfEvent 0x0104 c 0 0 0) := by
  simp [exec, execAllBlocked, blocked, fresh, timed]

end

/-! ### The obligation -/

/-- Settles O28. A grant takes the lowest free residency slot and the lowest free granules, as the model chooses them. -/
theorem residencyGrantsAndReleases : Obligations.ResidencyGrantsAndReleases := by
  unfold Obligations.ResidencyGrantsAndReleases
  refine ⟨fun s i x c grans lats restore wait q taken valid may present least most mostLats noSlot noRequest sterling range quota request => ?_,
    fun s c k q fits plain free => ?_, fun s i c k r => exec_cabResRelease_of_idle, fun s c k r => exec_shareScrubDone_of_releasing,
    fun s c k x r => exec_shareCopyDone_of_restored, fun s c => exec_allBlocked_of_blocked⟩
  · have ok : GrantValid s i x c grans lats restore :=
      ⟨valid, may, present, least, most, mostLats, noSlot, noRequest, sterling, range, quota⟩
    refine ⟨exec_cabResGrant_of_room taken ok request, fun full waits room => ?_, fun full noWait => ?_⟩
    · rw [waits]
      exact exec_cabResGrant_of_wait taken ok request full room
    · rw [noWait]
      exact exec_cabResGrant_of_no_wait taken ok request full
  · rw [State.slot_grant_of_no_restore free plain]
    refine ⟨rfl, rfl, rfl, fun g mem o inside => ?_, State.tier_grant_of_no_restore free plain⟩
    rw [State.spad_grant_of_no_restore free plain]
    exact State.byte_scrubGrans mem (State.freeGrans_lt (List.mem_of_mem_take mem)) inside

end Sys2Proof.Machine
end

section
/-! SUPPORT. The canonical form of the memories (tier range, scratchpads, host memory): what a result has to show for it, and that filtering, writing,
folding and choosing keep it. -/

namespace Sys2Proof

/-! ### Dropping entries of a table -/

namespace Tab

theorem wfFrom_filter {α : Type} [DecidableEq α] (d : α) (p : Nat × α → Bool) (tab : Tab α) :
    ∀ lo, wfFrom d lo tab = true → wfFrom d lo (tab.filter p) = true := by
  induction tab with
  | nil => exact fun _ wf => wf
  | cons e tab ih =>
    intro lo wf
    simp only [wfFrom, Bool.and_eq_true, decide_eq_true_eq] at wf
    obtain ⟨⟨low, value⟩, rest⟩ := wf
    rw [List.filter_cons]
    split
    · simp only [wfFrom, Bool.and_eq_true, decide_eq_true_eq]
      exact ⟨⟨low, value⟩, ih _ rest⟩
    · exact wfFrom_mono d _ (by omega) (ih _ rest)

end Tab

namespace Machine

theorem Mem.wf_filter (p : Nat × Byte → Bool) {m : Mem} (wf : Mem.wf m = true) : Mem.wf (m.filter p) = true :=
  Tab.wfFrom_filter 0 p m 0 wf

/-! ### States -/

theorem State.memWf_iff (s : State) : s.memWf = true ↔ Mem.wf s.spad = true ∧ Mem.wf s.tier = true ∧ Mem.wf s.hostOut = true := by
  simp only [State.memWf, Bool.and_eq_true, and_assoc]

/-- A state that takes its three memories from another one is canonical as that one is. (The brackets keep `simp` from using it by `dsimp`, whose steps
leave no proof for the side condition of a fold.) -/
@[simp] theorem State.memWf_mk (t : State) (pending regs shadows held lastRead clk nonce trs pwt tin lat dma cl rg rails spadBad ctxs slots bars sched slack
    done marks chain tiers sld host boot tpls timers brz fh fapi fapiWork fapiOut inv net time) :
    State.memWf ⟨pending, regs, shadows, held, lastRead, clk, nonce, trs, pwt, tin, lat, dma, cl, rg, rails, t.spad, spadBad, t.tier, t.hostOut, ctxs, slots,
      bars, sched, slack, done, marks, chain, tiers, sld, host, boot, tpls, timers, brz, fh, fapi, fapiWork, fapiOut, inv, net, time⟩ = t.memWf := (rfl)

@[simp] theorem State.memWf_ite (p : Prop) [Decidable p] (s t : State) : (if p then s else t).memWf = if p then s.memWf else t.memWf := apply_ite ..

@[simp] theorem State.memWf_foldl {α : Type} {f : State → α → State} (each : ∀ s a, (f s a).memWf = s.memWf) (as : List α) (s : State) :
    (as.foldl f s).memWf = s.memWf := foldl_keeps (p := State.memWf) each as s

theorem State.memWf_foldl_of_memWf {α : Type} {f : State → α → State} (each : ∀ s a, s.memWf = true → (f s a).memWf = true) (as : List α) {s : State}
    (wf : s.memWf = true) : (as.foldl f s).memWf = true := by
  induction as generalizing s with
  | nil => exact wf
  | cons a as ih => exact ih (each s a wf)

@[simp] theorem State.memWf_foldl_fst {α β : Type} {f : State × β → α → State × β} (each : ∀ acc a, (f acc a).1.memWf = acc.1.memWf) (as : List α)
    (acc : State × β) : (as.foldl f acc).1.memWf = acc.1.memWf := by
  induction as generalizing acc with
  | nil => rfl
  | cons a as ih => exact (ih _).trans (each acc a)

/-! ### Outcomes and results -/

/-- The outcome is a next state with canonical memories. -/
def nextMemWf : Host.Outcome State Fault Refusal → Bool
  | .next t => t.memWf
  | _ => false

@[simp] theorem nextMemWf_next (t : State) : nextMemWf (.next t) = t.memWf := rfl

theorem eq_next_of_nextMemWf {o : Host.Outcome State Fault Refusal} (wf : nextMemWf o = true) : ∃ t, o = .next t ∧ t.memWf = true := by
  cases o with
  | next t => exact ⟨t, rfl, wf⟩
  | fault => cases wf
  | refused => cases wf

/-- A result that succeeds leaves canonical memories in the state that it holds. -/
def okMemWf {ε α : Type} (state : α → State) : Except ε α → Bool
  | .ok a => (state a).memWf
  | .error _ => true

section
variable {ε α : Type} (state : α → State)

@[simp] theorem okMemWf_ok (a : α) : okMemWf state (.ok a : Except ε α) = (state a).memWf := rfl
@[simp] theorem okMemWf_error (e : ε) : okMemWf state (.error e) = true := rfl
@[simp] theorem okMemWf_ite (p : Prop) [Decidable p] (r r' : Except ε α) :
    okMemWf state (if p then r else r') = if p then okMemWf state r else okMemWf state r' := apply_ite ..

end

end Machine

end Sys2Proof
end

section
/-! SUPPORT. That the operations of the model keep the memories canonical: the shared operations, and the mailboxes with the answers of their commands
(R406, R414 to R421). -/

namespace Sys2Proof.Machine

/-! ### Machine/Ops.lean -/

@[simp] theorem State.memWf_setReg (s : State) (a v : Nat) : (s.setReg a v).memWf = s.memWf := by simp [State.setReg]
@[simp] theorem State.memWf_setField (s : State) (a hi lo v : Nat) : (s.setField a hi lo v).memWf = s.memWf := by simp [State.setField]
@[simp] theorem State.memWf_setReg64 (s : State) (a v : Nat) : (s.setReg64 a v).memWf = s.memWf := by simp [State.setReg64]
@[simp] theorem State.memWf_bump (s : State) (a n : Nat) : (s.bump a n).memWf = s.memWf := by simp [State.bump]

@[simp] theorem State.memWf_when (s : State) (b : Bool) {f : State → State} (keeps : (f s).memWf = s.memWf) : (s.when b f).memWf = s.memWf := by
  cases b
  · rfl
  · exact keeps

theorem State.memWf_when_of_memWf {s : State} (wf : s.memWf = true) (b : Bool) {f : State → State} (keeps : (f s).memWf = true) :
    (s.when b f).memWf = true := by
  cases b
  · exact wf
  · exact keeps

@[simp] theorem State.memWf_tickNonce (s : State) : s.tickNonce.memWf = s.memWf := by simp [State.tickNonce]
@[simp] theorem State.memWf_setCtx (s : State) (x : Nat) (c : Ctx) : (s.setCtx x c).memWf = s.memWf := by simp [State.setCtx]
@[simp] theorem State.memWf_setSlot (s : State) (i : Nat) (v : Slot) : (s.setSlot i v).memWf = s.memWf := by simp [State.setSlot]
@[simp] theorem State.memWf_setTrestle (s : State) (c : Nat) (v : Trestle) : (s.setTrestle c v).memWf = s.memWf := by simp [State.setTrestle]
@[simp] theorem State.memWf_setPewter (s : State) (u : Nat) (v : PwtUnit) : (s.setPewter u v).memWf = s.memWf := by simp [State.setPewter]
@[simp] theorem State.memWf_setCore (s : State) (m : Nat) (v : TinCore) : (s.setCore m v).memWf = s.memWf := by simp [State.setCore]
@[simp] theorem State.memWf_setDma (s : State) (c : Nat) (v : DmaEngine) : (s.setDma c v).memWf = s.memWf := by simp [State.setDma]
@[simp] theorem State.memWf_setCluster (s : State) (c : Nat) (v : Cluster) : (s.setCluster c v).memWf = s.memWf := by simp [State.setCluster]
@[simp] theorem State.memWf_setRegion (s : State) (r : Nat) (v : Region) : (s.setRegion r v).memWf = s.memWf := by simp [State.setRegion]
@[simp] theorem State.memWf_setLatch (s : State) (c l : Nat) (v : Latches) : (s.setLatch c l v).memWf = s.memWf := by simp [State.setLatch]
@[simp] theorem State.memWf_setQueue (s : State) (q : Nat) (v : Queue) : (s.setQueue q v).memWf = s.memWf := by simp [State.setQueue]
@[simp] theorem State.memWf_setFunc (s : State) (n : Nat) (v : Func) : (s.setFunc n v).memWf = s.memWf := by simp [State.setFunc]
@[simp] theorem State.memWf_setObj (s : State) (o : Nat) (v : Obj) : (s.setObj o v).memWf = s.memWf := by simp [State.setObj]
@[simp] theorem State.memWf_setShelf (s : State) (i : Nat) (v : Shelf) : (s.setShelf i v).memWf = s.memWf := by simp [State.setShelf]
@[simp] theorem State.memWf_setBronze (s : State) (u : Nat) (v : BrzUnit) : (s.setBronze u v).memWf = s.memWf := by simp [State.setBronze]
@[simp] theorem State.memWf_setBar (s : State) (b : Nat) (v : Barrier) : (s.setBar b v).memWf = s.memWf := by simp [State.setBar]
@[simp] theorem State.memWf_publishTable (s : State) (ws : List (Nat × Nat)) : (s.publishTable ws).memWf = s.memWf := by simp [State.publishTable]

@[simp] theorem State.memWf_sendRec (s : State) (q fn gen : Nat) (u : RecFor) (bs : List Byte) : (s.sendRec q fn gen u bs).memWf = s.memWf := by
  simp [State.sendRec]

@[simp] theorem State.memWf_eventTo (s : State) (q : Option Nat) (fn kind ctx e4 e5 e6 e7 : Nat) :
    (s.eventTo q fn kind ctx e4 e5 e6 e7).memWf = s.memWf := by
  unfold State.eventTo
  split <;> simp

@[simp] theorem State.memWf_ctxEvent (s : State) (x kind e4 e5 e6 e7 : Nat) : (s.ctxEvent x kind e4 e5 e6 e7).memWf = s.memWf := by
  simp [State.ctxEvent]

@[simp] theorem State.memWf_fnEvent (s : State) (fn kind ctx e4 e5 e6 e7 : Nat) : (s.fnEvent fn kind ctx e4 e5 e6 e7).memWf = s.memWf := by
  simp [State.fnEvent]

@[simp] theorem State.memWf_pfEvent (s : State) (kind e4 e5 e6 e7 : Nat) : (s.pfEvent kind e4 e5 e6 e7).memWf = s.memWf := by simp [State.pfEvent]
@[simp] theorem State.memWf_publish (s : State) (ws : List (Nat × Nat)) : (s.publish ws).memWf = s.memWf := by simp [State.publish]
@[simp] theorem State.memWf_staleDrop (s : State) (fn : Nat) : (s.staleDrop fn).memWf = s.memWf := by simp [State.staleDrop]

@[simp] theorem State.memWf_slotWrite (s : State) (c : Nat) (r : ResSlot) (o : Nat) (bs : List Byte) (wf : s.memWf = true) :
    (s.slotWrite c r o bs).memWf = true := by
  obtain ⟨spad, tier, host⟩ := s.memWf_iff.mp wf
  rw [State.slotWrite_eq]
  exact (State.memWf_iff _).mpr ⟨State.slotWrite_spad_wf s c r o bs spad, tier, host⟩

@[simp] theorem State.memWf_shareWrite (s : State) (c x o : Nat) (bs : List Byte) (wf : s.memWf = true) :
    ((s.shareWrite c x o bs).getD s).memWf = true := by
  cases written : s.shareWrite c x o bs with
  | none => exact wf
  | some t => exact State.shareWrite_memWf s t c x o bs wf written

@[simp] theorem State.memWf_violation (s : State) (who fn ctx : Nat) (write : Bool) (addr : Nat) (fs : List Nat) :
    (s.violation who fn ctx write addr fs).memWf = s.memWf := by simp [State.violation]

@[simp] theorem State.memWf_poisonRead (s : State) (l : Nat) : (s.poisonRead l).memWf = s.memWf := by
  unfold State.poisonRead
  dsimp only
  repeat' split
  all_goals simp

@[simp] theorem State.memWf_tierWrite (s : State) (a : Nat) (bs : List Byte) (wf : s.memWf = true) : (s.tierWrite a bs).memWf = true := by
  obtain ⟨spad, tier, host⟩ := s.memWf_iff.mp wf
  exact (State.memWf_iff _).mpr ⟨spad, Mem.wf_write _ _ _ tier, host⟩

@[simp] theorem State.memWf_hostWrite (s : State) (fn off : Nat) (bs : List Byte) (wf : s.memWf = true) : (s.hostWrite fn off bs).memWf = true :=
  State.hostWrite_memWf s fn off bs wf

@[simp] theorem State.memWf_devWrite (s : State) (fn a : Nat) (bs : List Byte) (wf : s.memWf = true) : (s.devWrite fn a bs).memWf = true := by
  simp [State.devWrite, wf]

@[simp] theorem State.memWf_mark (s : State) (t : TaskId) (key n : Nat) : (s.mark t key n).memWf = s.memWf := by simp [State.mark]
@[simp] theorem State.memWf_pushDone (s : State) (d : Done) : (s.pushDone d).memWf = s.memWf := by simp [State.pushDone]

@[simp] theorem State.memWf_finish (s : State) (t : TaskId) (status cause place : Nat) : (s.finish t status cause place).memWf = s.memWf := by
  simp [State.finish]

@[simp] theorem State.memWf_needFence (s : State) (kind n reason : Nat) : (s.needFence kind n reason).memWf = s.memWf := by simp [State.needFence]
@[simp] theorem State.memWf_vfRelease (s : State) (n : Nat) : (s.vfRelease n).memWf = s.memWf := by simp [State.vfRelease]
@[simp] theorem State.memWf_vfEnd (s : State) (n : Nat) : (s.vfEnd n).memWf = s.memWf := by simp [State.vfEnd]
@[simp] theorem State.memWf_vfSettle (s : State) : s.vfSettle.memWf = s.memWf := by simp [State.vfSettle]

/-! ### Machine/Measure.lean -/

@[simp] theorem State.memWf_measure (s : State) (index cause data : Nat) (digest : List Byte) : (s.measure index cause data digest).memWf = s.memWf := by
  simp [State.measure]

@[simp] theorem State.memWf_measureBundle (s : State) (cause : Nat) (b : Bundle) : (s.measureBundle cause b).memWf = s.memWf := by
  simp only [State.measureBundle, State.memWf_measure]

/-! ### Machine/Mailbox.lean -/

@[simp] theorem State.memWf_fire (s : State) (fn v : Nat) : (s.fire fn v).memWf = s.memWf := by simp [State.fire]
@[simp] theorem State.memWf_setBox (s : State) (i : Issuer) (b : Mbox) : (s.setBox i b).memWf = s.memWf := by simp [State.setBox]

@[simp] theorem State.memWf_raiseBox (s : State) (i : Issuer) : (s.raiseBox i).memWf = s.memWf := by
  unfold State.raiseBox
  split <;> simp

@[simp] theorem State.memWf_freeBox (s : State) (i : Issuer) : (s.freeBox i).memWf = s.memWf := by
  unfold State.freeBox
  split <;> simp

@[simp] theorem State.memWf_answer (s : State) (i : Issuer) (status detail : Nat) (body : List Nat) (wf : s.memWf = true) :
    (s.answer i status detail body).memWf = true := by
  unfold State.answer
  dsimp only
  repeat' split
  all_goals simp [wf]

@[simp] theorem State.memWf_refuse (s : State) (i : Issuer) (status : Nat) (wf : s.memWf = true) : (s.refuse i status).memWf = true := by
  simp [State.refuse, wf]

@[simp] theorem State.memWf_takeCommand (s : State) (i : Issuer) (h : MbxHeader) (seq : Nat) (wf : s.memWf = true) :
    (s.takeCommand i h seq).memWf = true := by simp [State.takeCommand, wf]

@[simp] theorem State.memWf_takeWaiting (s : State) (wf : s.memWf = true) : s.takeWaiting.memWf = true := by
  refine State.memWf_foldl_of_memWf (fun s e wf => ?_) _ wf
  dsimp only
  split <;> simp [wf]

@[simp] theorem memWf_execMbxDoorbell (fn m seq : Nat) (h : MbxHeader) (s : State) (wf : s.memWf = true) :
    nextMemWf (execMbxDoorbell fn m seq h s) = true := by
  simp [execMbxDoorbell, wf]

theorem State.memWf_command {s : State} (wf : s.memWf = true) (i : Issuer) (code : Nat) {f : Nat → Nat → CmdRes}
    (each : ∀ fn version, okMemWf Prod.fst (f fn version) = true) : (s.command i code f).memWf = true := by
  unfold State.command
  dsimp only
  split
  · have result := each (s.issuerFn i) (s.box i).version
    split
    next => exact State.memWf_refuse s i _ wf
    next t body done =>
      rw [done] at result
      exact State.memWf_answer t i _ _ _ result
  · exact wf

@[simp] theorem memWf_execMbxNop (i : Issuer) (s : State) (wf : s.memWf = true) : nextMemWf (execMbxNop i s) = true := by
  rw [execMbxNop, nextMemWf_next]
  exact State.memWf_command wf _ _ fun fn version => by simp [wf]

end Sys2Proof.Machine
end

section
/-! SUPPORT. That the operations of the model keep the memories canonical: the objects of the tier range, energy and slack. -/

namespace Sys2Proof.Machine

/-! ### Machine/Dumbwaiter.lean -/

@[simp] theorem State.memWf_takeGrans (s : State) (gs : List (Nat × Nat)) : (s.takeGrans gs).memWf = s.memWf := by simp [State.takeGrans]
@[simp] theorem State.memWf_dropGrans (s : State) (gs : List (Nat × Nat)) : (s.dropGrans gs).memWf = s.memWf := by simp [State.dropGrans]
@[simp] theorem State.memWf_dropMapping (s : State) (sh : Nat) : (s.dropMapping sh).memWf = s.memWf := by simp [State.dropMapping]

theorem State.memWf_of_makeRoom {s t : State} {fn n : Nat} {cost : List (Nat × Nat)} (made : s.makeRoom fn cost n = some t) : t.memWf = s.memWf := by
  induction n generalizing s with
  | zero => cases made
  | succ n ih =>
    rw [State.makeRoom] at made
    split at made
    · split at made
      · rw [ih made, State.memWf_dropMapping]
      · cases made
    · split at made
      · rw [Option.some.inj made]
      · split at made
        · rw [ih made, State.memWf_dropMapping]
        · cases made

@[simp] theorem State.memWf_grantFill (s : State) (f : Fill) : (s.grantFill f).memWf = s.memWf := by
  unfold State.grantFill
  dsimp only
  split
  next t made => simp [State.memWf_of_makeRoom made]
  next => simp

@[simp] theorem State.memWf_pumpFills (s : State) (fs : List Fill) (n : Nat) : (s.pumpFills fs n).memWf = s.memWf := by
  induction n generalizing s fs with
  | zero => rfl
  | succ n ih =>
    rw [State.pumpFills]
    split
    · rw [ih, State.memWf_grantFill]
    · rfl

@[simp] theorem State.memWf_runFills (s : State) : s.runFills.memWf = s.memWf := by simp [State.runFills]

@[simp] theorem State.memWf_queueFill (s : State) (sh fn first : Nat) (demand : Bool) : (s.queueFill sh fn first demand).memWf = s.memWf := by
  simp [State.queueFill]

@[simp] theorem State.memWf_promoteShelf (s : State) (fn sh : Nat) : (s.promoteShelf fn sh).memWf = s.memWf := by
  unfold State.promoteShelf
  dsimp only
  split <;> simp

@[simp] theorem State.memWf_promoteAhead (s : State) (o : Obj) (sh : Nat) : (s.promoteAhead o sh).memWf = s.memWf := by simp [State.promoteAhead]

@[simp] theorem memWf_execDemandRead (who : Reader) (a : Nat) (s : State) : nextMemWf (execDemandRead who a s) = s.memWf := by
  unfold execDemandRead
  dsimp only
  repeat' split
  all_goals simp

@[simp] theorem State.memWf_flashRead (s : State) (blk bits : Nat) : (s.flashRead blk bits).memWf = s.memWf := by simp [State.flashRead]

@[simp] theorem memWf_execCodewordWritten (sh k blk bits : Nat) (s : State) : nextMemWf (execCodewordWritten sh k blk bits s) = s.memWf := by
  simp [execCodewordWritten]

@[simp] theorem memWf_execFillComplete (sh : Nat) (s : State) : nextMemWf (execFillComplete sh s) = s.memWf := by simp [execFillComplete]

@[simp] theorem memWf_execReferenceDrop (who : Reader) (a : Nat) (s : State) : nextMemWf (execReferenceDrop who a s) = s.memWf := by
  simp [execReferenceDrop]

@[simp] theorem State.memWf_dropReader (s : State) (r : Reader) : (s.dropReader r).memWf = s.memWf := by simp [State.dropReader]

@[simp] theorem memWf_execStreamRead (who : Reader) (a blk bits : Nat) (s : State) : nextMemWf (execStreamRead who a blk bits s) = s.memWf := by
  unfold execStreamRead
  dsimp only
  repeat' split
  all_goals simp

/-! ### Machine/Objects.lean -/

@[simp] theorem State.memWf_zeroTier (s : State) (a n : Nat) (wf : s.memWf = true) : (s.zeroTier a n).memWf = true := by
  obtain ⟨spad, tier, host⟩ := s.memWf_iff.mp wf
  exact (State.memWf_iff _).mpr ⟨spad, Mem.wf_filter _ tier, host⟩

@[simp] theorem memWf_execBurObjCreate (i : Issuer) (owner base size policy : Nat) (spread : Bool) (stack : Nat) (mirror class0 : Bool)
    (ahead : Nat) (s : State) (wf : s.memWf = true) :
    nextMemWf (execBurObjCreate i owner base size policy spread stack mirror class0 ahead s) = true := by
  rw [execBurObjCreate, nextMemWf_next]
  refine State.memWf_command wf _ _ fun fn version => ?_
  repeat' split
  all_goals simp [wf]

@[simp] theorem memWf_execBurObjQuery (i : Issuer) (k ogen : Nat) (s : State) (wf : s.memWf = true) :
    nextMemWf (execBurObjQuery i k ogen s) = true := by
  rw [execBurObjQuery, nextMemWf_next]
  refine State.memWf_command wf _ _ fun fn version => ?_
  repeat' split
  all_goals simp [wf]

@[simp] theorem memWf_execBurObjInstall (i : Issuer) (k ogen : Nat) (src : List (Nat × Nat)) (s : State) (wf : s.memWf = true) :
    nextMemWf (execBurObjInstall i k ogen src s) = true := by
  rw [execBurObjInstall, nextMemWf_next]
  refine State.memWf_command wf _ _ fun fn version => ?_
  repeat' split
  all_goals simp [wf]

@[simp] theorem State.memWf_endInstall (s : State) (x : Install) : (s.endInstall x).memWf = s.memWf := by simp [State.endInstall]

@[simp] theorem State.memWf_storeData (s : State) (secure : Bool) (a : Nat) (bs : List Byte) (n : Nat) (wf : s.memWf = true) :
    (s.storeData secure a bs n).memWf = true := by
  induction n generalizing s a bs with
  | zero => exact wf
  | succ n ih =>
    obtain ⟨spad, tier, host⟩ := s.memWf_iff.mp wf
    have written (page : List Byte) : ({ s with tier := Mem.write s.tier a page } : State).memWf = true :=
      (State.memWf_iff _).mpr ⟨spad, Mem.wf_write _ _ _ tier, host⟩
    rw [State.storeData]
    split
    · exact wf
    · exact ih _ _ _ (by simp [written, wf])

@[simp] theorem memWf_execInstallComplete (k : Nat) (data : ExtData) (s : State) (wf : s.memWf = true) :
    nextMemWf (execInstallComplete k data s) = true := by
  unfold execInstallComplete
  dsimp only
  repeat' split
  all_goals simp [wf]

@[simp] theorem memWf_execBurObjReinstall (i : Issuer) (k ogen first count : Nat) (src : List (Nat × Nat)) (s : State) (wf : s.memWf = true) :
    nextMemWf (execBurObjReinstall i k ogen first count src s) = true := by
  rw [execBurObjReinstall, nextMemWf_next]
  refine State.memWf_command wf _ _ fun fn version => ?_
  repeat' split
  all_goals simp [wf]

@[simp] theorem State.memWf_restoreShelf (s : State) (o : Obj) (sh : Nat) : (s.restoreShelf o sh).memWf = s.memWf := by simp [State.restoreShelf]

@[simp] theorem memWf_execReinstallStored (k : Nat) (data : ExtData) (s : State) (wf : s.memWf = true) :
    nextMemWf (execReinstallStored k data s) = true := by
  unfold execReinstallStored
  dsimp only
  repeat' split
  all_goals simp [wf]

@[simp] theorem State.memWf_seekPartner (s : State) (k : Nat) (but : Option Nat) : (s.seekPartner k but).memWf = s.memWf := by
  unfold State.seekPartner
  dsimp only
  split <;> simp

@[simp] theorem State.memWf_retryCopies (s : State) : s.retryCopies.memWf = s.memWf := by simp [State.retryCopies]
@[simp] theorem State.memWf_losePartner (s : State) (k : Nat) : (s.losePartner k).memWf = s.memWf := by simp [State.losePartner]
@[simp] theorem memWf_execMirrorPartnerLost (k : Nat) (s : State) : nextMemWf (execMirrorPartnerLost k s) = s.memWf := by simp [execMirrorPartnerLost]

@[simp] theorem memWf_execMirrorCopyDone (k : Nat) (s : State) : nextMemWf (execMirrorCopyDone k s) = s.memWf := by
  unfold execMirrorCopyDone
  split <;> simp

@[simp] theorem memWf_execBurObjDestroy (i : Issuer) (k ogen : Nat) (s : State) (wf : s.memWf = true) :
    nextMemWf (execBurObjDestroy i k ogen s) = true := by
  rw [execBurObjDestroy, nextMemWf_next]
  refine State.memWf_command wf _ _ fun fn version => ?_
  repeat' split
  all_goals simp [wf]

@[simp] theorem State.memWf_freeObj (s : State) (k : Nat) (wf : s.memWf = true) : (s.freeObj k).memWf = true := by simp [State.freeObj, wf]

@[simp] theorem memWf_execDestroyDone (k : Nat) (s : State) (wf : s.memWf = true) : nextMemWf (execDestroyDone k s) = true := by
  simp [execDestroyDone, wf]

@[simp] theorem memWf_execDmwPromote (i : Issuer) (rs : List (Nat × Nat × Nat × Nat)) (hold : Bool) (s : State) (wf : s.memWf = true) :
    nextMemWf (execDmwPromote i rs hold s) = true := by
  rw [execDmwPromote, nextMemWf_next]
  refine State.memWf_command wf _ _ fun fn version => ?_
  repeat' split
  all_goals simp [wf]

@[simp] theorem State.memWf_evictShelf (s : State) (sh : Nat) : (s.evictShelf sh).memWf = s.memWf := by
  unfold State.evictShelf
  dsimp only
  split <;> simp

@[simp] theorem memWf_execDmwEvict (i : Issuer) (rs : List (Nat × Nat × Nat × Nat)) (s : State) (wf : s.memWf = true) :
    nextMemWf (execDmwEvict i rs s) = true := by
  rw [execDmwEvict, nextMemWf_next]
  refine State.memWf_command wf _ _ fun fn version => ?_
  repeat' split
  all_goals simp [wf]

@[simp] theorem memWf_execDmwUnhold (i : Issuer) (rs : List (Nat × Nat × Nat × Nat)) (s : State) (wf : s.memWf = true) :
    nextMemWf (execDmwUnhold i rs s) = true := by
  rw [execDmwUnhold, nextMemWf_next]
  refine State.memWf_command wf _ _ fun fn version => ?_
  repeat' split
  all_goals simp [wf]

@[simp] theorem memWf_execDmwAllowance (i : Issuer) (fn' allow : Nat) (s : State) (wf : s.memWf = true) :
    nextMemWf (execDmwAllowance i fn' allow s) = true := by
  rw [execDmwAllowance, nextMemWf_next]
  refine State.memWf_command wf _ _ fun fn version => ?_
  repeat' split
  all_goals simp [wf]

@[simp] theorem State.memWf_bar4Reply (s : State) (r : Bar4) : (s.bar4Reply r).memWf = s.memWf := by simp [State.bar4Reply]

@[simp] theorem memWf_execBar4Read (off n : Nat) (s : State) : nextMemWf (execBar4Read off n s) = s.memWf := by
  unfold execBar4Read
  dsimp only
  repeat' split
  all_goals simp

@[simp] theorem memWf_execBar4Write (off : Nat) (bs : List Byte) (s : State) (wf : s.memWf = true) : nextMemWf (execBar4Write off bs s) = true := by
  unfold execBar4Write
  dsimp only
  split <;> simp [wf]

/-! ### Machine/Energy.lean -/

@[simp] theorem State.memWf_charge (s : State) (r cls energy : Nat) : (s.charge r cls energy).memWf = s.memWf := by simp [State.charge]
@[simp] theorem State.memWf_writeRail (s : State) (d : Nat) : (s.writeRail d).memWf = s.memWf := by simp [State.writeRail]
@[simp] theorem State.memWf_raiseRail (s : State) (d : Nat) : (s.raiseRail d).memWf = s.memWf := by simp [State.raiseRail]
@[simp] theorem State.memWf_lowerRail (s : State) (d : Nat) : (s.lowerRail d).memWf = s.memWf := by simp [State.lowerRail]
@[simp] theorem State.memWf_startStep (s : State) (r target : Nat) : (s.startStep r target).memWf = s.memWf := by simp [State.startStep]

/-! ### Machine/Slack.lean -/

@[simp] theorem State.memWf_setSlk (s : State) (g : Nat) (v : Slack) : (s.setSlk g v).memWf = s.memWf := by simp [State.setSlk]
@[simp] theorem State.memWf_slackCheck (s : State) (g : Nat) : (s.slackCheck g).memWf = s.memWf := by simp [State.slackCheck]

@[simp] theorem State.memWf_slackSettle (s : State) (g : Nat) : (s.slackSettle g).memWf = s.memWf := by
  unfold State.slackSettle
  dsimp only
  split
  · split <;> simp
  · rfl

@[simp] theorem State.memWf_slackDone (s : State) (t : Task) : (s.slackDone t).memWf = s.memWf := by
  unfold State.slackDone
  split <;> simp

@[simp] theorem State.memWf_slackOverrun (s : State) (g : Nat) : (s.slackOverrun g).memWf = s.memWf := by simp [State.slackOverrun]

@[simp] theorem State.memWf_slackStart (s : State) (g k remain deadline : Nat) : (s.slackStart g k remain deadline).memWf = s.memWf := by
  simp [State.slackStart]

@[simp] theorem memWf_execSlackUpdate (s : State) : nextMemWf (execSlackUpdate s) = s.memWf := by simp [execSlackUpdate]

end Sys2Proof.Machine
end

section
/-! SUPPORT. That the operations of the model keep the memories canonical: Cabinet's contexts and tasks, gated accesses, latches and time. -/

namespace Sys2Proof.Machine

/-! ### Machine/Cabinet.lean -/

@[simp] theorem State.memWf_clearCtxCounters (s : State) (x : Nat) : (s.clearCtxCounters x).memWf = s.memWf := by simp [State.clearCtxCounters]

@[simp] theorem State.memWf_createCtx (s : State) (i : Issuer) (fn owner slots floor weight evq : Nat) (wf : s.memWf = true) :
    okMemWf Prod.fst (s.createCtx i fn owner slots floor weight evq) = true := by
  unfold State.createCtx
  repeat' split
  all_goals simp [wf]

@[simp] theorem memWf_execCabCtxCreate (i : Issuer) (owner slots floor weight evq : Nat) (s : State) (wf : s.memWf = true) :
    nextMemWf (execCabCtxCreate i owner slots floor weight evq s) = true := by
  unfold execCabCtxCreate
  rw [nextMemWf_next]
  split
  · split
    · have made := State.memWf_createCtx s i 0 owner slots floor weight evq wf
      split
      next t body done => simpa [done] using made
      next => exact wf
    · exact wf
  · exact State.memWf_command wf _ _ fun _ _ => State.memWf_createCtx _ _ _ _ _ _ _ _ wf

@[simp] theorem memWf_execCabCtxSetWeight (i : Issuer) (x weight : Nat) (s : State) (wf : s.memWf = true) :
    nextMemWf (execCabCtxSetWeight i x weight s) = true := by
  rw [execCabCtxSetWeight, nextMemWf_next]
  refine State.memWf_command wf _ _ fun fn version => ?_
  repeat' split
  all_goals simp [wf]

@[simp] theorem State.memWf_tplReap (s : State) : s.tplReap.memWf = s.memWf := by simp [State.tplReap]
@[simp] theorem State.memWf_freeSlot (s : State) (i : Nat) : (s.freeSlot i).memWf = s.memWf := by simp [State.freeSlot]
@[simp] theorem State.memWf_mapTasks (s : State) (f : Task → Task) : (s.mapTasks f).memWf = s.memWf := by simp [State.mapTasks]

@[simp] theorem State.memWf_settleTask (s : State) (i : Nat) : (s.settleTask i).memWf = s.memWf := by
  unfold State.settleTask
  dsimp only
  repeat' split
  all_goals simp

@[simp] theorem State.memWf_settleAll (s : State) (is : List Nat) : (s.settleAll is).memWf = s.memWf := by simp [State.settleAll]
@[simp] theorem State.memWf_resolve (s : State) (j status : Nat) : (s.resolve j status).memWf = s.memWf := by simp [State.resolve]

@[simp] theorem State.memWf_recordTask (s : State) (i : Nat) (record : Bool) : (s.recordTask i record).memWf = s.memWf := by
  unfold State.recordTask
  dsimp only
  split <;> simp

@[simp] theorem State.memWf_endTask (s : State) (i status cause place : Nat) : (s.endTask i status cause place).memWf = s.memWf := by
  unfold State.endTask
  dsimp only
  split <;> simp

@[simp] theorem memWf_execTaskComplete (s : State) : nextMemWf (execTaskComplete s) = s.memWf := by
  unfold execTaskComplete
  dsimp only
  repeat' split
  all_goals simp

@[simp] theorem State.memWf_refuseDesc (s : State) (fn : Nat) (d : TaskDesc) (cause : Nat) : (s.refuseDesc fn d cause).memWf = s.memWf := by
  unfold State.refuseDesc
  dsimp only
  split <;> simp

@[simp] theorem State.memWf_acceptTask (s : State) (fn q pos : Nat) (d : TaskDesc) (committed : Bool) (worst : Nat) (inst : Option (Nat × Nat)) :
    (s.acceptTask fn q pos d committed worst inst).memWf = s.memWf := by simp [State.acceptTask]

@[simp] theorem State.memWf_failQueue (s : State) (q cause : Nat) : (s.failQueue q cause).memWf = s.memWf := by simp [State.failQueue]
@[simp] theorem State.memWf_consume (s : State) (q : Nat) : (s.consume q).memWf = s.memWf := by simp [State.consume]

@[simp] theorem memWf_execDescriptorAccept (data : ExtData) (s : State) : nextMemWf (execDescriptorAccept data s) = s.memWf := by
  unfold execDescriptorAccept
  dsimp only
  repeat' split
  all_goals simp

@[simp] theorem memWf_execCommit (q value : Nat) (s : State) : nextMemWf (execCommit q value s) = s.memWf := by simp [execCommit]

@[simp] theorem memWf_execCabBarAlloc (i : Issuer) (p : Nat) (s : State) (wf : s.memWf = true) : nextMemWf (execCabBarAlloc i p s) = true := by
  rw [execCabBarAlloc, nextMemWf_next]
  refine State.memWf_command wf _ _ fun fn version => ?_
  repeat' split
  all_goals simp [wf]

@[simp] theorem memWf_execCabBarFree (i : Issuer) (b : Nat) (s : State) (wf : s.memWf = true) : nextMemWf (execCabBarFree i b s) = true := by
  rw [execCabBarFree, nextMemWf_next]
  exact State.memWf_command wf _ _ fun fn version => by simp [wf]

@[simp] theorem State.memWf_releaseOne (s : State) (h : Nat) : (s.releaseOne h).memWf = s.memWf := by
  unfold State.releaseOne
  split
  · rfl
  · split
    · rfl
    · split <;> simp

@[simp] theorem State.memWf_releaseBar (s : State) (b : Nat) : (s.releaseBar b).memWf = s.memWf := by simp [State.releaseBar]

@[simp] theorem State.memWf_arriveOne (s : State) (b i : Nat) : (s.arriveOne b i).memWf = s.memWf := by
  unfold State.arriveOne
  dsimp only
  repeat' split
  all_goals simp

@[simp] theorem memWf_execArrive (b : Nat) (s : State) : nextMemWf (execArrive b s) = s.memWf := by simp [execArrive]

@[simp] theorem memWf_execDeadlineMiss (s : State) : nextMemWf (execDeadlineMiss s) = s.memWf := by
  refine State.memWf_foldl (fun s e => ?_) _ _
  dsimp only
  split <;> simp

/-! ### Machine/Latches.lean -/

@[simp] theorem State.memWf_signal (s : State) (c l n : Nat) : (s.signal c l n).memWf = s.memWf := by simp [State.signal]
@[simp] theorem State.memWf_waitOn (s : State) (c l idx n : Nat) : (s.waitOn c l idx n).memWf = s.memWf := by simp [State.waitOn]
@[simp] theorem State.memWf_unwait (s : State) (c idx : Nat) : (s.unwait c idx).memWf = s.memWf := by simp [State.unwait]
@[simp] theorem State.memWf_tinResume (s : State) (m : Nat) : (s.tinResume m).memWf = s.memWf := by simp [State.tinResume]
@[simp] theorem State.memWf_released (s : State) (c idx : Nat) : (s.released c idx).memWf = s.memWf := by simp [State.released]
@[simp] theorem State.memWf_applySignal (s : State) (c l n : Nat) : (s.applySignal c l n).memWf = s.memWf := by simp [State.applySignal]

@[simp] theorem State.memWf_testWaits (s : State) (c l : Nat) (waits : List (Nat × Nat × Nat)) (left : Bool) :
    (s.testWaits c l waits left).memWf = s.memWf := by
  induction waits generalizing s left with
  | nil => rfl
  | cons w waits ih =>
    rw [State.testWaits]
    split <;> simp [ih]

@[simp] theorem State.memWf_evalLatch (s : State) (c l : Nat) : (s.evalLatch c l).memWf = s.memWf := by
  simp [State.evalLatch]

@[simp] theorem memWf_execLatchEvaluation (c l : Nat) (s : State) : nextMemWf (execLatchEvaluation c l s) = s.memWf := by simp [execLatchEvaluation]
@[simp] theorem State.memWf_invarSignal (s : State) (c l : Nat) : (s.invarSignal c l).memWf = s.memWf := by simp [State.invarSignal]

/-! ### Machine/Invar.lean -/

@[simp] theorem State.memWf_stepTime (s : State) (new : Int) (source : Nat) : (s.stepTime new source).memWf = s.memWf := by simp [State.stepTime]
@[simp] theorem State.memWf_invSet (s : State) (v : W32) : (s.invSet v).memWf = s.memWf := by simp [State.invSet]
@[simp] theorem memWf_execInvSet (v : W32) (s : State) : nextMemWf (execInvSet v s) = s.memWf := by simp [execInvSet]
@[simp] theorem State.memWf_invStep (s : State) (lo hi : W32) : (s.invStep lo hi).memWf = s.memWf := by simp [State.invStep]
@[simp] theorem memWf_execInvStep (lo hi : W32) (s : State) : nextMemWf (execInvStep lo hi s) = s.memWf := by simp [execInvStep]
@[simp] theorem State.memWf_setServo (s : State) (v : Nat) : (s.setServo v).memWf = s.memWf := by simp [State.setServo]
@[simp] theorem State.memWf_setIncr (s : State) (v : Int) : (s.setIncr v).memWf = s.memWf := by simp [State.setIncr]
@[simp] theorem State.memWf_setServoI (s : State) (i : Int) : (s.setServoI i).memWf = s.memWf := by simp [State.setServoI]

@[simp] theorem State.memWf_servoSample (s : State) (theta : Int) : (s.servoSample theta).memWf = s.memWf := by
  simp only [State.servoSample, State.memWf_setServo, State.memWf_ite, State.memWf_stepTime, State.memWf_setIncr, State.memWf_setServoI, State.memWf_mk,
    State.memWf_setReg, State.memWf_bump, ite_self]

@[simp] theorem State.memWf_servoOffer (s : State) (lo hi : W32) : (s.servoOffer lo hi).memWf = s.memWf := by simp [State.servoOffer]
@[simp] theorem memWf_execServoSample (lo hi : W32) (s : State) : nextMemWf (execServoSample lo hi s) = s.memWf := by simp [execServoSample]
@[simp] theorem memWf_execServoHoldover (s : State) : nextMemWf (execServoHoldover s) = s.memWf := by simp [execServoHoldover]
@[simp] theorem memWf_execRefInLoss (s : State) : nextMemWf (execRefInLoss s) = s.memWf := by simp [execRefInLoss]
@[simp] theorem memWf_execRefInRestore (s : State) : nextMemWf (execRefInRestore s) = s.memWf := by simp [execRefInRestore]
@[simp] theorem State.memWf_invCtrlWritten (s : State) : s.invCtrlWritten.memWf = s.memWf := by simp [State.invCtrlWritten]
@[simp] theorem State.memWf_putStored (s : State) (a t : Nat) : (s.putStored a t).memWf = s.memWf := by simp [State.putStored, storedForm]
@[simp] theorem memWf_execPpsInEdge (skew : Int) (s : State) : nextMemWf (execPpsInEdge skew s) = s.memWf := by simp [execPpsInEdge]
@[simp] theorem State.memWf_trgWritten (old s : State) (g : Nat) : (old.trgWritten s g).memWf = s.memWf := by simp [State.trgWritten]
@[simp] theorem State.memWf_trgAct (s : State) (g : Nat) (late : Bool) : (s.trgAct g late).memWf = s.memWf := by simp [State.trgAct]

@[simp] theorem memWf_execGeneralTriggerFire (g : Nat) (s : State) : nextMemWf (execGeneralTriggerFire g s) = s.memWf := by
  simp [execGeneralTriggerFire]

end Sys2Proof.Machine
end

section
/-! SUPPORT. That the operations of the model keep the memories canonical: Hallstand, Solder and the host's queues. -/

namespace Sys2Proof.Machine

/-! ### Machine/Hallstand.lean -/

@[simp] theorem State.memWf_setMac (s : State) (m : Nat) (v : MacTx) : (s.setMac m v).memWf = s.memWf := by simp [State.setMac]

@[simp] theorem State.memWf_txDone (s : State) (q : Nat) (d : TxDesc) (gen status : Nat) (stamp : List Nat) :
    (s.txDone q d gen status stamp).memWf = s.memWf := by simp [State.txDone]

@[simp] theorem State.memWf_dropHead (s : State) (q : Nat) : (s.dropHead q).memWf = s.memWf := by simp [State.dropHead]

@[simp] theorem State.memWf_killHead (s : State) (q status : Nat) : (s.killHead q status).memWf = s.memWf := by
  unfold State.killHead
  split <;> simp

@[simp] theorem State.memWf_testHead (s : State) (q : Nat) : (s.testHead q).memWf = s.memWf := by
  unfold State.testHead
  split <;> simp

@[simp] theorem State.memWf_baseTag (s : State) (m c : Nat) : (s.baseTag m c).memWf = s.memWf := by simp [State.baseTag]

theorem State.memWf_of_txBytes {s t : State} {fn st : Nat} {d : TxDesc} {frame : ExtData} (failed : s.txBytes fn d frame = .error (t, st)) :
    t.memWf = s.memWf := by
  unfold State.txBytes at failed
  repeat' split at failed
  all_goals cases failed
  all_goals simp

@[simp] theorem memWf_execTxDescriptorFetch (q : Nat) (entry frame : ExtData) (s : State) :
    nextMemWf (execTxDescriptorFetch q entry frame s) = s.memWf := by
  unfold execTxDescriptorFetch
  rw [nextMemWf_next]
  dsimp only
  split
  · rfl
  · split
    · simp
    · split
      · simp
      · split
        · simp
        · split
          next failed => simp [State.memWf_of_txBytes failed]
          next => split <;> simp

@[simp] theorem State.memWf_startFrame (s : State) (m c q : Nat) (h : TxHead) (v : MacTx) : (s.startFrame m c q h v).memWf = s.memWf := by
  simp [State.startFrame]

@[simp] theorem memWf_execFrameSelect (m : Nat) (s : State) : nextMemWf (execFrameSelect m s) = s.memWf := by
  unfold execFrameSelect
  dsimp only
  split <;> simp

@[simp] theorem memWf_execFrameSent (m : Nat) (s : State) : nextMemWf (execFrameSent m s) = s.memWf := by
  unfold execFrameSent
  dsimp only
  split <;> simp

@[simp] theorem State.memWf_gclGo (s : State) (m : Nat) (w : W32) : (s.gclGo m w).memWf = s.memWf := by simp [State.gclGo]
@[simp] theorem memWf_execGclGo (m : Nat) (w : W32) (s : State) : nextMemWf (execGclGo m w s) = s.memWf := by simp [execGclGo]

@[simp] theorem memWf_execGclChange (m : Nat) (s : State) : nextMemWf (execGclChange m s) = s.memWf := by
  unfold execGclChange
  dsimp only
  split <;> simp

@[simp] theorem memWf_execHstTxqSet (i : Issuer) (q : Nat) (drop : Bool) (s : State) (wf : s.memWf = true) :
    nextMemWf (execHstTxqSet i q drop s) = true := by
  rw [execHstTxqSet, nextMemWf_next]
  refine State.memWf_command wf _ _ fun fn version => ?_
  repeat' split
  all_goals simp [wf]

@[simp] theorem State.memWf_setLink (s : State) (m : Nat) (up : Bool) : (s.setLink m up).memWf = s.memWf := by simp [State.setLink]
@[simp] theorem memWf_execLinkChange (m : Nat) (up : Bool) (s : State) : nextMemWf (execLinkChange m up s) = s.memWf := by simp [execLinkChange]
@[simp] theorem State.memWf_flushMac (s : State) (m : Nat) : (s.flushMac m).memWf = s.memWf := by simp [State.flushMac]
@[simp] theorem State.memWf_portOff (s : State) (p : Nat) : (s.portOff p).memWf = s.memWf := by simp [State.portOff]
@[simp] theorem memWf_execPortDisable (p : Nat) (s : State) : nextMemWf (execPortDisable p s) = s.memWf := by simp [execPortDisable]

/-! ### Machine/Solder.lean -/

@[simp] theorem State.memWf_setDest (s : State) (n : Nat) (d : SldDest) : (s.setDest n d).memWf = s.memWf := by simp [State.setDest]
@[simp] theorem State.memWf_setSrc (s : State) (n : Nat) (v : SldSrc) : (s.setSrc n v).memWf = s.memWf := by simp [State.setSrc]

@[simp] theorem State.memWf_sldSend (s : State) (n : Nat) (payload : List Byte) : (s.sldSend n payload).memWf = s.memWf := by
  unfold State.sldSend
  split <;> simp

@[simp] theorem State.memWf_sldPump (s : State) (n k : Nat) : (s.sldPump n k).memWf = s.memWf := by
  induction k generalizing s with
  | zero => rfl
  | succ k ih =>
    rw [State.sldPump]
    dsimp only
    split
    · rfl
    · split
      · rfl
      · split <;> simp [ih]

@[simp] theorem State.memWf_sldRun (s : State) (n : Nat) : (s.sldRun n).memWf = s.memWf := by simp [State.sldRun]
@[simp] theorem State.memWf_sldRunAll (s : State) : s.sldRunAll.memWf = s.memWf := by simp [State.sldRunAll]
@[simp] theorem State.memWf_sldIssue (s : State) (o : SldOp) : (s.sldIssue o).memWf = s.memWf := by simp [State.sldIssue]

@[simp] theorem State.memWf_sldAnswer (s : State) (n seq tag opc status : Nat) (data : List Byte) :
    (s.sldAnswer n seq tag opc status data).memWf = s.memWf := by
  unfold State.sldAnswer
  dsimp only
  split <;> simp

@[simp] theorem State.memWf_sldAnswers (s : State) (n : Nat) (bs : List Byte) (k : Nat) : (s.sldAnswers n bs k).memWf = s.memWf := by
  induction k generalizing s bs with
  | zero => rfl
  | succ k ih =>
    rw [State.sldAnswers]
    split
    · rfl
    · simp [ih]

theorem State.memWf_of_hostComplete {s t : State} {es : List SldEntry} {held : List Nat} (wf : s.memWf = true)
    (done : s.hostComplete es held = some t) : t.memWf = true := by
  induction es generalizing held with
  | nil => cases done
  | cons e es ih =>
    rw [State.hostComplete] at done
    split at done
    · exact ih done
    · split at done
      · exact ih done
      · cases done
        simp [wf]

@[simp] theorem State.memWf_hostRun (s : State) (n : Nat) (wf : s.memWf = true) : (s.hostRun n).memWf = true := by
  induction n generalizing s with
  | zero => exact wf
  | succ n ih =>
    rw [State.hostRun]
    split
    next t done => exact ih t (State.memWf_of_hostComplete wf done)
    next => exact wf

@[simp] theorem State.memWf_hostDone (s : State) (wf : s.memWf = true) : s.hostDone.memWf = true := by simp [State.hostDone, wf]

@[simp] theorem State.memWf_sldTake (s : State) (bs : List Byte) (kind : Nat) (sumOk : Bool) : (s.sldTake bs kind sumOk).1.memWf = s.memWf := by
  unfold State.sldTake
  dsimp only
  repeat' split
  all_goals simp

@[simp] theorem State.memWf_sldEcho (s : State) (n : Nat) : (s.sldEcho n).memWf = s.memWf := by simp [State.sldEcho]

@[simp] theorem memWf_execSolderResponseReceive (bs : List Byte) (sumOk : Bool) (s : State) (wf : s.memWf = true) :
    nextMemWf (execSolderResponseReceive bs sumOk s) = true := by
  unfold execSolderResponseReceive
  rw [nextMemWf_next]
  have taken := s.memWf_sldTake bs 1 sumOk
  split
  next t none => simpa [none, wf] using taken
  next t hdr some =>
    have keeps : t.memWf = true := by simpa [some, wf] using taken
    dsimp only
    split
    · exact keeps
    · simp [keeps]

@[simp] theorem State.memWf_sldResend (s : State) (n : Nat) (ps : List SldPkt) : (s.sldResend n ps).memWf = s.memWf := by simp [State.sldResend]

@[simp] theorem memWf_execSolderNakReceive (bs : List Byte) (sumOk : Bool) (s : State) : nextMemWf (execSolderNakReceive bs sumOk s) = s.memWf := by
  unfold execSolderNakReceive
  rw [nextMemWf_next]
  have taken := s.memWf_sldTake bs 2 sumOk
  split
  next t none => simpa [none] using taken
  next t hdr some =>
    have keeps : t.memWf = s.memWf := by simpa [some] using taken
    dsimp only
    repeat' split
    all_goals simp [keeps]

@[simp] theorem memWf_execRetransmitTimeout (n : Nat) (s : State) : nextMemWf (execRetransmitTimeout n s) = s.memWf := by simp [execRetransmitTimeout]
@[simp] theorem memWf_execWindowIncrease (n : Nat) (s : State) : nextMemWf (execWindowIncrease n s) = s.memWf := by simp [execWindowIncrease]
@[simp] theorem State.memWf_sldCtrl (s : State) (v : W32) : (s.sldCtrl v).memWf = s.memWf := by simp [State.sldCtrl]
@[simp] theorem memWf_execSldCtrlEn (v : W32) (s : State) : nextMemWf (execSldCtrlEn v s) = s.memWf := by simp [execSldCtrlEn]
@[simp] theorem State.memWf_sldPeerSel (s : State) (v : W32) : (s.sldPeerSel v).memWf = s.memWf := by simp [State.sldPeerSel]
@[simp] theorem memWf_execSldPeerSel (v : W32) (s : State) : nextMemWf (execSldPeerSel v s) = s.memWf := by simp [execSldPeerSel]

@[simp] theorem memWf_execSldLocalSet (i : Issuer) (mac ip : Nat) (s : State) (wf : s.memWf = true) :
    nextMemWf (execSldLocalSet i mac ip s) = true := by
  rw [execSldLocalSet, nextMemWf_next]
  refine State.memWf_command wf _ _ fun fn version => ?_
  repeat' split
  all_goals simp [wf]

@[simp] theorem memWf_execSldPeerSet (i : Issuer) (n : Nat) (ps : List W32) (s : State) (wf : s.memWf = true) :
    nextMemWf (execSldPeerSet i n ps s) = true := by
  rw [execSldPeerSet, nextMemWf_next]
  exact State.memWf_command wf _ _ fun fn version => by simp [wf]

@[simp] theorem memWf_execSldPeerReopen (i : Issuer) (n : Nat) (s : State) (wf : s.memWf = true) : nextMemWf (execSldPeerReopen i n s) = true := by
  rw [execSldPeerReopen, nextMemWf_next]
  refine State.memWf_command wf _ _ fun fn version => ?_
  repeat' split
  all_goals simp [wf]

@[simp] theorem memWf_execSldFuncDomain (i : Issuer) (fn domain : Nat) (s : State) (wf : s.memWf = true) :
    nextMemWf (execSldFuncDomain i fn domain s) = true := by
  rw [execSldFuncDomain, nextMemWf_next]
  refine State.memWf_command wf _ _ fun fn version => ?_
  repeat' split
  all_goals simp [wf]

/-! ### Machine/Ingress.lean -/

@[simp] theorem State.memWf_setPolicer (s : State) (k : Nat) (p : Policer) : (s.setPolicer k p).memWf = s.memWf := by simp [State.setPolicer]

@[simp] theorem State.memWf_police (s : State) (m : Nat) (bs : List Byte) : (s.police m bs).1.memWf = s.memWf := by
  unfold State.police
  dsimp only
  repeat' split
  all_goals simp

@[simp] theorem State.memWf_polSel (s : State) (w : W32) : (s.polSel w).memWf = s.memWf := by simp [State.polSel]
@[simp] theorem memWf_execHstPolSel (w : W32) (s : State) : nextMemWf (execHstPolSel w s) = s.memWf := by simp [execHstPolSel]
@[simp] theorem State.memWf_polWritten (s : State) : s.polWritten.memWf = s.memWf := by simp [State.polWritten]
@[simp] theorem State.memWf_rxDrop (s : State) (q m : Nat) : (s.rxDrop q m).memWf = s.memWf := by simp [State.rxDrop]

@[simp] theorem State.memWf_rxDeliver (s : State) (f : RxFrame) (q : Nat) (ring : ExtData) (wf : s.memWf = true) : (s.rxDeliver f q ring).memWf = true := by
  unfold State.rxDeliver
  dsimp only
  split
  · simp [wf]
  · split <;> simp [wf]

@[simp] theorem State.memWf_rxAll (s : State) (f : RxFrame) (qs : List Nat) (rings : List ExtData) (wf : s.memWf = true) :
    (s.rxAll f qs rings).memWf = true := by
  induction qs generalizing s rings with
  | nil => exact wf
  | cons q qs ih => exact ih _ _ (State.memWf_rxDeliver s f q _ wf)

@[simp] theorem State.memWf_steer (s : State) (f : RxFrame) (rings : List ExtData) (wf : s.memWf = true) : (s.steer f rings).memWf = true := by
  unfold State.steer
  dsimp only
  repeat' split
  all_goals simp [wf]

@[simp] theorem memWf_execFrameReceive (m : Nat) (bs : List Byte) (fcsOk : Bool) (rings : List ExtData) (s : State) (wf : s.memWf = true) :
    nextMemWf (execFrameReceive m bs fcsOk rings s) = true := by
  unfold execFrameReceive
  rw [nextMemWf_next]
  dsimp only
  split
  · exact wf
  · split
    · simp [wf]
    · split
      · simp [wf]
      · split
        · simp [wf]
        · have policed := (s.bump (Reg.ETH_RX_FRAMES (m / 8) (m % 8)) 1).memWf_police m bs
          split
          next t none => simpa [none, wf] using policed
          next t c bs' some =>
            have keeps : t.memWf = true := by simpa [some, wf] using policed
            simp [keeps]

@[simp] theorem memWf_execHstRxfAdd (i : Issuer) (mac addr : Nat) (vid : Option Nat) (base count : Nat) (default_ : Bool) (s : State)
    (wf : s.memWf = true) :
    nextMemWf (execHstRxfAdd i mac addr vid base count default_ s) = true := by
  rw [execHstRxfAdd, nextMemWf_next]
  refine State.memWf_command wf _ _ fun fn version => ?_
  repeat' split
  all_goals simp [wf]

@[simp] theorem memWf_execHstRxfDel (i : Issuer) (k : Nat) (s : State) (wf : s.memWf = true) : nextMemWf (execHstRxfDel i k s) = true := by
  rw [execHstRxfDel, nextMemWf_next]
  refine State.memWf_command wf _ _ fun fn version => ?_
  repeat' split
  all_goals simp [wf]

/-! ### Machine/Access.lean -/

@[simp] theorem State.memWf_worldRead (s : State) (who x a n : Nat) : (s.worldRead who x a n).1.memWf = s.memWf := by
  rw [State.worldRead, apply_ite Prod.fst]
  simp

@[simp] theorem State.memWf_worldWrite (s : State) (who x a : Nat) (bs : List Byte) (wf : s.memWf = true) : (s.worldWrite who x a bs).memWf = true := by
  simp [State.worldWrite, wf]

/-! ### Machine/SolderHome.lean -/

@[simp] theorem memWf_execSldExportAdd (i : Issuer) (xs : List W32) (s : State) (wf : s.memWf = true) :
    nextMemWf (execSldExportAdd i xs s) = true := by
  rw [execSldExportAdd, nextMemWf_next]
  refine State.memWf_command wf _ _ fun fn version => ?_
  dsimp only
  repeat' split
  all_goals simp [wf]

@[simp] theorem State.memWf_sldReply (s : State) (a : SldAcc) (status : Nat) (data : List Byte) : (s.sldReply a status data).memWf = s.memWf := by
  simp [State.sldReply]

@[simp] theorem State.memWf_sldKeep (s : State) (a : SldAcc) (status old : Nat) : (s.sldKeep a status old).memWf = s.memWf := by simp [State.sldKeep]

@[simp] theorem State.memWf_sldDropExport (s : State) (k : Nat) : (s.sldDropExport k).memWf = s.memWf := by
  unfold State.sldDropExport
  split <;> simp

@[simp] theorem memWf_execSldExportDel (i : Issuer) (k : Nat) (s : State) (wf : s.memWf = true) : nextMemWf (execSldExportDel i k s) = true := by
  rw [execSldExportDel, nextMemWf_next]
  refine State.memWf_command wf _ _ fun fn version => ?_
  repeat' split
  all_goals simp [wf]

@[simp] theorem State.memWf_sldQueue (s : State) (as : List SldAcc) : (s.sldQueue as).memWf = s.memWf := by simp [State.sldQueue]

@[simp] theorem State.memWf_sldAccept (s : State) (h : SldHdr) (rs : List SldRec) (ce : Bool) : (s.sldAccept h rs ce).memWf = s.memWf := by
  simp [State.sldAccept]

@[simp] theorem State.memWf_sldDup (s : State) (a : SldAcc) : (s.sldDup a).memWf = s.memWf := by
  unfold State.sldDup
  dsimp only
  split
  · rfl
  · split
    · simp
    · split
      · split <;> simp
      · simp

@[simp] theorem State.memWf_sldNak (s : State) (n reason inc : Nat) : (s.sldNak n reason inc).memWf = s.memWf := by simp [State.sldNak]
@[simp] theorem State.memWf_sldGap (s : State) (n : Nat) : (s.sldGap n).memWf = s.memWf := by simp [State.sldGap]

@[simp] theorem memWf_execSolderRequestReceive (bs : List Byte) (ce sumOk : Bool) (s : State) :
    nextMemWf (execSolderRequestReceive bs ce sumOk s) = s.memWf := by
  unfold execSolderRequestReceive
  rw [nextMemWf_next]
  have taken := s.memWf_sldTake bs 0 sumOk
  split
  next t none => simpa [none] using taken
  next t hdr some =>
    have keeps : t.memWf = s.memWf := by simpa [some] using taken
    split
    · exact keeps
    · simp [keeps]

@[simp] theorem State.memWf_sldPerform (s : State) (a : SldAcc) (t : Nat) (wf : s.memWf = true) : (s.sldPerform a t).memWf = true := by
  unfold State.sldPerform
  dsimp only
  split
  · simp [wf]
  · split
    · simp [wf]
    · split
      · simp [wf]
      · split <;> simp [wf]

@[simp] theorem memWf_execSolderOpPerform (k : Nat) (s : State) (wf : s.memWf = true) : nextMemWf (execSolderOpPerform k s) = true := by
  unfold execSolderOpPerform
  dsimp only
  repeat' split
  all_goals simp [wf]

@[simp] theorem memWf_execSldQuorumKeys (i : Issuer) (threshold : Nat) (keys : List (List Byte)) (s : State) (wf : s.memWf = true) :
    nextMemWf (execSldQuorumKeys i threshold keys s) = true := by
  rw [execSldQuorumKeys, nextMemWf_next]
  refine State.memWf_command wf _ _ fun fn version => ?_
  repeat' split
  all_goals simp [wf]

@[simp] theorem memWf_execSldFence (i : Issuer) (cmd : List Byte) (s : State) : nextMemWf (execSldFence i cmd s) = s.memWf := by simp [execSldFence]

@[simp] theorem memWf_execSolderControlReceive (bs : List Byte) (v6 : Bool) (ip port : Nat) (sumOk : Bool) (s : State) :
    nextMemWf (execSolderControlReceive bs v6 ip port sumOk s) = s.memWf := by
  unfold execSolderControlReceive
  rw [nextMemWf_next]
  have taken := s.memWf_sldTake bs 3 sumOk
  split
  next t none => simpa [none] using taken
  next t hdr some =>
    have keeps : t.memWf = s.memWf := by simpa [some] using taken
    split <;> simp [keeps]

@[simp] theorem State.memWf_quorumApply (s : State) (op target : Nat) : (s.quorumApply op target).memWf = s.memWf := by
  unfold State.quorumApply
  split <;> simp

@[simp] theorem State.memWf_sldControlReply (s : State) (node : Nat) (v6 : Bool) (ip port result : Nat) :
    (s.sldControlReply node v6 ip port result).memWf = s.memWf := by simp [State.sldControlReply]

@[simp] theorem State.memWf_quorumReply (s : State) (q : QuorumFrom) (result : Nat) (wf : s.memWf = true) :
    (s.quorumReply q result).memWf = true := by
  unfold State.quorumReply
  split <;> simp [wf]

@[simp] theorem memWf_execQuorumVerifyDone (s : State) (wf : s.memWf = true) : nextMemWf (execQuorumVerifyDone s) = true := by
  unfold execQuorumVerifyDone
  split <;> simp [wf]

/-! ### Machine/Queues.lean -/

@[simp] theorem State.memWf_doorbell (s : State) (fn i : Nat) : (s.doorbell fn i).1.memWf = s.memWf := by
  unfold State.doorbell
  dsimp only
  repeat' split
  all_goals simp

@[simp] theorem memWf_execDoorbellCount (fn i value : Nat) (s : State) : nextMemWf (execDoorbellCount fn i value s) = s.memWf := by
  unfold execDoorbellCount
  rw [nextMemWf_next]
  have rung := s.memWf_doorbell fn i
  split
  next t none => simpa [none] using rung
  next t q some =>
    have keeps : t.memWf = s.memWf := by simpa [some] using rung
    simp [keeps]

@[simp] theorem memWf_execDoorbellArm (fn i a : Nat) (s : State) : nextMemWf (execDoorbellArm fn i a s) = s.memWf := by
  unfold execDoorbellArm
  rw [nextMemWf_next]
  have rung := s.memWf_doorbell fn i
  split
  next t none => simpa [none] using rung
  next t q some =>
    have keeps : t.memWf = s.memWf := by simpa [some] using rung
    simp [keeps]

@[simp] theorem memWf_execCoalTimer (q : Nat) (s : State) : nextMemWf (execCoalTimer q s) = s.memWf := by simp [execCoalTimer]

@[simp] theorem State.memWf_freeTaskSlot (s : State) (u : RecFor) : (s.freeTaskSlot u).memWf = s.memWf := by
  unfold State.freeTaskSlot
  split
  · split <;> simp
  · rfl

@[simp] theorem State.memWf_unblock (s : State) (u : RecFor) : (s.unblock u).memWf = s.memWf := by
  unfold State.unblock
  split <;> simp

@[simp] theorem State.memWf_discard (s : State) (r : PostRec) : (s.discard r).memWf = s.memWf := by simp [State.discard]
@[simp] theorem State.memWf_writeRec (s : State) (r : PostRec) (wf : s.memWf = true) : (s.writeRec r).memWf = true := by simp [State.writeRec, wf]

@[simp] theorem State.memWf_fullRec (s : State) (r : PostRec) (out : State) (wf : s.memWf = true) (hout : out.memWf = true) :
    (s.fullRec r out).memWf = true := by
  unfold State.fullRec
  split <;> simp [wf, hout]

@[simp] theorem State.memWf_postRec (s : State) (r : PostRec) (fault : Nat) (wf : s.memWf = true) : (s.postRec r fault).memWf = true := by
  unfold State.postRec
  dsimp only
  repeat' split
  all_goals simp [wf]

@[simp] theorem memWf_execRecordPost (q fault : Nat) (s : State) (wf : s.memWf = true) : nextMemWf (execRecordPost q fault s) = true := by
  unfold execRecordPost
  split <;> simp [wf]

@[simp] theorem memWf_execCompletionRecordPost (q fault : Nat) (s : State) (wf : s.memWf = true) :
    nextMemWf (execCompletionRecordPost q fault s) = true := by
  unfold execCompletionRecordPost
  split <;> simp [wf]

@[simp] theorem memWf_execQueueEntryFetch (q : Nat) (data : ExtData) (wbOk : Bool) (s : State) (wf : s.memWf = true) :
    nextMemWf (execQueueEntryFetch q data wbOk s) = true := by simp [execQueueEntryFetch, wf]

@[simp] theorem memWf_execQueCreate (i : Issuer) (idx typ kind logSize base wb pair vector coalCount coalUs typeCfg : Nat) (persist : Bool)
    (s : State) (wf : s.memWf = true) :
    nextMemWf (execQueCreate i idx typ kind logSize base wb pair vector coalCount coalUs typeCfg persist s) = true := by
  rw [execQueCreate, nextMemWf_next]
  refine State.memWf_command wf _ _ fun fn version => ?_
  repeat' split
  all_goals simp [wf]

@[simp] theorem State.memWf_stopQueue (s : State) (q : Nat) : (s.stopQueue q).memWf = s.memWf := by simp [State.stopQueue]

@[simp] theorem memWf_execQueDestroy (i : Issuer) (idx : Nat) (s : State) (wf : s.memWf = true) : nextMemWf (execQueDestroy i idx s) = true := by
  rw [execQueDestroy, nextMemWf_next]
  refine State.memWf_command wf _ _ fun fn version => ?_
  repeat' split
  all_goals simp [wf]

@[simp] theorem memWf_execQueQuery (i : Issuer) (idx : Nat) (s : State) (wf : s.memWf = true) : nextMemWf (execQueQuery i idx s) = true := by
  rw [execQueQuery, nextMemWf_next]
  refine State.memWf_command wf _ _ fun fn version => ?_
  repeat' split
  all_goals simp [wf]

theorem State.memWf_of_sldOperand {s t : State} {fn opc len data st : Nat} {ops : List Byte} {src : ExtData}
    (failed : s.sldOperand fn opc len data ops src = .error (t, st)) : t.memWf = s.memWf := by
  unfold State.sldOperand at failed
  repeat' split at failed
  all_goals cases failed
  all_goals simp

@[simp] theorem memWf_execSolderQueueEntry (q : Nat) (entry src : ExtData) (s : State) (wf : s.memWf = true) :
    nextMemWf (execSolderQueueEntry q entry src s) = true := by
  unfold execSolderQueueEntry
  rw [nextMemWf_next]
  dsimp only
  split
  · exact wf
  · split
    · simp [wf]
    · split
      · simp [wf]
      · split
        next failed => simp [State.memWf_of_sldOperand failed, wf]
        next => simp [wf]

@[simp] theorem memWf_execMailboxQueueEntry (q : Nat) (entry : ExtData) (h : MbxHeader) (s : State) (wf : s.memWf = true) :
    nextMemWf (execMailboxQueueEntry q entry h s) = true := by
  rw [execMailboxQueueEntry, nextMemWf_next]
  dsimp only
  split
  · exact wf
  · split
    · simp [wf]
    · split <;> simp [wf]

end Sys2Proof.Machine
end

section
/-! SUPPORT. That the operations of the model keep the memories canonical: Pewter units and Trestles. -/

namespace Sys2Proof.Machine

/-! ### Machine/Pewter.lean -/

@[simp] theorem State.memWf_setPq (s : State) (u i : Nat) (q : PwtQueue) : (s.setPq u i q).memWf = s.memWf := by simp [State.setPq]

@[simp] theorem State.memWf_pwtEnd (s : State) (u i status cause : Nat) : (s.pwtEnd u i status cause).memWf = s.memWf := by
  unfold State.pwtEnd
  dsimp only
  split <;> simp

@[simp] theorem State.memWf_pwtReap (s : State) (u : Nat) : (s.pwtReap u).memWf = s.memWf := by simp [State.pwtReap]
@[simp] theorem State.memWf_pwtFault (s : State) (u i op cause : Nat) : (s.pwtFault u i op cause).memWf = s.memWf := by simp [State.pwtFault]

theorem State.memWf_pwtOp {s : State} (wf : s.memWf = true) (u : Nat) (want : Nat → Bool) {f : State → Nat → PwtRec → PwtInsn → Except Nat State}
    (each : ∀ i r w, okMemWf id (f s i r w) = true) : (s.pwtOp u want f).memWf = true := by
  unfold State.pwtOp
  split
  · exact wf
  · simp [wf]
  next i r w head =>
    have result := each i r w
    split
    · split
      next t done =>
        rw [done] at result
        exact (State.memWf_bump ..).trans result
      next => simp [wf]
    · exact wf

@[simp] theorem State.memWf_pwtReg (s : State) (u op : Nat) (f : PwtQueue → PwtInsn → PwtRes) (wf : s.memWf = true) :
    (s.pwtReg u op f).memWf = true := by
  unfold State.pwtReg
  refine State.memWf_pwtOp wf _ _ fun i r w => ?_
  repeat' split
  all_goals simp [wf]

@[simp] theorem memWf_execPewterIssuePush (u : Nat) (s : State) : nextMemWf (execPewterIssuePush u s) = s.memWf := by simp [execPewterIssuePush]

@[simp] theorem memWf_execKernelStart (u : Nat) (s : State) : nextMemWf (execKernelStart u s) = s.memWf := by
  unfold execKernelStart
  dsimp only
  split <;> simp

@[simp] theorem memWf_execPewterQueueChange (u : Nat) (s : State) : nextMemWf (execPewterQueueChange u s) = s.memWf := by
  unfold execPewterQueueChange
  dsimp only
  split <;> simp

@[simp] theorem memWf_execInsnLineFetch (u wait : Nat) (s : State) : nextMemWf (execInsnLineFetch u wait s) = s.memWf := by
  unfold execInsnLineFetch
  dsimp only
  split <;> simp

@[simp] theorem memWf_execTileLimit (u : Nat) (s : State) : nextMemWf (execTileLimit u s) = s.memWf := by
  unfold execTileLimit
  dsimp only
  split <;> simp

@[simp] theorem memWf_execPwtHalt (u : Nat) (set : Bool) (s : State) : nextMemWf (execPwtHalt u set s) = s.memWf := by simp [execPwtHalt]
@[simp] theorem memWf_execPwtNop (u : Nat) (s : State) (wf : s.memWf = true) : nextMemWf (execPwtNop u s) = true := by simp [execPwtNop, wf]

@[simp] theorem memWf_execPwtTile (u : Nat) (s : State) (wf : s.memWf = true) : nextMemWf (execPwtTile u s) = true := by
  rw [execPwtTile, nextMemWf_next]
  exact State.memWf_pwtOp wf _ _ fun i r w => by simp [wf]

@[simp] theorem memWf_execPwtEnd (u : Nat) (s : State) (wf : s.memWf = true) : nextMemWf (execPwtEnd u s) = true := by
  rw [execPwtEnd, nextMemWf_next]
  exact State.memWf_pwtOp wf _ _ fun i r w => by simp [wf]

@[simp] theorem memWf_execPwtWait (u : Nat) (s : State) (wf : s.memWf = true) : nextMemWf (execPwtWait u s) = true := by
  rw [execPwtWait, nextMemWf_next]
  exact State.memWf_pwtOp wf _ _ fun i r w => by simp [wf]

@[simp] theorem memWf_execPwtSignal (u : Nat) (s : State) (wf : s.memWf = true) : nextMemWf (execPwtSignal u s) = true := by
  rw [execPwtSignal, nextMemWf_next]
  exact State.memWf_pwtOp wf _ _ fun i r w => by simp [wf]

@[simp] theorem memWf_execLoop (u : Nat) (s : State) (wf : s.memWf = true) : nextMemWf (execLoop u s) = true := by
  rw [execLoop, nextMemWf_next]
  exact State.memWf_pwtOp wf _ _ fun i r w => by simp only [okMemWf_ok, id_eq, State.memWf_setPq, wf]

@[simp] theorem memWf_execJmp (u : Nat) (s : State) (wf : s.memWf = true) : nextMemWf (execJmp u s) = true := by
  rw [execJmp, nextMemWf_next]
  exact State.memWf_pwtOp wf _ _ fun i r w => by simp [wf]

@[simp] theorem memWf_execRdtime (u : Nat) (s : State) (wf : s.memWf = true) : nextMemWf (execRdtime u s) = true := by
  rw [execRdtime, nextMemWf_next]
  refine State.memWf_pwtOp wf _ _ fun i r w => ?_
  repeat' split
  all_goals simp [wf]

@[simp] theorem memWf_execRdcyc (u : Nat) (s : State) (wf : s.memWf = true) : nextMemWf (execRdcyc u s) = true := by
  rw [execRdcyc, nextMemWf_next]
  refine State.memWf_pwtOp wf _ _ fun i r w => ?_
  repeat' split
  all_goals simp [wf]

@[simp] theorem memWf_execSli (u : Nat) (s : State) (wf : s.memWf = true) : nextMemWf (execSli u s) = true := by simp [execSli, wf]
@[simp] theorem memWf_execSlih (u : Nat) (s : State) (wf : s.memWf = true) : nextMemWf (execSlih u s) = true := by simp [execSlih, wf]
@[simp] theorem memWf_execSaddi (u : Nat) (s : State) (wf : s.memWf = true) : nextMemWf (execSaddi u s) = true := by simp [execSaddi, wf]
@[simp] theorem memWf_execSadd (u : Nat) (s : State) (wf : s.memWf = true) : nextMemWf (execSadd u s) = true := by simp [execSadd, wf]
@[simp] theorem memWf_execSsub (u : Nat) (s : State) (wf : s.memWf = true) : nextMemWf (execSsub u s) = true := by simp [execSsub, wf]
@[simp] theorem memWf_execSget (u : Nat) (s : State) (wf : s.memWf = true) : nextMemWf (execSget u s) = true := by simp [execSget, wf]
@[simp] theorem memWf_execVbcast (u : Nat) (s : State) (wf : s.memWf = true) : nextMemWf (execVbcast u s) = true := by simp [execVbcast, wf]
@[simp] theorem memWf_execSetvl (u : Nat) (s : State) (wf : s.memWf = true) : nextMemWf (execSetvl u s) = true := by simp [execSetvl, wf]
@[simp] theorem memWf_execAgset (u : Nat) (s : State) (wf : s.memWf = true) : nextMemWf (execAgset u s) = true := by simp [execAgset, wf]
@[simp] theorem memWf_execAsetp (u : Nat) (s : State) (wf : s.memWf = true) : nextMemWf (execAsetp u s) = true := by simp [execAsetp, wf]

@[simp] theorem memWf_execPwtLd (u : Nat) (s : State) (wf : s.memWf = true) : nextMemWf (execPwtLd u s) = true := by
  rw [execPwtLd, nextMemWf_next]
  refine State.memWf_pwtOp wf _ _ fun i r w => ?_
  dsimp only
  repeat' split
  all_goals simp [wf]

@[simp] theorem State.memWf_storeLanes (s : State) (c x : Nat) (task : TaskId) (dig : Bool) (lanes : List (Nat × List Byte)) (seen : List Nat) (l : Nat)
    (wf : s.memWf = true) : (s.storeLanes c x task dig lanes seen l).memWf = true := by
  induction lanes generalizing s seen l with
  | nil => exact wf
  | cons e lanes ih =>
    rw [State.storeLanes]
    split
    · exact ih _ _ _ wf
    · exact ih _ _ _ (by simp [wf])

@[simp] theorem memWf_execPwtSt (u : Nat) (s : State) (wf : s.memWf = true) : nextMemWf (execPwtSt u s) = true := by
  rw [execPwtSt, nextMemWf_next]
  refine State.memWf_pwtOp wf _ _ fun i r w => ?_
  dsimp only
  repeat' split
  all_goals simp [wf]

@[simp] theorem memWf_execBfpu (u : Nat) (s : State) (wf : s.memWf = true) : nextMemWf (execBfpu u s) = true := by
  rw [execBfpu, nextMemWf_next]
  refine State.memWf_pwtOp wf _ _ fun i r w => ?_
  dsimp only
  repeat' split
  all_goals simp [wf]

@[simp] theorem State.memWf_pwtWrite (s : State) (u : Nat) (r : PwtRec) (a : Nat) (bs : List Byte) (dig : Bool) (wf : s.memWf = true) :
    (s.pwtWrite u r a bs dig).memWf = true := by simp [State.pwtWrite, wf]

@[simp] theorem memWf_execBfpk (u : Nat) (s : State) (wf : s.memWf = true) : nextMemWf (execBfpk u s) = true := by
  rw [execBfpk, nextMemWf_next]
  refine State.memWf_pwtOp wf _ _ fun i r w => ?_
  dsimp only
  repeat' split
  all_goals simp [wf]

@[simp] theorem memWf_execLlr (u : Nat) (s : State) (wf : s.memWf = true) : nextMemWf (execLlr u s) = true := by
  rw [execLlr, nextMemWf_next]
  refine State.memWf_pwtOp wf _ _ fun i r w => ?_
  dsimp only
  repeat' split
  all_goals simp [wf]

@[simp] theorem memWf_execCmac (u : Nat) (s : State) (wf : s.memWf = true) : nextMemWf (execCmac u s) = true := by simp [execCmac, wf]
@[simp] theorem memWf_execAccr (u : Nat) (s : State) (wf : s.memWf = true) : nextMemWf (execAccr u s) = true := by simp [execAccr, wf]
@[simp] theorem memWf_execAcc32 (u : Nat) (s : State) (wf : s.memWf = true) : nextMemWf (execAcc32 u s) = true := by simp [execAcc32, wf]
@[simp] theorem memWf_execAccsum (u : Nat) (s : State) (wf : s.memWf = true) : nextMemWf (execAccsum u s) = true := by simp [execAccsum, wf]
@[simp] theorem memWf_execCmulh (u : Nat) (s : State) (wf : s.memWf = true) : nextMemWf (execCmulh u s) = true := by simp [execCmulh, wf]
@[simp] theorem memWf_execCadd (u : Nat) (s : State) (wf : s.memWf = true) : nextMemWf (execCadd u s) = true := by simp [execCadd, wf]
@[simp] theorem memWf_execCsub (u : Nat) (s : State) (wf : s.memWf = true) : nextMemWf (execCsub u s) = true := by simp [execCsub, wf]
@[simp] theorem memWf_execVshf (u : Nat) (s : State) (wf : s.memWf = true) : nextMemWf (execVshf u s) = true := by simp [execVshf, wf]
@[simp] theorem memWf_execCmag2 (u : Nat) (s : State) (wf : s.memWf = true) : nextMemWf (execCmag2 u s) = true := by simp [execCmag2, wf]
@[simp] theorem memWf_execVperm (u : Nat) (s : State) (wf : s.memWf = true) : nextMemWf (execVperm u s) = true := by simp [execVperm, wf]
@[simp] theorem memWf_execNorm (u : Nat) (s : State) (wf : s.memWf = true) : nextMemWf (execNorm u s) = true := by simp [execNorm, wf]
@[simp] theorem memWf_execExpb (u : Nat) (s : State) (wf : s.memWf = true) : nextMemWf (execExpb u s) = true := by simp [execExpb, wf]
@[simp] theorem memWf_execBfly2 (u : Nat) (s : State) (wf : s.memWf = true) : nextMemWf (execBfly2 u s) = true := by simp [execBfly2, wf]
@[simp] theorem memWf_execBfly4 (u : Nat) (s : State) (wf : s.memWf = true) : nextMemWf (execBfly4 u s) = true := by simp [execBfly4, wf]

@[simp] theorem memWf_execPewterIllegalOp (u : Nat) (s : State) (wf : s.memWf = true) : nextMemWf (execPewterIllegalOp u s) = true := by
  rw [execPewterIllegalOp, nextMemWf_next]
  exact State.memWf_pwtOp wf _ _ fun i r w => by simp

/-! ### Machine/Trestle.lean -/

@[simp] theorem State.memWf_modQu (s : State) (c i : Nat) (f : TrsQueue → TrsQueue) : (s.modQu c i f).memWf = s.memWf := by simp [State.modQu]
@[simp] theorem State.memWf_trsAdvance (s : State) (c i : Nat) : (s.trsAdvance c i).memWf = s.memWf := by simp [State.trsAdvance]

@[simp] theorem State.memWf_trsSettle (s : State) (c i : Nat) : (s.trsSettle c i).memWf = s.memWf := by
  unfold State.trsSettle
  split
  · rfl
  · split
    · rfl
    · split <;> simp

@[simp] theorem State.memWf_trsFault (s : State) (c i opc tag cause : Nat) : (s.trsFault c i opc tag cause).memWf = s.memWf := by
  simp [State.trsFault]

theorem State.memWf_trsOp (s : State) (c : Nat) (kind : TileOp → Bool) (opc : Nat) {f : State → Nat → TrsItem → TileOp → List Byte → State}
    (each : ∀ i it op bs, (f s i it op bs).memWf = s.memWf) : (s.trsOp c kind opc f).memWf = s.memWf := by
  unfold State.trsOp
  dsimp only
  split
  · rfl
  · split
    · rfl
    · split
      · rfl
      · split
        · simp
        · split <;> simp
        · split
          · exact each ..
          · rfl

@[simp] theorem memWf_execTrsNop (c : Nat) (s : State) : nextMemWf (execTrsNop c s) = s.memWf := by
  rw [execTrsNop, nextMemWf_next]
  exact State.memWf_trsOp s _ _ _ fun i it op bs => by simp

@[simp] theorem memWf_execTrsConfig (c : Nat) (s : State) : nextMemWf (execTrsConfig c s) = s.memWf := by
  rw [execTrsConfig, nextMemWf_next]
  refine State.memWf_trsOp s _ _ _ fun i it op bs => ?_
  repeat' split
  all_goals simp

@[simp] theorem memWf_execTrsLoad (c : Nat) (s : State) : nextMemWf (execTrsLoad c s) = s.memWf := by
  rw [execTrsLoad, nextMemWf_next]
  refine State.memWf_trsOp s _ _ _ fun i it op bs => ?_
  dsimp only
  split
  · split <;> simp
  · rfl

@[simp] theorem memWf_execTrsStream (c : Nat) (s : State) : nextMemWf (execTrsStream c s) = s.memWf := by
  rw [execTrsStream, nextMemWf_next]
  refine State.memWf_trsOp s _ _ _ fun i it op bs => ?_
  dsimp only
  split
  · split <;> simp
  · rfl

@[simp] theorem memWf_execTrsDrain (c : Nat) (s : State) : nextMemWf (execTrsDrain c s) = s.memWf := by
  rw [execTrsDrain, nextMemWf_next]
  refine State.memWf_trsOp s _ _ _ fun i it op bs => ?_
  dsimp only
  split
  · split <;> simp
  · rfl

@[simp] theorem memWf_execTrsWait (c : Nat) (s : State) : nextMemWf (execTrsWait c s) = s.memWf := by
  rw [execTrsWait, nextMemWf_next]
  refine State.memWf_trsOp s _ _ _ fun i it op bs => ?_
  repeat' split
  all_goals simp

@[simp] theorem memWf_execTrsSignal (c : Nat) (s : State) : nextMemWf (execTrsSignal c s) = s.memWf := by
  rw [execTrsSignal, nextMemWf_next]
  refine State.memWf_trsOp s _ _ _ fun i it op bs => ?_
  repeat' split
  all_goals simp

@[simp] theorem memWf_execTrsEnd (c : Nat) (s : State) : nextMemWf (execTrsEnd c s) = s.memWf := by
  rw [execTrsEnd, nextMemWf_next]
  refine State.memWf_trsOp s _ _ _ fun i it op bs => ?_
  repeat' split
  all_goals simp

@[simp] theorem memWf_execTrestleIllegalOp (c : Nat) (s : State) : nextMemWf (execTrestleIllegalOp c s) = s.memWf := by
  rw [execTrestleIllegalOp, nextMemWf_next]
  refine State.memWf_trsOp s _ _ _ fun i it op bs => ?_
  repeat' split
  all_goals simp

@[simp] theorem memWf_execTrsHalt (c : Nat) (set : Bool) (s : State) : nextMemWf (execTrsHalt c set s) = s.memWf := by simp [execTrsHalt]

end Sys2Proof.Machine
end

section
/-! SUPPORT. That the operations of the model keep the memories canonical: dispatch, residency, teardown, functions, epochs and resets. -/

namespace Sys2Proof.Machine

/-! ### Machine/CabDispatch.lean -/

@[simp] theorem State.memWf_deliver (s : State) (t : Task) (place : Nat) : (s.deliver t place).memWf = s.memWf := by
  unfold State.deliver
  dsimp only
  repeat' split
  all_goals simp

@[simp] theorem memWf_execDispatchDecision (s : State) : nextMemWf (execDispatchDecision s) = s.memWf := by
  unfold execDispatchDecision
  dsimp only
  repeat' split
  all_goals simp

/-! ### Machine/Residency.lean -/

@[simp] theorem State.memWf_sterlingSync (s : State) (r : Nat) : (s.sterlingSync r).memWf = s.memWf := by simp [State.sterlingSync]

@[simp] theorem State.memWf_scrubGrans (s : State) (c : Nat) (gs : List Nat) (wf : s.memWf = true) : (s.scrubGrans c gs).memWf = true := by
  obtain ⟨spad, tier, host⟩ := s.memWf_iff.mp wf
  exact (State.memWf_iff _).mpr ⟨Mem.wf_filter _ spad, tier, host⟩

@[simp] theorem State.memWf_setLatGran (s : State) (c g : Nat) (x : Option Nat) : (s.setLatGran c g x).memWf = s.memWf := by
  rw [State.setLatGran_eq, State.memWf_mk]

@[simp] theorem State.memWf_resEvent (s : State) (r : ResSlot) (kind e4 e5 e6 e7 : Nat) : (s.resEvent r kind e4 e5 e6 e7).memWf = s.memWf := by
  simp [State.resEvent]

@[simp] theorem State.memWf_startCopy (s : State) (c x : Nat) (u : DmaUse) (d : DmaDesc) : (s.startCopy c x u d).memWf = s.memWf := by
  simp [State.startCopy]

@[simp] theorem State.memWf_holdObj (s : State) (a n : Nat) (d : Int) : (s.holdObj a n d).memWf = s.memWf := by
  unfold State.holdObj
  split <;> simp

@[simp] theorem State.memWf_becomeResident (s : State) (c k : Nat) (r : ResSlot) : (s.becomeResident c k r).memWf = s.memWf := by
  simp [State.becomeResident]

@[simp] theorem State.memWf_grant (s : State) (c : Nat) (q : ResReq) (wf : s.memWf = true) : (s.grant c q).memWf = true := by
  unfold State.grant
  split <;> simp [wf]

@[simp] theorem State.memWf_grantPending (s : State) (c : Nat) (qs : List ResReq) (wf : s.memWf = true) : (s.grantPending c qs).memWf = true := by
  induction qs generalizing s with
  | nil => exact wf
  | cons q qs ih =>
    rw [State.grantPending]
    split
    · exact ih _ (State.memWf_grant _ _ _ wf)
    · exact wf

@[simp] theorem memWf_execCabResGrant (i : Issuer) (x c grans lats restore : Nat) (wait : Bool) (s : State) (wf : s.memWf = true) :
    nextMemWf (execCabResGrant i x c grans lats restore wait s) = true := by
  rw [execCabResGrant, nextMemWf_next]
  refine State.memWf_command wf _ _ fun fn version => ?_
  repeat' split
  all_goals simp [wf]

@[simp] theorem memWf_execCabResRelease (i : Issuer) (c k save : Nat) (s : State) (wf : s.memWf = true) :
    nextMemWf (execCabResRelease i c k save s) = true := by
  rw [execCabResRelease, nextMemWf_next]
  refine State.memWf_command wf _ _ fun fn version => ?_
  repeat' split
  all_goals simp [wf]

@[simp] theorem memWf_execShareCopyDone (c k : Nat) (s : State) : nextMemWf (execShareCopyDone c k s) = s.memWf := by
  unfold execShareCopyDone
  split <;> simp

@[simp] theorem memWf_execShareScrubDone (c k : Nat) (s : State) (wf : s.memWf = true) : nextMemWf (execShareScrubDone c k s) = true := by
  simp [execShareScrubDone, wf]

@[simp] theorem memWf_execAllBlocked (c : Nat) (s : State) : nextMemWf (execAllBlocked c s) = s.memWf := by simp [execAllBlocked]
@[simp] theorem State.memWf_blockTick (s : State) : s.blockTick.memWf = s.memWf := by simp [State.blockTick]

/-! ### Machine/Teardown.lean -/

@[simp] theorem State.memWf_abortTask (s : State) (i : Nat) : (s.abortTask i).memWf = s.memWf := by
  unfold State.abortTask
  dsimp only
  split <;> simp

@[simp] theorem State.memWf_abortTasks (s : State) (x : Nat) (f : TaskSt → Bool) : (s.abortTasks x f).memWf = s.memWf := by simp [State.abortTasks]
@[simp] theorem State.memWf_sldGone (s : State) (x : Nat) : (s.sldGone x).memWf = s.memWf := by simp [State.sldGone]
@[simp] theorem State.memWf_freeThread (s : State) (m t : Nat) : (s.freeThread m t).memWf = s.memWf := by simp [State.freeThread]

@[simp] theorem State.memWf_dropDma (s : State) (c x : Nat) : (s.dropDma c x).memWf = s.memWf := by
  unfold State.dropDma
  dsimp only
  rw [State.memWf_setDma]
  refine State.memWf_foldl (fun s q => ?_) _ _
  split
  · split <;> simp
  · rfl

@[simp] theorem State.memWf_dropBronze (s : State) (u x : Nat) : (s.dropBronze u x).memWf = s.memWf := by simp [State.dropBronze]
@[simp] theorem State.memWf_dropWaits (s : State) (x : Nat) : (s.dropWaits x).memWf = s.memWf := by simp [State.dropWaits]

@[simp] theorem State.memWf_dropRequests (s : State) (c x : Nat) (wf : s.memWf = true) : (s.dropRequests c x).memWf = true := by
  simp [State.dropRequests, wf]

@[simp] theorem State.memWf_tearCtx (s : State) (x : Nat) (wf : s.memWf = true) : (s.tearCtx x).memWf = true := by
  unfold State.tearCtx
  refine State.memWf_foldl_of_memWf (fun s c wf => ?_) _ ?_
  · split
    · exact State.memWf_dropRequests _ _ _ wf
    · exact wf
  · simp [wf]

@[simp] theorem memWf_execCabCtxTeardown (i : Issuer) (x : Nat) (s : State) (wf : s.memWf = true) : nextMemWf (execCabCtxTeardown i x s) = true := by
  rw [execCabCtxTeardown, nextMemWf_next]
  refine State.memWf_command wf _ _ fun fn version => ?_
  repeat' split
  all_goals simp [wf]

@[simp] theorem State.memWf_orphan (s : State) (c x : Nat) : (s.orphan c x).memWf = s.memWf := by simp [State.orphan]

@[simp] theorem State.memWf_tornDown (s : State) (x : Nat) : (s.tornDown x).memWf = s.memWf := by
  simp [State.tornDown]

/-! ### Machine/Functions.lean -/

@[simp] theorem memWf_execVfCreate (i : Issuer) (n queues vectors contexts share lat hbm cache objects jobs macMask txRate rxFilters : Nat)
    (s : State) (wf : s.memWf = true) :
    nextMemWf (execVfCreate i n queues vectors contexts share lat hbm cache objects jobs macMask txRate rxFilters s) = true := by
  rw [execVfCreate, nextMemWf_next]
  refine State.memWf_command wf _ _ fun fn version => ?_
  repeat' split
  all_goals simp [wf]

@[simp] theorem memWf_execVfQuery (i : Issuer) (n : Nat) (s : State) (wf : s.memWf = true) : nextMemWf (execVfQuery i n s) = true := by
  rw [execVfQuery, nextMemWf_next]
  refine State.memWf_command wf _ _ fun fn version => ?_
  repeat' split
  all_goals simp [wf]

@[simp] theorem State.memWf_purge (s : State) (fn : Nat) : (s.purge fn).memWf = s.memWf := by simp [State.purge]
@[simp] theorem State.memWf_resetBoxes (s : State) (n : Nat) : (s.resetBoxes n).memWf = s.memWf := by simp [State.resetBoxes]
@[simp] theorem State.memWf_dropEntries (s : State) (n : Nat) : (s.dropEntries n).memWf = s.memWf := by simp [State.dropEntries]

@[simp] theorem State.memWf_tearAll (s : State) (xs : List Nat) (wf : s.memWf = true) : (s.tearAll xs).memWf = true := by
  refine State.memWf_foldl_of_memWf (fun s x wf => ?_) _ wf
  split
  · exact wf
  · exact State.memWf_tearCtx _ _ wf

@[simp] theorem State.memWf_freeFn (s : State) (n : Nat) (all : Bool) : (s.freeFn n all).memWf = s.memWf := by simp [State.freeFn]
@[simp] theorem State.memWf_resetMsix (s : State) (n : Nat) : (s.resetMsix n).memWf = s.memWf := by simp [State.resetMsix]

@[simp] theorem State.memWf_resetVf (s : State) (n : Nat) (all : Bool) (wf : s.memWf = true) : (s.resetVf n all).memWf = true := by
  simp [State.resetVf, wf]

@[simp] theorem State.memWf_cause (s : State) (bit : Nat) : (s.cause bit).memWf = s.memWf := by simp [State.cause]

@[simp] theorem State.memWf_flr (s : State) (fn : Option Nat) (wf : s.memWf = true) : (s.flr fn).memWf = true :=
  State.memWf_foldl_of_memWf (fun _ _ wf => State.memWf_resetVf _ _ _ wf) _ (by simp [wf])

@[simp] theorem memWf_execVfFlr (fn : Option Nat) (s : State) (wf : s.memWf = true) : nextMemWf (execVfFlr fn s) = true := by simp [execVfFlr, wf]
@[simp] theorem State.memWf_resetPf (s : State) (wf : s.memWf = true) : s.resetPf.memWf = true := by simp [State.resetPf, wf]
@[simp] theorem memWf_execPfFlr (s : State) (wf : s.memWf = true) : nextMemWf (execPfFlr s) = true := by simp [execPfFlr, wf]

@[simp] theorem memWf_execVfDestroy (i : Issuer) (n : Nat) (s : State) (wf : s.memWf = true) : nextMemWf (execVfDestroy i n s) = true := by
  rw [execVfDestroy, nextMemWf_next]
  exact State.memWf_command wf _ _ fun fn version => by simp [wf]

@[simp] theorem memWf_execTeardownEnginesStopped (x : Nat) (s : State) : nextMemWf (execTeardownEnginesStopped x s) = s.memWf := by
  simp [execTeardownEnginesStopped]

@[simp] theorem memWf_execPcieLinkTrained (speed width : Nat) (flit : Bool) (s : State) :
    nextMemWf (execPcieLinkTrained speed width flit s) = s.memWf := by simp [execPcieLinkTrained]

@[simp] theorem State.memWf_resetLink (s : State) : s.resetLink.memWf = s.memWf := by simp [State.resetLink]

@[simp] theorem memWf_execHotReset (s : State) (wf : s.memWf = true) : nextMemWf (execHotReset s) = true := by
  unfold execHotReset
  dsimp only
  split <;> simp [wf]

@[simp] theorem memWf_execExtAlarm (x : Nat) (s : State) : nextMemWf (execExtAlarm x s) = s.memWf := by simp [execExtAlarm]
@[simp] theorem State.memWf_alarmTick (s : State) : s.alarmTick.memWf = s.memWf := by simp [State.alarmTick]

/-! ### Machine/Epoch.lean -/

@[simp] theorem State.memWf_dropOwners (s : State) (c : Nat) : (s.dropOwners c).memWf = s.memWf := by simp [State.dropOwners]
@[simp] theorem State.memWf_clearLatches (s : State) (c : Nat) : (s.clearLatches c).memWf = s.memWf := by simp [State.clearLatches]
@[simp] theorem State.memWf_clearFaults (s : State) (c : Nat) : (s.clearFaults c).memWf = s.memWf := by simp [State.clearFaults]
@[simp] theorem State.memWf_freeCores (s : State) (c : Nat) : (s.freeCores c).memWf = s.memWf := by simp [State.freeCores]
@[simp] theorem State.memWf_newEpoch (s : State) (c : Nat) : (s.newEpoch c).memWf = s.memWf := by simp [State.newEpoch]

/-! ### Machine/Reset.lean -/

@[simp] theorem State.memWf_fullReset (s : State) (wf : s.memWf = true) : s.fullReset.memWf = true := by
  obtain ⟨-, tier, host⟩ := s.memWf_iff.mp wf
  exact (State.memWf_iff _).mpr ⟨rfl, Mem.wf_filter _ tier, host⟩

@[simp] theorem State.memWf_powerOn (s : State) (wf : s.memWf = true) : s.powerOn.memWf = true := by simp [State.powerOn, wf]
@[simp] theorem State.memWf_fullBy (s : State) (bit : Nat) (wf : s.memWf = true) : (s.fullBy bit).memWf = true := by simp [State.fullBy, wf]
@[simp] theorem memWf_execPowerOn (s : State) (wf : s.memWf = true) : nextMemWf (execPowerOn s) = true := by simp [execPowerOn, wf]

@[simp] theorem memWf_execResetNAssert (samples : Nat) (s : State) (wf : s.memWf = true) : nextMemWf (execResetNAssert samples s) = true := by
  simp [execResetNAssert, wf]

@[simp] theorem memWf_execPerstNAssert (samples : Nat) (s : State) (wf : s.memWf = true) : nextMemWf (execPerstNAssert samples s) = true := by
  simp [execPerstNAssert, wf]

@[simp] theorem State.memWf_rstFull (s : State) (v : W32) (wf : s.memWf = true) : (s.rstFull v).memWf = true := by simp [State.rstFull, wf]
@[simp] theorem memWf_execRstFull (v : W32) (s : State) (wf : s.memWf = true) : nextMemWf (execRstFull v s) = true := by simp [execRstFull, wf]
@[simp] theorem memWf_execThermalTrip (s : State) (wf : s.memWf = true) : nextMemWf (execThermalTrip s) = true := by simp [execThermalTrip, wf]

@[simp] theorem memWf_execRailUndervoltage (k uv ns : Nat) (s : State) (wf : s.memWf = true) : nextMemWf (execRailUndervoltage k uv ns s) = true := by
  simp [execRailUndervoltage, wf]

@[simp] theorem State.memWf_setStack (s : State) (t pcs : Nat) : (s.setStack t pcs).memWf = s.memWf := by simp [State.setStack]

@[simp] theorem State.memWf_release (s : State) (code : Nat) (stackNos dies : List Nat) : (s.release code stackNos dies).memWf = s.memWf := by
  unfold State.release
  dsimp only
  split <;> simp

@[simp] theorem memWf_execResetRelease (code : Nat) (stackNos dies : List Nat) (s : State) :
    nextMemWf (execResetRelease code stackNos dies s) = s.memWf := by simp [execResetRelease]

@[simp] theorem memWf_execTripHoldEnd (hot : Bool) (code : Nat) (stackNos dies : List Nat) (s : State) :
    nextMemWf (execTripHoldEnd hot code stackNos dies s) = s.memWf := by simp [execTripHoldEnd]

end Sys2Proof.Machine
end

section
/-! SUPPORT. That the operations of the model keep the memories canonical: the flash, the timers, the templates and the feeders of the Trestles. -/

namespace Sys2Proof.Machine

/-! ### Machine/Bureau.lean -/

@[simp] theorem State.memWf_setLadder (s : State) (l : Tab Ladder) : (s.setLadder l).memWf = s.memWf := by simp [State.setLadder]

@[simp] theorem memWf_execHardDecodeFail (page blk : Nat) (s : State) : nextMemWf (execHardDecodeFail page blk s) = s.memWf := by
  simp [execHardDecodeFail]

@[simp] theorem memWf_execLadderDone (page : Nat) (ok : Bool) (s : State) : nextMemWf (execLadderDone page ok s) = s.memWf := by
  unfold execLadderDone
  split <;> simp

@[simp] theorem memWf_execSoftDecodeDone (page : Nat) (ok : Bool) (s : State) : nextMemWf (execSoftDecodeDone page ok s) = s.memWf := by
  unfold execSoftDecodeDone
  split <;> simp

@[simp] theorem State.memWf_poisonShelf (s : State) (page : Nat) : (s.poisonShelf page).memWf = s.memWf := by
  unfold State.poisonShelf
  dsimp only
  split <;> simp

@[simp] theorem State.memWf_growBad (s : State) (blk : Nat) : (s.growBad blk).memWf = s.memWf := by simp [State.growBad]
@[simp] theorem State.memWf_unrecoverable (s : State) (blk : Nat) : (s.unrecoverable blk).memWf = s.memWf := by simp [State.unrecoverable]

@[simp] theorem memWf_execStripeRebuildDone (page blk : Nat) (ok : Bool) (s : State) : nextMemWf (execStripeRebuildDone page blk ok s) = s.memWf := by
  unfold execStripeRebuildDone
  split <;> simp

@[simp] theorem memWf_execFlashPatrolRead (blk bits : Nat) (ladder : Bool) (s : State) :
    nextMemWf (execFlashPatrolRead blk bits ladder s) = s.memWf := by simp [execFlashPatrolRead]

@[simp] theorem memWf_execBlockRelocateDone (blk : Nat) (s : State) : nextMemWf (execBlockRelocateDone blk s) = s.memWf := by
  simp [execBlockRelocateDone]

@[simp] theorem memWf_execNandDieFailure (n die : Nat) (s : State) : nextMemWf (execNandDieFailure n die s) = s.memWf := by simp [execNandDieFailure]

@[simp] theorem memWf_execNandRebuildDone (n die : Nat) (s : State) : nextMemWf (execNandRebuildDone n die s) = s.memWf := by
  unfold execNandRebuildDone
  split <;> simp

@[simp] theorem memWf_execProgramOrEraseFailure (blk gib : Nat) (s : State) : nextMemWf (execProgramOrEraseFailure blk gib s) = s.memWf := by
  simp [execProgramOrEraseFailure]

@[simp] theorem memWf_execHbmPatrolRead (t corrected : Nat) (s : State) : nextMemWf (execHbmPatrolRead t corrected s) = s.memWf := by
  simp [execHbmPatrolRead]

@[simp] theorem memWf_execHbmRefresh (t : Nat) (s : State) : nextMemWf (execHbmRefresh t s) = s.memWf := by simp [execHbmRefresh]

/-! ### Machine/Timers.lean -/

@[simp] theorem State.memWf_setNt (s : State) (t : Nat) (v : NtTimer) : (s.setNt t v).memWf = s.memWf := by simp [State.setNt]

@[simp] theorem State.memWf_ntSettings (old s : State) (t : Nat) : (old.ntSettings s t).memWf = s.memWf := by
  unfold State.ntSettings
  dsimp only
  repeat' split
  all_goals rfl

@[simp] theorem State.memWf_ntAdopt (s : State) (t : Nat) : (s.ntAdopt t).memWf = s.memWf := by
  unfold State.ntAdopt
  dsimp only
  split <;> simp

@[simp] theorem State.memWf_ntSkip (s : State) (t : Nat) (n last : Int) : (s.ntSkip t n last).memWf = s.memWf := by simp [State.ntSkip]
@[simp] theorem memWf_execSfnTick (t : Nat) (s : State) : nextMemWf (execSfnTick t s) = s.memWf := by simp [execSfnTick]
@[simp] theorem memWf_execSymbolTick (t : Nat) (s : State) : nextMemWf (execSymbolTick t s) = s.memWf := by simp [execSymbolTick]

/-! ### Machine/Templates.lean -/

@[simp] theorem State.memWf_trackGroup (s : State) (g : Nat) : (s.trackGroup g).memWf = s.memWf := by simp [State.trackGroup]

@[simp] theorem memWf_execCabTplRegister (i : Issuer) (addr : Nat) (s : State) (wf : s.memWf = true) :
    nextMemWf (execCabTplRegister i addr s) = true := by
  rw [execCabTplRegister, nextMemWf_next]
  refine State.memWf_command wf _ _ fun fn version => ?_
  repeat' split
  all_goals simp [wf]

@[simp] theorem memWf_execCabTplUnregister (i : Issuer) (k : Nat) (s : State) (wf : s.memWf = true) :
    nextMemWf (execCabTplUnregister i k s) = true := by
  rw [execCabTplUnregister, nextMemWf_next]
  refine State.memWf_command wf _ _ fun fn version => ?_
  repeat' split
  all_goals simp [wf]

@[simp] theorem State.memWf_acceptInst (s : State) (key : Nat × Nat) (ds : List (TaskDesc × Nat)) : (s.acceptInst key ds).memWf = s.memWf := by
  induction ds generalizing s with
  | nil => rfl
  | cons d ds ih => simp [State.acceptInst, ih]

@[simp] theorem State.memWf_instantiate (s : State) (k : Nat) (t : Template) (key boundary sfn slot : Nat) :
    (s.instantiate k t key boundary sfn slot).1.memWf = s.memWf := by
  unfold State.instantiate
  dsimp only
  split <;> simp

@[simp] theorem State.memWf_tickGroup (s : State) (g key boundary sfn slot : Nat) (ts : List (Nat × Template)) :
    (s.tickGroup g key boundary sfn slot ts).memWf = s.memWf := by
  unfold State.tickGroup
  dsimp only
  split <;> simp

@[simp] theorem State.memWf_tickTemplates (s : State) (t key boundary sfn slot : Nat) : (s.tickTemplates t key boundary sfn slot).memWf = s.memWf := by
  simp [State.tickTemplates]

@[simp] theorem State.memWf_slotIndications (s : State) (t sfn slot : Nat) : (s.slotIndications t sfn slot).memWf = s.memWf := by
  simp [State.slotIndications]

@[simp] theorem memWf_execSlotTick (t : Nat) (s : State) : nextMemWf (execSlotTick t s) = s.memWf := by simp [execSlotTick]

/-! ### Machine/TrestleFeeder.lean -/

@[simp] theorem State.memWf_injectRow (s : State) (c i p : Nat) : (s.injectRow c i p).memWf = s.memWf := by
  unfold State.injectRow
  dsimp only
  split <;> simp

@[simp] theorem State.memWf_injectExtra (s : State) (c i p : Nat) : (s.injectExtra c i p).memWf = s.memWf := by
  unfold State.injectExtra
  dsimp only
  split <;> simp

@[simp] theorem memWf_feedPort (c i : Nat) (held : Bool) (late : List Nat) (acc : State × Nat × Option Nat) (g : Nat) :
    (State.feedPort c i held late acc g).1.memWf = acc.1.memWf := by
  unfold State.feedPort
  dsimp only
  repeat' split
  all_goals simp

@[simp] theorem State.memWf_feedRerun (s : State) (c : Nat) : (s.feedRerun c).memWf = s.memWf := by
  unfold State.feedRerun
  dsimp only
  split <;> simp

@[simp] theorem memWf_execFeederCycle (c : Nat) (late : List Nat) (s : State) : nextMemWf (execFeederCycle c late s) = s.memWf := by
  rw [execFeederCycle, nextMemWf_next]
  split
  · rfl
  · rw [State.memWf_setTrestle]
    split <;> simp

@[simp] theorem memWf_execLoadBegin (c : Nat) (s : State) : nextMemWf (execLoadBegin c s) = s.memWf := by
  rw [execLoadBegin, nextMemWf_next]
  dsimp only
  split
  · rfl
  · split <;> simp

@[simp] theorem State.memWf_trsSwitch (s : State) (c i : Nat) : (s.trsSwitch c i).memWf = s.memWf := by simp [State.trsSwitch]
@[simp] theorem memWf_execTileBoundary (c : Nat) (s : State) : nextMemWf (execTileBoundary c s) = s.memWf := by simp [execTileBoundary]

@[simp] theorem memWf_execRowLands (c : Nat) (flips : List (Nat × W32)) (s : State) : nextMemWf (execRowLands c flips s) = s.memWf := by
  unfold execRowLands
  dsimp only
  split <;> simp

theorem State.memWf_of_convertRow {s t : State} {c i : Nat} (wf : s.memWf = true) (converted : s.convertRow c i = some t) : t.memWf = true := by
  unfold State.convertRow at converted
  dsimp only at converted
  split at converted
  · cases converted
  · split at converted
    · cases converted
    · split at converted
      · cases converted
      · cases converted
        simp [wf]

@[simp] theorem memWf_execDrainRowConvert (c : Nat) (s : State) (wf : s.memWf = true) : nextMemWf (execDrainRowConvert c s) = true := by
  unfold execDrainRowConvert
  rw [nextMemWf_next]
  split
  · exact wf
  · split
    next t converted => exact State.memWf_of_convertRow wf converted
    next =>
      cases converted : s.convertRow c 1 with
      | none => exact wf
      | some t => exact State.memWf_of_convertRow wf converted

/-! ### Machine/TrestleChecks.lean -/

@[simp] theorem memWf_execCheckEvaluate (c : Nat) (s : State) : nextMemWf (execCheckEvaluate c s) = s.memWf := by
  unfold execCheckEvaluate
  dsimp only
  split <;> simp

@[simp] theorem State.memWf_unresolved (s : State) (c : Nat) (x : TrsTile) : (s.unresolved c x).memWf = s.memWf := by simp [State.unresolved]

@[simp] theorem memWf_execCheckRerunOutcome (c : Nat) (s : State) : nextMemWf (execCheckRerunOutcome c s) = s.memWf := by
  unfold execCheckRerunOutcome
  dsimp only
  repeat' split
  all_goals simp

end Sys2Proof.Machine
end

section
/-! SUPPORT. That the operations of the model keep the memories canonical: units, service and firmware. -/

namespace Sys2Proof.Machine

/-! ### Machine/Units.lean -/

@[simp] theorem State.memWf_setUnit (s : State) (kind n st : Nat) (reason : Option Nat) : (s.setUnit kind n st reason).memWf = s.memWf := by
  unfold State.setUnit
  dsimp only
  repeat' split
  all_goals simp

@[simp] theorem State.memWf_unitEvent (s : State) (kind n : Nat) : (s.unitEvent kind n).memWf = s.memWf := by simp [State.unitEvent]
@[simp] theorem State.memWf_publishSize (s : State) : s.publishSize.memWf = s.memWf := by simp [State.publishSize]
@[simp] theorem memWf_execSizeTablePublish (s : State) : nextMemWf (execSizeTablePublish s) = s.memWf := by simp [execSizeTablePublish]

@[simp] theorem State.memWf_loseTasks (s : State) (is : List Nat) : (s.loseTasks is).memWf = s.memWf := by
  refine State.memWf_foldl (fun s i => ?_) _ _
  split <;> simp

@[simp] theorem State.memWf_unitLost (s : State) (ran targets : Task → Bool) : (s.unitLost ran targets).memWf = s.memWf := by simp [State.unitLost]

@[simp] theorem State.memWf_loseResidency (s : State) (c : Nat) (wf : s.memWf = true) : (s.loseResidency c).memWf = true := by
  unfold State.loseResidency
  extract_lets t cl
  have kept : t.memWf = s.memWf := by
    refine State.memWf_foldl (fun s e => ?_) _ _
    dsimp only
    split
    · rfl
    · rw [State.memWf_resEvent]
      split <;> simp
  obtain ⟨spad, tier, host⟩ := t.memWf_iff.mp (kept.trans wf)
  exact (State.memWf_iff _).mpr ⟨Mem.wf_filter _ spad, tier, host⟩

@[simp] theorem State.memWf_sldLost (s : State) (c : Nat) : (s.sldLost c).memWf = s.memWf := by simp [State.sldLost]
@[simp] theorem State.memWf_dropReaders (s : State) (c : Nat) : (s.dropReaders c).memWf = s.memWf := by simp [State.dropReaders]

@[simp] theorem State.memWf_retireCluster (s : State) (c : Nat) (wf : s.memWf = true) : (s.retireCluster c).memWf = true := by
  simp [State.retireCluster, wf]

@[simp] theorem State.memWf_loseBronze (s : State) (u : Nat) : (s.loseBronze u).memWf = s.memWf := by simp [State.loseBronze]

@[simp] theorem State.memWf_moveObj (s : State) (t k : Nat) (o : Obj) : (s.moveObj t k o).memWf = s.memWf := by
  unfold State.moveObj
  dsimp only
  repeat' split
  all_goals simp

@[simp] theorem memWf_execStackMoveDone (t : Nat) (s : State) : nextMemWf (execStackMoveDone t s) = s.memWf := by simp [execStackMoveDone]
@[simp] theorem State.memWf_poisonStack (s : State) (t : Nat) (o : Obj) : (s.poisonStack t o).memWf = s.memWf := by simp [State.poisonStack]
@[simp] theorem State.memWf_refill (s : State) (sh : Nat) (o : Obj) : (s.refill sh o).memWf = s.memWf := by simp [State.refill]
@[simp] theorem State.memWf_degrade (s : State) (t k : Nat) (o : Obj) : (s.degrade t k o).memWf = s.memWf := by simp [State.degrade]

@[simp] theorem State.memWf_objLost (s : State) (t k : Nat) (o : Obj) : (s.objLost t k o).memWf = s.memWf := by
  unfold State.objLost
  dsimp only
  repeat' split
  all_goals simp

@[simp] theorem State.memWf_stackLost (s : State) (t : Nat) : (s.stackLost t).memWf = s.memWf := by simp [State.stackLost]
@[simp] theorem State.memWf_stackOut (s : State) (t : Nat) : (s.stackOut t).memWf = s.memWf := by simp [State.stackOut]
@[simp] theorem State.memWf_repack (s : State) (t i : Nat) (present : Bool) : (s.repack t i present).memWf = s.memWf := by simp [State.repack]

@[simp] theorem State.memWf_fenceMember (s : State) (kind n reason : Nat) (wf : s.memWf = true) : (s.fenceMember kind n reason).memWf = true := by
  simp [State.fenceMember, wf]

@[simp] theorem State.memWf_fenceEffect (s : State) (kind n col reason : Nat) (wf : s.memWf = true) :
    (s.fenceEffect kind n col reason).memWf = true := by
  unfold State.fenceEffect
  have members : ((membersOf n).foldl (fun s m => s.fenceMember m.1 m.2 reason) s).memWf = true :=
    State.memWf_foldl_of_memWf (fun _ _ wf => State.memWf_fenceMember _ _ _ _ wf) _ wf
  simp [members, wf]

@[simp] theorem State.memWf_fence (s : State) (kind n col reason : Nat) (wf : s.memWf = true) : (s.fence kind n col reason).memWf = true := by
  simp [State.fence, wf]

@[simp] theorem State.memWf_endTest (s : State) (kind n result : Nat) : (s.endTest kind n result).memWf = s.memWf := by
  unfold State.endTest
  split <;> simp

@[simp] theorem State.memWf_faultFence (s : State) (kind n reason : Nat) (wf : s.memWf = true) : (s.faultFence kind n reason).memWf = true := by
  simp [State.faultFence, wf]

@[simp] theorem State.memWf_faultNow (s : State) (kind n reason : Nat) (wf : s.memWf = true) : (s.faultNow kind n reason).memWf = true := by
  simp [State.faultNow, wf]

/-! ### Machine/Service.lean -/

@[simp] theorem memWf_execSvcFence (i : Issuer) (kind n col : Nat) (s : State) (wf : s.memWf = true) :
    nextMemWf (execSvcFence i kind n col s) = true := by
  rw [execSvcFence, nextMemWf_next]
  refine State.memWf_command wf _ _ fun fn version => ?_
  repeat' split
  all_goals simp [wf]

@[simp] theorem memWf_execSvcTest (i : Issuer) (kind n col : Nat) (s : State) (wf : s.memWf = true) :
    nextMemWf (execSvcTest i kind n col s) = true := by
  rw [execSvcTest, nextMemWf_next]
  refine State.memWf_command wf _ _ fun fn version => ?_
  repeat' split
  all_goals simp [wf]

@[simp] theorem State.memWf_enableUnit (s : State) (kind n : Nat) : (s.enableUnit kind n).memWf = s.memWf := by simp [State.enableUnit]
@[simp] theorem State.memWf_clearBronzeFault (s : State) (u : Nat) : (s.clearBronzeFault u).memWf = s.memWf := by simp [State.clearBronzeFault]
@[simp] theorem State.memWf_returnEffect (s : State) (kind n : Nat) : (s.returnEffect kind n).memWf = s.memWf := by simp [State.returnEffect]

@[simp] theorem memWf_execSvcReturn (i : Issuer) (kind n col : Nat) (s : State) (wf : s.memWf = true) :
    nextMemWf (execSvcReturn i kind n col s) = true := by
  rw [execSvcReturn, nextMemWf_next]
  refine State.memWf_command wf _ _ fun fn version => ?_
  repeat' split
  all_goals simp [wf]

@[simp] theorem memWf_execSvcRetire (i : Issuer) (kind n col : Nat) (s : State) (wf : s.memWf = true) :
    nextMemWf (execSvcRetire i kind n col s) = true := by
  rw [execSvcRetire, nextMemWf_next]
  refine State.memWf_command wf _ _ fun fn version => ?_
  repeat' split
  all_goals simp [wf]

@[simp] theorem memWf_execUnitTestDone (kind n : Nat) (pass : Bool) (s : State) : nextMemWf (execUnitTestDone kind n pass s) = s.memWf := by
  simp [execUnitTestDone]

@[simp] theorem memWf_execAutoFence (s : State) (wf : s.memWf = true) : nextMemWf (execAutoFence s) = true := by
  unfold execAutoFence
  split <;> simp [wf]

@[simp] theorem State.memWf_clusterFault (s : State) (c reason : Nat) (wf : s.memWf = true) : (s.clusterFault c reason).memWf = true := by
  simp [State.clusterFault, wf]

@[simp] theorem memWf_execSramUe (c : Nat) (line : Option Nat) (slot : Nat) (s : State) (wf : s.memWf = true) :
    nextMemWf (execSramUe c line slot s) = true := by
  unfold execSramUe
  dsimp only
  repeat' split
  all_goals simp [wf]

@[simp] theorem memWf_execD2dLinkFailure (d : Nat) (s : State) (wf : s.memWf = true) : nextMemWf (execD2dLinkFailure d s) = true := by
  rw [execD2dLinkFailure, nextMemWf_next]
  split
  · exact wf
  · exact State.memWf_foldl_of_memWf (fun _ _ wf => State.memWf_faultNow _ _ _ _ wf) _ wf

@[simp] theorem memWf_execPortFailure (p : Nat) (s : State) (wf : s.memWf = true) : nextMemWf (execPortFailure p s) = true := by
  simp [execPortFailure, wf]

@[simp] theorem State.memWf_poisonLine (s : State) (l : Nat) : (s.poisonLine l).memWf = s.memWf := by simp [State.poisonLine]

@[simp] theorem State.memWf_objError (s : State) (a t : Nat) (o : Obj) (both : Bool) : (s.objError a t o both).memWf = s.memWf := by
  unfold State.objError
  split <;> simp

@[simp] theorem State.memWf_notePc (s : State) (pc : Nat) : (s.notePc pc).memWf = s.memWf := by
  simp only [State.notePc, State.memWf_when, State.memWf_needFence, State.memWf_mk]

/-! ### Machine/Firmware.lean -/

@[simp] theorem memWf_execMbxVersion (i : Issuer) (s : State) (wf : s.memWf = true) : nextMemWf (execMbxVersion i s) = true := by
  rw [execMbxVersion, nextMemWf_next]
  exact State.memWf_command wf _ _ fun fn version => by simp [wf]

@[simp] theorem memWf_execFwLoadBegin (i : Issuer) (total : Nat) (names : List Nat) (s : State) (wf : s.memWf = true) :
    nextMemWf (execFwLoadBegin i total names s) = true := by
  rw [execFwLoadBegin, nextMemWf_next]
  refine State.memWf_command wf _ _ fun fn version => ?_
  repeat' split
  all_goals simp [wf]

@[simp] theorem memWf_execFwLoadChunk (i : Issuer) (off len mode : Nat) (data : ExtData) (s : State) (wf : s.memWf = true) :
    nextMemWf (execFwLoadChunk i off len mode data s) = true := by
  unfold execFwLoadChunk
  refine State.memWf_command wf _ _ fun fn version => ?_
  cases staged : s.boot.stage <;> cases data <;> simp [wf]

@[simp] theorem State.memWf_applyItem (s : State) (e : Nat × Nat) : (s.applyItem e).memWf = s.memWf := by
  unfold State.applyItem
  split <;> simp

@[simp] theorem State.memWf_retireDies (s : State) : s.retireDies.memWf = s.memWf := by simp [State.retireDies]
@[simp] theorem State.memWf_enableAll (s : State) : s.enableAll.memWf = s.memWf := by simp [State.enableAll]
@[simp] theorem State.memWf_restoreObjs (s : State) : s.restoreObjs.memWf = s.memWf := by simp [State.restoreObjs]
@[simp] theorem State.memWf_nandCert (s : State) (cert : List Byte) : (s.nandCert cert).memWf = s.memWf := by simp [State.nandCert]
@[simp] theorem State.memWf_adopt (s : State) (cause : Nat) (b : Bundle) : (s.adopt cause b).memWf = s.memWf := by simp [State.adopt]

@[simp] theorem State.memWf_firstStart (s : State) (b : Bundle) (gib : Nat) (cert : List Byte) (wf : s.memWf = true) :
    (s.firstStart b gib cert).memWf = true := by simp [State.firstStart, wf]

@[simp] theorem State.memWf_beginRestart (s : State) (r : Restart) : (s.beginRestart r).memWf = s.memWf := by simp [State.beginRestart]
@[simp] theorem State.memWf_romTakes (s : State) (wf : s.memWf = true) : s.romTakes.memWf = true := by simp [State.romTakes, wf]

@[simp] theorem State.memWf_await (s : State) (wf : s.memWf = true) : s.await.memWf = true := by
  unfold State.await
  split <;> simp [wf]

@[simp] theorem memWf_execWatchdogExpiry (s : State) (wf : s.memWf = true) : nextMemWf (execWatchdogExpiry s) = true := by
  simp [execWatchdogExpiry, wf]

@[simp] theorem State.memWf_abandonTests (s : State) : s.abandonTests.memWf = s.memWf := by simp [State.abandonTests]

@[simp] theorem State.memWf_finishRestart (s : State) (wf : s.memWf = true) : s.finishRestart.memWf = true := by
  unfold State.finishRestart
  dsimp only
  repeat' split
  all_goals simp [wf]

@[simp] theorem memWf_execFwRestart (i : Issuer) (mode : Nat) (s : State) (wf : s.memWf = true) : nextMemWf (execFwRestart i mode s) = true := by
  unfold execFwRestart
  split <;> simp [wf]

@[simp] theorem memWf_execFwLoadEnd (i : Issuer) (gib : Nat) (cert : List Byte) (s : State) (wf : s.memWf = true) :
    nextMemWf (execFwLoadEnd i gib cert s) = true := by
  unfold execFwLoadEnd
  dsimp only
  repeat' split
  all_goals simp [wf]

@[simp] theorem memWf_execCfgQuery (i : Issuer) (items : List Nat) (s : State) (wf : s.memWf = true) : nextMemWf (execCfgQuery i items s) = true := by
  rw [execCfgQuery, nextMemWf_next]
  refine State.memWf_command wf _ _ fun fn version => ?_
  repeat' split
  all_goals simp [wf]

@[simp] theorem State.memWf_reserveLost (s : State) (replay : Bool) : (s.reserveLost replay).memWf = s.memWf := by
  unfold State.reserveLost
  split
  · split
    · simp [execSldCtrlEn]
    · rfl
  · simp

@[simp] theorem memWf_execHbmUe (a pc : Nat) (both : Bool) (s : State) : nextMemWf (execHbmUe a pc both s) = s.memWf := by
  rw [execHbmUe, nextMemWf_next]
  dsimp only
  split
  · rfl
  · split
    · simp
    · split <;> simp

@[simp] theorem State.memWf_resetRegs (s : State) (base n : Nat) (keep : List Nat) : (s.resetRegs base n keep).memWf = s.memWf := by
  simp [State.resetRegs]

@[simp] theorem State.memWf_clearSolder (s : State) : s.clearSolder.memWf = s.memWf := by simp [State.clearSolder]

@[simp] theorem State.memWf_holdBlock (s : State) (b : RstBlock) (wf : s.memWf = true) : (s.holdBlock b).memWf = true := by
  unfold State.holdBlock
  split <;> simp [wf]

@[simp] theorem State.memWf_releaseBlock (s : State) (b : RstBlock) (wf : s.memWf = true) : (s.releaseBlock b).memWf = true := by
  cases b
  case cluster c =>
    unfold State.releaseBlock
    dsimp only
    split <;> simp [wf]
  case bronze u =>
    unfold State.releaseBlock
    dsimp only
    split <;> simp [wf]
  all_goals simp [State.releaseBlock, wf]

@[simp] theorem memWf_execRstBlock (i : Issuer) (b : RstBlock) (hold : Bool) (s : State) (wf : s.memWf = true) :
    nextMemWf (execRstBlock i b hold s) = true := by
  rw [execRstBlock, nextMemWf_next]
  refine State.memWf_command wf _ _ fun fn version => ?_
  repeat' split
  all_goals simp [wf]

end Sys2Proof.Machine
end

section
/-! SUPPORT. That the operations of the model keep the memories canonical: power, Sterling contexts, the clock and attestation. -/

namespace Sys2Proof.Machine

/-! ### Machine/Bimetal.lean -/

@[simp] theorem State.memWf_refillRegion (s : State) (r share : Nat) : (s.refillRegion r share).memWf = s.memWf := by simp [State.refillRegion]
@[simp] theorem State.memWf_noteWait (s : State) (r : Nat) (w : Bool) : (s.noteWait r w).memWf = s.memWf := by simp [State.noteWait]

@[simp] theorem State.memWf_moveRegion (s : State) (r : Nat) : (s.moveRegion r).memWf = s.memWf := by
  unfold State.moveRegion
  split <;> simp

@[simp] theorem State.memWf_noteHeat (s : State) : s.noteHeat.memWf = s.memWf := by simp [State.noteHeat]

@[simp] theorem memWf_execEnergyRefill (temps : List (Nat × Nat)) (s : State) : nextMemWf (execEnergyRefill temps s) = s.memWf := by
  simp [execEnergyRefill]

@[simp] theorem memWf_execTelemetrySample (watts : Nat) (s : State) : nextMemWf (execTelemetrySample watts s) = s.memWf := by
  simp [execTelemetrySample]

@[simp] theorem memWf_execPllRetuneDone (r : Nat) (s : State) : nextMemWf (execPllRetuneDone r s) = s.memWf := by simp [execPllRetuneDone]
@[simp] theorem State.memWf_switchBubbles (s : State) (c : Nat) : (s.switchBubbles c).memWf = s.memWf := by simp [State.switchBubbles]

@[simp] theorem memWf_execRegionStepSwitch (r : Nat) (s : State) : nextMemWf (execRegionStepSwitch r s) = s.memWf := by
  unfold execRegionStepSwitch
  dsimp only
  split <;> simp

@[simp] theorem memWf_execStepChangeAbandon (r : Nat) (s : State) : nextMemWf (execStepChangeAbandon r s) = s.memWf := by
  unfold execStepChangeAbandon
  dsimp only
  split <;> simp

@[simp] theorem memWf_execVrmInRange (d : Nat) (s : State) : nextMemWf (execVrmInRange d s) = s.memWf := by simp [execVrmInRange]
@[simp] theorem memWf_execGatingEntry (c : Nat) (s : State) : nextMemWf (execGatingEntry c s) = s.memWf := by simp [execGatingEntry]
@[simp] theorem State.memWf_loseCluster (s : State) (c : Nat) : (s.loseCluster c).memWf = s.memWf := by simp [State.loseCluster]

@[simp] theorem memWf_execGatingRetentionPoint (c : Nat) (s : State) : nextMemWf (execGatingRetentionPoint c s) = s.memWf := by
  simp [execGatingRetentionPoint]

@[simp] theorem memWf_execRegionPllStop (r : Nat) (permitted : Bool) (s : State) : nextMemWf (execRegionPllStop r permitted s) = s.memWf := by
  simp [execRegionPllStop]

@[simp] theorem memWf_execWakeRequest (c : Nat) (s : State) : nextMemWf (execWakeRequest c s) = s.memWf := by
  rw [execWakeRequest, nextMemWf_next]
  dsimp only
  split
  · rfl
  · split <;> simp

@[simp] theorem memWf_execWakeDone (c : Nat) (s : State) : nextMemWf (execWakeDone c s) = s.memWf := by simp [execWakeDone]

/-! ### Machine/Sterling.lean -/

@[simp] theorem memWf_execCabCtxSetSeed (i : Issuer) (x seed : Nat) (s : State) (wf : s.memWf = true) :
    nextMemWf (execCabCtxSetSeed i x seed s) = true := by
  rw [execCabCtxSetSeed, nextMemWf_next]
  refine State.memWf_command wf _ _ fun fn version => ?_
  repeat' split
  all_goals simp [wf]

@[simp] theorem memWf_execCabCtxSterling (i : Issuer) (x seed ring e : Nat) (s : State) (wf : s.memWf = true) :
    nextMemWf (execCabCtxSterling i x seed ring e s) = true := by
  rw [execCabCtxSterling, nextMemWf_next]
  refine State.memWf_command wf _ _ fun fn version => ?_
  repeat' split
  all_goals simp [wf]

@[simp] theorem memWf_execCabStlArm (i : Issuer) (x form t : Nat) (s : State) (wf : s.memWf = true) :
    nextMemWf (execCabStlArm i x form t s) = true := by
  rw [execCabStlArm, nextMemWf_next]
  refine State.memWf_command wf _ _ fun fn version => ?_
  repeat' split
  all_goals simp [wf]

@[simp] theorem State.memWf_chainPulse (s : State) : s.chainPulse.memWf = s.memWf := by simp [State.chainPulse]
@[simp] theorem State.memWf_instantTick (s : State) : s.instantTick.memWf = s.memWf := by simp [State.instantTick]
@[simp] theorem memWf_execSyncInPulse (width ring : Nat) (s : State) : nextMemWf (execSyncInPulse width ring s) = s.memWf := by simp [execSyncInPulse]
@[simp] theorem State.memWf_chainGo (s : State) : s.chainGo.memWf = s.memWf := by simp [State.chainGo]
@[simp] theorem memWf_execChainGo (s : State) : nextMemWf (execChainGo s) = s.memWf := by simp [execChainGo]
@[simp] theorem State.memWf_chainCal (s : State) : s.chainCal.memWf = s.memWf := by simp [State.chainCal]
@[simp] theorem memWf_execChainCal (s : State) : nextMemWf (execChainCal s) = s.memWf := by simp [execChainCal]
@[simp] theorem State.memWf_barrierCluster (s : State) (c : Nat) : (s.barrierCluster c).memWf = s.memWf := by simp [State.barrierCluster]

@[simp] theorem State.memWf_barrierRegion (s : State) (r : Nat) : (s.barrierRegion r).memWf = s.memWf := by
  simp only [State.barrierRegion, State.memWf_mk, State.memWf_setReg, State.memWf_barrierCluster]

@[simp] theorem memWf_execStartBarrierFire (x : Nat) (s : State) : nextMemWf (execStartBarrierFire x s) = s.memWf := by simp [execStartBarrierFire]

@[simp] theorem memWf_execDigestReadback (i : Nat) (s : State) : nextMemWf (execDigestReadback i s) = s.memWf := by
  unfold execDigestReadback
  dsimp only
  repeat' split
  all_goals simp

@[simp] theorem memWf_execDigestAppend (i : Nat) (s : State) (wf : s.memWf = true) : nextMemWf (execDigestAppend i s) = true := by
  unfold execDigestAppend
  split <;> simp [wf]

@[simp] theorem memWf_execRingConsRecheck (x : Nat) (s : State) : nextMemWf (execRingConsRecheck x s) = s.memWf := by simp [execRingConsRecheck]

/-! ### Machine/Clock.lean -/

@[simp] theorem State.memWf_tick (s : State) (wf : s.memWf = true) : s.tick.memWf = true := by simp [State.tick, wf]

/-! ### Machine/Attest.lean -/

@[simp] theorem memWf_execSecRegionSet (i : Issuer) (f action flags base limit : Nat) (s : State) (wf : s.memWf = true) :
    nextMemWf (execSecRegionSet i f action flags base limit s) = true := by
  rw [execSecRegionSet, nextMemWf_next]
  refine State.memWf_command wf _ _ fun fn version => ?_
  repeat' split
  all_goals simp [wf]

@[simp] theorem memWf_execIdentityDerivation (ok : Bool) (s : State) : nextMemWf (execIdentityDerivation ok s) = s.memWf := by
  simp [execIdentityDerivation]

@[simp] theorem memWf_execDebugAccess (s : State) : nextMemWf (execDebugAccess s) = s.memWf := by simp [execDebugAccess]
@[simp] theorem State.memWf_spdmOut (s : State) (bs : List Byte) : (s.spdmOut bs).memWf = s.memWf := by simp [State.spdmOut]

@[simp] theorem State.memWf_spdm (s : State) (req : List Byte) (code step : Nat) {f : Except (List Byte) (State × List Byte)} (wf : s.memWf = true)
    (result : okMemWf Prod.fst f = true) : (s.spdm req code step f).memWf = true := by
  unfold State.spdm
  split
  · exact wf
  · split
    · simp [wf]
    · split
      · simp [wf]
      · split
        next => exact (State.memWf_spdmOut ..).trans result
        next => simp [wf]

@[simp] theorem State.memWf_setSpdm (s : State) (f : Spdm → Spdm) : (s.setSpdm f).memWf = s.memWf := by simp [State.setSpdm]

@[simp] theorem memWf_execGetVersion (req : List Byte) (s : State) (wf : s.memWf = true) : nextMemWf (execGetVersion req s) = true := by
  rw [execGetVersion, nextMemWf_next]
  exact State.memWf_spdm s req _ _ wf (by simp [wf])

@[simp] theorem memWf_execGetCapabilities (req : List Byte) (s : State) (wf : s.memWf = true) : nextMemWf (execGetCapabilities req s) = true := by
  rw [execGetCapabilities, nextMemWf_next]
  exact State.memWf_spdm s req _ _ wf (by simp [wf])

@[simp] theorem memWf_execNegotiateAlgorithms (req : List Byte) (s : State) (wf : s.memWf = true) :
    nextMemWf (execNegotiateAlgorithms req s) = true := by
  rw [execNegotiateAlgorithms, nextMemWf_next]
  exact State.memWf_spdm s req _ _ wf (by simp [wf])

@[simp] theorem memWf_execGetDigests (req : List Byte) (s : State) (wf : s.memWf = true) : nextMemWf (execGetDigests req s) = true := by
  rw [execGetDigests, nextMemWf_next]
  exact State.memWf_spdm s req _ _ wf (by simp [wf])

@[simp] theorem memWf_execGetCertificate (req : List Byte) (s : State) (wf : s.memWf = true) : nextMemWf (execGetCertificate req s) = true := by
  rw [execGetCertificate, nextMemWf_next]
  exact State.memWf_spdm s req _ _ wf (by simp [wf])

@[simp] theorem memWf_execChallenge (req : List Byte) (s : State) (wf : s.memWf = true) : nextMemWf (execChallenge req s) = true := by
  rw [execChallenge, nextMemWf_next]
  exact State.memWf_spdm s req _ _ wf (by simp [wf])

@[simp] theorem memWf_execGetMeasurements (req : List Byte) (s : State) (wf : s.memWf = true) : nextMemWf (execGetMeasurements req s) = true := by
  rw [execGetMeasurements, nextMemWf_next]
  exact State.memWf_spdm s req _ _ wf (by simp [wf])

@[simp] theorem memWf_execSetCertificate (req : List Byte) (s : State) (wf : s.memWf = true) : nextMemWf (execSetCertificate req s) = true := by
  rw [execSetCertificate, nextMemWf_next]
  exact State.memWf_spdm s req _ _ wf (by simp [wf])

@[simp] theorem memWf_execSpdmUnsupportedRequest (req : List Byte) (s : State) (wf : s.memWf = true) :
    nextMemWf (execSpdmUnsupportedRequest req s) = true := by
  rw [execSpdmUnsupportedRequest, nextMemWf_next]
  split
  · exact wf
  · exact State.memWf_spdm s req _ _ wf rfl

@[simp] theorem memWf_execDoeDiscovery (index : Nat) (s : State) : nextMemWf (execDoeDiscovery index s) = s.memWf := by simp [execDoeDiscovery]

@[simp] theorem memWf_execAttReport (i : Issuer) (nonce : List Byte) (first count : Nat) (s : State) (wf : s.memWf = true) :
    nextMemWf (execAttReport i nonce first count s) = true := by
  rw [execAttReport, nextMemWf_next]
  refine State.memWf_command wf _ _ fun fn version => ?_
  repeat' split
  all_goals simp [wf]

end Sys2Proof.Machine
end

section
/-! SUPPORT. That the operations of the model keep the memories canonical: Bronze units, registers, DMA engines and the serving of cells. -/

namespace Sys2Proof.Machine

/-! ### Machine/Bronze.lean -/

@[simp] theorem State.memWf_brzEnd (s : State) (u q status cause : Nat) : (s.brzEnd u q status cause).memWf = s.memWf := by
  unfold State.brzEnd
  dsimp only
  split <;> simp

@[simp] theorem State.memWf_brzFault (s : State) (u q cause : Nat) : (s.brzFault u q cause).memWf = s.memWf := by
  unfold State.brzFault
  split <;> simp

@[simp] theorem State.memWf_brzPoison (s : State) (u q l : Nat) : (s.brzPoison u q l).memWf = s.memWf := by simp [State.brzPoison]

@[simp] theorem State.memWf_brzBegin (s : State) (u q : Nat) (job : BrzJob) : (s.brzBegin u q job).memWf = s.memWf := by
  unfold State.brzBegin
  dsimp only
  split
  · simp
  · split <;> simp

@[simp] theorem memWf_execBronzeJobStart (u : Nat) (s : State) : nextMemWf (execBronzeJobStart u s) = s.memWf := by
  unfold execBronzeJobStart
  rw [nextMemWf_next]
  dsimp only
  split
  · rfl
  · split <;> simp

@[simp] theorem memWf_execBronzeInputFetched (u q : Nat) (s : State) : nextMemWf (execBronzeInputFetched u q s) = s.memWf := by
  unfold execBronzeInputFetched
  dsimp only
  repeat' split
  all_goals simp

@[simp] theorem State.memWf_brzCount (s : State) (u blocks failed iters cyc : Nat) : (s.brzCount u blocks failed iters cyc).memWf = s.memWf := by
  simp [State.brzCount]

@[simp] theorem State.memWf_brzDecoded (s : State) (u : Nat) (t : TaskId) (ws : List Nat) (soft : List (List Byte)) (flushed : Nat)
    (wf : s.memWf = true) :
    (s.brzDecoded u t ws soft flushed).memWf = true := by simp [State.brzDecoded, wf]

@[simp] theorem State.memWf_brzEncoded (s : State) (u : Nat) (t : TaskId) (ws : List Nat) (input : List Byte) (wf : s.memWf = true) :
    (s.brzEncoded u t ws input).memWf = true := by simp [State.brzEncoded, wf]

theorem memWf_softBlock {t : TaskId} {ws : List Nat} {input : List Byte} {acc : SoftAcc} {r : Nat} (wf : acc.st.memWf = true) :
    (softBlock t ws input acc r).st.memWf = true := by
  simp [softBlock, apply_ite SoftAcc.st, apply_ite Prod.fst, wf]

theorem memWf_softBlocks {t : TaskId} {ws : List Nat} {input : List Byte} (rs : List Nat) {acc : SoftAcc} (wf : acc.st.memWf = true) :
    (rs.foldl (softBlock t ws input) acc).st.memWf = true := by
  induction rs generalizing acc with
  | nil => exact wf
  | cons r rs ih => exact ih (memWf_softBlock wf)

@[simp] theorem memWf_execBronzeComputeDone (u q : Nat) (s : State) (wf : s.memWf = true) : nextMemWf (execBronzeComputeDone u q s) = true := by
  unfold execBronzeComputeDone
  rw [nextMemWf_next]
  split
  · exact wf
  next r run =>
    dsimp only
    split
    · exact wf
    · split
      · simp [wf]
      · have blocks := memWf_softBlocks (t := r.job.task) (ws := r.words) (input := r.input) (List.range (decodeBrz r.words).c)
          (acc := { st := s.setBronze u ((s.bronze u).setRun q (some { r with stage := .writing })), soft := [], flushed := 0, stop := none })
          (by simp [wf])
        split <;> simp [blocks]

@[simp] theorem memWf_execBronzeJobDone (u q : Nat) (s : State) : nextMemWf (execBronzeJobDone u q s) = s.memWf := by
  unfold execBronzeJobDone
  split <;> simp

/-! ### Machine/Registers.lean -/

@[simp] theorem State.memWf_regViolation (s : State) (r : Requester) (write : Bool) (a : Nat) : (s.regViolation r write a).memWf = s.memWf := by
  simp [State.regViolation]

@[simp] theorem State.memWf_readReg (s : State) (r : Requester) (a : Nat) : (s.readReg r a).1.memWf = s.memWf := by
  unfold State.readReg
  dsimp only
  repeat' split
  all_goals simp

@[simp] theorem State.memWf_regRead (s : State) (r : Requester) (a : Nat) : (s.regRead r a).1.memWf = s.memWf := by
  unfold State.regRead
  split <;> simp

@[simp] theorem State.memWf_shaperWritten (old s : State) (m c : Nat) : (old.shaperWritten s m c).memWf = s.memWf := by
  simp [State.shaperWritten]

@[simp] theorem State.memWf_invWritten (old s : State) (a : Nat) : (old.invWritten s a).memWf = s.memWf := by
  simp [State.invWritten]

@[simp] theorem State.memWf_regWritten (old s : State) (a : Nat) : (old.regWritten s a).memWf = s.memWf := by
  simp [State.regWritten]

theorem State.memWf_of_regAct {s t : State} {a : Nat} {v : W32} (wf : s.memWf = true) (act : s.regAct a v = some t) : t.memWf = true := by
  unfold State.regAct at act
  repeat' split at act
  all_goals cases act
  all_goals simp [wf]

@[simp] theorem State.memWf_pairWrite (s : State) (a : Nat) (lo hi : W32) : (s.pairWrite a lo hi).memWf = s.memWf := by
  unfold State.pairWrite
  dsimp only
  repeat' split
  all_goals simp

@[simp] theorem State.memWf_putReg (s : State) (fn a : Nat) (v : W32) (wf : s.memWf = true) : (s.putReg fn a v).memWf = true := by
  unfold State.putReg
  dsimp only
  split
  · simp [wf]
  · split
    · simp [wf]
    · split
      · simp [wf]
      · split
        · simp [wf]
        · split
          · simp [wf]
          · split
            next t act => exact State.memWf_of_regAct (by simp [wf]) act
            next => simp [wf]

@[simp] theorem State.memWf_msixWrite (s : State) (fn w : Nat) (v : W32) : (s.msixWrite fn w v).memWf = s.memWf := by simp [State.msixWrite]

@[simp] theorem State.memWf_regWrite (s : State) (r : Requester) (a : Nat) (v : W32) (wf : s.memWf = true) : (s.regWrite r a v).memWf = true := by
  unfold State.regWrite
  split <;> simp [wf]

@[simp] theorem State.memWf_readFor (s : State) (r : Requester) (a : Nat) : (s.readFor r a).memWf = s.memWf := by simp [State.readFor]
@[simp] theorem memWf_execLowWordRead (r : Requester) (a : Nat) (s : State) : nextMemWf (execLowWordRead r a s) = s.memWf := by simp [execLowWordRead]

@[simp] theorem memWf_execHighWordRead (r : Requester) (a : Nat) (s : State) : nextMemWf (execHighWordRead r a s) = s.memWf := by
  simp [execHighWordRead]

@[simp] theorem memWf_execLowWordWrite (r : Requester) (a : Nat) (v : W32) (s : State) (wf : s.memWf = true) :
    nextMemWf (execLowWordWrite r a v s) = true := by simp [execLowWordWrite, wf]

@[simp] theorem memWf_execHighWordWrite (r : Requester) (a : Nat) (v : W32) (s : State) (wf : s.memWf = true) :
    nextMemWf (execHighWordWrite r a v s) = true := by simp [execHighWordWrite, wf]

@[simp] theorem memWf_execRegisterWrite (r : Requester) (a : Nat) (v : W32) (s : State) (wf : s.memWf = true) :
    nextMemWf (execRegisterWrite r a v s) = true := by simp [execRegisterWrite, wf]

@[simp] theorem memWf_execInvNowRead (r : Requester) (s : State) : nextMemWf (execInvNowRead r s) = s.memWf := by simp [execInvNowRead]

/-! ### Machine/Dma.lean -/

@[simp] theorem State.memWf_setDmaQ (s : State) (c q : Nat) (xs : List DmaXfer) : (s.setDmaQ c q xs).memWf = s.memWf := by simp [State.setDmaQ]
@[simp] theorem State.memWf_setXfer (s : State) (c q k : Nat) (x : DmaXfer) : (s.setXfer c q k x).memWf = s.memWf := by simp [State.setXfer]

@[simp] theorem State.memWf_dmaOver (s : State) (c q k : Nat) (x : DmaXfer) (status cause : Nat) :
    (s.dmaOver c q k x status cause).memWf = s.memWf := by
  unfold State.dmaOver
  split <;> simp

@[simp] theorem State.memWf_dmaEnd (s : State) (c q k : Nat) (x : DmaXfer) (status cause : Nat) : (s.dmaEnd c q k x status cause).memWf = s.memWf := by
  simp [State.dmaEnd]

theorem State.memWf_of_dmaAnswers {s t : State} {c q opc : Nat} {ps : List (Nat × Nat)} {rs : List SldAns}
    (answered : s.dmaAnswers c q opc ps = some (t, rs)) : t.memWf = s.memWf := by
  induction ps generalizing s rs with
  | nil =>
    cases answered
    rfl
  | cons p ps ih =>
    rw [State.dmaAnswers] at answered
    split at answered
    · cases answered
    · split at answered
      next rest =>
        cases answered
        rw [ih rest, State.memWf_mk]
      next => cases answered

@[simp] theorem State.memWf_regsRead (s : State) (x : Nat) (as : List Nat) : (s.regsRead x as).1.memWf = s.memWf := by
  induction as generalizing s with
  | nil => rfl
  | cons a as ih => exact (ih _).trans (State.memWf_regRead s _ a)

@[simp] theorem State.memWf_regsWrite (s : State) (x : Nat) (bs : List Byte) (as : List Nat) (wf : s.memWf = true) :
    (s.regsWrite x bs as).memWf = true := by
  induction as generalizing s bs with
  | nil => exact wf
  | cons a as ih => exact ih _ _ (State.memWf_regWrite _ _ _ _ wf)

@[simp] theorem State.memWf_dmaWrite (s : State) (c q : Nat) (x : DmaXfer) (bs : List Byte) (wf : s.memWf = true) :
    (s.dmaWrite c q x bs).memWf = true := by simp [State.dmaWrite, wf]

@[simp] theorem State.memWf_saveRow (s : State) (c k : Nat) (x : DmaXfer) (wf : s.memWf = true) : (s.saveRow c k x).1.memWf = true := by
  simp [State.saveRow, wf]

@[simp] theorem State.memWf_restoreRow (s : State) (c k : Nat) (x : DmaXfer) (wf : s.memWf = true) : (s.restoreRow c k x).1.memWf = true := by
  simp [State.restoreRow, wf]

@[simp] theorem State.memWf_dmaBegin (s : State) (c q : Nat) : (s.dmaBegin c q).memWf = s.memWf := by
  unfold State.dmaBegin
  split <;> simp

/-- The state that a row's read leaves, where it leaves one. -/
def RowRead.memWf : RowRead → Bool
  | .wait => true
  | .bad t _ _ => t.memWf
  | .data t _ => t.memWf

theorem State.memWf_dmaRead (s : State) (c q : Nat) (x : DmaXfer) (ext : Option ExtData) (wf : s.memWf = true) :
    (s.dmaRead c q x ext).memWf = true := by
  unfold State.dmaRead
  dsimp only
  split
  · split <;> simp [RowRead.memWf, wf]
  · split
    · split
      · rfl
      · split <;> simp [RowRead.memWf, wf]
    · split
      · split
        · split <;> simp [RowRead.memWf, wf]
        · exact wf
        · rfl
      · split
        · simp [RowRead.memWf, wf]
        · split
          · rfl
          next t rs answered =>
            have keeps := (State.memWf_of_dmaAnswers answered).trans wf
            split <;> simp [RowRead.memWf, keeps]

theorem State.memWf_of_dmaRow {s t : State} {c q : Nat} {ext : Option ExtData} (wf : s.memWf = true) (moved : s.dmaRow c q ext = some t) :
    t.memWf = true := by
  unfold State.dmaRow at moved
  dsimp only at moved
  split at moved
  · cases moved
  next k x next =>
    split at moved
    · cases moved
    · split at moved
      · cases moved
        simp [wf]
      · cases moved
        simp [wf]
      · have read := s.memWf_dmaRead c q x ext wf
        split at moved
        · cases moved
        next u st cause bad =>
          rw [bad] at read
          cases moved
          exact (State.memWf_dmaEnd ..).trans read
        next u bs data =>
          rw [data] at read
          cases moved
          exact (State.memWf_setXfer ..).trans (State.memWf_dmaWrite _ _ _ _ _ read)

@[simp] theorem memWf_execDmaRow (c : Nat) (radio tenant : Option ExtData) (s : State) (wf : s.memWf = true) :
    nextMemWf (execDmaRow c radio tenant s) = true := by
  unfold execDmaRow
  rw [nextMemWf_next]
  have begun : ((s.dmaBegin c 0).dmaBegin c 1).memWf = true := by simp [wf]
  dsimp only
  split
  · exact wf
  · split
    next t moved => exact State.memWf_of_dmaRow begun moved
    next =>
      cases moved : ((s.dmaBegin c 0).dmaBegin c 1).dmaRow c 1 tenant with
      | none => exact begun
      | some t => exact State.memWf_of_dmaRow begun moved

@[simp] theorem memWf_execDmaRowAck (c q k : Nat) (s : State) : nextMemWf (execDmaRowAck c q k s) = s.memWf := by
  unfold execDmaRowAck
  rw [nextMemWf_next]
  split
  · rfl
  · dsimp only
    split
    · rfl
    · split
      · rfl
      next t rs answered =>
        have keeps : t.memWf = s.memWf := by
          split at answered
          · exact State.memWf_of_dmaAnswers answered
          · cases answered
            rfl
        split
        · simp [keeps]
        · split <;> simp [keeps]

/-! ### Machine/Serving.lean -/

@[simp] theorem memWf_execFhClassAdd (i : Issuer) (k0 k1 k2 k3 : Nat) (s : State) (wf : s.memWf = true) :
    nextMemWf (execFhClassAdd i k0 k1 k2 k3 s) = true := by
  rw [execFhClassAdd, nextMemWf_next]
  refine State.memWf_command wf _ _ fun fn version => ?_
  repeat' split
  all_goals simp [wf]

@[simp] theorem memWf_execFhClassDel (i : Issuer) (k0 k1 k2 k3 : Nat) (s : State) (wf : s.memWf = true) :
    nextMemWf (execFhClassDel i k0 k1 k2 k3 s) = true := by
  rw [execFhClassDel, nextMemWf_next]
  exact State.memWf_command wf _ _ fun fn version => by simp [wf]

@[simp] theorem State.memWf_setCell (s : State) (phy : Nat) (c : FapiCell) : (s.setCell phy c).memWf = s.memWf := by simp [State.setCell]
@[simp] theorem State.memWf_fapiSend (s : State) (phy : Nat) (m : FapiMsg) : (s.fapiSend phy m).memWf = s.memWf := by simp [State.fapiSend]

@[simp] theorem State.memWf_fapiTake (s : State) (es : List (List Byte)) {f : State → Nat → List Byte → State}
    (each : ∀ phy body, (f s phy body).memWf = s.memWf) : (s.fapiTake es f).memWf = s.memWf := by
  unfold State.fapiTake
  split
  · split
    · exact each ..
    · rfl
  · rfl

@[simp] theorem memWf_execParamRequest (es : List (List Byte)) (s : State) : nextMemWf (execParamRequest es s) = s.memWf := by simp [execParamRequest]

@[simp] theorem memWf_execConfigRequest (es : List (List Byte)) (timer lead : Nat) (s : State) :
    nextMemWf (execConfigRequest es timer lead s) = s.memWf := by simp [execConfigRequest]

@[simp] theorem memWf_execStartRequest (es : List (List Byte)) (s : State) : nextMemWf (execStartRequest es s) = s.memWf := by simp [execStartRequest]
@[simp] theorem memWf_execStopRequest (es : List (List Byte)) (s : State) : nextMemWf (execStopRequest es s) = s.memWf := by simp [execStopRequest]

@[simp] theorem State.memWf_ttiRequest (s : State) (phy : Nat) (kind : FapiReq) (sfn slot : Nat) (body : List Byte) :
    (s.ttiRequest phy kind sfn slot body).memWf = s.memWf := by simp [State.ttiRequest]

@[simp] theorem memWf_execDlTtiRequest (es : List (List Byte)) (sfn slot : Nat) (s : State) : nextMemWf (execDlTtiRequest es sfn slot s) = s.memWf := by
  simp [execDlTtiRequest]

@[simp] theorem memWf_execUlTtiRequest (es : List (List Byte)) (sfn slot : Nat) (s : State) : nextMemWf (execUlTtiRequest es sfn slot s) = s.memWf := by
  simp [execUlTtiRequest]

@[simp] theorem memWf_execUlDciRequest (es : List (List Byte)) (sfn slot : Nat) (s : State) : nextMemWf (execUlDciRequest es sfn slot s) = s.memWf := by
  simp [execUlDciRequest]

@[simp] theorem memWf_execTxDataRequest (es : List (List Byte)) (sfn slot : Nat) (ptrs : List (Nat × Nat)) (s : State) :
    nextMemWf (execTxDataRequest es sfn slot ptrs s) = s.memWf := by simp [execTxDataRequest]

@[simp] theorem memWf_execFapiOtherMessage (es : List (List Byte)) (s : State) : nextMemWf (execFapiOtherMessage es s) = s.memWf := by
  simp [execFapiOtherMessage]

end Sys2Proof.Machine
end

section
/-! SUPPORT. That the operations of the model keep the memories canonical: Tin cores. -/

namespace Sys2Proof.Machine

/-! ### Machine/TinMem.lean -/

@[simp] theorem State.memWf_setThread (s : State) (m t : Nat) (th : TinThread) : (s.setThread m t th).memWf = s.memWf := by simp [State.setThread]
@[simp] theorem State.memWf_leave (s : State) (m t : Nat) : (s.leave m t).memWf = s.memWf := by simp [State.leave]
@[simp] theorem State.memWf_retire (s : State) (m t : Nat) (th : TinThread) : (s.retire m t th).memWf = s.memWf := by simp [State.retire]

@[simp] theorem State.memWf_park (s : State) (m t : Nat) (th : TinThread) (st : TinSt) (w : TinWait) : (s.park m t th st w).memWf = s.memWf := by
  simp [State.park]

@[simp] theorem State.memWf_parkTime (s : State) (m : Nat) (th : TinThread) : (s.parkTime m th).memWf = s.memWf := by simp [State.parkTime]
@[simp] theorem State.memWf_unpark (s : State) (m t : Nat) (th : TinThread) : (s.unpark m t th).memWf = s.memWf := by simp [State.unpark]
@[simp] theorem State.memWf_tinEnd (s : State) (m t status cause : Nat) : (s.tinEnd m t status cause).memWf = s.memWf := by simp [State.tinEnd]

@[simp] theorem State.memWf_tinFault (s : State) (m t cause addr pc : Nat) : (s.tinFault m t cause addr pc).memWf = s.memWf := by
  simp [State.tinFault]

@[simp] theorem State.memWf_insnFault (s : State) (m t cause addr : Nat) : (s.insnFault m t cause addr).memWf = s.memWf := by simp [State.insnFault]
@[simp] theorem State.memWf_raiseLate (s : State) (m t : Nat) (l : Nat × Nat × Nat) : (s.raiseLate m t l).memWf = s.memWf := by simp [State.raiseLate]

@[simp] theorem State.memWf_addOuts (s : State) (m t : Nat) (as : List Nat) (n : Nat) (st : Bool) : (s.addOuts m t as n st).memWf = s.memWf := by
  simp [State.addOuts]

@[simp] theorem State.memWf_takeAns (s : State) (r : SldAns) : (s.takeAns r).memWf = s.memWf := by simp [State.takeAns]
@[simp] theorem State.memWf_dUpdate (s : State) (m x o : Nat) (bs : List Byte) : (s.dUpdate m x o bs).memWf = s.memWf := by simp [State.dUpdate]
@[simp] theorem State.memWf_dRead (s : State) (m x o n : Nat) : (s.dRead m x o n).1.memWf = s.memWf := by simp [State.dRead]

@[simp] theorem State.memWf_keepResv (s : State) (m t : Nat) {f : State → State} (keeps : (f s).memWf = true) : (s.keepResv m t f).memWf = true := by
  simp [State.keepResv, keeps]

@[simp] theorem State.memWf_tinWrite (s : State) (m t a : Nat) (bs : List Byte) (wf : s.memWf = true) : (s.tinWrite m t a bs).memWf = true := by
  simp [State.tinWrite, wf]

@[simp] theorem State.memWf_readPieces (s : State) (m t : Nat) (d : TinDest) (host : List Byte) (ps : List (Nat × Nat)) :
    (s.readPieces m t d host ps).1.memWf = s.memWf := by
  induction ps generalizing s host with
  | nil => rfl
  | cons p ps ih =>
    rw [State.readPieces]
    dsimp only
    rw [ih]
    repeat' split
    all_goals simp

@[simp] theorem State.memWf_tinDeliver (s : State) (m t : Nat) (d : TinDest) (ps : List (Nat × Nat)) (bs : List Byte) (wf : s.memWf = true) :
    (s.tinDeliver m t d ps bs).memWf = true := by
  unfold State.tinDeliver
  split <;> simp [wf]

@[simp] theorem State.memWf_tinLoad (s : State) (m t : Nat) (ps : List (Nat × Nat)) (d : TinDest) (wf : s.memWf = true) :
    (s.tinLoad m t ps d).memWf = true := by simp [State.tinLoad, wf]

@[simp] theorem State.memWf_tinPoison (s : State) (m t l : Nat) : (s.tinPoison m t l).memWf = s.memWf := by simp [State.tinPoison]

@[simp] theorem State.memWf_tinStore (s : State) (m t : Nat) (ps : List (Nat × List Byte)) (wf : s.memWf = true) :
    (s.tinStore m t ps).memWf = true := by
  unfold State.tinStore
  have stored : (ps.foldl (fun s p => s.tinWrite m t p.1 p.2) s).memWf = true :=
    State.memWf_foldl_of_memWf (fun _ _ wf => State.memWf_tinWrite _ _ _ _ _ wf) _ wf
  simp [stored, wf]

@[simp] theorem State.memWf_sendFences (s : State) (m t : Nat) : (s.sendFences m t).memWf = s.memWf := by simp [State.sendFences]

@[simp] theorem State.memWf_amoDo (s : State) (m t : Nat) (o : AmoOp) (a n : Nat) (v : W64) (sx : Bool) (wf : s.memWf = true) :
    (s.amoDo m t o a n v sx).1.memWf = true := by
  simp [State.amoDo, apply_ite Prod.fst, State.memWf_when_of_memWf wf, wf]

@[simp] theorem State.memWf_amoGo (s : State) (m t : Nat) (o : AmoOp) (a n : Nat) (v : W64) (rd : Nat) (aq sx : Bool) (wf : s.memWf = true) :
    (s.amoGo m t o a n v rd aq sx).memWf = true := by
  unfold State.amoGo
  split <;> simp [wf]

@[simp] theorem State.memWf_tinAmo (s : State) (m t : Nat) (o : AmoOp) (a n : Nat) (v : W64) (rd : Nat) (aq rl sx : Bool) (wf : s.memWf = true) :
    (s.tinAmo m t o a n v rd aq rl sx).memWf = true := by
  unfold State.tinAmo
  dsimp only
  split <;> simp [wf]

@[simp] theorem State.memWf_pushEnter (s : State) (m : Nat) (th : TinThread) (p : TinPush) : (s.pushEnter m th p).memWf = s.memWf := by
  unfold State.pushEnter
  split <;> simp

@[simp] theorem State.memWf_tinPush (s : State) (m t : Nat) (p : TinPush) : (s.tinPush m t p).memWf = s.memWf := by simp [State.tinPush]

@[simp] theorem State.memWf_tinPoll (s : State) (m t : Nat) (wf : s.memWf = true) : (s.tinPoll m t).memWf = true := by
  unfold State.tinPoll
  dsimp only
  repeat' split
  all_goals simp [wf]

@[simp] theorem State.memWf_amoResult (s : State) (m t rd : Nat) (v : W64) (aq : Bool) : (s.amoResult m t rd v aq).memWf = s.memWf := by
  simp [State.amoResult]

/-! ### Machine/Tin.lean -/

@[simp] theorem memWf_execTinEntryStart (m t : Nat) (s : State) : nextMemWf (execTinEntryStart m t s) = s.memWf := by
  unfold execTinEntryStart
  dsimp only
  split <;> simp

@[simp] theorem State.memWf_fetchHalf (s : State) (m : Nat) (id : TaskId) (a : Nat) : (s.fetchHalf m id a).1.memWf = s.memWf := by
  unfold State.fetchHalf
  dsimp only
  repeat' split
  all_goals simp

@[simp] theorem State.memWf_fetchInsn (s : State) (m : Nat) (th : TinThread) : (s.fetchInsn m th).1.memWf = s.memWf := by
  unfold State.fetchInsn
  dsimp only
  have low := s.memWf_fetchHalf m th.id th.pc.toNat
  split
  next t h got =>
    rw [got] at low
    split
    · exact low
    · have high := t.memWf_fetchHalf m th.id (th.pc.toNat + 2)
      split
      next u k got =>
        rw [got] at high
        exact high.trans low
      next => exact high.trans low
  next => exact low

@[simp] theorem State.memWf_issueThread (s : State) (m t : Nat) (wf : s.memWf = true) : (s.issueThread m t).memWf = true := by
  unfold State.issueThread
  dsimp only
  split
  · simp [wf]
  · have fetched := (s.memWf_fetchInsn m (s.thread m t)).trans wf
    split
    next fault =>
      rw [fault] at fetched
      simp [fetched]
    next miss =>
      rw [miss] at fetched
      simp [fetched]
    next got =>
      rw [got] at fetched
      simp [fetched]

@[simp] theorem State.memWf_unyield (s : State) (m : Nat) : (s.unyield m).memWf = s.memWf := by simp [State.unyield]

@[simp] theorem memWf_execTinIssue (m : Nat) (s : State) (wf : s.memWf = true) : nextMemWf (execTinIssue m s) = true := by
  unfold execTinIssue
  rw [nextMemWf_next]
  split
  · exact wf
  · split <;> simp [wf]

@[simp] theorem State.memWf_insn (s : State) (m : Nat) (k : TinKind) {f : Nat → TinThread → TinInsn → State}
    (each : ∀ t th i, (f t th i).memWf = s.memWf) : (s.insn m k f).memWf = s.memWf := by
  unfold State.insn
  dsimp only
  split
  · rfl
  · split
    · exact each ..
    · rfl

theorem State.memWf_insn_of_memWf {s : State} (wf : s.memWf = true) (m : Nat) (k : TinKind) {f : Nat → TinThread → TinInsn → State}
    (each : ∀ t th i, (f t th i).memWf = true) : (s.insn m k f).memWf = true :=
  (State.memWf_insn s m k fun t th i => (each t th i).trans wf.symm).trans wf

@[simp] theorem State.memWf_jump (s : State) (m t : Nat) (th : TinThread) (pc : W64) : (s.jump m t th pc).memWf = s.memWf := by simp [State.jump]

@[simp] theorem State.memWf_loadInsn (s : State) (m t : Nat) (th : TinThread) (f3 rd rs1 : Nat) (off : Int) (fl : Bool) (wf : s.memWf = true) :
    (s.loadInsn m t th f3 rd rs1 off fl).memWf = true := by
  unfold State.loadInsn
  dsimp only
  split <;> simp [wf]

@[simp] theorem State.memWf_storeInsn (s : State) (m t : Nat) (th : TinThread) (f3 rs1 rs2 : Nat) (off : Int) (fl : Bool) (wf : s.memWf = true) :
    (s.storeInsn m t th f3 rs1 rs2 off fl).memWf = true := by
  unfold State.storeInsn
  dsimp only
  split <;> simp [wf]

@[simp] theorem State.memWf_vloadGo (s : State) (m t : Nat) (th : TinThread) (w : Nat) (v : VAccess) (wf : s.memWf = true) :
    (s.vloadGo m t th w v).memWf = true := by simp [State.vloadGo, wf]

@[simp] theorem State.memWf_vloadInsn (s : State) (m t : Nat) (th : TinThread) (w : Nat) (wf : s.memWf = true) :
    (s.vloadInsn m t th w).memWf = true := by
  unfold State.vloadInsn
  dsimp only
  repeat' split
  all_goals simp [wf]

@[simp] theorem State.memWf_vstoreInsn (s : State) (m t : Nat) (th : TinThread) (w : Nat) (wf : s.memWf = true) :
    (s.vstoreInsn m t th w).memWf = true := by
  unfold State.vstoreInsn
  split
  · simp [wf]
  · split <;> simp [wf]

@[simp] theorem State.memWf_baseInsn (s : State) (m t : Nat) (th : TinThread) (i : TinInsn) (wf : s.memWf = true) :
    (s.baseInsn m t th i).memWf = true := by
  unfold State.baseInsn
  dsimp only
  repeat' split
  all_goals simp [wf]

@[simp] theorem memWf_execTinBaseInstruction (m : Nat) (s : State) (wf : s.memWf = true) : nextMemWf (execTinBaseInstruction m s) = true := by
  rw [execTinBaseInstruction, nextMemWf_next]
  exact State.memWf_insn_of_memWf wf _ _ fun t th i => by simp [wf]

@[simp] theorem State.memWf_csrInsn (s : State) (m t : Nat) (th : TinThread) (f3 rd rs1 num : Nat) :
    (s.csrInsn m t th f3 rd rs1 num).memWf = s.memWf := by
  unfold State.csrInsn
  dsimp only
  repeat' split
  all_goals simp

@[simp] theorem memWf_execTinCsrAccess (m : Nat) (s : State) : nextMemWf (execTinCsrAccess m s) = s.memWf := by
  rw [execTinCsrAccess, nextMemWf_next]
  refine State.memWf_insn s _ _ fun t th i => ?_
  repeat' split
  all_goals simp

@[simp] theorem memWf_execTinAmo (m : Nat) (s : State) (wf : s.memWf = true) : nextMemWf (execTinAmo m s) = true := by
  rw [execTinAmo, nextMemWf_next]
  refine State.memWf_insn_of_memWf wf _ _ fun t th i => ?_
  repeat' split
  all_goals simp [wf]

@[simp] theorem memWf_execTinLr (m : Nat) (s : State) (wf : s.memWf = true) : nextMemWf (execTinLr m s) = true := by
  rw [execTinLr, nextMemWf_next]
  refine State.memWf_insn_of_memWf wf _ _ fun t th i => ?_
  repeat' split
  all_goals simp [wf]

@[simp] theorem memWf_execTinSc (m : Nat) (s : State) (wf : s.memWf = true) : nextMemWf (execTinSc m s) = true := by
  rw [execTinSc, nextMemWf_next]
  refine State.memWf_insn_of_memWf wf _ _ fun t th i => ?_
  repeat' split
  all_goals simp [wf]

@[simp] theorem memWf_execFence (m : Nat) (s : State) : nextMemWf (execFence m s) = s.memWf := by
  rw [execFence, nextMemWf_next]
  refine State.memWf_insn s _ _ fun t th i => ?_
  repeat' split
  all_goals simp

@[simp] theorem memWf_execFenceI (m : Nat) (s : State) : nextMemWf (execFenceI m s) = s.memWf := by
  rw [execFenceI, nextMemWf_next]
  exact State.memWf_insn s _ _ fun t th i => by simp

@[simp] theorem memWf_execEcall (m : Nat) (s : State) : nextMemWf (execEcall m s) = s.memWf := by
  rw [execEcall, nextMemWf_next]
  exact State.memWf_insn s _ _ fun t th i => by simp

@[simp] theorem memWf_execEbreak (m : Nat) (s : State) : nextMemWf (execEbreak m s) = s.memWf := by
  rw [execEbreak, nextMemWf_next]
  exact State.memWf_insn s _ _ fun t th i => by simp

@[simp] theorem memWf_execTinIllegalInstruction (m : Nat) (s : State) : nextMemWf (execTinIllegalInstruction m s) = s.memWf := by
  rw [execTinIllegalInstruction, nextMemWf_next]
  exact State.memWf_insn s _ _ fun t th i => by simp

@[simp] theorem State.memWf_lateDrop (s : State) (m : Nat) : (s.lateDrop m).memWf = s.memWf := by simp [State.lateDrop]
@[simp] theorem State.memWf_answered (s : State) (m t : Nat) : (s.answered m t).memWf = s.memWf := by simp [State.answered]

@[simp] theorem State.memWf_sldFault (s : State) (m t a status : Nat) : (s.sldFault m t a status).memWf = s.memWf := by
  unfold State.sldFault
  split <;> simp

@[simp] theorem State.memWf_loadArrive (s : State) (m t : Nat) (ps : List (Nat × Nat)) (d : TinDest) (ext : Option ExtData) (wf : s.memWf = true) :
    (s.loadArrive m t ps d ext).memWf = true := by
  unfold State.loadArrive
  dsimp only
  repeat' split
  all_goals simp [wf]

@[simp] theorem State.memWf_sldAmoArrive (s : State) (m t opc n rd : Nat) (aq sx : Bool) : (s.sldAmoArrive m t opc n rd aq sx).memWf = s.memWf := by
  unfold State.sldAmoArrive
  dsimp only
  repeat' split
  all_goals simp

@[simp] theorem State.memWf_fenceArrive (s : State) (m t : Nat) (wf : s.memWf = true) : (s.fenceArrive m t).memWf = true := by
  unfold State.fenceArrive
  dsimp only
  split <;> simp [wf]

@[simp] theorem memWf_execExtResponseArrive (m t x e : Nat) (ext : Option ExtData) (s : State) (wf : s.memWf = true) :
    nextMemWf (execExtResponseArrive m t x e ext s) = true := by
  unfold execExtResponseArrive
  rw [nextMemWf_next]
  dsimp only
  split
  · simp [wf]
  · split <;> simp [wf]

@[simp] theorem memWf_execStoreAck (m t x e path : Nat) (s : State) (wf : s.memWf = true) : nextMemWf (execStoreAck m t x e path s) = true := by
  unfold execStoreAck
  dsimp only
  repeat' split
  all_goals simp [wf]

@[simp] theorem memWf_execOutboundBufferAccept (m t : Nat) (s : State) (wf : s.memWf = true) : nextMemWf (execOutboundBufferAccept m t s) = true := by
  unfold execOutboundBufferAccept
  rw [nextMemWf_next]
  dsimp only
  split
  next ps accept =>
    have stored : (ps.foldl (fun s p => s.tinWrite m t p.1 p.2) s).memWf = true :=
      State.memWf_foldl_of_memWf (fun _ _ wf => State.memWf_tinWrite _ _ _ _ _ wf) _ wf
    simp [stored, wf]
  next => exact wf

@[simp] theorem memWf_execQueueRoom (m t : Nat) (s : State) : nextMemWf (execQueueRoom m t s) = s.memWf := by
  unfold execQueueRoom
  dsimp only
  split <;> simp

@[simp] theorem memWf_execTexit (m : Nat) (s : State) : nextMemWf (execTexit m s) = s.memWf := by
  rw [execTexit, nextMemWf_next]
  exact State.memWf_insn s _ _ fun t th i => by simp

@[simp] theorem memWf_execTinTaskReport (m t : Nat) (s : State) : nextMemWf (execTinTaskReport m t s) = s.memWf := by
  unfold execTinTaskReport
  dsimp only
  split <;> simp

@[simp] theorem memWf_execTinHalt (m : Nat) (on : Bool) (s : State) : nextMemWf (execTinHalt m on s) = s.memWf := by simp [execTinHalt]

/-! ### Machine/TinUmtia.lean -/

@[simp] theorem memWf_execLsig (m : Nat) (s : State) : nextMemWf (execLsig m s) = s.memWf := by
  rw [execLsig, nextMemWf_next]
  refine State.memWf_insn s _ _ fun t th i => ?_
  dsimp only
  repeat' split
  all_goals simp

@[simp] theorem memWf_execLwait (m : Nat) (s : State) : nextMemWf (execLwait m s) = s.memWf := by
  rw [execLwait, nextMemWf_next]
  refine State.memWf_insn s _ _ fun t th i => ?_
  dsimp only
  repeat' split
  all_goals simp

@[simp] theorem memWf_execLtry (m : Nat) (s : State) : nextMemWf (execLtry m s) = s.memWf := by
  rw [execLtry, nextMemWf_next]
  refine State.memWf_insn s _ _ fun t th i => ?_
  dsimp only
  repeat' split
  all_goals simp

@[simp] theorem memWf_execLrd (m : Nat) (s : State) : nextMemWf (execLrd m s) = s.memWf := by
  rw [execLrd, nextMemWf_next]
  refine State.memWf_insn s _ _ fun t th i => ?_
  dsimp only
  repeat' split
  all_goals simp

@[simp] theorem memWf_execTrpush (m : Nat) (s : State) : nextMemWf (execTrpush m s) = s.memWf := by
  rw [execTrpush, nextMemWf_next]
  refine State.memWf_insn s _ _ fun t th i => ?_
  dsimp only
  repeat' split
  all_goals simp

@[simp] theorem memWf_execDmaq (m : Nat) (s : State) : nextMemWf (execDmaq m s) = s.memWf := by
  rw [execDmaq, nextMemWf_next]
  refine State.memWf_insn s _ _ fun t th i => ?_
  dsimp only
  repeat' split
  all_goals simp

@[simp] theorem memWf_execPwissue (m : Nat) (s : State) : nextMemWf (execPwissue m s) = s.memWf := by
  rw [execPwissue, nextMemWf_next]
  refine State.memWf_insn s _ _ fun t th i => ?_
  repeat' split
  all_goals simp

@[simp] theorem memWf_execTyield (m : Nat) (s : State) : nextMemWf (execTyield m s) = s.memWf := by
  rw [execTyield, nextMemWf_next]
  exact State.memWf_insn s _ _ fun t th i => by simp

@[simp] theorem memWf_execDgadd (m : Nat) (s : State) : nextMemWf (execDgadd m s) = s.memWf := by
  rw [execDgadd, nextMemWf_next]
  refine State.memWf_insn s _ _ fun t th i => ?_
  dsimp only
  repeat' split
  all_goals simp

@[simp] theorem memWf_execRngw (m : Nat) (s : State) : nextMemWf (execRngw m s) = s.memWf := by
  rw [execRngw, nextMemWf_next]
  refine State.memWf_insn s _ _ fun t th i => ?_
  repeat' split
  all_goals simp

@[simp] theorem memWf_execRngd (m : Nat) (s : State) : nextMemWf (execRngd m s) = s.memWf := by
  rw [execRngd, nextMemWf_next]
  refine State.memWf_insn s _ _ fun t th i => ?_
  repeat' split
  all_goals simp

@[simp] theorem memWf_execTrng (m : Nat) (s : State) : nextMemWf (execTrng m s) = s.memWf := by
  rw [execTrng, nextMemWf_next]
  refine State.memWf_insn s _ _ fun t th i => ?_
  repeat' split
  all_goals simp

@[simp] theorem memWf_execScas (m : Nat) (s : State) (wf : s.memWf = true) : nextMemWf (execScas m s) = true := by
  rw [execScas, nextMemWf_next]
  refine State.memWf_insn_of_memWf wf _ _ fun t th i => ?_
  repeat' split
  all_goals simp [wf]

@[simp] theorem State.memWf_faaddInsn (s : State) (m t : Nat) (th : TinThread) (i : TinInsn) (wf : s.memWf = true) :
    (s.faaddInsn m t th i).memWf = true := by
  unfold State.faaddInsn
  split <;> simp [wf]

@[simp] theorem memWf_execFaaddD (m : Nat) (s : State) (wf : s.memWf = true) : nextMemWf (execFaaddD m s) = true := by
  rw [execFaaddD, nextMemWf_next]
  exact State.memWf_insn_of_memWf wf _ _ fun t th i => by simp [wf]

@[simp] theorem memWf_execFaaddS (m : Nat) (s : State) (wf : s.memWf = true) : nextMemWf (execFaaddS m s) = true := by
  rw [execFaaddS, nextMemWf_next]
  exact State.memWf_insn_of_memWf wf _ _ fun t th i => by simp [wf]

@[simp] theorem memWf_execXld (m : Nat) (s : State) (wf : s.memWf = true) : nextMemWf (execXld m s) = true := by
  rw [execXld, nextMemWf_next]
  refine State.memWf_insn_of_memWf wf _ _ fun t th i => ?_
  dsimp only
  repeat' split
  all_goals simp [wf]

@[simp] theorem memWf_execXst (m : Nat) (s : State) (wf : s.memWf = true) : nextMemWf (execXst m s) = true := by
  rw [execXst, nextMemWf_next]
  refine State.memWf_insn_of_memWf wf _ _ fun t th i => ?_
  dsimp only
  repeat' split
  all_goals simp [wf]

@[simp] theorem memWf_execDinv (m : Nat) (s : State) : nextMemWf (execDinv m s) = s.memWf := by
  rw [execDinv, nextMemWf_next]
  exact State.memWf_insn s _ _ fun t th i => by simp

end Sys2Proof.Machine
end

section
/-! SUPPORT. That every command and every step keeps the memories canonical, and the obligation that this settles. -/

namespace Sys2Proof.Machine

/-- Every command answers a next state with canonical memories: its own lemma says so, arm by arm. -/
theorem nextMemWf_exec {s : State} (wf : s.memWf = true) (c : Instr) : nextMemWf (exec c s) = true := by
  cases c <;> simp [exec, wf]

theorem nextMemWf_step {s : State} (wf : s.memWf = true) : nextMemWf (step s) = true := by
  unfold step
  split
  next => exact State.memWf_tick s wf
  next c rest pending => exact nextMemWf_exec (s := { s with pending := rest }) wf c

/-- Settles O60, since every command of the table and the tick keep the canonical form. -/
theorem stepGoesOnAndKeepsMemory : Obligations.StepGoesOnAndKeepsMemory := by
  unfold Obligations.StepGoesOnAndKeepsMemory
  exact fun s wf => eq_next_of_nextMemWf (nextMemWf_step wf)

end Sys2Proof.Machine
end

section
/-! SUPPORT. Proofs about digests (R234 to R239): that the digest unit computes CRC-64/XZ, what the read-back of a task and the append of its entry
leave, and the obligations that these rules settle. -/

namespace Sys2Proof.Machine

/-! ### CRC-64/XZ (R236) -/

/-- A bit as the lowest bit of a CRC register. -/
def crcLow (b : Bool) : W64 := (BitVec.ofBool b).setWidth 64

/-- Bit `b` shifted into a CRC register that shifts to the right: the reflected form of `crcRefBit`. -/
def crcStep (c : W64) (b : Bool) : W64 := crcBit (c ^^^ crcLow b)

@[simp] theorem getLsbD_crcLow (b : Bool) (k : Nat) : (crcLow b).getLsbD k = (decide (k = 0) && b) := by
  cases b <;> cases k <;> simp [crcLow]

theorem crcLow_ushiftRight_one (b : Bool) : crcLow b >>> 1 = 0#64 := by
  cases b <;> rfl

theorem reverse_shiftLeft_one (c : W64) : (c <<< 1).reverse = c.reverse >>> 1 := by
  ext k hk
  simp [← BitVec.getLsbD_eq_getElem, BitVec.getLsbD_reverse, BitVec.getMsbD_shiftLeft, Nat.add_comm]

theorem reverse_xor (c d : W64) : (c ^^^ d).reverse = c.reverse ^^^ d.reverse := by
  ext k hk
  simp [← BitVec.getLsbD_eq_getElem, BitVec.getLsbD_reverse]

/-- The bit steps of the two forms agree under reflection: the lowest bit of one register is the highest of the other. -/
theorem reverse_crcRefBit (c : W64) (b : Bool) : crcStep c.reverse b = (crcRefBit c b).reverse := by
  have low : (c.reverse ^^^ crcLow b).getLsbD 0 = (c.getMsbD 0 != b) := by
    rw [BitVec.getLsbD_xor, BitVec.getLsbD_reverse, getLsbD_crcLow]
    simp
  have shifted : (c.reverse ^^^ crcLow b) >>> 1 = (c <<< 1).reverse := by
    rw [BitVec.ushiftRight_xor_distrib, crcLow_ushiftRight_one, BitVec.xor_zero, reverse_shiftLeft_one]
  have poly : (0x42F0E1EBA9EA3693 : W64).reverse = 0xC96C5795D7870F42 := by decide +kernel
  rw [crcStep, crcBit, crcRefBit, low, shifted]
  split
  · rw [reverse_xor, poly]
  · rfl

/-- What is XORed above the lowest bit only shifts. -/
theorem crcBit_xor_even (c w : W64) (even : w.getLsbD 0 = false) : crcBit (c ^^^ w) = crcBit c ^^^ (w >>> 1) := by
  rw [crcBit, crcBit, BitVec.getLsbD_xor, even, Bool.xor_false, BitVec.ushiftRight_xor_distrib]
  split
  · ac_rfl
  · rfl

/-- One bit step takes the lowest bit of what is XORed in and leaves the rest for the next. -/
theorem crcBit_xor (c w : W64) : crcBit (c ^^^ w) = crcStep c (w.getLsbD 0) ^^^ (w >>> 1) := by
  have parts : c ^^^ w = (c ^^^ crcLow (w.getLsbD 0)) ^^^ (crcLow (w.getLsbD 0) ^^^ w) := by
    rw [BitVec.xor_assoc, ← BitVec.xor_assoc (crcLow _), BitVec.xor_self, BitVec.zero_xor]
  have even : (crcLow (w.getLsbD 0) ^^^ w).getLsbD 0 = false := by
    rw [BitVec.getLsbD_xor, getLsbD_crcLow]
    simp
  rw [parts, crcBit_xor_even _ _ even, BitVec.ushiftRight_xor_distrib, crcLow_ushiftRight_one, BitVec.zero_xor, crcStep]

/-- `n` bit steps take the lowest `n` bits of what is XORed in, from bit 0 up. -/
theorem iterate_crcBit_xor (c w : W64) (n : Nat) :
    crcBit^[n] (c ^^^ w) = ((List.range n).map fun k => w.getLsbD k).foldl crcStep c ^^^ (w >>> n) := by
  induction n with
  | zero => simp
  | succ n ih =>
    rw [Function.iterate_succ_apply', ih, crcBit_xor, List.range_succ, List.map_append, List.foldl_append, ← BitVec.shiftRight_add]
    simp

theorem crcByte_eq_foldl_crcStep (c : W64) (b : Byte) : crcByte c b = ((List.range 8).map fun k => b.getLsbD k).foldl crcStep c := by
  have bits : ((List.range 8).map fun k => (b.setWidth 64).getLsbD k) = (List.range 8).map fun k => b.getLsbD k :=
    List.map_congr_left fun k hk => by
      have within := List.mem_range.mp hk
      rw [BitVec.getLsbD_setWidth, decide_eq_true (by omega), Bool.true_and]
  have spent : b.setWidth 64 >>> 8 = 0#64 := by
    ext k hk
    simp
  calc crcByte c b
    _ = crcBit^[8] (c ^^^ b.setWidth 64) := rfl
    _ = _ := by rw [iterate_crcBit_xor, bits, spent, BitVec.xor_zero]

/-- The digest of the model is the bit-serial CRC, reflected. -/
theorem crc64_eq_reverse (bs : List Byte) :
    crc64 bs = ((crcRefBits bs).foldl crcRefBit 0xFFFFFFFFFFFFFFFF).reverse ^^^ 0xFFFFFFFFFFFFFFFF := by
  have ones : (0xFFFFFFFFFFFFFFFF : W64).reverse = 0xFFFFFFFFFFFFFFFF := by decide +kernel
  rw [← List.foldl_hom BitVec.reverse reverse_crcRefBit, ones, crcRefBits, List.foldl_flatMap, crc64]
  simp only [← crcByte_eq_foldl_crcStep]

theorem crc64_nil : crc64 [] = 0 := by decide

section
variable {s : State} {i : Nat} {t : Task}

/-! ### The read-back (R234, R235) -/

/-- The state in which the digest unit has taken the marks of task `t` in slot `i`, with the end `fin` and the digest `d`. -/
def State.readBack (s : State) (i : Nat) (t : Task) (fin : Option (Nat × Nat)) (d : Nat × Nat) : State :=
  ({ s with marks := s.marks.put i { s.marks.get {} i with taken := true } } : State).setSlot i
    { s.slot i with task := some { t with fin := fin, dig := some d } }

/-- The bytes that a task has marked, range after range. -/
def State.markedBytes (s : State) (i : Nat) (t : Task) : List Byte := (s.marks.get {} i).ranges.flatMap fun r => s.markBytes t r.1 r.2

@[simp] theorem State.slot_readBack_same (s : State) (i : Nat) (t : Task) (fin : Option (Nat × Nat)) (d : Nat × Nat) :
    (s.readBack i t fin d).slot i = { s.slot i with task := some { t with fin := fin, dig := some d } } :=
  State.slot_setSlot_same ..

theorem State.slot_readBack_other (s : State) (i : Nat) (t : Task) (fin : Option (Nat × Nat)) (d : Nat × Nat) {j : Nat} (other : j ≠ i) :
    (s.readBack i t fin d).slot j = s.slot j :=
  (State.slot_setSlot _ i j _).trans (if_neg other.symm)

theorem State.readBack_eq (s : State) (i : Nat) (t : Task) (fin : Option (Nat × Nat)) (d : Nat × Nat) :
    s.readBack i t fin d = { s with slots := (s.readBack i t fin d).slots, marks := (s.readBack i t fin d).marks } := rfl

/-- A task whose digest is due and that ended OK passes the tests before the marks are looked at. -/
theorem readsBack_of_ok (digesting : t.st = .digesting) (unread : t.dig = none) (ok : t.fin = some (0, 0)) :
    ¬(t.st != .digesting || t.dig.isSome) = true ∧ ¬(t.fin.getD (0, 0)).1 ≠ 0 := by
  simp [digesting, unread, ok]

theorem exec_digestReadback_of_marks (task : (s.slot i).task = some t) (digesting : t.st = .digesting) (unread : t.dig = none)
    (ok : t.fin = some (0, 0)) (fits : (s.marks.get {} i).overflow = false) (clean : s.markPoison (s.marks.get {} i).ranges = none) :
    exec (.digestReadback i) s =
      .next (s.readBack i t (some (0, 0)) ((crc64 (s.markedBytes i t)).toNat, min (2 ^ 32 - 1) (s.markedBytes i t).length)) := by
  obtain ⟨waits, ended⟩ := readsBack_of_ok digesting unread ok
  simp only [exec, execDigestReadback, task]
  rw [if_neg waits, if_neg ended, if_neg (by rw [fits]; exact Bool.false_ne_true), clean, ok]
  rfl

theorem exec_digestReadback_of_overflow (task : (s.slot i).task = some t) (digesting : t.st = .digesting) (unread : t.dig = none)
    (ok : t.fin = some (0, 0)) (overflow : (s.marks.get {} i).overflow = true) :
    exec (.digestReadback i) s = .next (s.readBack i t (some (1, 4)) (0, 0)) := by
  obtain ⟨waits, ended⟩ := readsBack_of_ok digesting unread ok
  simp only [exec, execDigestReadback, task]
  rw [if_neg waits, if_neg ended, if_pos overflow]
  rfl

/-! ### The append (R238, R239) -/

variable {d : Nat × Nat}

/-- The state in which the entry of task `t` stands in its context's ring, and the next PROD after it. -/
def State.entryWritten (s : State) (t : Task) (g : Stl) : State :=
  (s.tierWrite (g.ring + 64 + 32 * (g.prod % g.entries)) (words (digestWords t))).tierWrite g.ring (toLE 4 ((g.prod + 1) % 2 ^ 32))

theorem exec_digestAppend_of_room (task : (s.slot i).task = some t) (digesting : t.st = .digesting) (read : t.dig = some d) {g : Stl}
    (ring : g = (s.ctx t.desc.ctx).stl) (room : (g.prod + 2 ^ 32 - g.cons) % 2 ^ 32 ≠ g.entries)
    (first : g.stalled = [] ∨ g.stalled.head? = some i) :
    exec (.digestAppend i) s = .next (((s.entryWritten t g).setCtx t.desc.ctx { s.ctx t.desc.ctx with stl :=
      { g with prod := (g.prod + 1) % 2 ^ 32, stalled := g.stalled.erase i } }).recordTask i true) := by
  subst ring
  have turn : (!(s.ctx t.desc.ctx).stl.stalled.isEmpty && (s.ctx t.desc.ctx).stl.stalled.head? != some i) = false := by
    rcases first with empty | head
    · rw [empty]; rfl
    · rw [head, bne_self_eq_false, Bool.and_false]
  have free := beq_false_of_ne room
  simp only [exec, execDigestAppend, task, digesting, read, turn, free, bne_self_eq_false, Option.isNone_some, Bool.or_self,
    Bool.false_eq_true, if_false]
  rfl

/-- On a full ring an entry waits behind those that wait already, and is counted when it begins to wait. -/
theorem exec_digestAppend_of_full (task : (s.slot i).task = some t) (digesting : t.st = .digesting) (read : t.dig = some d) {g : Stl}
    (ring : g = (s.ctx t.desc.ctx).stl) (full : (g.prod + 2 ^ 32 - g.cons) % 2 ^ 32 = g.entries) :
    exec (.digestAppend i) s = .next (if i ∈ g.stalled then s else
      (s.setCtx t.desc.ctx { s.ctx t.desc.ctx with stl := { g with stalled := g.stalled ++ [i] } }).bump Reg.CAB_STL_RING_STALL 1) := by
  subst ring
  have full' := beq_of_eq full
  simp only [exec, execDigestAppend, task, digesting, read, full', bne_self_eq_false, Option.isNone_some, Bool.or_self, Bool.false_eq_true, if_false,
    if_true]
  by_cases waits : i ∈ (s.ctx t.desc.ctx).stl.stalled <;> simp [waits]

theorem exec_ringConsRecheck_of_stalled {x v : Nat} (valid : (s.ctx x).valid = true) (on : (s.ctx x).stl.st ≠ .off)
    (stalled : (s.ctx x).stl.stalled ≠ []) (cons : v = fromLE (s.tierRead ((s.ctx x).stl.ring + 32) 4))
    (old : seqNewer 32 v (s.ctx x).stl.prod = false) :
    exec (.ringConsRecheck x) s = .next (s.setCtx x { s.ctx x with stl := { (s.ctx x).stl with cons := v } }) := by
  subst cons
  simp [exec, execRingConsRecheck, valid, on, stalled, old]

end

/-! ### The obligations -/

/-- Settles O31. -/
theorem digestsAreReadAndAppended : Obligations.DigestsAreReadAndAppended := by
  unfold Obligations.DigestsAreReadAndAppended
  refine ⟨fun s i t bs task digesting unread ok fits clean marked => ?reads, fun s i t task digesting unread ok overflow => ?overflows,
    fun s v i x t d g task digesting read hx ring room first hv => ?appends,
    fun s i x t d g task digesting read hx ring full => ?waits, fun _ _ _ => exec_ringConsRecheck_of_stalled⟩
  case reads =>
    obtain rfl : bs = s.markedBytes i t := marked
    exact ⟨_, exec_digestReadback_of_marks task digesting unread ok fits clean, congrArg Slot.task (s.slot_readBack_same ..),
      fun j other => s.slot_readBack_other _ _ _ _ other, s.readBack_eq ..⟩
  case overflows =>
    exact ⟨_, exec_digestReadback_of_overflow task digesting unread ok overflow, congrArg Slot.task (s.slot_readBack_same ..), s.readBack_eq ..⟩
  case appends =>
    subst hx hv
    exact exec_digestAppend_of_room task digesting read ring room first
  case waits =>
    subst hx
    have waits := exec_digestAppend_of_full task digesting read ring full
    exact ⟨fun fresh => by rw [waits, if_neg fresh], fun listed => by rw [waits, if_pos listed]⟩

/-- Settles O57: bit by bit the two forms of the CRC are each other's reflection. -/
theorem digestIsCrc64Xz : Obligations.DigestIsCrc64Xz := by
  unfold Obligations.DigestIsCrc64Xz
  refine ⟨crc64_eq_reverse, crc64_nil, fun s i t bs task digesting unread ok fits clean marked => ?_⟩
  obtain rfl : bs = s.markedBytes i t := marked
  exact ⟨_, _, exec_digestReadback_of_marks task digesting unread ok fits clean, by rw [State.slot_readBack_same]; rfl, rfl⟩

end Sys2Proof.Machine
end

section
/-! SUPPORT. Proofs about errors of HBM (R285, R286, R289), its refresh in the Sterling profile (R226) and mirrors (R288): what each command leaves,
and the obligation that these rules settle. -/

namespace Sys2Proof.Machine

section
variable {s : State}

/-! ### Uncorrectable errors (R285, R286) -/

@[simp] theorem State.poison_poisonLine_same (s : State) (l : Nat) : ((s.poisonLine l).tiers.poison.look l).isSome = true := by
  unfold State.poisonLine
  split
  next poisoned => exact poisoned
  next => exact congrArg Option.isSome (Tab.look_put_same ..)

theorem State.poison_poisonLine_other (s : State) {l k : Nat} (other : k ≠ l) :
    (s.poisonLine l).tiers.poison.look k = s.tiers.poison.look k := by
  unfold State.poisonLine
  split
  next => rfl
  next => exact Tab.look_put_other _ _ _ _ other.symm

@[simp] theorem State.tier_poisonLine (s : State) (l : Nat) : (s.poisonLine l).tier = s.tier := by
  unfold State.poisonLine
  split <;> rfl

variable {a pc k : Nat} {both : Bool} {o : Obj}

theorem exec_hbmUe_of_object (present : s.flag (Reg.HBM_PC_PRESENT (pc / 32)) (pc % 32) = true) (inTier : a < 2 ^ 48)
    (covers : s.objAt a 1 = some (k, o)) (there : o.onStack a (pc / 32) = true) :
    exec (.hbmUe a pc both) s = .next (((s.bump (Reg.HBM_UE (pc / 32)) 1).objError a (pc / 32) o both).notePc pc) := by
  simp only [exec, execHbmUe, present, if_neg (Nat.not_le.mpr inTier), covers, there, Bool.not_true, Bool.false_eq_true, if_false, if_true]

theorem State.objError_of_lost (pinned : o.policy = .pinned) (t : Nat) (lost : o.mirror = false ∨ o.degraded = true ∨ both = true) :
    s.objError a t o both = s.poisonLine (a / 64) := by
  have sole : (o.mirror && !o.degraded && !both) = false := by
    rcases lost with h | h | h <;> simp [h]
  simp only [State.objError, pinned, sole, Bool.false_eq_true, if_false]

theorem State.objError_of_mirrored (pinned : o.policy = .pinned) (t : Nat) (mirror : o.mirror = true) (whole : o.degraded = false) :
    s.objError a t o false = s.bump (Reg.HBM_MIRROR_FIXES t) 1 := by
  simp only [State.objError, pinned, mirror, whole, Bool.not_false, Bool.and_self, if_true]

/-! ### Patrol and refresh (R226, R289) -/

variable {t : Nat}

theorem exec_hbmPatrolRead_of_patrolled (present : s.stackPresent t = true) (plain : s.flag (Reg.BIM_REG_STEP t) 2 = false) (n : Nat) :
    exec (.hbmPatrolRead t n) s = .next (s.bump (Reg.HBM_CE t) n) := by
  simp [exec, execHbmPatrolRead, present, plain]

/-- The banks that the stacks refresh next after stack `t` has refreshed one: past the last comes bank 0, which an unlisted stack has. -/
def State.nextBanks (s : State) (t : Nat) : Tab Nat :=
  if s.tiers.refBank.get 0 t + 1 = Config.hbmBanks then s.tiers.refBank.del t else s.tiers.refBank.put t (s.tiers.refBank.get 0 t + 1)

theorem State.get_nextBanks_same (s : State) (t : Nat) : (s.nextBanks t).get 0 t =
    if s.tiers.refBank.get 0 t + 1 = Config.hbmBanks then 0 else s.tiers.refBank.get 0 t + 1 := by
  unfold State.nextBanks
  split
  next => rw [Tab.get_del, if_pos rfl]
  next => rw [Tab.get_put_same]

theorem State.get_nextBanks_other (s : State) {t k : Nat} (other : k ≠ t) : (s.nextBanks t).get 0 k = s.tiers.refBank.get 0 k := by
  unfold State.nextBanks
  split
  next => rw [Tab.get_del, if_neg other.symm]
  next => rw [Tab.get_put_other _ _ _ _ _ other.symm]

theorem exec_hbmRefresh_of_sterling (present : s.stackPresent t = true) (sterling : s.flag (Reg.BIM_REG_STEP t) 2 = true) :
    exec (.hbmRefresh t) s = .next { s with tiers := { s.tiers with refBank := s.nextBanks t } } := by
  simp only [exec, execHbmRefresh, present, sterling, Bool.not_true, Bool.or_self, Bool.false_eq_true, if_false]
  rfl

/-! ### Granules and events -/

theorem State.reg_eventTo_other (s : State) (q : Option Nat) (fn kind ctx e4 e5 e6 e7 : Nat) {a : Nat} (low : Reg.CAB_EVENT_DROP ≠ a)
    (high : Reg.CAB_EVENT_DROP + 4 ≠ a) : (s.eventTo q fn kind ctx e4 e5 e6 e7).reg a = s.reg a := by
  cases q with
  | none => exact State.reg_bump_other _ _ _ _ low high
  | some q => rfl

theorem State.reg_pfEvent_other (s : State) (kind e4 e5 e6 e7 : Nat) {a : Nat} (low : Reg.CAB_EVENT_DROP ≠ a)
    (high : Reg.CAB_EVENT_DROP + 4 ≠ a) : (s.pfEvent kind e4 e5 e6 e7).reg a = s.reg a :=
  State.reg_eventTo_other _ _ _ _ _ _ _ _ _ low high

/-- The counter of dropped events is no register of a stack. -/
theorem State.stackPresent_pfEvent (s : State) (kind e4 e5 e6 e7 : Nat) :
    (s.pfEvent kind e4 e5 e6 e7).stackPresent = s.stackPresent := by
  funext t
  rw [State.stackPresent, State.reg_pfEvent_other, State.stackPresent]
  all_goals
    simp only [Reg.CAB_EVENT_DROP, Reg.HBM_PC_PRESENT]
    omega

@[simp] theorem State.partnerOf_pfEvent (s : State) (kind e4 e5 e6 e7 home : Nat) (but : Option Nat) :
    (s.pfEvent kind e4 e5 e6 e7).partnerOf home but = s.partnerOf home but := by
  rw [State.partnerOf, State.stackPresent_pfEvent, State.partnerOf]

@[simp] theorem State.stackFree_pfEvent (s : State) (kind e4 e5 e6 e7 t : Nat) : (s.pfEvent kind e4 e5 e6 e7).stackFree t = s.stackFree t := by
  have staged : (s.pfEvent kind e4 e5 e6 e7).stageGrans = s.stageGrans := by
    rw [State.stageGrans, State.stackNos, State.stackPresent_pfEvent, State.field, State.reg_pfEvent_other _ _ _ _ _ _ (by decide) (by decide)]
    rfl
  rw [State.stackFree, State.field, staged, State.pfEvent_tiers, State.reg_pfEvent_other]
  · rfl
  all_goals
    simp only [Reg.CAB_EVENT_DROP, Reg.HBM_CAPACITY_GIB]
    omega

/-- Granules freed on one stack are not another's. -/
theorem State.stackFree_dropGrans_other (s : State) {lost p : Nat} (other : p ≠ lost) (n : Nat) :
    (s.dropGrans [(lost, n)]).stackFree p = s.stackFree p := by
  have used : (s.dropGrans [(lost, n)]).tiers.used.get 0 p = s.tiers.used.get 0 p := Tab.get_put_other _ _ _ _ _ other.symm
  rw [State.stackFree, used]
  rfl

@[simp] theorem State.stackFree_setObj (s : State) (k : Nat) (o : Obj) (p : Nat) : (s.setObj k o).stackFree p = s.stackFree p := rfl

/-! ### Mirrors (R288) -/

variable {p : Nat}

/-- The state in which object `k` is degraded and stack `p` is its partner. -/
def State.withPartner (s : State) (k p : Nat) : State := s.setObj k { s.obj k with degraded := true, partner := p }

@[simp] theorem State.obj_withPartner_same (s : State) (k p : Nat) : (s.withPartner k p).obj k = { s.obj k with degraded := true, partner := p } :=
  State.obj_setObj_same ..

theorem State.obj_withPartner_other (s : State) (p : Nat) {k j : Nat} (other : j ≠ k) : (s.withPartner k p).obj j = s.obj j := by
  rw [State.withPartner, State.obj_setObj, if_neg other.symm]

@[simp] theorem State.mcopy_withPartner (s : State) (k p : Nat) : (s.withPartner k p).tiers.mcopy = s.tiers.mcopy := rfl

@[simp] theorem State.tier_withPartner (s : State) (k p : Nat) : (s.withPartner k p).tier = s.tier := rfl

/-- The state in which stack `p` has given the granules of a copy of object `k`, and the copy goes on. -/
def State.copyBegun (s : State) (k p : Nat) : State :=
  { s.takeGrans [(p, 512 * (s.obj k).shelves)] with
    tiers := { (s.takeGrans [(p, 512 * (s.obj k).shelves)]).tiers with mcopy := s.tiers.mcopy ++ [(k, p)] } }

@[simp] theorem State.obj_copyBegun (s : State) (k p j : Nat) : (s.copyBegun k p).obj j = s.obj j := rfl

@[simp] theorem State.mcopy_copyBegun (s : State) (k p : Nat) : (s.copyBegun k p).tiers.mcopy = s.tiers.mcopy ++ [(k, p)] := rfl

@[simp] theorem State.tier_copyBegun (s : State) (k p : Nat) : (s.copyBegun k p).tier = s.tier := rfl

theorem State.seekPartner_of_room {but : Option Nat} (found : s.partnerOf (s.obj k).stack but = some p)
    (room : 512 * (s.obj k).shelves ≤ s.stackFree p) : s.seekPartner k but = (s.copyBegun k p).withPartner k p := by
  have fits : s.gransFit [(p, 512 * (s.obj k).shelves)] = true := by simp [State.gransFit, room]
  simp only [State.seekPartner, found, fits, if_true]
  rfl

/-- A degraded object that finds no partner has its home stack for one (log 102). -/
theorem State.seekPartner_of_none {but : Option Nat} (alone : s.partnerOf (s.obj k).stack but = none) :
    s.seekPartner k but = s.withPartner k (s.obj k).stack := by
  simp only [State.seekPartner, alone, State.withPartner]

/-- The state in which object `k` has lost its partner, before a new one is sought: its granules there are free and MIRROR_DEGRADED is posted. -/
def State.unpartnered (s : State) (k : Nat) : State :=
  ((s.dropGrans [((s.obj k).partner, 512 * (s.obj k).shelves)]).setObj k { s.obj k with degraded := true }).pfEvent 0x0112 k (s.obj k).partner 0 0

theorem State.obj_of_tiers {t : State} (same : t.tiers = s.tiers) (j : Nat) : t.obj j = s.obj j := by
  rw [State.obj, same, State.obj]

@[simp] theorem State.obj_unpartnered_same (s : State) (k : Nat) : (s.unpartnered k).obj k = { s.obj k with degraded := true } :=
  (State.obj_of_tiers (State.pfEvent_tiers ..) k).trans (State.obj_setObj_same ..)

theorem State.obj_unpartnered_other (s : State) {k j : Nat} (other : j ≠ k) : (s.unpartnered k).obj j = s.obj j := by
  rw [State.unpartnered, State.obj_of_tiers (State.pfEvent_tiers ..), State.obj_setObj, if_neg other.symm]
  rfl

@[simp] theorem State.mcopy_unpartnered (s : State) (k : Nat) : (s.unpartnered k).tiers.mcopy = s.tiers.mcopy := by
  rw [State.unpartnered, State.pfEvent_tiers]
  rfl

@[simp] theorem State.tier_unpartnered (s : State) (k : Nat) : (s.unpartnered k).tier = s.tier := by
  rw [State.unpartnered, State.pfEvent_tier]
  rfl

theorem State.partnerOf_unpartnered (s : State) (k home : Nat) (but : Option Nat) :
    (s.unpartnered k).partnerOf home but = s.partnerOf home but := by
  rw [State.unpartnered, State.partnerOf_pfEvent]
  rfl

theorem State.stackFree_unpartnered_other (s : State) {k : Nat} (other : p ≠ (s.obj k).partner) :
    (s.unpartnered k).stackFree p = s.stackFree p := by
  rw [State.unpartnered, State.stackFree_pfEvent, State.stackFree_setObj, State.stackFree_dropGrans_other _ other]

theorem exec_mirrorPartnerLost_of_whole (running : s.boot.phase = .running) (ready : (s.obj k).st = .ready) (mirror : (s.obj k).mirror = true)
    (whole : (s.obj k).degraded = false) :
    exec (.mirrorPartnerLost k) s = .next ((s.unpartnered k).seekPartner k (some (s.obj k).partner)) := by
  simp only [exec, execMirrorPartnerLost, running, ready, mirror, whole, bne_self_eq_false, Bool.not_true, Bool.or_self,
    Bool.false_eq_true, if_false]
  rfl

theorem exec_mirrorCopyDone_of_copying (running : s.boot.phase = .running) (copying : s.tiers.mcopy.find? (·.1 == k) = some (k, p)) :
    exec (.mirrorCopyDone k) s = .next ((({ s with tiers := { s.tiers with mcopy := s.tiers.mcopy.filter (·.1 != k) } } : State).setObj k
      { s.obj k with degraded := false, partner := p }).pfEvent 0x0113 k p 0 0) := by
  simp only [exec, execMirrorCopyDone, running, copying, beq_self_eq_true, if_true]

end

/-! ### The obligation -/

/-- Settles O37. That a MIRROR object without a new partner stays DEGRADED with its home stack for PARTNER is log 68 and log 102. -/
theorem hbmErrorsAndMirrors : Obligations.HbmErrorsAndMirrors := by
  unfold Obligations.HbmErrorsAndMirrors
  refine ⟨fun s a pc k both o present inTier covers there pinned => ⟨fun lost => ?poisons, fun mirror whole one => ?mends⟩,
    fun s l => ⟨s.poison_poisonLine_same l, fun _ => s.poison_poisonLine_other, s.tier_poisonLine l⟩,
    fun _ _ n present plain => exec_hbmPatrolRead_of_patrolled present plain n,
    fun s t present sterling => ⟨_, exec_hbmRefresh_of_sterling present sterling, s.get_nextBanks_same t, fun _ => s.get_nextBanks_other, rfl⟩,
    fun s k p running ready mirror whole found other room => ?partner, fun s k running ready mirror whole alone => ?alone,
    fun _ _ _ => exec_mirrorCopyDone_of_copying⟩
  case poisons => rw [exec_hbmUe_of_object present inTier covers there, State.objError_of_lost pinned _ lost]
  case mends =>
    subst one
    rw [exec_hbmUe_of_object present inTier covers there, State.objError_of_mirrored pinned _ mirror whole]
  case partner =>
    have held := s.obj_unpartnered_same k
    have found' : (s.unpartnered k).partnerOf ((s.unpartnered k).obj k).stack (some (s.obj k).partner) = some p := by
      rw [held, State.partnerOf_unpartnered, found]
    have room' : 512 * ((s.unpartnered k).obj k).shelves ≤ (s.unpartnered k).stackFree p := by
      rw [held, State.stackFree_unpartnered_other s other]
      exact room
    refine ⟨_, exec_mirrorPartnerLost_of_whole running ready mirror whole, ?_⟩
    rw [State.seekPartner_of_room found' room']
    refine ⟨?_, ?_, fun j apart => ?_, ?_⟩
    · rw [State.obj_withPartner_same, State.obj_copyBegun, held]
    · rw [State.mcopy_withPartner, State.mcopy_copyBegun, State.mcopy_unpartnered]
    · rw [State.obj_withPartner_other _ _ apart, State.obj_copyBegun, State.obj_unpartnered_other _ apart]
    · rw [State.tier_withPartner, State.tier_copyBegun, State.tier_unpartnered]
  case alone =>
    have held := s.obj_unpartnered_same k
    have alone' : (s.unpartnered k).partnerOf ((s.unpartnered k).obj k).stack (some (s.obj k).partner) = none := by
      rw [held, State.partnerOf_unpartnered, alone]
    refine ⟨_, exec_mirrorPartnerLost_of_whole running ready mirror whole, ?_⟩
    rw [State.seekPartner_of_none alone']
    refine ⟨?_, fun j apart => ?_, ?_⟩
    · rw [State.obj_withPartner_same, held]
    · rw [State.obj_withPartner_other _ _ apart, State.obj_unpartnered_other _ apart]
    · rw [State.tier_withPartner, State.tier_unpartnered]

end Sys2Proof.Machine
end

section
/-! SUPPORT. Proofs about the commands on objects (R257 to R267, R282): how a command names an object, what installing and freeing one leave, and the
obligations that these rules settle. -/

namespace Sys2Proof.Machine

section
variable {s : State} {i : Issuer} {k g : Nat}

/-! ### Naming an object (R11, R261, R495) -/

/-- A sequence number is not newer than itself (R11). -/
theorem seqNewer_self (n a : Nat) : seqNewer n a a = false := by
  have whole : a + 2 ^ n - a % 2 ^ n = 2 ^ n * (a / 2 ^ n + 1) := by
    have parts := Nat.mod_add_div a (2 ^ n)
    rw [Nat.mul_add_one]
    omega
  simp [seqNewer, whole]

theorem seqStale_self (n a : Nat) : seqStale n a a = false := by
  simp [seqStale, seqEqual]

/-- An object that the function may name is found, unless the generation given is not the object's. -/
theorem State.objFor_of_may {fn : Nat} (number : k < 2 ^ 20) (listed : (s.obj k).st ≠ .none) (may : fn = 0 ∨ (s.obj k).fn = fn) (g : Nat) :
    s.objFor fn k g = if seqNewer 16 g (s.obj k).ogen then .error stArgument
      else if seqStale 16 g (s.obj k).ogen then .error stStale else .ok (s.obj k) := by
  have there : (decide (2 ^ 20 ≤ k) || (s.obj k).st == .none || (fn != 0 && (s.obj k).fn != fn)) = false := by
    rw [decide_eq_false (Nat.not_le.mpr number), beq_false_of_ne listed]
    rcases may with physical | own
    · simp [physical]
    · simp [own]
  simp only [State.objFor, there, Bool.false_eq_true, if_false]

theorem State.objFor_of_named {fn : Nat} (named : ObjNamed s fn k g) : s.objFor fn k g = .ok (s.obj k) := by
  obtain ⟨number, listed, may, rfl, -⟩ := named
  simp only [State.objFor_of_may number listed may, seqNewer_self, seqStale_self, Bool.false_eq_true, if_false]

theorem State.objFor_of_stale {fn : Nat} (number : k < 2 ^ 20) (listed : (s.obj k).st ≠ .none) (may : fn = 0 ∨ (s.obj k).fn = fn)
    (stale : seqStale 16 g (s.obj k).ogen = true) (notNewer : seqNewer 16 g (s.obj k).ogen = false) : s.objFor fn k g = .error stStale := by
  simp only [State.objFor_of_may number listed may, notNewer, stale, Bool.false_eq_true, if_false, if_true]

/-! ### The commands (R260, R266, R267, R282) -/

theorem exec_burObjQuery_of_named (taken : Taken s i 0x0302) (named : ObjNamed s (s.issuerFn i) k g) :
    exec (.burObjQuery i k g) s = .next (s.answer i 0 0 (s.objWords k)) := by
  simp only [exec, execBurObjQuery]
  rw [State.command_of_ok taken]
  simp only [State.objFor_of_named named]

theorem exec_burObjQuery_of_stale (taken : Taken s i 0x0302) (refused : s.objFor (s.issuerFn i) k g = .error stStale) :
    exec (.burObjQuery i k g) s = .next (s.answer i 9 0 []) := by
  simp only [exec, execBurObjQuery]
  rw [State.command_of_error (status := stStale) taken (by decide) (by simp only [refused])]
  rfl

variable {src : List (Nat × Nat)}

/-- The state in which an install or reinstall `x` is in progress. -/
def State.beginInstall (s : State) (x : Install) : State := { s with tiers := { s.tiers with installs := s.tiers.installs ++ [x] } }

theorem exec_burObjInstall_of_created (taken : Taken s i 0x0303) (named : ObjNamed s (s.issuerFn i) k g) (flash : (s.obj k).policy ≠ .pinned)
    (listOk : srcListOk src (s.obj k).size = true) (created : (s.obj k).st = .created) (room : s.flashHeld ≤ s.flashCap) :
    exec (.burObjInstall i k g src) s = .next (((s.setObj k { s.obj k with st := .installing }).beginInstall
      ⟨k, false, 0, (s.obj k).shelves, src, i == .mbox 0 0⟩).answer i 0 0 []) := by
  have valid : ((s.obj k).policy == .pinned || !srcListOk src (s.obj k).size) = false := by simp [flash, listOk]
  simp only [exec, execBurObjInstall]
  rw [State.command_of_ok taken]
  simp only [State.objFor_of_named named, valid, created, bne_self_eq_false, Nat.not_lt.mpr room, Bool.false_eq_true, if_false]
  rfl

theorem exec_burObjReinstall_of_poisoned {first count : Nat} (taken : Taken s i 0x0304) (named : ObjNamed s (s.issuerFn i) k g)
    (flash : (s.obj k).policy ≠ .pinned) (nonempty : count ≠ 0) (inside : first + count ≤ (s.obj k).shelves)
    (listOk : srcListOk src (reinstallBytes (s.obj k) first count) = true) (ready : (s.obj k).st = .ready) (single : s.installOf k true = none)
    (poisoned : ∀ j, j < count → (s.shelf ((s.obj k).base / 2 ^ 21 + first + j)).st = .poisoned) :
    exec (.burObjReinstall i k g first count src) s =
      .next ((s.beginInstall ⟨k, true, first, count, src, i == .mbox 0 0⟩).answer i 0 0 []) := by
  have valid : ((s.obj k).policy == .pinned || decide (count = 0) || decide ((s.obj k).shelves < first + count) ||
      !srcListOk src (reinstallBytes (s.obj k) first count)) = false := by simp [flash, nonempty, inside, listOk]
  have free : ((s.obj k).st != .ready || (s.installOf k true).isSome ||
      (List.range count).any fun j => (s.shelf ((s.obj k).base / 2 ^ 21 + first + j)).st != .poisoned) = false := by
    simpa [ready, single] using poisoned
  simp only [exec, execBurObjReinstall]
  rw [State.command_of_ok taken]
  simp only [State.objFor_of_named named, valid, free, Bool.false_eq_true, if_false]
  rfl

theorem exec_burObjDestroy_of_idle (taken : Taken s i 0x0305) (named : ObjNamed s (s.issuerFn i) k g) (idle : s.objBusy k (s.obj k) = false)
    (standing : (s.obj k).st ≠ .destroying) :
    exec (.burObjDestroy i k g) s = .next ((s.setObj k { s.obj k with st := .destroying }).answer i 0 0 []) := by
  simp only [exec, execBurObjDestroy]
  rw [State.command_of_ok taken]
  simp only [State.objFor_of_named named, idle, beq_false_of_ne standing, Bool.or_self, Bool.false_eq_true, if_false]

/-! ### The end of an install (R266, R282, R447) -/

/-- Bytes written in two pieces are written. -/
theorem Mem.write_take_drop (m : Mem) (a n : Nat) (bs : List Byte) :
    Mem.write (Mem.write m a (bs.take n)) (a + n) (bs.drop n) = Mem.write m a bs := by
  induction bs generalizing m a n with
  | nil => simp [Mem.write]
  | cons b bs ih =>
    cases n with
    | zero => rfl
    | succ n => rw [List.take_succ_cons, List.drop_succ_cons, Mem.write, Nat.add_comm n, ← Nat.add_assoc, ih, Mem.write]

/-- Data of the secure world is stored page by page, and no region filter discards a page (R449). -/
theorem State.storeData_of_secure (s : State) (a : Nat) {bs : List Byte} {n : Nat} (enough : bs.length ≤ n) :
    s.storeData true a bs n = { s with tier := Mem.write s.tier a bs } := by
  induction n generalizing s a bs with
  | zero =>
    obtain rfl := List.length_eq_zero_iff.mp (Nat.le_zero.mp enough)
    rfl
  | succ n ih =>
    rw [State.storeData]
    split
    next empty =>
      obtain rfl := List.isEmpty_iff.mp empty
      rfl
    next =>
      have rest : (bs.drop (4096 - a % 4096)).length ≤ n := by
        rw [List.length_drop]
        omega
      simp only [if_true, List.isEmpty_nil]
      rw [ih _ _ rest, Mem.write_take_drop]

variable {x : Install} {bs : List Byte}

theorem State.fwInstall_of_running {re : Bool} (running : s.boot.phase = .running) : s.fwInstall k re = s.installOf k re := by
  simp only [State.fwInstall, running, beq_self_eq_true, if_true]

/-- The state in which the data of install `x` of object `k` stands at its base and the object is READY. -/
def State.installed (s : State) (k : Nat) (x : Install) (bs : List Byte) : State :=
  ({ s.endInstall x with tier := Mem.write s.tier (s.obj k).base bs } : State).setObj k { s.obj k with st := .ready }

theorem exec_installComplete_of_data (running : s.boot.phase = .running) (installing : s.installOf k false = some x)
    (whole : bs.length = (s.obj k).size) (on : s.burOn = true) (secure : x.secure = true) :
    exec (.installComplete k (.data bs)) s = .next (((s.installed k x bs).bump Reg.BUR_INSTALL_BYTES (s.obj k).size).fnEvent
      (s.obj k).fn 0x0114 0xFFF k (s.obj k).ogen 0 0) := by
  have stores : ¬(decide (bs.length ≠ (s.obj k).size) || !s.burOn) = true := by simp [whole, on]
  simp only [exec, execInstallComplete, State.fwInstall_of_running running, installing, secure]
  rw [if_neg stores, State.storeData_of_secure _ _ (Nat.le_refl _)]
  rfl

theorem exec_installComplete_of_error (running : s.boot.phase = .running) (installing : s.installOf k false = some x) :
    exec (.installComplete k .error) s =
      .next (((s.endInstall x).setObj k { s.obj k with st := .created }).fnEvent (s.obj k).fn 0x0114 0xFFF k (s.obj k).ogen 1 0) := by
  simp only [exec, execInstallComplete, State.fwInstall_of_running running, installing]

theorem exec_reinstallStored_of_data (running : s.boot.phase = .running) (installing : s.installOf k true = some x)
    (whole : bs.length = reinstallBytes (s.obj k) x.first x.count) (on : s.burOn = true) :
    exec (.reinstallStored k (.data bs)) s = .next ((((List.range x.count).foldl
      (fun s' j => s'.restoreShelf (s.obj k) ((s.obj k).base / 2 ^ 21 + x.first + j))
      (((s.endInstall x).storeData x.secure ((s.obj k).base + x.first * 2 ^ 21) bs bs.length).bump Reg.BUR_INSTALL_BYTES bs.length)).runFills).fnEvent
        (s.obj k).fn 0x0111 0xFFF k (s.obj k).ogen x.first x.count) := by
  have stores : ¬(decide (bs.length ≠ reinstallBytes (s.obj k) x.first x.count) || !s.burOn) = true := by simp [whole, on]
  simp only [exec, execReinstallStored, State.fwInstall_of_running running, installing]
  rw [if_neg stores, whole]

/-! ### Destroy (R261, R267) -/

/-- The freed object's number keeps its generation. -/
@[simp] theorem State.obj_freeObj_same (s : State) (k : Nat) : (s.freeObj k).obj k = { ogen := (s.obj k).ogen } :=
  State.obj_setObj_same ..

/-- The state in which the granules of object `k` are free, those of its shelves and, where it is PINNED, its own. -/
def State.objGransFreed (s : State) (k : Nat) : State :=
  let freed := (s.objShelves (s.obj k)).foldl (fun t e => if e.2.granted then t.dropGrans (s.obj k).cost else t) s
  if (s.obj k).policy == .pinned then freed.dropGrans ((s.obj k).takes (s.obj k).shelves) else freed

theorem State.objs_objGransFreed (s : State) (k : Nat) : (s.objGransFreed k).tiers.objs = s.tiers.objs := by
  have shelves (vs : List (Nat × Shelf)) :
      (vs.foldl (fun t e => if e.2.granted then t.dropGrans (s.obj k).cost else t) s).tiers.objs = s.tiers.objs :=
    foldl_keeps (p := fun t => t.tiers.objs) (fun _ _ => by split <;> rfl) vs s
  unfold State.objGransFreed
  dsimp only
  split
  · exact shelves _
  · exact shelves _

theorem State.obj_freeObj_other (s : State) {k j : Nat} (other : j ≠ k) : (s.freeObj k).obj j = s.obj j := by
  calc (s.freeObj k).obj j
    _ = (s.objGransFreed k).obj j := (State.obj_setObj ..).trans (if_neg other.symm)
    _ = s.obj j := by rw [State.obj, State.objs_objGransFreed, State.obj]

/-- The bytes of the freed shelves are scrubbed. -/
theorem State.byte_freeObj_of_inside (s : State) {k a : Nat} (low : (s.obj k).base ≤ a) (high : a < (s.obj k).base + (s.obj k).shelves * 2 ^ 21) :
    Mem.byte (s.freeObj k).tier a = 0 := by
  have inside : (decide ((s.obj k).base ≤ a) && decide (a < (s.obj k).base + (s.obj k).shelves * 2 ^ 21)) = true := by
    rw [decide_eq_true low, decide_eq_true high, Bool.and_self]
  exact Tab.get_filter_of_dropped 0 (fun _ => congrArg not inside) _

theorem exec_destroyDone_of_idle (destroying : (s.obj k).st = .destroying) (idle : s.objBusy k (s.obj k) = false) :
    exec (.destroyDone k) s = .next ((s.freeObj k).retryCopies.runFills.vfSettle) := by
  simp only [exec, execDestroyDone, destroying, idle, beq_self_eq_true, Bool.not_false, Bool.and_self, if_true]

/-! ### The answer of a mailbox and the object table -/

@[simp] theorem State.tiers_raiseBox (s : State) (i : Issuer) : (s.raiseBox i).tiers = s.tiers := by
  have fires (fn v : Nat) (b : Bool) : (if b then s.fire fn v else s).tiers = s.tiers := by
    split
    · rw [State.fire_eq]
    · rfl
  cases i with
  | mbox fn m => exact fires ..
  | queue q => rfl
  | firmware => rfl

/-- A mailbox's answer moves no object. -/
theorem State.obj_answer_mbox (s : State) (fn m status detail : Nat) (body : List Nat) (k : Nat) :
    (s.answer (.mbox fn m) status detail body).obj k = s.obj k := by
  refine State.obj_of_tiers ?_ k
  simp only [State.answer]
  split
  · rfl
  · exact State.tiers_raiseBox ..

end

/-! ### The obligations -/

/-- Stacks 0 and 3 are present and empty, firmware runs, and mailbox 0 of the physical function holds a BUR_OBJ_CREATE. -/
def creating : State :=
  ([0, 3].foldl (fun (s : State) t => (s.setReg (Reg.HBM_PC_PRESENT t) (2 ^ 32 - 1)).setReg (Reg.HBM_CAPACITY_GIB t) 96)
    { State.reset with boot := { State.reset.boot with phase := .running } }).setBox (.mbox 0 0) { busy := true, command := 0x0301 }

/-- The command creates a PINNED object of one shelf on stack 0, without MIRROR. -/
def createPlain : Instr := .burObjCreate (.mbox 0 0) 0 (2 ^ 21) (2 ^ 21) 0 false 0 false false 0

/-- The object that the statement gives for it, with the partner of stack 0 for PARTNER. -/
def partneredObj : Obj := { st := .ready, base := 2 ^ 21, size := 2 ^ 21, partner := 3, stackNos := [0, 3] }

theorem taken_creating : Taken creating (.mbox 0 0) 0x0301 := by
  unfold Taken
  decide +kernel

/-- Object `k` of the next state. -/
def nextObj (k : Nat) : Host.Outcome State Fault Refusal → Option Obj
  | .next t => some (t.obj k)
  | _ => none

/-- Without MIRROR there is no second copy, and no PARTNER is set (R260, R264). -/
theorem nextObj_createPlain : nextObj 0 (exec createPlain creating) = some { partneredObj with ogen := 1, partner := 0 } := by
  decide +kernel

/-- Refutes O32. The statement's object has the partner of its home stack for PARTNER whether or not MIRROR is set; the model sets PARTNER of a
MIRROR object only (R260, R264). `createPlain` meets every condition in `creating`, and makes an object with PARTNER 0 where the statement
says 3. -/
theorem not_objectsAreCreated : ¬ Obligations.ObjectsAreCreated := by
  unfold Obligations.ObjectsAreCreated
  intro claim
  have claimed : ∃ t : State,
      exec createPlain creating = .next (t.answer (.mbox 0 0) 0 0 [0, 1]) ∧ t.obj 0 = { partneredObj with ogen := 1 } := by
    refine (claim creating (.mbox 0 0) 0 (2 ^ 21) (2 ^ 21) 0 0 0 0 false false false .pinned partneredObj taken_creating
      ?_ ?_ ?_ ?_ ?_ ?_ ?_ ?_ ?_ ?_ ?_ ?_ ?_ ?_ ?_ ?_ ?_).imp fun t ⟨answered, object, _⟩ => ⟨answered, object⟩
    all_goals decide +kernel
  obtain ⟨t, answered, object⟩ := claimed
  have plain := nextObj_createPlain
  rw [answered, nextObj, State.obj_answer_mbox, object] at plain
  cases plain

/-- Settles O33. -/
theorem objectCommandsComplete : Obligations.ObjectCommandsComplete := by
  unfold Obligations.ObjectCommandsComplete
  refine ⟨fun _ _ _ _ => exec_burObjQuery_of_named,
    fun _ _ _ _ taken number listed may stale notNewer => exec_burObjQuery_of_stale taken (State.objFor_of_stale number listed may stale notNewer),
    fun s i k g src taken named flash listOk created room =>
      ⟨_, exec_burObjInstall_of_created taken named flash listOk created room, State.obj_setObj_same .., rfl, rfl⟩,
    fun _ _ _ _ _ _ _ => exec_burObjReinstall_of_poisoned, fun _ _ _ _ => exec_burObjDestroy_of_idle,
    fun s k x bs running installing whole on secure => ?installs, fun _ _ _ => exec_installComplete_of_error,
    fun _ _ _ _ => exec_reinstallStored_of_data,
    fun s k destroying idle => ⟨exec_destroyDone_of_idle destroying idle, s.obj_freeObj_same k, fun _ => s.byte_freeObj_of_inside,
      fun _ => s.obj_freeObj_other⟩⟩
  case installs =>
    refine ⟨_, exec_installComplete_of_data running installing whole on secure, ?_, fun j inside => ?_, fun a outside => ?_, ?_⟩
    · rw [State.obj_of_tiers (State.fnEvent_tiers ..), State.obj_of_tiers (State.bump_tiers ..), State.installed, State.obj_setObj_same]
    · rw [State.fnEvent_tier]
      exact Mem.byte_write_inside _ _ _ _ inside
    · rw [State.fnEvent_tier]
      exact Mem.byte_write_outside _ _ _ _ outside
    · rw [State.fnEvent, State.eventTo_eq]
      rfl

end Sys2Proof.Machine
end

section
/-! SUPPORT. Proofs about the Dumbwaiter's commands (R265, R269, R274): what a promotion, an eviction request and a queued fill leave of a shelf, and
the obligation that these rules settle. -/

namespace Sys2Proof.Machine

section
variable {s : State} {i : Issuer} {fn sh : Nat}

/-! ### One shelf (R269, R274) -/

theorem State.promoteShelf_of_absent (absent : (s.shelf sh).st = .absent) (fn : Nat) : s.promoteShelf fn sh = s.queueFill sh fn 0 false := by
  simp only [State.promoteShelf, absent]

theorem State.promoteShelf_of_evicting (evicting : (s.shelf sh).st = .evicting) (fn : Nat) :
    s.promoteShelf fn sh = (s.setShelf sh { s.shelf sh with st := .present, lastUse := s.msTick }).bump Reg.DMW_CANCELS 1 := by
  simp only [State.promoteShelf, evicting]

theorem State.promoteShelf_of_present (present : (s.shelf sh).st = .present) (fn : Nat) :
    s.promoteShelf fn sh = s.setShelf sh { s.shelf sh with lastUse := s.msTick } := by
  simp only [State.promoteShelf, present]

theorem State.promoteShelf_of_filling (filling : (s.shelf sh).st = .filling) (fn : Nat) : s.promoteShelf fn sh = s := by
  simp only [State.promoteShelf, filling]

@[simp] theorem State.st_queueFill (s : State) (sh fn first : Nat) (demand : Bool) : ((s.queueFill sh fn first demand).shelf sh).st = .filling :=
  congrArg Shelf.st (State.shelf_setShelf_same ..)

theorem State.shelf_queueFill_other (s : State) {sh k : Nat} (other : k ≠ sh) (fn first : Nat) (demand : Bool) :
    (s.queueFill sh fn first demand).shelf k = s.shelf k :=
  (State.shelf_setShelf ..).trans (if_neg other.symm)

/-- A shelf that has lost its mapping is ABSENT. -/
@[simp] theorem State.st_dropMapping (s : State) (sh : Nat) : ((s.dropMapping sh).shelf sh).st = .absent :=
  congrArg Shelf.st ((Tab.get_del ..).trans (if_pos rfl))

theorem State.evictShelf_of_held (present : (s.shelf sh).st = .present) (held : (s.shelf sh).holds ≠ 0) :
    s.evictShelf sh = s.bump Reg.DMW_IGNORED 1 := by
  simp only [State.evictShelf, present, bne_iff_ne.mpr held, if_true]

theorem State.evictShelf_of_unread (present : (s.shelf sh).st = .present) (free : (s.shelf sh).holds = 0) (unread : (s.shelf sh).readers = []) :
    s.evictShelf sh = s.dropMapping sh := by
  simp only [State.evictShelf, present, free, unread, bne_self_eq_false, List.isEmpty_nil, Bool.false_eq_true, if_false, if_true]

theorem State.evictShelf_of_read (present : (s.shelf sh).st = .present) (free : (s.shelf sh).holds = 0) (read : (s.shelf sh).readers ≠ []) :
    s.evictShelf sh = s.setShelf sh { s.shelf sh with st := .evicting } := by
  simp only [State.evictShelf, present, free, List.isEmpty_eq_false_iff.mpr read, bne_self_eq_false, Bool.false_eq_true, if_false]

theorem State.evictShelf_of_filling (filling : (s.shelf sh).st = .filling) : s.evictShelf sh = s.bump Reg.DMW_IGNORED 1 := by
  simp only [State.evictShelf, filling]

/-! ### The commands (R265, R274) -/

variable {rs : List (Nat × Nat × Nat × Nat)} {shs : List (Obj × Nat)}

theorem exec_dmwPromote_of_named (taken : Taken s i 0x0310) (named : s.namedShelves (s.issuerFn i) rs = .ok shs) :
    exec (.dmwPromote i rs false) s = .next ((shs.foldl (fun s e => s.promoteShelf e.1.fn e.2) s).runFills.answer i 0 0 []) := by
  simp only [exec, execDmwPromote]
  rw [State.command_of_ok taken]
  simp only [named, Bool.false_eq_true, if_false]

/-- With HOLD each named shelf is promoted, then gains a hold. -/
theorem exec_dmwPromote_hold_of_named (taken : Taken s i 0x0310) (named : s.namedShelves (s.issuerFn i) rs = .ok shs) :
    exec (.dmwPromote i rs true) s = .next ((shs.foldl (fun s e =>
      (s.promoteShelf e.1.fn e.2).setShelf e.2 { (s.promoteShelf e.1.fn e.2).shelf e.2 with
        holds := ((s.promoteShelf e.1.fn e.2).shelf e.2).holds + 1 }) s).runFills.answer i 0 0 []) := by
  simp only [exec, execDmwPromote]
  rw [State.command_of_ok taken]
  simp only [named, if_true]

theorem exec_dmwEvict_of_named (taken : Taken s i 0x0311) (named : s.namedShelves (s.issuerFn i) rs = .ok shs) :
    exec (.dmwEvict i rs) s = .next ((shs.foldl (fun s e => s.evictShelf e.2) s).runFills.answer i 0 0 []) := by
  simp only [exec, execDmwEvict]
  rw [State.command_of_ok taken]
  simp only [named]

theorem exec_dmwUnhold_of_held {o : Obj} (taken : Taken s i 0x0312) (named : s.namedShelves (s.issuerFn i) rs = .ok [(o, sh)])
    (held : (s.shelf sh).holds ≠ 0) :
    exec (.dmwUnhold i rs) s = .next ((s.setShelf sh { s.shelf sh with holds := (s.shelf sh).holds - 1 }).answer i 0 0 []) := by
  simp only [exec, execDmwUnhold]
  rw [State.command_of_ok taken]
  simp only [named, List.foldl_cons, List.foldl_nil, held, if_false]

theorem exec_dmwAllowance_of_valid {allow : Nat} (taken : Taken s i 0x0313) (isFn : fn < 1024) (there : (s.func fn).st ≠ .absent) :
    exec (.dmwAllowance i fn allow) s = .next ((s.setFunc fn { s.func fn with cacheAllow := some allow }).runFills.answer i 0 0 []) := by
  have valid : (decide (1024 ≤ fn) || (s.func fn).st == .absent) = false := by simp [isFn, there]
  simp only [exec, execDmwAllowance]
  rw [State.command_of_ok taken]
  simp only [valid, Bool.false_eq_true, if_false]

end

/-! ### The obligation -/

/-- Settles O34. -/
theorem dumbwaiterCommandsComplete : Obligations.DumbwaiterCommandsComplete := by
  unfold Obligations.DumbwaiterCommandsComplete
  exact ⟨fun _ _ _ _ taken named => ⟨exec_dmwPromote_of_named taken named, exec_dmwPromote_hold_of_named taken named⟩,
    fun _ _ _ _ => exec_dmwEvict_of_named, fun _ _ _ _ _ => exec_dmwUnhold_of_held, fun _ _ _ _ => exec_dmwAllowance_of_valid,
    fun _ fn _ => ⟨(State.promoteShelf_of_absent · fn), (State.promoteShelf_of_evicting · fn), (State.promoteShelf_of_present · fn),
      (State.promoteShelf_of_filling · fn)⟩,
    fun s fn sh first d => ⟨s.st_queueFill sh fn first d, rfl, fun _ other => s.shelf_queueFill_other other fn first d, rfl⟩,
    fun s sh present => ⟨State.evictShelf_of_held present,
      fun free unread => ⟨State.evictShelf_of_unread present free unread, s.st_dropMapping sh⟩, State.evictShelf_of_read present⟩,
    fun _ _ => State.evictShelf_of_filling⟩

end Sys2Proof.Machine
end

section
/-! SUPPORT. Proofs about flash (R279 to R281, R284): the ladder of a failed decode, POISONED shelves, patrol and relocation of blocks, failed
dies and blocks grown bad, and the obligation that these rules settle. -/

namespace Sys2Proof.Machine

section
variable {s : State} {page blk : Nat}

/-! ### Reads of a block and their counters (R279) -/

/-- What flash knows of a block. -/
def State.block (s : State) (blk : Nat) : Block := s.tiers.blocks.get {} blk

def State.setBlock (s : State) (blk : Nat) (b : Block) : State := { s with tiers := { s.tiers with blocks := s.tiers.blocks.put blk b } }

@[simp] theorem State.block_setBlock_same (s : State) (blk : Nat) (b : Block) : (s.setBlock blk b).block blk = b := Tab.get_put_same ..

@[simp] theorem State.reads_flashRead (s : State) (blk bits : Nat) : ((s.flashRead blk bits).block blk).reads = (s.block blk).reads + 1 :=
  congrArg Block.reads (State.block_setBlock_same ..)

theorem State.flashRead_eq (s : State) (blk bits : Nat) : s.flashRead blk bits =
    { s with tiers := (s.flashRead blk bits).tiers, regs := (s.flashRead blk bits).regs } := rfl

/-- A flash read moves no register but the two counters of its channel. -/
theorem State.reg_flashRead_other (s : State) (blk bits : Nat) {a : Nat}
    (apart : a < Reg.NAND_READS (chanOf blk) ∨ Reg.NAND_CORR_BITS (chanOf blk) + 4 < a) : (s.flashRead blk bits).reg a = s.reg a := by
  calc (s.flashRead blk bits).reg a
    _ = ((s.bump (Reg.NAND_READS (chanOf blk)) 1).bump (Reg.NAND_CORR_BITS (chanOf blk)) bits).reg a := rfl
    _ = s.reg a := by
      simp only [Reg.NAND_READS, Reg.NAND_CORR_BITS] at apart ⊢
      rw [State.reg_bump_other, State.reg_bump_other] <;> omega

theorem State.reg64_flashRead_other (s : State) (blk bits : Nat) {a : Nat}
    (apart : a + 4 < Reg.NAND_READS (chanOf blk) ∨ Reg.NAND_CORR_BITS (chanOf blk) + 4 < a) : (s.flashRead blk bits).reg64 a = s.reg64 a := by
  rw [State.reg64, State.reg_flashRead_other, State.reg_flashRead_other, State.reg64] <;> omega

/-! ### The ladder (R280) -/

/-- The state in which a page read from block `blk` has failed its hard decode and stands at the re-reads. -/
def State.ladderEntered (s : State) (page blk : Nat) : State :=
  (((s.flashRead blk 0).bump (Reg.NAND_UNCORR (chanOf blk)) 1).bump Reg.BUR_RETRY 1).setLadder (s.tiers.ladder.put page .levels)

theorem State.ladder_ladderEntered (s : State) (page blk k : Nat) :
    (s.ladderEntered page blk).tiers.ladder.look k = if page = k then some .levels else s.tiers.ladder.look k :=
  Tab.look_put ..

theorem State.ladderEntered_eq (s : State) (page blk : Nat) : s.ladderEntered page blk =
    { s with tiers := (s.ladderEntered page blk).tiers, regs := (s.ladderEntered page blk).regs } := by
  rw [State.ladderEntered, State.flashRead_eq]
  rfl

/-- The counter of entries is no channel's. -/
theorem State.retry_ladderEntered (s : State) (page blk : Nat) :
    (s.ladderEntered page blk).reg64 Reg.BUR_RETRY = (s.reg64 Reg.BUR_RETRY + 1) % 2 ^ 64 := by
  have uncorr : Reg.NAND_UNCORR (chanOf blk) + 4 < Reg.BUR_RETRY ∨ Reg.BUR_RETRY + 4 < Reg.NAND_UNCORR (chanOf blk) := by
    simp only [Reg.NAND_UNCORR, Reg.BUR_RETRY]
    omega
  have reads : Reg.BUR_RETRY + 4 < Reg.NAND_READS (chanOf blk) ∨ Reg.NAND_CORR_BITS (chanOf blk) + 4 < Reg.BUR_RETRY := by
    simp only [Reg.NAND_READS, Reg.NAND_CORR_BITS, Reg.BUR_RETRY]
    omega
  calc (s.ladderEntered page blk).reg64 Reg.BUR_RETRY
    _ = (((s.flashRead blk 0).bump (Reg.NAND_UNCORR (chanOf blk)) 1).bump Reg.BUR_RETRY 1).reg64 Reg.BUR_RETRY := rfl
    _ = (s.reg64 Reg.BUR_RETRY + 1) % 2 ^ 64 := by
      rw [State.reg64_bump, State.reg64_bump_other _ _ _ uncorr, State.reg64_flashRead_other _ _ _ reads]

theorem exec_hardDecodeFail_of_read (read : s.pageRead page = true) (fresh : s.tiers.ladder.look page = none) (blk : Nat) :
    exec (.hardDecodeFail page blk) s = .next (s.ladderEntered page blk) := by
  simp only [exec, execHardDecodeFail, read, fresh, Bool.not_true, Option.isSome_none, Bool.or_self, Bool.false_eq_true, if_false]
  rfl

theorem exec_ladderDone_of_levels (levels : s.tiers.ladder.look page = some .levels) (ok : Bool) :
    exec (.ladderDone page ok) s = .next (if ok then s.setLadder (s.tiers.ladder.del page)
      else (s.setLadder (s.tiers.ladder.put page .soft)).bump Reg.BUR_SOFT 1) := by
  simp only [exec, execLadderDone, levels]

theorem exec_softDecodeDone_of_soft (soft : s.tiers.ladder.look page = some .soft) (ok : Bool) :
    exec (.softDecodeDone page ok) s = .next (s.setLadder (if ok then s.tiers.ladder.del page else s.tiers.ladder.put page .rebuild)) := by
  simp only [exec, execSoftDecodeDone, soft]

theorem exec_stripeRebuildDone_of_rebuilt (rebuild : s.tiers.ladder.look page = some .rebuild) (blk : Nat) :
    exec (.stripeRebuildDone page blk true) s =
      .next (((s.setLadder (s.tiers.ladder.del page)).setBlock blk { s.block blk with reloc := true }).bump Reg.BUR_REBUILT 1) := by
  simp only [exec, execStripeRebuildDone, rebuild, if_true]
  rfl

theorem exec_stripeRebuildDone_of_lost (rebuild : s.tiers.ladder.look page = some .rebuild) (blk : Nat) :
    exec (.stripeRebuildDone page blk false) s =
      .next ((((s.setLadder (s.tiers.ladder.del page)).poisonShelf page).unrecoverable blk).runFills) := by
  simp only [exec, execStripeRebuildDone, rebuild, Bool.false_eq_true, if_false]

/-! ### POISONED shelves (R281) -/

/-- The state in which shelf `sh` of object `o` is POISONED with one more page lost, and nothing of it is filled or read. -/
def State.shelfPoisoned (s : State) (sh : Nat) (o : Obj) : State :=
  let freed := if (s.shelf sh).granted then s.dropGrans o.cost else s
  let kept := freed.setShelf sh { s.shelf sh with st := .poisoned, words := [], granted := false, lost := (s.shelf sh).lost + 1 }
  { kept with tiers := { kept.tiers with
    fills := kept.tiers.fills.filter (·.shelf != sh), ladder := kept.tiers.ladder.filter fun e => e.1 / 128 != sh } }

@[simp] theorem State.shelf_shelfPoisoned_same (s : State) (sh : Nat) (o : Obj) : (s.shelfPoisoned sh o).shelf sh =
    { s.shelf sh with st := .poisoned, words := [], granted := false, lost := (s.shelf sh).lost + 1 } :=
  State.shelf_setShelf_same ..

theorem State.regs_shelfPoisoned (s : State) (sh : Nat) (o : Obj) : (s.shelfPoisoned sh o).regs = s.regs := by
  unfold State.shelfPoisoned
  dsimp only
  split <;> rfl

theorem State.reg64_shelfPoisoned (s : State) (sh : Nat) (o : Obj) (a : Nat) : (s.shelfPoisoned sh o).reg64 a = s.reg64 a := by
  simp only [State.reg64, State.reg, State.regs_shelfPoisoned]

/-- An event moves no counter but that of the events dropped. -/
theorem State.reg64_fnEvent_other (s : State) (fn kind ctx e4 e5 e6 e7 : Nat) {a : Nat}
    (apart : Reg.CAB_EVENT_DROP + 4 < a ∨ a + 4 < Reg.CAB_EVENT_DROP) : (s.fnEvent fn kind ctx e4 e5 e6 e7).reg64 a = s.reg64 a := by
  rw [State.fnEvent, State.reg64, State.reg_eventTo_other, State.reg_eventTo_other, State.reg64] <;> omega

variable {k : Nat} {o : Obj}

theorem State.poisonShelf_of_object (found : s.shelfObj (page / 128) = some (k, o)) : s.poisonShelf page =
    ((s.shelfPoisoned (page / 128) o).bump Reg.BUR_POISONED_PAGES 1).fnEvent o.fn 0x0110 0xFFF k o.ogen (page / 128 - o.base / 2 ^ 21)
      ((s.shelf (page / 128)).lost + 1) := by
  simp only [State.poisonShelf, found]
  rfl

theorem State.shelf_poisonShelf_of_object (found : s.shelfObj (page / 128) = some (k, o)) : (s.poisonShelf page).shelf (page / 128) =
    { s.shelf (page / 128) with st := .poisoned, words := [], granted := false, lost := (s.shelf (page / 128)).lost + 1 } := by
  rw [State.poisonShelf_of_object found, State.shelf, State.fnEvent_tiers]
  exact s.shelf_shelfPoisoned_same (page / 128) o

theorem State.poisonedPages_poisonShelf_of_object (found : s.shelfObj (page / 128) = some (k, o)) :
    (s.poisonShelf page).reg64 Reg.BUR_POISONED_PAGES = (s.reg64 Reg.BUR_POISONED_PAGES + 1) % 2 ^ 64 := by
  rw [State.poisonShelf_of_object found, State.reg64_fnEvent_other _ _ _ _ _ _ _ _ (by decide), State.reg64_bump, State.reg64_shelfPoisoned]

/-! ### Patrol and relocation (R279) -/

variable {bits : Nat} {ladder : Bool}

/-- A patrol read calls for relocation: it needed a ladder step, or more corrected bits than BUR_REFRESH_BITS. -/
def State.refreshDue (s : State) (bits : Nat) (ladder : Bool) : Bool := ladder || decide (s.field Reg.BUR_REFRESH_BITS 7 0 < bits)

/-- The state in which a patrol read of block `blk` has been counted, and has queued the block where it calls for relocation. -/
def State.patrolled (s : State) (blk bits : Nat) (ladder : Bool) : State :=
  if s.refreshDue bits ladder then (s.flashRead blk bits).setBlock blk { (s.flashRead blk bits).block blk with reloc := true }
  else s.flashRead blk bits

theorem State.reads_patrolled (s : State) (blk bits : Nat) (ladder : Bool) :
    ((s.patrolled blk bits ladder).block blk).reads = (s.block blk).reads + 1 := by
  unfold State.patrolled
  split
  · rw [State.block_setBlock_same, State.reads_flashRead]
  · exact s.reads_flashRead blk bits

theorem State.reloc_patrolled_of_due (due : s.refreshDue bits ladder = true) (blk : Nat) :
    ((s.patrolled blk bits ladder).block blk).reloc = true := by
  rw [State.patrolled, if_pos due, State.block_setBlock_same]

theorem State.patrolled_eq (s : State) (blk bits : Nat) (ladder : Bool) : s.patrolled blk bits ladder =
    { s with tiers := (s.patrolled blk bits ladder).tiers, regs := (s.patrolled blk bits ladder).regs } := by
  unfold State.patrolled
  split <;> rfl

theorem State.refreshDue_flashRead (onChannel : chanOf blk < 32) : (s.flashRead blk bits).refreshDue bits ladder = s.refreshDue bits ladder := by
  rw [State.refreshDue, State.field, State.reg_flashRead_other, State.refreshDue, State.field]
  simp only [Reg.NAND_READS, Reg.NAND_CORR_BITS, Reg.BUR_REFRESH_BITS]
  omega

theorem exec_flashPatrolRead_of_running (running : s.boot.phase = .running) (on : s.burOn = true) (patrols : s.flag Reg.BUR_CTRL 1 = true)
    (onChannel : chanOf blk < 32) : exec (.flashPatrolRead blk bits ladder) s = .next (s.patrolled blk bits ladder) := by
  have reads : (s.boot.phase != .running || !s.burOn || !s.flag Reg.BUR_CTRL 1 || decide (32 ≤ chanOf blk)) = false := by
    simp [running, on, patrols, onChannel]
  simp only [exec, execFlashPatrolRead, reads, Bool.false_eq_true, if_false]
  rw [State.patrolled, ← State.refreshDue_flashRead onChannel]
  rfl

theorem exec_blockRelocateDone_of_queued (running : s.boot.phase = .running) (on : s.burOn = true) (relocates : s.flag Reg.BUR_CTRL 2 = true)
    (queued : (s.block blk).reloc = true) : exec (.blockRelocateDone blk) s =
      .next ((s.setBlock blk { s.block blk with reads := 0, erases := (s.block blk).erases + 1, reloc := false }).bump Reg.BUR_RELOC_BLOCKS 1) := by
  have moves : (s.boot.phase != .running || !s.burOn || !s.flag Reg.BUR_CTRL 2 || !((s.block blk).reloc || s.wearDue (chanOf blk))) = false := by
    simp [running, on, relocates, queued]
  exact congrArg Host.Outcome.next (if_neg (Bool.eq_false_iff.mp moves))

/-! ### Failures (R279, R284) -/

variable {n die : Nat}

theorem exec_nandDieFailure_of_working (channel : n < 32) (isDie : die ≤ 64) (working : s.tiers.failed.look (dieKey n die) = none) :
    exec (.nandDieFailure n die) s = .next { s with tiers := { s.tiers with failed := s.tiers.failed.put (dieKey n die) false } } := by
  have fails : (decide (32 ≤ n) || decide (64 < die) || (s.tiers.failed.look (dieKey n die)).isSome) = false := by
    simp [channel, isDie, working]
  simp only [exec, execNandDieFailure, fails, Bool.false_eq_true, if_false]

theorem exec_nandRebuildDone_of_failed (running : s.boot.phase = .running) (failed : s.tiers.failed.look (dieKey n die) = some false) :
    exec (.nandRebuildDone n die) s = .next { s with tiers := { s.tiers with failed := s.tiers.failed.put (dieKey n die) true } } := by
  simp only [exec, execNandRebuildDone, running, failed, beq_self_eq_true, if_true]

/-- The counts of a block grown bad, on its channel and in all. -/
def State.badCounted (s : State) (blk : Nat) : State :=
  (s.setField (Reg.NAND_BAD_BLOCKS (chanOf blk)) 31 16 (s.field (Reg.NAND_BAD_BLOCKS (chanOf blk)) 31 16 + 1)).bump Reg.BUR_GROWN_BAD 1

theorem State.growBad_of_good (good : (s.block blk).bad = false) :
    s.growBad blk = (s.setBlock blk { s.block blk with bad := true }).badCounted blk :=
  if_neg (Bool.eq_false_iff.mp good)

theorem State.bad_growBad_of_good (good : (s.block blk).bad = false) : ((s.growBad blk).block blk).bad = true := by
  rw [State.growBad_of_good good]
  exact congrArg Block.bad (s.block_setBlock_same blk _)

/-- The published capacity is none of the counts. -/
theorem State.flashGib_growBad_of_good (good : (s.block blk).bad = false) :
    (s.growBad blk).reg Reg.SBD_SIZE_FLASH_GIB = s.reg Reg.SBD_SIZE_FLASH_GIB := by
  have channel : Reg.NAND_BAD_BLOCKS (chanOf blk) ≠ Reg.SBD_SIZE_FLASH_GIB := by
    simp only [Reg.NAND_BAD_BLOCKS, Reg.SBD_SIZE_FLASH_GIB]
    omega
  rw [State.growBad_of_good good, State.badCounted, State.reg_bump_other _ _ _ _ (by decide) (by decide), State.setField,
    State.reg_setReg_other _ _ _ _ channel]
  rfl

variable {gib : Nat}

theorem exec_programOrEraseFailure_of_good (running : s.boot.phase = .running) (onChannel : chanOf blk < 32) (good : (s.block blk).bad = false) :
    exec (.programOrEraseFailure blk gib) s = .next (if gib < s.reg Reg.SBD_SIZE_FLASH_GIB
      then ((s.growBad blk).publish [(Reg.SBD_SIZE_FLASH_GIB, gib)]).pfEvent 0x0115 gib 0 0 0 else s.growBad blk) := by
  have marks : (s.boot.phase != .running || decide (32 ≤ chanOf blk)) = false := by simp [running, onChannel]
  simp only [exec, execProgramOrEraseFailure, marks, State.flashGib_growBad_of_good good, Bool.false_eq_true, if_false]

end

/-! ### The obligation -/

/-- Settles O36. -/
theorem flashLadderAndMaintenance : Obligations.FlashLadderAndMaintenance := by
  unfold Obligations.FlashLadderAndMaintenance
  refine ⟨fun s page blk read fresh => ⟨_, exec_hardDecodeFail_of_read read fresh blk, (s.ladder_ladderEntered page blk page).trans (if_pos rfl),
      fun k other => (s.ladder_ladderEntered page blk k).trans (if_neg other.symm), s.retry_ladderEntered page blk, s.ladderEntered_eq page blk⟩,
    fun _ _ levels => ⟨exec_ladderDone_of_levels levels true, exec_ladderDone_of_levels levels false⟩,
    fun _ _ soft => ⟨exec_softDecodeDone_of_soft soft true, exec_softDecodeDone_of_soft soft false⟩,
    fun _ _ blk rebuild => ⟨exec_stripeRebuildDone_of_rebuilt rebuild blk, exec_stripeRebuildDone_of_lost rebuild blk⟩,
    fun s page k o found => ⟨congrArg Shelf.st (State.shelf_poisonShelf_of_object found),
      congrArg Shelf.lost (State.shelf_poisonShelf_of_object found), State.poisonedPages_poisonShelf_of_object found⟩,
    fun s blk bits ladder running on patrols onChannel => ⟨_, exec_flashPatrolRead_of_running running on patrols onChannel,
      s.reads_patrolled blk bits ladder, fun due => State.reloc_patrolled_of_due (by simpa [State.refreshDue] using due) blk,
      s.patrolled_eq blk bits ladder⟩,
    fun _ _ => exec_blockRelocateDone_of_queued, fun _ _ _ => exec_nandDieFailure_of_working,
    fun _ _ _ => exec_nandRebuildDone_of_failed,
    fun s blk gib running onChannel good => ⟨State.bad_growBad_of_good good, fun enough => ?_, fun lower => ?_⟩⟩
  · rw [exec_programOrEraseFailure_of_good running onChannel good, if_neg (Nat.not_lt.mpr enough)]
  · rw [exec_programOrEraseFailure_of_good running onChannel good, if_pos lower]

end Sys2Proof.Machine
end

section
/-! SUPPORT. Proofs about Bronze jobs (R305 to R309): which queue a unit takes from, the end and the fault of a job, and the three steps of a job
that has started, with the obligation that these rules settle. -/

namespace Sys2Proof.Machine

/-! ### The job of a queue -/

@[simp] theorem BrzUnit.run_setRun_same (b : BrzUnit) (q : Nat) (r : Option BrzRun) : (b.setRun q r).run q = r := by
  unfold BrzUnit.run BrzUnit.setRun
  split <;> rfl

theorem State.run_setBronze_setRun (s : State) (u q : Nat) (b : BrzUnit) (r : Option BrzRun) :
    ((s.setBronze u (b.setRun q r)).bronze u).run q = r := by
  rw [State.bronze_setBronze_same, BrzUnit.run_setRun_same]

section
variable {s : State} {u q : Nat} {r : BrzRun} {j : BrzJob} {rest : List BrzJob}

/-! ### Starts (R307) -/

theorem exec_bronzeJobStart_of_radio (present : s.bronzePresent u = true) (unheld : s.flag (Reg.BRZ_CTRL (u / 4) (u % 4)) 2 = false)
    (waits : (s.bronze u).rq = j :: rest) (idle : (s.bronze u).rrun = none) (enabled : s.flag (Reg.BRZ_CTRL (u / 4) (u % 4)) 0 = true) :
    exec (.bronzeJobStart u) s = .next ((s.setBronze u { s.bronze u with rq := rest }).brzBegin u 0 j) := by
  simp [exec, execBronzeJobStart, present, unheld, waits, idle, enabled]

theorem exec_bronzeJobStart_of_tenant (present : s.bronzePresent u = true) (unheld : s.flag (Reg.BRZ_CTRL (u / 4) (u % 4)) 2 = false)
    (noRadio : (s.bronze u).rq = []) (radioIdle : (s.bronze u).rrun = none) (waits : (s.bronze u).tq = j :: rest)
    (idle : (s.bronze u).trun = none) (enabled : s.flag (Reg.BRZ_CTRL (u / 4) (u % 4)) 1 = true) :
    exec (.bronzeJobStart u) s = .next ((s.setBronze u { s.bronze u with tq := rest }).brzBegin u 1 j) := by
  simp [exec, execBronzeJobStart, present, unheld, noRadio, radioIdle, waits, idle, enabled]

/-- A radio job that runs keeps both queues waiting. -/
theorem exec_bronzeJobStart_of_running (running : (s.bronze u).rrun.isSome = true) : exec (.bronzeJobStart u) s = .next s := by
  have busy : (s.bronze u).rrun.isNone = false := by simpa using running
  simp only [exec, execBronzeJobStart, busy, Bool.false_and]
  split
  · rfl
  · split <;> rfl

/-! ### Ends and faults (R306, R307) -/

/-- An end of work that no thread pushed is reported to Cabinet. -/
theorem State.finish_of_cabinet {t : TaskId} (cabinet : t.thread = false) (status cause place : Nat) :
    s.finish t status cause place = s.pushDone ⟨t, status, cause, place⟩ := by
  simp [State.finish, cabinet]

theorem State.brzEnd_of_run (run : (s.bronze u).run q = some r) (cabinet : r.job.task.thread = false) (status cause : Nat) :
    s.brzEnd u q status cause = (s.setBronze u ((s.bronze u).setRun q none)).pushDone ⟨r.job.task, status, cause, u⟩ := by
  simp only [State.brzEnd, run, State.finish_of_cabinet cabinet]

/-- The state with the fault of a job recorded in the two registers of its unit. -/
def State.brzFaultRecorded (s : State) (u q cause job : Nat) : State :=
  (s.setReg (Reg.BRZ_FAULT (u / 4) (u % 4)) (1 + 2 * cause + 16 * q)).setReg64 (Reg.BRZ_FAULT_JOB (u / 4) (u % 4)) job

theorem State.reg_brzFaultRecorded (s : State) (u q cause job : Nat) :
    (s.brzFaultRecorded u q cause job).reg (Reg.BRZ_FAULT (u / 4) (u % 4)) = (1 + 2 * cause + 16 * q) % 2 ^ 32 := by
  rw [State.brzFaultRecorded, State.reg_setReg64_other, State.reg_setReg_same] <;> simp only [Reg.BRZ_FAULT, Reg.BRZ_FAULT_JOB] <;> omega

theorem State.reg64_brzFaultRecorded (s : State) (u q cause job : Nat) :
    (s.brzFaultRecorded u q cause job).reg64 (Reg.BRZ_FAULT_JOB (u / 4) (u % 4)) = job % 2 ^ 64 :=
  State.reg64_setReg64 ..

theorem State.brzFault_of_run (run : (s.bronze u).run q = some r) (cabinet : r.job.task.thread = false) (cause : Nat) :
    s.brzFault u q cause = ((s.brzFaultRecorded u q cause r.job.job).setBronze u ((s.bronze u).setRun q none)).pushDone
      ⟨r.job.task, 1, cause, u⟩ := by
  have kept : ((s.brzFaultRecorded u q cause r.job.job).bronze u).run q = some r := run
  simp only [State.brzFault, run]
  exact State.brzEnd_of_run kept cabinet ..

/-! ### The descriptor (R305) -/

/-- A read of a context of the secure world meets no region filter (R449). -/
theorem State.worldRead_of_secure {x : Nat} (secure : s.secureCtx x = true) (who a n : Nat) : s.worldRead who x a n = (s, s.tierRead a n) := by
  simp [State.worldRead, secure]

/-- The state in which a queue of a unit has taken a job and has not read its descriptor. -/
def State.brzTaken (s : State) (u q : Nat) (j : BrzJob) : State :=
  s.setBronze u { (s.bronze u).setRun q (some { job := j }) with serving := q }

theorem State.run_brzTaken (s : State) (u q : Nat) (j : BrzJob) : ((s.brzTaken u q j).bronze u).run q = some { job := j } := by
  rw [State.brzTaken, State.bronze_setBronze_same]
  exact BrzUnit.run_setRun_same ..

/-- Taking a job moves nothing that the tests of its descriptor read. -/
theorem State.brzBegin_of_bad (tier : spaceOf j.job = 0) (pinned : s.pinnedRange (s.ctx j.task.ctx).fn (offOf j.job) 64 = true)
    (clean : s.poisonIn (offOf j.job) 64 = none) (secure : s.secureCtx j.task.ctx = true)
    (bad : (decodeBrz (wordsOf 16 (s.tierRead (offOf j.job) 64))).bad (wordsOf 16 (s.tierRead (offOf j.job) 64)) j.task.cls = true) :
    s.brzBegin u q j = (s.brzTaken u q j).brzFault u q 4 := by
  have pinned' : (s.brzTaken u q j).pinnedRange ((s.brzTaken u q j).ctx j.task.ctx).fn (offOf j.job) 64 = true := pinned
  have clean' : (s.brzTaken u q j).poisonIn (offOf j.job) 64 = none := clean
  have secure' : (s.brzTaken u q j).secureCtx j.task.ctx = true := secure
  have bad' : (decodeBrz (wordsOf 16 ((s.brzTaken u q j).tierRead (offOf j.job) 64))).bad
      (wordsOf 16 ((s.brzTaken u q j).tierRead (offOf j.job) 64)) j.task.cls = true := bad
  unfold State.brzBegin
  simp only [← State.brzTaken.eq_def, tier, pinned', clean', State.worldRead_of_secure secure', bad', BEq.rfl, Bool.and_self, Bool.not_true,
    Bool.false_eq_true, if_false, if_true]

/-! ### Input, computation and end of a job (R306 to R309) -/

theorem exec_bronzeInputFetched_of_fetching (run : (s.bronze u).run q = some r) (fetching : r.stage = .fetching)
    (alone : (s.bronze u).run (1 - q) = none)
    (ready : (decodeBrz r.words).inBytes = 0 ∨ s.dataReady (offOf (decodeBrz r.words).inp) (decodeBrz r.words).inBytes = true)
    (clean : s.poisonIn (offOf (decodeBrz r.words).inp) (decodeBrz r.words).inBytes = none) (secure : s.secureCtx r.job.task.ctx = true) :
    exec (.bronzeInputFetched u q) s = .next (s.setBronze u ((s.bronze u).setRun q (some { r with
      stage := .computing
      input := s.tierRead (offOf (decodeBrz r.words).inp) (decodeBrz r.words).inBytes }))) := by
  have staged : ((decodeBrz r.words).inBytes != 0 && !s.dataReady (offOf (decodeBrz r.words).inp) (decodeBrz r.words).inBytes) = false := by
    rcases ready with empty | there
    · simp [empty]
    · simp [there]
  simp [exec, execBronzeInputFetched, run, fetching, alone, staged, clean, State.worldRead_of_secure secure]

theorem exec_bronzeComputeDone_of_encode (run : (s.bronze u).run q = some r) (computing : r.stage = .computing)
    (encode : (decodeBrz r.words).dec = false) : exec (.bronzeComputeDone u q) s =
      .next ((s.setBronze u ((s.bronze u).setRun q (some { r with stage := .writing }))).brzEncoded u r.job.task r.words r.input) := by
  simp [exec, execBronzeComputeDone, run, computing, encode]

theorem exec_bronzeJobDone_of_writing (run : (s.bronze u).run q = some r) (writing : r.stage = .writing) :
    exec (.bronzeJobDone u q) s = .next (s.brzEnd u q 0 0) := by
  simp [exec, execBronzeJobDone, run, writing]

end

/-! ### What an encode leaves alone -/

theorem State.foldl_bump_eq (a : Nat → Nat) (ks : List Nat) (s : State) : ks.foldl (fun s k => s.bump (a k) 1) s =
    { s with regs := (ks.foldl (fun s k => s.bump (a k) 1) s).regs } := by
  induction ks generalizing s with
  | nil => rfl
  | cons k ks ih =>
    rw [List.foldl_cons, ih]
    rfl

theorem State.violation_eq (s : State) (who fn ctx : Nat) (write : Bool) (addr : Nat) (fs : List Nat) :
    s.violation who fn ctx write addr fs = { s with regs := (s.violation who fn ctx write addr fs).regs } := by
  rw [State.violation, State.foldl_bump_eq]
  rfl

/-- `t` is `s` but for what writes to the tier range move, with their counters: bytes, clean lines and reservations. -/
def TierWritesOnly (s t : State) : Prop := t = { s with regs := t.regs, tier := t.tier, tiers := t.tiers, tin := t.tin }

theorem TierWritesOnly.trans {s t v : State} (first : TierWritesOnly s t) (second : TierWritesOnly t v) : TierWritesOnly s v :=
  Eq.trans second (by rw [first])

/-- A write is done or, where the world map forbids it, counted (R449). -/
theorem tierWritesOnly_worldWrite (s : State) (who x a : Nat) (bs : List Byte) : TierWritesOnly s (s.worldWrite who x a bs) := by
  unfold State.worldWrite
  dsimp only
  generalize (if s.secureCtx x then [] else s.filtersOn a bs.length true) = fs
  split
  · rfl
  · split
    · rfl
    · rw [State.violation_eq]
      rfl

theorem tierWritesOnly_brzCount (s : State) (u blocks failed iters cyc : Nat) : TierWritesOnly s (s.brzCount u blocks failed iters cyc) := rfl

theorem tierWritesOnly_brzEncoded (s : State) (u : Nat) (t : TaskId) (ws : List Nat) (input : List Byte) :
    TierWritesOnly s (s.brzEncoded u t ws input) :=
  ((tierWritesOnly_worldWrite ..).trans (tierWritesOnly_worldWrite ..)).trans (tierWritesOnly_brzCount ..)

theorem TierWritesOnly.bronze {s t : State} (writes : TierWritesOnly s t) (u : Nat) : t.bronze u = s.bronze u := by
  rw [writes]
  rfl

theorem TierWritesOnly.spad {s t : State} (writes : TierWritesOnly s t) : t.spad = s.spad := by rw [writes]

/-! ### The obligation -/

/-- Settles O41, one rule per step of a job. -/
theorem bronzeJobsRun : Obligations.BronzeJobsRun := by
  unfold Obligations.BronzeJobsRun
  refine ⟨fun _ _ _ _ => exec_bronzeJobStart_of_radio, fun _ _ _ _ => exec_bronzeJobStart_of_tenant,
    fun _ _ _ => exec_bronzeJobStart_of_running, ?fault, fun _ _ _ _ _ => exec_bronzeInputFetched_of_fetching, ?encoded, ?done⟩
  case fault =>
    rintro s u q _ j _ low tier rfl pinned clean secure rfl cabinet - range bad
    refine ⟨_, (State.brzBegin_of_bad tier pinned clean secure bad).trans (State.brzFault_of_run (s.run_brzTaken u q j) cabinet 4),
      State.run_setBronze_setRun .., rfl, ?_, ?_, rfl⟩
    · refine ((s.brzTaken u q j).reg_brzFaultRecorded u q 4 j.job).trans ?_
      omega
    · exact ((s.brzTaken u q j).reg64_brzFaultRecorded u q 4 j.job).trans (Nat.mod_eq_of_lt range)
  case encoded =>
    intro s u q r _ run computing encode
    have writes := tierWritesOnly_brzEncoded (s.setBronze u ((s.bronze u).setRun q (some { r with stage := .writing }))) u r.job.task r.words r.input
    refine ⟨_, exec_bronzeComputeDone_of_encode run computing encode, rfl, ?_, writes.spad⟩
    rw [writes.bronze, State.run_setBronze_setRun]
  case done =>
    intro s u q r _ run writing cabinet
    exact ⟨_, (exec_bronzeJobDone_of_writing run writing).trans (congrArg _ (State.brzEnd_of_run run cabinet 0 0)),
      State.run_setBronze_setRun .., rfl, rfl⟩

end Sys2Proof.Machine
end

section
/-! SUPPORT. Proofs about FAPI (R311 to R313): what L1 firmware does with a message whose entries are well formed, by the state of its cell
(log 61, PRESUMED), and the obligation that these rules settle. -/

namespace Sys2Proof.Machine

@[simp] theorem State.cell_setCell_same (s : State) (phy : Nat) (c : FapiCell) : (s.setCell phy c).cell phy = c := Tab.get_put_same ..

section
variable {s : State} {es : List (List Byte)} {phy : Nat} {body : List Byte}

/-! ### Requests for a slot (R313) -/

theorem State.ttiRequest_of_inTime {sfn slot : Nat} (running : (s.cell phy).st = .running)
    (inTime : s.fapiInTime (s.cell phy) sfn slot = true) (kind : FapiReq) (body : List Byte) :
    s.ttiRequest phy kind sfn slot body = { s with fapiWork := s.fapiWork ++ [⟨phy, kind, sfn, slot, body⟩] } := by
  simp [State.ttiRequest, running, inTime]

theorem State.ttiRequest_of_late {sfn slot : Nat} (running : (s.cell phy).st = .running)
    (late : s.fapiInTime (s.cell phy) sfn slot = false) (kind : FapiReq) (body : List Byte) : s.ttiRequest phy kind sfn slot body =
      (s.setCell phy { s.cell phy with only := (s.cell phy).only ++ [(sfn, slot)] }).fapiSend phy .invalidSfn := by
  simp [State.ttiRequest, running, late]

/-! ### Messages with well-formed entries (R312) -/

variable (message : fapiMessage es = some (phy, body)) (runs : s.l1Runs = true)
include message runs

theorem State.fapiTake_of_message (f : State → Nat → List Byte → State) : s.fapiTake es f = f s phy body := by
  simp only [State.fapiTake, message, runs, if_true]

theorem exec_paramRequest_of_message : exec (.paramRequest es) s = .next (s.fapiSend phy .paramResponse) := by
  rw [exec, execParamRequest, State.fapiTake_of_message message runs]

theorem exec_fapiOtherMessage_of_message : exec (.fapiOtherMessage es) s = .next (s.fapiSend phy .invalidState) := by
  rw [exec, execFapiOtherMessage, State.fapiTake_of_message message runs]

theorem exec_configRequest_of_stopped {timer : Nat} (stopped : (s.cell phy).st ≠ .running) (range : timer < 64) (lead : Nat) :
    exec (.configRequest es timer lead) s =
      .next ((s.setCell phy { s.cell phy with st := .configured, timer := timer, lead := lead }).fapiSend phy .configResponse) := by
  rw [exec, execConfigRequest, State.fapiTake_of_message message runs]
  simp [stopped, Nat.mod_eq_of_lt range]

theorem exec_configRequest_of_running (running : (s.cell phy).st = .running) (timer lead : Nat) :
    exec (.configRequest es timer lead) s = .next (s.fapiSend phy .invalidState) := by
  rw [exec, execConfigRequest, State.fapiTake_of_message message runs]
  simp [running]

theorem exec_startRequest_of_configured (configured : (s.cell phy).st = .configured) :
    exec (.startRequest es) s = .next (s.setCell phy { s.cell phy with st := .running, only := [] }) := by
  rw [exec, execStartRequest, State.fapiTake_of_message message runs]
  simp [configured]

theorem exec_stopRequest_of_running (running : (s.cell phy).st = .running) : exec (.stopRequest es) s =
    .next (({ s.setCell phy { s.cell phy with st := .configured, only := [] } with fapiWork := s.fapiWork.filter (·.phy != phy) } : State).fapiSend
      phy .stopIndication) := by
  rw [exec, execStopRequest, State.fapiTake_of_message message runs]
  simp [running, State.setCell]

theorem exec_dlTtiRequest_of_message (sfn slot : Nat) : exec (.dlTtiRequest es sfn slot) s = .next (s.ttiRequest phy .dlTti sfn slot body) := by
  rw [exec, execDlTtiRequest, State.fapiTake_of_message message runs]

theorem exec_ulTtiRequest_of_message (sfn slot : Nat) : exec (.ulTtiRequest es sfn slot) s = .next (s.ttiRequest phy .ulTti sfn slot body) := by
  rw [exec, execUlTtiRequest, State.fapiTake_of_message message runs]

theorem exec_ulDciRequest_of_running (running : (s.cell phy).st = .running) (sfn slot : Nat) :
    exec (.ulDciRequest es sfn slot) s = .next { s with fapiWork := s.fapiWork ++ [⟨phy, .ulDci, sfn, slot, body⟩] } := by
  rw [exec, execUlDciRequest, State.fapiTake_of_message message runs]
  simp [running]

theorem exec_txDataRequest_of_pointers {ptrs : List (Nat × Nat)} (running : (s.cell phy).st = .running)
    (good : ∀ p ∈ ptrs, s.hostOrPinned 0 p.1 p.2 = true) (sfn slot : Nat) :
    exec (.txDataRequest es sfn slot ptrs) s = .next { s with fapiWork := s.fapiWork ++ [⟨phy, .txData, sfn, slot, body⟩] } := by
  have all : ptrs.all (fun p => s.hostOrPinned 0 p.1 p.2) = true := List.all_eq_true.mpr good
  rw [exec, execTxDataRequest, State.fapiTake_of_message message runs]
  simp only [running, all, BEq.rfl, Bool.and_self, if_true]

end

/-! ### The obligation -/

/-- Settles O42, one rule per message and state of its cell. -/
theorem fapiMessagesAreHandled : Obligations.FapiMessagesAreHandled := by
  unfold Obligations.FapiMessagesAreHandled
  intro s es phy body message runs
  have dl := exec_dlTtiRequest_of_message message runs
  have ul := exec_ulTtiRequest_of_message message runs
  refine ⟨exec_paramRequest_of_message message runs, exec_fapiOtherMessage_of_message message runs,
    fun _ lead stopped range => exec_configRequest_of_stopped message runs stopped range lead,
    fun timer lead running => exec_configRequest_of_running message runs running timer lead,
    exec_startRequest_of_configured message runs,
    fun running => ⟨_, exec_stopRequest_of_running message runs running, congrArg FapiCell.st (s.cell_setCell_same ..), rfl, rfl, rfl⟩,
    fun sfn slot running inTime => ⟨?_, ?_⟩, fun sfn slot running late => ⟨?_, ?_⟩,
    fun sfn slot running => exec_ulDciRequest_of_running message runs running sfn slot,
    fun sfn slot _ running good => exec_txDataRequest_of_pointers message runs running good sfn slot⟩
  · rw [dl, State.ttiRequest_of_inTime running inTime]
  · rw [ul, State.ttiRequest_of_inTime running inTime]
  · rw [dl, State.ttiRequest_of_late running late]
  · rw [ul, State.ttiRequest_of_late running late]

end Sys2Proof.Machine
end

section
/-! SUPPORT. Fields of a number and of a register after a write: each bit of what stands there (R5). -/

namespace Sys2Proof

theorem testBit_bits (x hi lo i : Nat) : (bits x hi lo).testBit i = (decide (i < hi + 1 - lo) && x.testBit (lo + i)) := by
  simp [bits, Nat.testBit_mod_two_pow, Nat.testBit_shiftRight]

theorem testBit_setBits {hi lo : Nat} (range : lo ≤ hi) (x v i : Nat) :
    (setBits x hi lo v).testBit i = if lo ≤ i ∧ i ≤ hi then v.testBit (i - lo) else x.testBit i := by
  have low : x % 2 ^ lo < 2 ^ lo := Nat.mod_lt _ (Nat.two_pow_pos _)
  have mid : 2 ^ lo * (v % 2 ^ (hi + 1 - lo)) + x % 2 ^ lo < 2 ^ (hi + 1) := by
    have field : v % 2 ^ (hi + 1 - lo) + 1 ≤ 2 ^ (hi + 1 - lo) := Nat.mod_lt _ (Nat.two_pow_pos _)
    have split : 2 ^ (hi + 1) = 2 ^ lo * 2 ^ (hi + 1 - lo) := by rw [← Nat.pow_add]; congr 1; omega
    calc _ < 2 ^ lo * (v % 2 ^ (hi + 1 - lo) + 1) := by rw [Nat.mul_add, Nat.mul_one]; omega
      _ ≤ 2 ^ (hi + 1) := split ▸ Nat.mul_le_mul_left _ field
  have shape : setBits x hi lo v = 2 ^ (hi + 1) * (x / 2 ^ (hi + 1)) + (2 ^ lo * (v % 2 ^ (hi + 1 - lo)) + x % 2 ^ lo) := by
    rw [setBits, Nat.mul_comm, Nat.mul_comm (v % _), Nat.add_assoc]
  rw [shape, Nat.testBit_two_pow_mul_add _ mid]
  by_cases above : i < hi + 1
  · rw [if_pos above, Nat.testBit_two_pow_mul_add _ low]
    by_cases below : i < lo
    · rw [if_pos below, if_neg (by omega), Nat.testBit_mod_two_pow]
      simp [below]
    · rw [if_neg below, if_pos (by omega), Nat.testBit_mod_two_pow]
      simp [show i - lo < hi + 1 - lo by omega]
  · rw [if_neg above, if_neg (by omega), Nat.testBit_div_two_pow]
    congr 1
    omega

end Sys2Proof

namespace Sys2Proof.Machine

variable (s : State)

theorem State.flag_setReg_same (a v i : Nat) : (s.setReg a v).flag a i = (decide (i < 32) && v.testBit i) := by
  rw [State.flag, State.reg_setReg_same, Nat.testBit_mod_two_pow]

theorem State.flag_setField (a : Nat) {hi lo : Nat} (range : lo ≤ hi) (v i : Nat) : (s.setField a hi lo v).flag a i =
    if lo ≤ i ∧ i ≤ hi then decide (i < 32) && v.testBit (i - lo) else s.flag a i := by
  rw [State.setField, State.flag_setReg_same, testBit_setBits range]
  split
  · rfl
  · by_cases word : i < 32
    · simp [word, State.flag]
    · have none : (s.reg a).testBit i = false :=
        Nat.testBit_lt_two_pow (Nat.lt_of_lt_of_le (s.reg_lt a) (Nat.pow_le_pow_right (by decide) (by omega)))
      simp [word, State.flag, none]

theorem State.field_eq_of_flags {t : State} {a hi lo b : Nat} (same : ∀ i, lo ≤ i → i ≤ hi → t.flag b i = s.flag a i) :
    t.field b hi lo = s.field a hi lo := by
  refine Nat.eq_of_testBit_eq fun i => ?_
  rw [State.field, State.field, testBit_bits, testBit_bits]
  by_cases inside : i < hi + 1 - lo
  · have bit : (t.reg b).testBit (lo + i) = (s.reg a).testBit (lo + i) := same (lo + i) (by omega) (by omega)
    rw [bit]
  · simp [inside]

theorem State.field_setField_apart (a v : Nat) {hi lo h l : Nat} (range : lo ≤ hi) (apart : h < lo ∨ hi < l) :
    (s.setField a hi lo v).field a h l = s.field a h l :=
  s.field_eq_of_flags fun i low high => by rw [State.flag_setField s a range, if_neg (by omega)]

theorem State.field_setField_same (a v : Nat) {hi lo : Nat} (range : lo ≤ hi) (word : hi < 32) :
    (s.setField a hi lo v).field a hi lo = v % 2 ^ (hi + 1 - lo) := by
  refine Nat.eq_of_testBit_eq fun i => ?_
  rw [State.field, testBit_bits, Nat.testBit_mod_two_pow, ← State.flag, State.flag_setField s a range]
  by_cases inside : i < hi + 1 - lo
  · rw [if_pos (by omega)]
    simp [inside, show lo + i < 32 by omega]
  · simp [inside]

theorem State.reg_setField_other (a hi lo v : Nat) {b : Nat} (other : a ≠ b) : (s.setField a hi lo v).reg b = s.reg b :=
  s.reg_setReg_other a _ b other

theorem State.flag_setField_other (a hi lo v i : Nat) {b : Nat} (other : a ≠ b) : (s.setField a hi lo v).flag b i = s.flag b i := by
  rw [State.flag, State.reg_setField_other s a hi lo v other, State.flag]

theorem State.reg64_setReg_other (s : State) (a v : Nat) {b : Nat} (low : a ≠ b) (high : a ≠ b + 4) : (s.setReg a v).reg64 b = s.reg64 b := by
  rw [State.reg64, State.reg_setReg_other _ _ _ _ low, State.reg_setReg_other _ _ _ _ high, State.reg64]

theorem State.reg64_setReg64_other (s : State) (a v : Nat) {b : Nat} (apart : a + 4 < b ∨ b + 4 < a) : (s.setReg64 a v).reg64 b = s.reg64 b := by
  rw [State.setReg64, State.reg64_setReg_other _ _ _ (by omega) (by omega), State.reg64_setReg_other _ _ _ (by omega) (by omega)]

end Sys2Proof.Machine
end

section
/-! SUPPORT. What the commands of boxes leave alone beside their own effect (R414 to R421). -/

namespace Sys2Proof.Machine

/-- `t` is `s` but for what commands of boxes move beside their own effect: the host's side with its memory, the tier range that a reply
may lie in, and counters. -/
def BoxesOnly (s t : State) : Prop :=
  t = { s with regs := t.regs, host := t.host, hostOut := t.hostOut, tier := t.tier, tiers := t.tiers, tin := t.tin }

section
variable {s t u : State}

theorem BoxesOnly.refl (s : State) : BoxesOnly s s := rfl

theorem BoxesOnly.trans (first : BoxesOnly s t) (second : BoxesOnly t u) : BoxesOnly s u := Eq.trans second (by rw [first])

theorem BoxesOnly.after (second : BoxesOnly t u) (first : BoxesOnly s t) : BoxesOnly s u := first.trans second

theorem BoxesOnly.clk (only : BoxesOnly s t) : t.clk = s.clk := by rw [only]

theorem BoxesOnly.boot (only : BoxesOnly s t) : t.boot = s.boot := by rw [only]

theorem BoxesOnly.sld (only : BoxesOnly s t) : t.sld = s.sld := by rw [only]

theorem BoxesOnly.foldl {α : Type} {f : State → α → State} (each : ∀ s a, BoxesOnly s (f s a)) (s : State) (as : List α) :
    BoxesOnly s (as.foldl f s) := rel_foldl BoxesOnly.refl BoxesOnly.trans each s as

end

theorem boxesOnly_host (s : State) (host : HostIf) : BoxesOnly s { s with host := host } := rfl

theorem boxesOnly_sendRec (s : State) (q fn gen : Nat) (u : RecFor) (bs : List Byte) : BoxesOnly s (s.sendRec q fn gen u bs) := rfl

theorem boxesOnly_fire (s : State) (fn v : Nat) : BoxesOnly s (s.fire fn v) := by
  rw [State.fire_eq]
  rfl

theorem boxesOnly_raiseBox (s : State) (i : Issuer) : BoxesOnly s (s.raiseBox i) := by
  unfold State.raiseBox
  split
  · rename_i fn m
    dsimp only
    generalize (if fn = 0 then s.reg (Reg.SBD_MBX_IRQ m) else (s.box (.mbox fn m)).irq.toNat) = irq
    split
    · exact boxesOnly_fire ..
    · rfl
  · rfl

theorem boxesOnly_freeBox (s : State) (i : Issuer) : BoxesOnly s (s.freeBox i) := by
  unfold State.freeBox
  split <;> rfl

theorem boxesOnly_devWrite (s : State) (fn a : Nat) (bs : List Byte) : BoxesOnly s (s.devWrite fn a bs) := by
  rw [State.devWrite_eq]
  rfl

theorem boxesOnly_answer (s : State) (i : Issuer) (status detail : Nat) (body : List Nat) :
    BoxesOnly s (s.answer i status detail body) := by
  unfold State.answer
  dsimp only
  split
  · exact (boxesOnly_freeBox ..).after rfl
  · split
    · split
      · split
        · exact (boxesOnly_sendRec ..).after ((boxesOnly_host ..).after ((boxesOnly_devWrite ..).after rfl))
        · rfl
      · rfl
    · exact (boxesOnly_raiseBox ..).after rfl

theorem boxesOnly_refuse (s : State) (i : Issuer) (status : Nat) : BoxesOnly s (s.refuse i status) := boxesOnly_answer ..

theorem boxesOnly_takeCommand (s : State) (i : Issuer) (h : MbxHeader) (seq : Nat) : BoxesOnly s (s.takeCommand i h seq) := by
  unfold State.takeCommand
  dsimp only
  split
  · split
    · rfl
    · exact (boxesOnly_answer ..).after rfl
  · rfl

theorem boxesOnly_takeWaiting (s : State) : BoxesOnly s s.takeWaiting := by
  refine BoxesOnly.foldl (fun s e => ?_) s _
  dsimp only
  split
  · exact boxesOnly_takeCommand ..
  · rfl

end Sys2Proof.Machine
end

section
/-! SUPPORT. Proofs about the restart of firmware (R470 to R473) and the step: what a start of firmware leaves alone, and the obligation that
the clock's part of the tick settles. -/

namespace Sys2Proof.Machine

/-! ### What a start leaves alone (R440, R458) -/

/-- `t` is `s` but for what a start of firmware moves: what commands of boxes move, and the boot state. -/
def FirmwareOnly (s t : State) : Prop :=
  t = { s with regs := t.regs, host := t.host, hostOut := t.hostOut, tier := t.tier, tiers := t.tiers, tin := t.tin, boot := t.boot }

section
variable {s t u : State}

theorem FirmwareOnly.refl (s : State) : FirmwareOnly s s := rfl

theorem FirmwareOnly.trans (first : FirmwareOnly s t) (second : FirmwareOnly t u) : FirmwareOnly s u := Eq.trans second (by rw [first])

theorem FirmwareOnly.after (second : FirmwareOnly t u) (first : FirmwareOnly s t) : FirmwareOnly s u := first.trans second

theorem FirmwareOnly.clk (only : FirmwareOnly s t) : t.clk = s.clk := by rw [only]

theorem BoxesOnly.firmware (only : BoxesOnly s t) : FirmwareOnly s t := by
  rw [only]
  rfl

end

theorem firmwareOnly_measure (s : State) (index cause data : Nat) (digest : List Byte) :
    FirmwareOnly s (s.measure index cause data digest) := by
  unfold State.measure
  dsimp only
  split <;> rfl

theorem firmwareOnly_boot (s : State) (boot : Boot) : FirmwareOnly s { s with boot := boot } := rfl

theorem firmwareOnly_setField (s : State) (a hi lo v : Nat) : FirmwareOnly s (s.setField a hi lo v) := rfl

theorem firmwareOnly_measureBundle (s : State) (cause : Nat) (b : Bundle) : FirmwareOnly s (s.measureBundle cause b) := by
  unfold State.measureBundle
  iterate 5 refine (firmwareOnly_measure ..).after ?_
  exact firmwareOnly_measure ..

theorem firmwareOnly_adopt (s : State) (cause : Nat) (b : Bundle) : FirmwareOnly s (s.adopt cause b) := by
  unfold State.adopt
  exact (firmwareOnly_boot ..).after ((firmwareOnly_setField ..).after (firmwareOnly_measureBundle ..))

theorem State.setUnit_eq (s : State) (kind n st : Nat) (reason : Option Nat) :
    s.setUnit kind n st reason = { s with regs := (s.setUnit kind n st reason).regs } := by
  unfold State.setUnit
  split
  · dsimp only
    split <;> rfl
  · rfl

/-- `t` is `s` but for what tests that end move: events, and of the boot state the clusters that have passed one (R466). -/
def TestsOnly (s t : State) : Prop :=
  t = { s with regs := t.regs, host := t.host, boot := { s.boot with tested := t.boot.tested } }

theorem TestsOnly.refl (s : State) : TestsOnly s s := rfl

theorem TestsOnly.trans {s t u : State} (first : TestsOnly s t) (second : TestsOnly t u) : TestsOnly s u :=
  Eq.trans second (by rw [first])

theorem TestsOnly.firmware {s t : State} (only : TestsOnly s t) : FirmwareOnly s t := by
  rw [only]
  rfl

theorem TestsOnly.phase {s t : State} (only : TestsOnly s t) : t.boot.phase = s.boot.phase := by rw [only]

theorem testsOnly_endTest (s : State) (kind n result : Nat) : TestsOnly s (s.endTest kind n result) := by
  unfold State.endTest
  split
  · rfl
  · dsimp only
    rw [State.setUnit_eq, State.unitEvent, State.pfEvent, State.pfEvent, State.fnEvent, State.fnEvent, State.eventTo_eq, State.eventTo_eq]
    cases kind == svcCluster && result == 1 <;> split <;> rfl

theorem testsOnly_abandonTests (s : State) : TestsOnly s s.abandonTests := by
  refine rel_foldl TestsOnly.refl TestsOnly.trans (fun s u => ?_) s _
  split
  · exact testsOnly_endTest ..
  · rfl

theorem firmwareOnly_await (s : State) : FirmwareOnly s s.await := by
  have rom : FirmwareOnly s s.romTakes := by
    unfold State.romTakes
    dsimp only
    split
    · exact (boxesOnly_refuse ..).firmware.after rfl
    · exact (boxesOnly_takeWaiting _).firmware.after rfl
  unfold State.await
  split
  · split
    · rfl
    · exact rom
  · exact rom

theorem State.pfEvent_eq (s : State) (kind e4 e5 e6 e7 : Nat) : s.pfEvent kind e4 e5 e6 e7 =
    { s with regs := (s.pfEvent kind e4 e5 e6 e7).regs, host := (s.pfEvent kind e4 e5 e6 e7).host } := State.eventTo_eq ..

theorem boxesOnly_pfEvent (s : State) (kind e4 e5 e6 e7 : Nat) : BoxesOnly s (s.pfEvent kind e4 e5 e6 e7) := by
  rw [State.pfEvent_eq]
  rfl

/-! ### The steps of a restart (R470, R473) -/

/-- The image that restarts: that of the bundle named, or else the one in force (R470, R473). -/
def State.restartMeasured (s : State) (r : Restart) : State :=
  match r.bundle with
  | some b => { s.adopt 2 b with boot := { (s.adopt 2 b).boot with held := none } }
  | none => s.measure 2 1 0 (match s.boot.bundle with
    | some b => shake256 (b.section_ 1) 64
    | none => s.measured 2)

/-- Firmware running again, before it answers (R470). -/
def State.restartRunning (s : State) : State :=
  { s with boot := { s.boot with
    phase := .running, restart := none, restarts := s.recent s.boot.restarts ++ [s.clk], spdm := { out := s.boot.spdm.out } } }

/-- The tables are rebuilt and FW_RESTARTED is posted. -/
def State.restartPosted (s : State) (r : Restart) : State :=
  (s.restartRunning.bump Reg.SBD_FW_RESTARTS 1).abandonTests.pfEvent 0x0121 r.cause
    (s.restartRunning.bump Reg.SBD_FW_RESTARTS 1).abandonTests.version (s.recent s.boot.restarts ++ [s.clk]).length 0

/-- The command that asked for a restart is answered with a status. -/
def State.restartAnswered (s : State) (r : Restart) (status : Nat) : State :=
  match r.issuer with
  | some i => s.answer i status 0 []
  | none => s

theorem State.finishRestart_of_image {s : State} {r : Restart} (restarting : s.boot.phase = .restarting) (asked : s.boot.restart = some r)
    (image : (r.bundle.isNone && s.boot.imageLost) = false) :
    s.finishRestart = ((((s.restartMeasured r).restartPosted r).restartAnswered r stOk)).takeWaiting := by
  unfold State.finishRestart
  simp only [restarting, asked, image, Bool.false_eq_true, if_false]
  rfl

theorem firmwareOnly_restartMeasured (s : State) (r : Restart) : FirmwareOnly s (s.restartMeasured r) := by
  unfold State.restartMeasured
  split
  · exact (firmwareOnly_boot ..).after (firmwareOnly_adopt ..)
  · exact firmwareOnly_measure ..

theorem firmwareOnly_restartPosted (s : State) (r : Restart) : FirmwareOnly s (s.restartPosted r) :=
  (boxesOnly_pfEvent ..).firmware.after ((testsOnly_abandonTests _).firmware.after rfl)

theorem boxesOnly_restartAnswered (s : State) (r : Restart) (status : Nat) : BoxesOnly s (s.restartAnswered r status) := by
  unfold State.restartAnswered
  split
  · exact boxesOnly_answer ..
  · rfl

theorem State.finishRestart_of_lost {s : State} {r : Restart} (restarting : s.boot.phase = .restarting) (asked : s.boot.restart = some r)
    (lost : (r.bundle.isNone && s.boot.imageLost) = true) : s.finishRestart = (s.restartAnswered r stRetry).await := by
  unfold State.finishRestart
  simp only [restarting, asked, lost, if_true]
  rfl

theorem firmwareOnly_finishRestart (s : State) : FirmwareOnly s s.finishRestart := by
  by_cases restarting : s.boot.phase = .restarting
  · cases asked : s.boot.restart with
    | none => simp only [State.finishRestart, restarting, asked]; rfl
    | some r =>
      cases lost : r.bundle.isNone && s.boot.imageLost with
      | true =>
        rw [State.finishRestart_of_lost restarting asked lost]
        exact (firmwareOnly_await _).after (boxesOnly_restartAnswered ..).firmware
      | false =>
        rw [State.finishRestart_of_image restarting asked lost]
        exact (boxesOnly_takeWaiting _).firmware.after <| (boxesOnly_restartAnswered ..).firmware.after <|
          (firmwareOnly_restartPosted ..).after <| firmwareOnly_restartMeasured ..
  · have idle : s.finishRestart = s := by
      unfold State.finishRestart
      split
      · contradiction
      · rfl
    rw [idle]
    rfl

theorem State.phase_finishRestart_of_image {s : State} {r : Restart} (restarting : s.boot.phase = .restarting)
    (asked : s.boot.restart = some r) (image : (r.bundle.isNone && s.boot.imageLost) = false) : s.finishRestart.boot.phase = .running := by
  rw [State.finishRestart_of_image restarting asked image, (boxesOnly_takeWaiting _).boot, (boxesOnly_restartAnswered ..).boot,
    State.restartPosted, (boxesOnly_pfEvent ..).boot, (testsOnly_abandonTests _).phase]
  rfl

/-! ### The tick -/

/-- The timers that an empty queue's tick looks at leave the model's own clock alone. -/
theorem State.clk_tick (s : State) : s.tick.clk = s.clk + 1 := (firmwareOnly_finishRestart _).clk

/-! ### The obligation -/

/-- Settles O58: `step` looks at the queue's front, and of the tick's parts only the first moves the clock. -/
theorem stepRunsTheFrontCommand : Obligations.StepRunsTheFrontCommand := by
  unfold Obligations.StepRunsTheFrontCommand
  refine ⟨fun _ _ _ => rfl, fun s empty => ?_, State.clk_tick⟩
  rw [step, empty]

end Sys2Proof.Machine
end

section
/-! SUPPORT. Proofs about Invar (R318 to R330): steps of time, the servo's sample, the references and the general triggers, each by its effect on
the registers and fields of the time base, and the obligation that these rules settle. -/

namespace Sys2Proof.Machine

section
variable {s : State} {g : Nat}

/-! ### Steps of time (R322) -/

theorem State.time_stepTime (s : State) (new : Int) (source : Nat) : (s.stepTime new source).time = (new % timeWrap).toNat := by
  rw [State.stepTime, State.pfEvent_eq]
  rfl

theorem State.steps_stepTime (s : State) (new : Int) (source : Nat) :
    (s.stepTime new source).reg64 Reg.INV_STEPS = (s.reg64 Reg.INV_STEPS + 1) % 2 ^ 64 := by
  rw [State.stepTime, State.pfEvent, State.reg64_fnEvent_other _ _ _ _ _ _ _ _ (by decide), State.reg64_bump]
  rfl

theorem State.stepTime_eq (s : State) (new : Int) (source : Nat) : s.stepTime new source = { s with
    time := (s.stepTime new source).time, net := (s.stepTime new source).net, regs := (s.stepTime new source).regs
    host := (s.stepTime new source).host } := by
  rw [State.stepTime, State.pfEvent_eq]
  rfl

theorem exec_invSet_of_go {v : W32} (go : v.toNat.testBit 0 = true) : exec (.invSet v) s =
    .next (s.stepTime (Int.ofNat (fromStored (s.reg Reg.INV_SET_W0) (s.reg Reg.INV_SET_W1) (s.reg Reg.INV_SET_W2))) 0) := by
  rw [exec, execInvSet, State.invSet, if_pos go]

/-! ### INCR and the servo (R320, R327, R328) -/

theorem State.setServo_eq (s : State) (v : Nat) : s.setServo v = { s with regs := (s.setServo v).regs, host := (s.setServo v).host } := by
  unfold State.setServo
  split
  · rfl
  · rw [State.pfEvent_eq]
    rfl

theorem State.reg_setServo_other (s : State) (v : Nat) {a : Nat} (other : a ∉ [Reg.INV_STATUS, Reg.CAB_EVENT_DROP, Reg.CAB_EVENT_DROP + 4]) :
    (s.setServo v).reg a = s.reg a := by
  simp only [List.mem_cons, List.not_mem_nil, or_false, not_or] at other
  obtain ⟨status, low, high⟩ := other
  unfold State.setServo
  split
  · rfl
  · rw [State.reg_pfEvent_other _ _ _ _ _ _ (Ne.symm low) (Ne.symm high), State.reg_setField_other _ _ _ _ _ (Ne.symm status)]

theorem State.incr_of_regs {t : State} (frac : t.reg Reg.INV_INCR_FRAC = s.reg Reg.INV_INCR_FRAC)
    (int : t.reg Reg.INV_INCR_INT = s.reg Reg.INV_INCR_INT) : t.incr = s.incr := by
  rw [State.incr, State.field, frac, int, State.incr, State.field]

theorem State.incrNom_of_regs {t : State} (frac : t.reg Reg.INV_INCR_NOM_FRAC = s.reg Reg.INV_INCR_NOM_FRAC)
    (int : t.reg Reg.INV_INCR_NOM_INT = s.reg Reg.INV_INCR_NOM_INT) : t.incrNom = s.incrNom := by
  rw [State.incrNom, State.field, frac, int, State.incrNom, State.field]

theorem State.incr_setIncr (s : State) (v : Int) : (s.setIncr v).incr = wrap 36 v := by
  have small : wrap 36 v < 2 ^ 36 := by
    have positive : (0 : Int) < Int.ofNat (2 ^ 36) := by decide
    have below : v % Int.ofNat (2 ^ 36) < ((2 ^ 36 : Nat) : Int) := Int.emod_lt_of_pos v positive
    exact (Int.toNat_lt (Int.emod_nonneg v positive.ne')).mpr below
  have frac : (s.setIncr v).reg Reg.INV_INCR_FRAC = wrap 36 v % 2 ^ 32 := by
    rw [State.setIncr, State.reg_setReg_other _ _ _ _ (by decide), State.reg_setReg_same]
  have int : (s.setIncr v).field Reg.INV_INCR_INT 3 0 = wrap 36 v / 2 ^ 32 := by
    rw [State.field, State.setIncr, State.reg_setReg_same, bits, Nat.shiftRight_zero]
    omega
  rw [State.incr, frac, int]
  omega

/-- A sample that has been counted and shown, before the servo acts on it: `good` samples in a row have been within the lock range. -/
def State.sampled (s : State) (theta : Int) : State :=
  let t := (s.bump Reg.INV_SAMPLES 1).setReg Reg.INV_LAST_OFF_NS (wrap 32 (theta / 2 ^ 16))
  { t with inv := { t.inv with good := if theta.natAbs ≤ t.reg Reg.INV_LOCK_NS * 2 ^ 16 then min 16 (t.inv.good + 1) else 0 } }

theorem State.reg_sampled_other (s : State) (theta : Int) {a : Nat}
    (other : a ∉ [Reg.INV_SAMPLES, Reg.INV_SAMPLES + 4, Reg.INV_LAST_OFF_NS]) : (s.sampled theta).reg a = s.reg a := by
  simp only [List.mem_cons, List.not_mem_nil, or_false, not_or] at other
  obtain ⟨low, high, shown⟩ := other
  exact (State.reg_setReg_other _ _ _ _ (Ne.symm shown)).trans (State.reg_bump_other _ _ _ _ (Ne.symm low) (Ne.symm high))

/-- The state of the servo that a sample leaves. -/
def State.servoAfter (s : State) (theta : Int) : Nat := if (s.sampled theta).inv.good = 16 then 1 else 0

theorem State.servoSample_of_step {theta : Int} (far : s.reg Reg.INV_SERVO_STEP_NS * 2 ^ 16 ≤ theta.natAbs) :
    s.servoSample theta = ((s.sampled theta).stepTime (Int.ofNat s.time - theta * 2 ^ 16) 2).setServo (s.servoAfter theta) := by
  have far' : (s.sampled theta).reg Reg.INV_SERVO_STEP_NS * 2 ^ 16 ≤ theta.natAbs := by
    rwa [State.reg_sampled_other _ _ (by decide)]
  exact congrArg (State.setServo · (s.servoAfter theta)) (if_pos far')

/-- The integral that a sample leaves (R327). -/
def State.servoGrown (s : State) (theta : Int) : Int := s.inv.i + servoP (s.reg Reg.INV_SERVO_KI) theta

/-- INCR for the sum of P and I, clamped (R327). -/
def State.servoIncr (s : State) (theta : Int) : Int :=
  s.incrNom - max (-2147484) (min 2147484 (servoP (s.reg Reg.INV_SERVO_KP) theta + s.servoGrown theta))

theorem State.reg_setServoI_other (s : State) (i : Int) {a : Nat} (other : Reg.INV_SERVO_I ≠ a) : (s.setServoI i).reg a = s.reg a :=
  State.reg_setReg_other _ _ _ _ other

theorem State.servoSample_of_near {theta : Int} (near : theta.natAbs < s.reg Reg.INV_SERVO_STEP_NS * 2 ^ 16) : s.servoSample theta =
    (((s.sampled theta).setServoI (s.servoGrown theta)).setIncr (s.servoIncr theta)).setServo (s.servoAfter theta) := by
  have near' : ¬ (s.sampled theta).reg Reg.INV_SERVO_STEP_NS * 2 ^ 16 ≤ theta.natAbs := by
    rw [State.reg_sampled_other _ _ (by decide)]
    omega
  have grown : (s.sampled theta).inv.i + servoP ((s.sampled theta).reg Reg.INV_SERVO_KI) theta = s.servoGrown theta := by
    rw [State.reg_sampled_other _ _ (by decide)]
    rfl
  have kept {a : Nat} (other : a ∉ [Reg.INV_SERVO_I, Reg.INV_SAMPLES, Reg.INV_SAMPLES + 4, Reg.INV_LAST_OFF_NS]) :
      ((s.sampled theta).setServoI (s.servoGrown theta)).reg a = s.reg a := by
    simp only [List.mem_cons, not_or] at other
    rw [State.reg_setServoI_other _ _ (Ne.symm other.1), State.reg_sampled_other _ _ (by simpa using other.2)]
  have moved (i : Int) (hi : i = s.servoGrown theta) : ((s.sampled theta).setServoI i).setIncr (((s.sampled theta).setServoI i).incrNom -
      max (-2147484) (min 2147484 (servoP (((s.sampled theta).setServoI i).reg Reg.INV_SERVO_KP) theta + ((s.sampled theta).setServoI i).inv.i))) =
      ((s.sampled theta).setServoI (s.servoGrown theta)).setIncr (s.servoIncr theta) := by
    rw [hi, State.incrNom_of_regs (kept (by decide)) (kept (by decide)), kept (by decide)]
    rfl
  exact congrArg (State.setServo · (s.servoAfter theta)) ((if_neg near').trans (moved _ grown))

theorem State.servoSample_near {theta : Int} (near : theta.natAbs < s.reg Reg.INV_SERVO_STEP_NS * 2 ^ 16) :
    (s.servoSample theta).inv.i = s.servoGrown theta ∧ (s.servoSample theta).time = s.time ∧
      (s.servoSample theta).incr = wrap 36 (s.servoIncr theta) := by
  rw [State.servoSample_of_near near]
  refine ⟨by rw [State.setServo_eq]; rfl, by rw [State.setServo_eq]; rfl, ?_⟩
  rw [State.incr_of_regs (State.reg_setServo_other _ _ (by decide)) (State.reg_setServo_other _ _ (by decide)), State.incr_setIncr]

theorem State.servoSample_step {theta : Int} (far : s.reg Reg.INV_SERVO_STEP_NS * 2 ^ 16 ≤ theta.natAbs) :
    (s.servoSample theta).time = ((Int.ofNat s.time - theta * 2 ^ 16) % timeWrap).toNat ∧ (s.servoSample theta).inv.i = s.inv.i := by
  rw [State.servoSample_of_step far, State.setServo_eq]
  refine ⟨State.time_stepTime .., ?_⟩
  change ((s.sampled theta).stepTime _ 2).inv.i = _
  rw [State.stepTime_eq]
  rfl

/-- The offset of a sample, in 2^-16 ns and 48 bits wide, as INV_SERVO_OFF holds it. -/
def servoOffset (lo hi : W32) : Nat := lo.toNat + 2 ^ 32 * (hi.toNat % 2 ^ 16)

theorem State.servoOn_setOffset (s : State) (v : Nat) : (s.setReg64 Reg.INV_SERVO_OFF v).servoOn = s.servoOn := by
  rw [State.servoOn, State.flag, State.reg_setReg64_other _ _ _ _ (by decide) (by decide), State.servoOn, State.flag]

theorem exec_servoSample_of_on (lo hi : W32) (on : s.servoOn = true) : exec (.servoSample lo hi) s =
    .next ((s.setReg64 Reg.INV_SERVO_OFF (servoOffset lo hi)).servoSample (sext 48 (servoOffset lo hi))) :=
  congrArg Host.Outcome.next (if_pos ((s.servoOn_setOffset _).trans on))

theorem exec_servoSample_of_off (lo hi : W32) (off : s.servoOn = false) :
    exec (.servoSample lo hi) s = .next (s.setReg64 Reg.INV_SERVO_OFF (servoOffset lo hi)) :=
  congrArg Host.Outcome.next (if_neg (ne_true_of_eq_false ((s.servoOn_setOffset _).trans off)))

theorem exec_servoHoldover_of_on (on : s.servoOn = true) (tracking : s.servoSt ≠ 2) :
    exec .servoHoldover s = .next ((s.setIncr (s.incrNom - s.inv.i)).setServo 2) := by
  simp [exec, execServoHoldover, on, tracking]

/-! ### References and PPS stamps (R326, R330) -/

theorem exec_refInLoss_of_selected (selected : s.flag Reg.INV_CTRL 1 = true) (used : s.inv.onRef = true) : exec .refInLoss s =
    .next ((({ s with inv := { s.inv with onRef := false } } : State).setField Reg.INV_CTRL 1 1 0).setField Reg.INV_STATUS 3 3 1) := by
  simp [exec, execRefInLoss, selected, used]

theorem exec_refInRestore_of_selected (selected : s.flag Reg.INV_CTRL 1 = true) (unused : s.inv.onRef = false) : exec .refInRestore s =
    .next (({ s with inv := { s.inv with onRef := true } } : State).setField Reg.INV_STATUS 3 3 0) := by
  simp [exec, execRefInRestore, selected, unused]

/-- The instant that a PPS edge is stamped with: the time, off by `skew` in 2^-16 ns. -/
def State.ppsInstant (s : State) (skew : Int) : Nat := ((Int.ofNat s.time + skew * 2 ^ 16) % timeWrap).toNat

/-- The state after a PPS edge. -/
def State.ppsStamped (s : State) (skew : Int) : State :=
  (s.putStored Reg.INV_PPS_IN_W0 (s.ppsInstant skew)).bump Reg.INV_PPS_EDGES 1

theorem State.reg_ppsStamped_w0 (s : State) (skew : Int) :
    (s.ppsStamped skew).reg Reg.INV_PPS_IN_W0 = s.ppsInstant skew / 2 ^ 32 % 1000000000 := by
  rw [State.ppsStamped, State.reg_bump_other _ _ _ _ (by decide) (by decide), State.putStored, storedForm]
  dsimp only
  rw [State.reg_setReg_other _ _ _ _ (by decide), State.reg_setReg_other _ _ _ _ (by decide), State.reg_setReg_same]
  omega

theorem State.reg_ppsStamped_w1 (s : State) (skew : Int) :
    (s.ppsStamped skew).reg (Reg.INV_PPS_IN_W0 + 4) = s.ppsInstant skew / (2 ^ 32 * 1000000000) % 2 ^ 32 := by
  rw [State.ppsStamped, State.reg_bump_other _ _ _ _ (by decide) (by decide), State.putStored, storedForm]
  dsimp only
  rw [State.reg_setReg_other _ _ _ _ (by decide), State.reg_setReg_same, Nat.mod_mod]

theorem State.edges_ppsStamped (s : State) (skew : Int) :
    (s.ppsStamped skew).reg64 Reg.INV_PPS_EDGES = (s.reg64 Reg.INV_PPS_EDGES + 1) % 2 ^ 64 := by
  rw [State.ppsStamped, State.reg64_bump, State.putStored, storedForm]
  dsimp only
  rw [State.reg64_setReg_other _ _ _ (by decide) (by decide), State.reg64_setReg_other _ _ _ (by decide) (by decide),
    State.reg64_setReg_other _ _ _ (by decide) (by decide)]

/-! ### General triggers (R321 to R323) -/

/-- How many of a trigger's instants its firing passes: one of a one-shot or a late trigger, else all that are reached. -/
def State.trgPassed (s : State) (g : Nat) : Nat :=
  if s.inv.late.contains g = true ∨ s.reg (Reg.INV_TRG_PERIOD_NS g) = 0 then 1
  else (s.now + 2 ^ 64 - s.reg64 (Reg.INV_TRG_T g)) % 2 ^ 64 / s.reg (Reg.INV_TRG_PERIOD_NS g) + 1

/-- The trigger's next instant. -/
def State.trgNext (s : State) (g : Nat) : Nat :=
  (s.reg64 (Reg.INV_TRG_T g) + s.trgPassed g * s.reg (Reg.INV_TRG_PERIOD_NS g)) % 2 ^ 64

/-- The trigger's registers after it has fired. -/
def State.trgCounted (s : State) (g : Nat) : State :=
  ((((s.setReg64 (Reg.INV_TRG_T g) (s.trgNext g)).setReg (Reg.INV_TRG_STATUS g) (b2n (s.inv.late.contains g))).bump (Reg.INV_TRG_FIRED g) 1).bump
    (Reg.INV_TRG_SKIPPED g) (s.trgPassed g - 1))

/-- A trigger that has fired, before it acts: a one-shot is spent, and a late periodic trigger stays late while its next instant is past. -/
def State.trgFired (s : State) (g : Nat) : State :=
  { s.trgCounted g with inv := { s.inv with
    spent := if s.reg (Reg.INV_TRG_PERIOD_NS g) = 0 then s.inv.spent ++ [g] else s.inv.spent
    late := if s.inv.late.contains g && s.reg (Reg.INV_TRG_PERIOD_NS g) != 0 && reached s.now (s.trgNext g) then s.inv.late
      else s.inv.late.erase g } }

theorem exec_generalTriggerFire_of_due (number : g < 16) (on : s.flag (Reg.INV_TRG_CTRL g) 0 = true)
    (due : reached s.now (s.reg64 (Reg.INV_TRG_T g)) = true) (fresh : g ∉ s.inv.spent) :
    exec (.generalTriggerFire g) s = .next ((s.trgFired g).trgAct g (s.inv.late.contains g)) := by
  have fires : (decide (16 ≤ g) || !s.flag (Reg.INV_TRG_CTRL g) 0 || !reached s.now (s.reg64 (Reg.INV_TRG_T g)) ||
      s.inv.spent.contains g) = false := by
    simp [number, on, due, fresh]
  have passed : (if (s.inv.late.contains g || s.reg (Reg.INV_TRG_PERIOD_NS g) == 0) = true then 1
      else (s.now + 2 ^ 64 - s.reg64 (Reg.INV_TRG_T g)) % 2 ^ 64 / s.reg (Reg.INV_TRG_PERIOD_NS g) + 1) = s.trgPassed g := by
    simp [State.trgPassed]
  unfold exec execGeneralTriggerFire
  simp only [fires, passed, Bool.false_eq_true, if_false]
  rfl

theorem exec_generalTriggerFire_of_idle (idle : reached s.now (s.reg64 (Reg.INV_TRG_T g)) = false ∨ g ∈ s.inv.spent) :
    exec (.generalTriggerFire g) s = .next s := by
  have stays : (decide (16 ≤ g) || !s.flag (Reg.INV_TRG_CTRL g) 0 || !reached s.now (s.reg64 (Reg.INV_TRG_T g)) ||
      s.inv.spent.contains g) = true := by
    rcases idle with early | spent
    · simp [early]
    · simp [spent]
  unfold exec execGeneralTriggerFire
  simp only [stays, if_true]

theorem State.instant_trgCounted (s : State) (g : Nat) : (s.trgCounted g).reg64 (Reg.INV_TRG_T g) = s.trgNext g := by
  rw [State.trgCounted, State.reg64_bump_other _ _ _ (by simp only [Reg.INV_TRG_T, Reg.INV_TRG_SKIPPED]; omega),
    State.reg64_bump_other _ _ _ (by simp only [Reg.INV_TRG_T, Reg.INV_TRG_FIRED]; omega),
    State.reg64_setReg_other _ _ _ (by simp only [Reg.INV_TRG_T, Reg.INV_TRG_STATUS]; omega)
      (by simp only [Reg.INV_TRG_T, Reg.INV_TRG_STATUS]; omega), State.reg64_setReg64, State.trgNext, Nat.mod_mod]

theorem State.fired_trgCounted (s : State) (g : Nat) :
    (s.trgCounted g).reg64 (Reg.INV_TRG_FIRED g) = (s.reg64 (Reg.INV_TRG_FIRED g) + 1) % 2 ^ 64 := by
  rw [State.trgCounted, State.reg64_bump_other _ _ _ (by simp only [Reg.INV_TRG_FIRED, Reg.INV_TRG_SKIPPED]; omega), State.reg64_bump,
    State.reg64_setReg_other _ _ _ (by simp only [Reg.INV_TRG_FIRED, Reg.INV_TRG_STATUS]; omega)
      (by simp only [Reg.INV_TRG_FIRED, Reg.INV_TRG_STATUS]; omega),
    State.reg64_setReg64_other _ _ _ (by simp only [Reg.INV_TRG_FIRED, Reg.INV_TRG_T]; omega)]

theorem State.skipped_trgCounted (s : State) (g : Nat) : (s.trgCounted g).reg64 (Reg.INV_TRG_SKIPPED g) =
    (s.reg64 (Reg.INV_TRG_SKIPPED g) + (s.trgPassed g - 1)) % 2 ^ 64 := by
  rw [State.trgCounted, State.reg64_bump, State.reg64_bump_other _ _ _ (by simp only [Reg.INV_TRG_FIRED, Reg.INV_TRG_SKIPPED]; omega),
    State.reg64_setReg_other _ _ _ (by simp only [Reg.INV_TRG_SKIPPED, Reg.INV_TRG_STATUS]; omega)
      (by simp only [Reg.INV_TRG_SKIPPED, Reg.INV_TRG_STATUS]; omega),
    State.reg64_setReg64_other _ _ _ (by simp only [Reg.INV_TRG_SKIPPED, Reg.INV_TRG_T]; omega)]

theorem State.mem_spent_trgFired (oneShot : s.reg (Reg.INV_TRG_PERIOD_NS g) = 0) : g ∈ (s.trgFired g).inv.spent := by
  have spent : (s.trgFired g).inv.spent = s.inv.spent ++ [g] := if_pos oneShot
  rw [spent]
  exact List.mem_append_right _ (List.mem_singleton.mpr rfl)

end

/-! ### The obligation -/

/-- Settles O43, one rule per command, servo sample and trigger. -/
theorem invarKeepsAndServesTime : Obligations.InvarKeepsAndServesTime := by
  unfold Obligations.InvarKeepsAndServesTime
  refine ⟨fun _ _ => exec_invSet_of_go, ?_, fun s new src => ⟨s.time_stepTime new src, s.steps_stepTime new src, _, s.stepTime_eq new src⟩, ?_, ?_,
    fun _ _ => State.servoSample_step, fun _ => exec_servoHoldover_of_on, fun _ => exec_refInLoss_of_selected,
    fun _ => exec_refInRestore_of_selected, ?_, ?_, fun _ _ => exec_generalTriggerFire_of_idle⟩
  · rintro s lo hi _ rfl
    rfl
  · rintro s lo hi _ rfl
    exact ⟨exec_servoSample_of_on lo hi, exec_servoSample_of_off lo hi⟩
  · rintro s theta _ near rfl
    exact State.servoSample_near near
  · rintro s skew _ rfl
    exact ⟨s.ppsStamped skew, rfl, s.reg_ppsStamped_w0 skew, s.reg_ppsStamped_w1 skew, s.edges_ppsStamped skew, rfl⟩
  · rintro s g _ _ _ _ number rfl rfl on due fresh rfl rfl
    exact ⟨s.trgFired g, exec_generalTriggerFire_of_due number on due fresh, s.instant_trgCounted g, s.fired_trgCounted g, s.skipped_trgCounted g,
      State.mem_spent_trgFired, rfl⟩

end Sys2Proof.Machine
end

section
/-! SUPPORT. Proofs about Hallstand's transmit side (R331 to R348, R353): what a completion and a change of a link move, which head a
selection picks, and the obligation that these rules settle. -/

namespace Sys2Proof.Machine

/-- What every step of a fold over a list leaves in force, having made it hold at its own element, holds at each element at the end. -/
theorem foldl_reaches {α β : Type} {P : β → α → Prop} {f : α → β → α} (made : ∀ s b, P b (f s b)) (kept : ∀ s b c, P b s → P b (f s c))
    (bs : List β) (s : α) : ∀ b ∈ bs, P b (bs.foldl f s) := by
  have stays (bs : List β) : ∀ s b, P b s → P b (bs.foldl f s) := by
    induction bs with
    | nil => exact fun _ _ holds => holds
    | cons c bs ih => exact fun s b holds => ih _ b (kept s b c holds)
  induction bs generalizing s with
  | nil => intro b none; cases none
  | cons c bs ih =>
    intro b member
    rcases List.mem_cons.mp member with rfl | later
    · exact stays bs _ b (made s b)
    · exact ih _ b later

section
variable {s : State} {m q : Nat}

/-! ### The MACs -/

theorem State.mac_setMac_same (s : State) (m : Nat) (v : MacTx) : (s.setMac m v).mac m = v := by
  rw [State.mac, State.setMac, Tab.get_put, if_pos rfl]

theorem State.mac_setMac_other (s : State) (v : MacTx) {m k : Nat} (other : k ≠ m) : (s.setMac m v).mac k = s.mac k := by
  rw [State.mac, State.setMac, Tab.get_put, if_neg other.symm, State.mac]

theorem State.mac_of_net {t : State} (net : t.net = s.net) (k : Nat) : t.mac k = s.mac k := by rw [State.mac, net, State.mac]

/-! ### Completions (R336) -/

/-- The counter that a completion adds to: of a late frame, a late drop or an oversize frame of its MAC. -/
def State.txCounted (s : State) (q status : Nat) : State :=
  if status = txSentLate then s.bump (Reg.HST_TX_LATE (s.queue q).mac) 1
  else if status = txDropLate then s.bump (Reg.HST_DROP_LATE (s.queue q).mac) 1
  else if status = txDropOversize then s.bump (Reg.HST_DROP_OVERSIZE (s.queue q).mac) 1 else s

theorem State.txCounted_eq (s : State) (q status : Nat) : s.txCounted q status = { s with regs := (s.txCounted q status).regs } := by
  unfold State.txCounted
  split
  · rfl
  · split
    · rfl
    · split <;> rfl

theorem State.txDone_eq_counted (s : State) (q : Nat) (d : TxDesc) (gen status : Nat) (stamp : List Nat) :
    ∃ host, s.txDone q d gen status stamp = { s.txCounted q status with host := host } := by
  change ∃ host, (if (status = txSent && !d.cmpl) = true then s.txCounted q status else (s.txCounted q status).sendRec _ _ _ _ _) = _
  split
  · exact ⟨_, rfl⟩
  · exact ⟨_, rfl⟩

theorem State.txDone_eq (s : State) (q : Nat) (d : TxDesc) (gen status : Nat) (stamp : List Nat) : s.txDone q d gen status stamp =
    { s with regs := (s.txDone q d gen status stamp).regs, host := (s.txDone q d gen status stamp).host } := by
  obtain ⟨host, done⟩ := s.txDone_eq_counted q d gen status stamp
  rw [done, s.txCounted_eq]

theorem Queue.mac_lt (v : Queue) : v.mac < 64 := Nat.mod_lt _ (by decide)

/-- A completion moves no register but the counters of late and oversize frames of its queue's MAC. -/
theorem State.reg64_txDone_other (s : State) (q : Nat) (d : TxDesc) (gen status : Nat) (stamp : List Nat) {b : Nat}
    (apart : ∀ k, k < 64 → Reg.HST_DROP_OVERSIZE k + 4 < b ∨ b + 4 < Reg.HST_TX_LATE k) :
    (s.txDone q d gen status stamp).reg64 b = s.reg64 b := by
  have counted : (s.txCounted q status).reg64 b = s.reg64 b := by
    have := apart _ (s.queue q).mac_lt
    unfold State.txCounted
    split
    · exact State.reg64_bump_other _ _ _ (by simp only [Reg.HST_DROP_OVERSIZE, Reg.HST_TX_LATE] at *; omega)
    · split
      · exact State.reg64_bump_other _ _ _ (by simp only [Reg.HST_DROP_OVERSIZE, Reg.HST_DROP_LATE, Reg.HST_TX_LATE] at *; omega)
      · split
        · exact State.reg64_bump_other _ _ _ (by simp only [Reg.HST_DROP_OVERSIZE, Reg.HST_TX_LATE] at *; omega)
        · rfl
  obtain ⟨host, done⟩ := s.txDone_eq_counted q d gen status stamp
  rw [done, ← counted]
  rfl

/-! ### The pick of a selection (R338 to R340) -/

theorem State.txEligible_of_clsHead {c : Nat} {h : TxHead} (head : s.clsHead m c = some (q, h)) : s.txEligible m q h = true :=
  List.find?_some (p := fun e : Nat × TxHead => s.txEligible m e.1 e.2) head

/-- A candidate, where there is one, is the eligible head of its class. -/
def State.IsHead (s : State) (m : Nat) (pick : Option (Nat × Nat × TxHead)) : Prop := ∀ c q h, pick = some (c, q, h) → s.clsHead m c = some (q, h)

theorem State.isHead_some {c : Nat} {h : TxHead} (head : s.clsHead m c = some (q, h)) : s.IsHead m (some (c, q, h)) := by
  rintro _ _ _ ⟨⟩
  exact head

theorem State.isHead_pickFair (s : State) (m : Nat) : s.IsHead m (s.pickFair m) := by
  refine List.foldlRecOn (motive := s.IsHead m) _ _ (by rintro _ _ _ ⟨⟩) fun b best c _ => ?_
  split
  · exact best
  next head =>
    split
    · exact State.isHead_some head
    · split
      · exact State.isHead_some head
      · exact best

theorem State.clsHead_of_pickDrr {n c : Nat} {v u : MacTx} {h : TxHead} (pick : s.pickDrr m n v = some (c, q, h, u)) :
    s.clsHead m c = some (q, h) := by
  induction n generalizing v with
  | zero => cases pick
  | succ n ih =>
    rw [State.pickDrr] at pick
    dsimp only at pick
    split at pick
    · exact ih pick
    next head =>
      generalize ite (v.visiting = true) _ _ = w at pick
      split at pick
      · cases pick
        exact head
      · exact ih pick

/-- Among classes 0 to 3 the first with an eligible head is taken: those before it have none. -/
theorem findSome_none_before {α : Type} {f : Nat → Option α} {cs : List Nat} (sorted : cs.Pairwise (· < ·)) {c : Nat} {e : α}
    (found : cs.findSome? (fun c => (f c).map fun e => (c, e)) = some (c, e)) : f c = some e ∧ ∀ k ∈ cs, k < c → f k = none := by
  obtain ⟨before, a, after, rfl, at_a, none_before⟩ := List.findSome?_eq_some_iff.mp found
  obtain ⟨e', head, same⟩ := Option.map_eq_some_iff.mp at_a
  cases same
  refine ⟨head, fun k member earlier => ?_⟩
  obtain ⟨-, later, -⟩ := List.pairwise_append.mp sorted
  rcases List.mem_append.mp member with first | rest
  · exact Option.map_eq_none_iff.mp (none_before k first)
  · rcases List.mem_cons.mp rest with rfl | last
    · omega
    · have := List.rel_of_pairwise_cons later last
      omega

theorem State.clsHead_of_pickFrame {c : Nat} {h : TxHead} {u : MacTx} (pick : s.pickFrame m = some (c, q, h, u)) :
    s.clsHead m c = some (q, h) ∧ ∀ k, k < 4 → k < c → s.clsHead m k = none := by
  unfold State.pickFrame at pick
  dsimp only at pick
  have low {k : Nat} (small : k < 4) : k ∈ [0, 1, 2, 3] := by
    simp only [List.mem_cons, List.not_mem_nil, or_false]
    omega
  split at pick
  next found =>
    cases pick
    obtain ⟨head, before⟩ := findSome_none_before (by decide) found
    exact ⟨head, fun k small earlier => before k (low small) earlier⟩
  next none_found =>
    refine ⟨?_, fun k small _ => Option.map_eq_none_iff.mp (List.findSome?_eq_none_iff.mp none_found k (low small))⟩
    split at pick
    · split at pick
      · exact State.clsHead_of_pickDrr pick
      · cases pick
    · obtain ⟨e, fair, same⟩ := Option.map_eq_some_iff.mp pick
      cases same
      exact s.isHead_pickFair m _ _ _ fair

/-! ### A frame that has left the line (R336, R345) -/

/-- A stepped frame that has left the line after its gate's close (R345). -/
def State.lineOverran (s : State) (l : TxLine) : Bool :=
  l.stepped && match l.close with
    | some c => seqNewer 64 s.now c
    | none => false

/-- The counters of frames and bytes sent, before a step overrun is counted. -/
def State.lineCounted (s : State) (m : Nat) (l : TxLine) : State :=
  ((s.bump (Reg.ETH_TX_FRAMES (m / 8) (m % 8)) 1).bump (Reg.HST_TC_TX_FRAMES m l.desc.tc) 1).bump (Reg.HST_TC_TX_BYTES m l.desc.tc) l.counted

/-- The line of MAC `m` idle again, with the frame `l` among those that have left. -/
def State.lineIdle (s : State) (m : Nat) (l : TxLine) : State :=
  { s with net := { (s.setMac m { s.mac m with line := none }).net with out := s.net.out ++ [(m, l.bytes)] } }

/-- The state in which a frame `l` that has left the line of MAC `m` completes. -/
def State.lineLeft (s : State) (m : Nat) (l : TxLine) : State :=
  ((s.lineIdle m l).lineCounted m l).when (s.lineOverran l) (·.bump (Reg.HST_STEP_OVERRUN m) 1)

theorem exec_frameSent_of_line {l : TxLine} (line : (s.mac m).line = some l) :
    exec (.frameSent m) s = .next ((s.lineLeft m l).txDone l.queue l.desc l.gen l.status l.stamp) := by
  unfold exec execFrameSent
  simp only [line]
  rfl

theorem State.lineLeft_eq (s : State) (m : Nat) (l : TxLine) : s.lineLeft m l = { s.lineIdle m l with regs := (s.lineLeft m l).regs } := by
  unfold State.lineLeft State.when
  split <;> rfl

theorem State.reg64_lineLeft (s : State) {m b : Nat} (l : TxLine) (apart : Reg.HST_STEP_OVERRUN m + 4 < b ∨ b + 4 < Reg.HST_STEP_OVERRUN m) :
    (s.lineLeft m l).reg64 b = ((s.lineIdle m l).lineCounted m l).reg64 b := by
  unfold State.lineLeft State.when
  split
  · exact State.reg64_bump_other _ _ _ apart
  · rfl

theorem State.frames_lineCounted {s : State} {m : Nat} (l : TxLine) (mac : m < 64) :
    (s.lineCounted m l).reg64 (Reg.ETH_TX_FRAMES (m / 8) (m % 8)) = (s.reg64 (Reg.ETH_TX_FRAMES (m / 8) (m % 8)) + 1) % 2 ^ 64 := by
  rw [State.lineCounted, State.reg64_bump_other _ _ _ (by simp only [Reg.ETH_TX_FRAMES, Reg.HST_TC_TX_BYTES]; omega),
    State.reg64_bump_other _ _ _ (by simp only [Reg.ETH_TX_FRAMES, Reg.HST_TC_TX_FRAMES]; omega), State.reg64_bump]

theorem State.bytes_lineCounted {s : State} {m : Nat} (l : TxLine) : (s.lineCounted m l).reg64 (Reg.HST_TC_TX_BYTES m l.desc.tc) =
    (s.reg64 (Reg.HST_TC_TX_BYTES m l.desc.tc) + l.counted) % 2 ^ 64 := by
  rw [State.lineCounted, State.reg64_bump, State.reg64_bump_other _ _ _ (by simp only [Reg.HST_TC_TX_FRAMES, Reg.HST_TC_TX_BYTES]; omega),
    State.reg64_bump_other _ _ _ (by simp only [Reg.ETH_TX_FRAMES, Reg.HST_TC_TX_BYTES]; omega)]

/-- What FRAME_SENT leaves, given by its line and counters. -/
theorem exec_frameSent {l : TxLine} (line : (s.mac m).line = some l) (mac : m < 64) (tc : l.desc.tc < 16) :
    ∃ t, exec (.frameSent m) s = .next t ∧ t.mac m = { s.mac m with line := none } ∧ t.net.out = s.net.out ++ [(m, l.bytes)] ∧
      t.reg64 (Reg.ETH_TX_FRAMES (m / 8) (m % 8)) = (s.reg64 (Reg.ETH_TX_FRAMES (m / 8) (m % 8)) + 1) % 2 ^ 64 ∧
      t.reg64 (Reg.HST_TC_TX_BYTES m l.desc.tc) = (s.reg64 (Reg.HST_TC_TX_BYTES m l.desc.tc) + l.counted) % 2 ^ 64 ∧
      t = { s with net := t.net, regs := t.regs, host := t.host } := by
  have net : ((s.lineLeft m l).txDone l.queue l.desc l.gen l.status l.stamp).net = (s.lineIdle m l).net := by
    rw [State.txDone_eq, State.lineLeft_eq]
  refine ⟨_, exec_frameSent_of_line line, ?_, by rw [net]; rfl, ?_, ?_, ?_⟩
  · exact (State.mac_of_net net m).trans (s.mac_setMac_same m { s.mac m with line := none })
  · rw [State.reg64_txDone_other _ _ _ _ _ _ (by intro k _; simp only [Reg.ETH_TX_FRAMES, Reg.HST_TX_LATE]; omega),
      State.reg64_lineLeft _ _ (by simp only [Reg.ETH_TX_FRAMES, Reg.HST_STEP_OVERRUN]; omega), State.frames_lineCounted l mac]
    rfl
  · rw [State.reg64_txDone_other _ _ _ _ _ _
        (by intro k _; simp only [Reg.HST_TC_TX_BYTES, Reg.HST_DROP_OVERSIZE, Reg.HST_TX_LATE]; omega),
      State.reg64_lineLeft _ _ (by simp only [Reg.HST_TC_TX_BYTES, Reg.HST_STEP_OVERRUN]; omega), State.bytes_lineCounted l]
    rfl
  · rw [State.txDone_eq, State.lineLeft_eq]
    rfl

/-! ### Gate lists (R345) -/

/-- The widest windows of the classes that a list in force shows. -/
def State.showWindows (s : State) (m : Nat) (l : GateList) : State :=
  (List.range 16).foldl (fun s c => s.setReg (Reg.HST_TC_MAXWIN_NS m c) ((l.maxWindow c).getD 0xFFFFFFFF)) s

theorem State.showWindows_eq (s : State) (m : Nat) (l : GateList) : s.showWindows m l = { s with regs := (s.showWindows m l).regs } :=
  rel_foldl (R := fun s t : State => t = { s with regs := t.regs }) (fun _ => rfl) (fun first second => second.trans (by rw [first]))
    (fun _ _ => rfl) s _

theorem exec_gclChange_of_due {l : GateList} {t : Nat} (pending : (s.mac m).next = some (l, t)) (due : reached s.now t = true) :
    exec (.gclChange m) s = .next (((s.setMac m { s.mac m with oper := some l, next := none }).setField (Reg.HST_STATUS m) 1 0 1).showWindows m l) := by
  rw [exec, execGclChange]
  simp only [pending, due]
  rfl

theorem State.net_listShown (s : State) (v : MacTx) (m hi lo n : Nat) (l : GateList) :
    (((s.setMac m v).setField (Reg.HST_STATUS m) hi lo n).showWindows m l).net = (s.setMac m v).net := by
  rw [State.showWindows_eq]
  rfl

/-! ### Links (R331, R346, R353) -/

/-- What the rest of a link's change leaves: registers and the host interface alone move. -/
def LinkShown (s t : State) : Prop := t = { s with regs := t.regs, host := t.host }

theorem State.setLink_of_same (same : (s.mac m).up = up) : s.setLink m up = s := by
  rw [State.setLink, if_pos (by simp [same])]

theorem State.setLink_shown {up : Bool} (moves : (s.mac m).up ≠ up) : LinkShown (s.setMac m { s.mac m with up := up }) (s.setLink m up) := by
  rw [State.setLink, if_neg (by simpa using moves)]
  dsimp only
  rw [State.pfEvent_eq]
  split <;> rfl

theorem State.mac_setLink_same (s : State) (m : Nat) (up : Bool) : ((s.setLink m up).mac m).up = up := by
  by_cases same : (s.mac m).up = up
  · rw [State.setLink_of_same same, same]
  · rw [State.setLink_shown same]
    exact congrArg MacTx.up (s.mac_setMac_same m _)

theorem State.mac_setLink_other (s : State) (up : Bool) {m k : Nat} (other : k ≠ m) : (s.setLink m up).mac k = s.mac k := by
  by_cases same : (s.mac m).up = up
  · rw [State.setLink_of_same same]
  · rw [State.setLink_shown same]
    exact s.mac_setMac_other _ other

/-- MAC numbers and ports lie apart in the register map. -/
theorem State.flag_setLink_ctrl (s : State) (m : Nat) (up : Bool) (p i : Nat) : (s.setLink m up).flag (Reg.ETH_CTRL p) i = s.flag (Reg.ETH_CTRL p) i := by
  have status : Reg.ETH_STATUS (m / 8) ≠ Reg.ETH_CTRL p := by simp only [Reg.ETH_STATUS, Reg.ETH_CTRL]; omega
  unfold State.setLink
  split
  · rfl
  · dsimp only
    rw [State.flag, State.reg_pfEvent_other _ _ _ _ _ _ (by simp only [Reg.CAB_EVENT_DROP, Reg.ETH_CTRL]; omega)
      (by simp only [Reg.CAB_EVENT_DROP, Reg.ETH_CTRL]; omega), ← State.flag]
    split
    · exact State.flag_setField_other _ _ _ _ _ _ status
    · exact (State.flag_setField_other _ _ _ _ _ _ status).trans (State.flag_setField_other _ _ _ _ _ _ status)

/-- What a flush of head frames leaves: registers and MACs. -/
def FlushKeeps (s t : State) : Prop := t.regs = s.regs ∧ t.net.macs = s.net.macs

theorem State.flushKeeps_killHead (s : State) (q : Nat) : FlushKeeps s (s.killHead q txFlushed) := by
  unfold State.killHead
  split
  · exact ⟨rfl, rfl⟩
  · exact ⟨rfl, rfl⟩

theorem State.flushKeeps_flushMac (s : State) (m : Nat) : FlushKeeps s (s.flushMac m) := by
  refine rel_foldl (R := FlushKeeps) (fun _ => ⟨rfl, rfl⟩) (fun first second => ⟨second.1.trans first.1, second.2.trans first.2⟩) (fun s e => ?_) s _
  split
  · exact s.flushKeeps_killHead e.1
  · exact ⟨rfl, rfl⟩

theorem State.flag_portOff (s : State) (p : Nat) : (s.portOff p).flag (Reg.ETH_CTRL p) 0 = false := by
  have off : (s.setField (Reg.ETH_CTRL p) 0 0 0).flag (Reg.ETH_CTRL p) 0 = false := by
    rw [State.flag_setField _ _ (le_refl 0)]
    simp
  refine Eq.trans (foldl_keeps (p := fun s => s.flag (Reg.ETH_CTRL p) 0) (fun s m => ?_) _ _) off
  rw [State.flag, State.reg, (State.flushKeeps_flushMac _ m).1, ← State.reg, ← State.flag, State.flag_setLink_ctrl]

theorem State.mac_portOff (s : State) (p : Nat) {k : Nat} (lane : k < 8) : ((s.portOff p).mac (8 * p + k)).up = false := by
  have flushed (s : State) (m k : Nat) : (s.flushMac m).mac k = s.mac k := by
    rw [State.mac, (s.flushKeeps_flushMac m).2, State.mac]
  refine foldl_reaches (P := fun m (s : State) => (s.mac m).up = false) (fun s m => ?_) (fun s m k down => ?_) _ _ (8 * p + k)
    (List.mem_map_of_mem (List.mem_range.mpr lane))
  · rw [flushed, State.mac_setLink_same]
  · rw [flushed]
    by_cases same : m = k
    · rw [same, State.mac_setLink_same]
    · rw [State.mac_setLink_other _ _ same, down]

/-! ### Descriptors and selection (R334, R337) -/

/-- What becomes of a descriptor that `q` has given: `s` is the state before it was taken, `t` the state after. -/
def State.txTake (s t : State) (q : Nat) (d : TxDesc) (frame : ExtData) : State :=
  if (s.queue q).txBad d then t.txDone q d (s.func (s.queue q).fn).gen txFaultField []
  else if t.mtu (s.queue q).mac < d.len + 4 then t.txDone q d (s.func (s.queue q).fn).gen txDropOversize []
  else
    match t.txBytes (s.queue q).fn d frame with
    | .error (t, st) => t.txDone q d (s.func (s.queue q).fn).gen st []
    | .ok bytes =>
      if !t.portOn (s.queue q).mac then t.txDone q d (s.func (s.queue q).fn).gen txFlushed []
      else
        let h : TxHead := { desc := d, gen := (s.func (s.queue q).fn).gen, bytes := bytes, past := none }
        (({ t with net := { t.net with heads := t.net.heads.put q h } } : State).testHead q).baseTag (s.queue q).mac d.tc

theorem exec_txDescriptorFetch_of_entry {entry : ExtData} {bs : List Byte} (frame : ExtData) (en : (s.queue q).en = true)
    (typ : (s.queue q).typ = 3) (failed : (s.queue q).failed = false) (blocked : (s.queue q).blocked = false)
    (entries : (s.queue q).prod ≠ (s.queue q).cons) (nohead : s.net.heads.look q = none)
    (ring : s.ringEntry q (s.queue q).cons 32 entry = some bs) :
    exec (.txDescriptorFetch q entry frame) s = .next (s.txTake (s.consume q) q (decodeTx bs) frame) := by
  unfold exec execTxDescriptorFetch
  simp only [en, typ, failed, blocked, beq_eq_false_iff_ne.mpr entries, nohead, ring]
  rfl

theorem exec_frameSelect_of_none (pick : s.pickFrame m = none) {t : State}
    (tested : s = t.net.heads.foldl (fun s e => if (s.queue e.1).mac = m then s.testHead e.1 else s) t) : exec (.frameSelect m) t = .next s := by
  subst tested
  rw [exec, execFrameSelect]
  simp only [pick]

theorem exec_frameSelect_of_pick {c : Nat} {h : TxHead} {u : MacTx} (pick : s.pickFrame m = some (c, q, h, u)) {t : State}
    (tested : s = t.net.heads.foldl (fun s e => if (s.queue e.1).mac = m then s.testHead e.1 else s) t) :
    exec (.frameSelect m) t = .next (s.startFrame m c q h u) := by
  subst tested
  rw [exec, execFrameSelect]
  simp only [pick]

theorem exec_gclGo_of_list {w : W32} (go : w.toNat.testBit 0 = true) (mac : m < 64) (entries : (s.adminList m).entries ≠ [])
    (cycle : (s.adminList m).cycle ≠ 0) : exec (.gclGo m w) s = .next ((s.setMac m { s.mac m with next := some (s.adminList m,
      (s.adminList m).cycleStart (if reached s.now (s.reg64 (Reg.HST_GCL_CHANGE m)) then s.now else s.reg64 (Reg.HST_GCL_CHANGE m))) }).setField
        (Reg.HST_STATUS m) 1 1 1) := by
  rw [exec, execGclGo, State.gclGo, if_neg (by simp [go, mac]), if_neg (by simp [entries, cycle])]

theorem exec_gclGo_of_empty {w : W32} (go : w.toNat.testBit 0 = true) (mac : m < 64)
    (empty : (s.adminList m).entries = [] ∨ (s.adminList m).cycle = 0) : exec (.gclGo m w) s = .next (s.setField (Reg.HST_STATUS m) 12 12 1) := by
  rw [exec, execGclGo, State.gclGo, if_neg (by simp [go, mac]), if_pos (by simpa using empty)]

theorem State.hstTxqSet_of_own {i : Issuer} {k : Nat} {drop : Bool} (taken : Taken s i 0x0410)
    (owned : s.poolQueue (s.issuerFn i) q = some k) (en : (s.queue k).en = true) (typ : (s.queue k).typ = 3)
    (fn : (s.queue k).fn = s.issuerFn i) (known : (s.box i).version ≠ 1 ∨ drop = false) :
    exec (.hstTxqSet i q drop) s = .next ((s.setQueue k { s.queue k with dropLate := drop }).answer i 0 0 []) := by
  refine congrArg Host.Outcome.next (State.command_of_ok taken ?_)
  have allowed : ((s.box i).version == 1 && drop) = false := by
    rcases known with other | off
    · simp [other]
    · simp [off]
  simp [owned, en, typ, fn, allowed]

end

/-! ### The obligation -/

/-- Settles O44, one rule per command, pick and change of a link. -/
theorem framesAreSent : Obligations.FramesAreSent := by
  unfold Obligations.FramesAreSent
  refine ⟨?_, ?_, fun s m c q h u pick => ?_, fun s m l line mac tc => exec_frameSent line mac tc, fun s m w => exec_gclGo_of_list,
    fun s m w => exec_gclGo_of_empty, fun s m t l pending due => ?_, fun s i q k drop => State.hstTxqSet_of_own, fun _ _ => rfl, fun s m on => ?_,
    fun s m up => ⟨s.mac_setLink_same m up, fun k other => s.mac_setLink_other up other⟩,
    fun s p present => ⟨congrArg Host.Outcome.next (if_pos present), s.flag_portOff p, fun k => s.mac_portOff p⟩⟩
  · rintro s v q entry frame bs d en typ failed blocked entries nohead ring rfl rfl
    rw [exec_txDescriptorFetch_of_entry frame en typ failed blocked entries nohead ring, State.txTake]
    refine ⟨fun bad => ?_, fun good long => ?_, fun bytes good fits read on => ?_, fun bytes good fits read off => ?_⟩
    · rw [if_pos bad, txFaultField]
    · rw [if_neg (by simp [good]), if_pos long, txDropOversize]
    · rw [if_neg (by simp [good]), if_neg (by omega), read]
      exact congrArg Host.Outcome.next (if_neg (by simp [on]))
    · rw [if_neg (by simp [good]), if_neg (by omega), read]
      exact congrArg Host.Outcome.next (if_pos (by simp [off]))
  · rintro s v m tested
    exact ⟨fun pick => exec_frameSelect_of_none pick tested, fun c q h u pick => exec_frameSelect_of_pick pick tested⟩
  · obtain ⟨head, before⟩ := State.clsHead_of_pickFrame pick
    exact ⟨State.txEligible_of_clsHead head, head, before⟩
  · refine ⟨_, exec_gclChange_of_due pending due, (State.mac_of_net (State.net_listShown ..) m).trans (s.mac_setMac_same m _),
      fun k other => (State.mac_of_net (State.net_listShown ..) k).trans (s.mac_setMac_other _ other), ?_⟩
    rw [State.showWindows_eq]
    rfl
  · rw [exec, execLinkChange, if_neg (by simp [on])]
    rfl

end Sys2Proof.Machine
end

section
/-! SUPPORT. Proofs about the Solder requester (R356, R357, R363 to R373, R376, R383, R385): what sending moves, what a packet of the network is
taken for, the retransmits, the peer window, and the obligation that these rules settle. -/

namespace Sys2Proof.Machine

section
variable {s t u : State} {n : Nat}

/-! ### Sending (R367, R369) -/

/-- What the sending of held operations moves: the destinations, the frames and operations it hands on, and the count of packets. -/
def SolderSends (s t : State) : Prop :=
  t = { s with regs := t.regs, sld := { s.sld with dests := t.sld.dests, tx := t.sld.tx, acc := t.sld.acc } } ∧
    ∀ a, a ∉ [Reg.SLD_TX_PKTS, Reg.SLD_TX_PKTS + 4] → t.reg a = s.reg a

theorem SolderSends.refl (s : State) : SolderSends s s := ⟨rfl, fun _ _ => rfl⟩

theorem SolderSends.trans (first : SolderSends s t) (second : SolderSends t u) : SolderSends s u :=
  ⟨second.1.trans (by rw [first.1]), fun a other => (second.2 a other).trans (first.2 a other)⟩

theorem SolderSends.after (second : SolderSends t u) (first : SolderSends s t) : SolderSends s u := first.trans second

theorem SolderSends.ite {c : Prop} [Decidable c] (yes : SolderSends s t) (no : SolderSends s u) : SolderSends s (if c then t else u) := by
  split
  · exact yes
  · exact no

theorem solderSends_dest (s : State) (n : Nat) (d : SldDest) : SolderSends s (s.setDest n d) := ⟨rfl, fun _ _ => rfl⟩

theorem solderSends_acc (s : State) (acc : List SldAcc) : SolderSends s { s with sld := { s.sld with acc := acc } } := ⟨rfl, fun _ _ => rfl⟩

theorem solderSends_sldSend (s : State) (n : Nat) (payload : List Byte) : SolderSends s (s.sldSend n payload) := by
  unfold State.sldSend
  split
  · exact .refl s
  · refine ⟨rfl, fun a other => ?_⟩
    simp only [List.mem_cons, List.not_mem_nil, or_false, not_or] at other
    exact State.reg_bump_other _ _ _ _ (Ne.symm other.1) (Ne.symm other.2)

theorem solderSends_sldPump (s : State) (n k : Nat) : SolderSends s (s.sldPump n k) := by
  induction k generalizing s with
  | zero => exact .refl s
  | succ k ih =>
    rw [State.sldPump]
    dsimp only
    split
    · exact .refl s
    · split
      · exact .refl s
      · refine .ite ?_ ?_
        · exact (ih _).after ((solderSends_acc ..).after (solderSends_dest ..))
        · exact (ih _).after ((solderSends_sldSend ..).after (solderSends_dest ..))

theorem solderSends_sldRun (s : State) (n : Nat) : SolderSends s (s.sldRun n) := solderSends_sldPump ..

theorem solderSends_sldRunAll (s : State) : SolderSends s s.sldRunAll :=
  rel_foldl .refl .trans (fun s _ => solderSends_sldRun s _) s _

/-! ### Destinations -/

theorem State.dest_setDest_same (s : State) (n : Nat) (d : SldDest) : (s.setDest n d).dest n = d := by
  rw [State.dest, State.setDest, Tab.get_put, if_pos rfl]

/-! ### Packets of the network (R363, R364, R382) -/

theorem State.sldTake_of_good {bs : List Byte} {k : Nat} (on : s.sldOn = true) (long : 24 ≤ bs.length) (version : (decodeSldHdr bs).version = 1)
    (kind : (decodeSldHdr bs).kind = k) (addressed : (decodeSldHdr bs).dst = s.ownNode) (member : s.sld.selfFenced = false)
    (peer : (decodeSldHdr bs).src ∉ s.sld.expelled) : s.sldTake bs k true = (s.bump Reg.SLD_RX_PKTS 1, some (decodeSldHdr bs)) := by
  have own : (s.bump Reg.SLD_RX_PKTS 1).ownNode = s.ownNode := by
    rw [State.ownNode, State.field, State.reg_bump_other _ _ _ _ (by decide) (by decide), State.ownNode, State.field]
  have bars : (decide (k ≠ 3) && ((s.bump Reg.SLD_RX_PKTS 1).sld.selfFenced || (s.bump Reg.SLD_RX_PKTS 1).expelled (decodeSldHdr bs).src)) = false := by
    have : s.sld.expelled.contains (decodeSldHdr bs).src = false := by simp [peer]
    rw [show (s.bump Reg.SLD_RX_PKTS 1).sld.selfFenced = false from member, show (s.bump Reg.SLD_RX_PKTS 1).expelled _ = false from this]
    simp
  rw [State.sldTake, if_neg (by simp [on]), if_neg (by simp)]
  dsimp only
  rw [if_neg (by simp only [own]; omega), if_neg (by simp only [bars]; decide)]

theorem State.sldTake_of_bad_sum (on : s.sldOn = true) (bs : List Byte) (k : Nat) :
    s.sldTake bs k false = (s.bump Reg.SLD_CHECKSUM_DROP 1, none) := by
  rw [State.sldTake, if_neg (by simp [on]), if_pos (by simp)]

theorem exec_solderResponseReceive_of_session {v : State} {bs : List Byte} {ok : Bool} {h : SldHdr} (taken : s.sldTake bs 1 ok = (v, some h))
    (own : h.peer = v.ownInc) (session : (v.dest h.src).peerInc = 0 ∨ (v.dest h.src).peerInc = h.inc) (present : (v.dest h.src).lost = false)
    (u : State) (opened : u = v.setDest h.src { v.dest h.src with peerInc := h.inc, rto := 0 }) : exec (.solderResponseReceive bs ok) s =
      .next ((((if h.echo = true then u.sldEcho h.src else u).sldAnswers h.src (bs.drop 24) h.ops).sldRunAll).hostDone) := by
  have takes : ¬ (h.peer ≠ v.ownInc ∨ ((v.dest h.src).peerInc ≠ 0 ∧ (v.dest h.src).peerInc ≠ h.inc) ∨ (v.dest h.src).lost = true) := by
    rw [present]
    simp only [own, Bool.false_eq_true, or_false]
    omega
  subst opened
  rw [exec, execSolderResponseReceive, taken]
  exact congrArg Host.Outcome.next (if_neg takes)

theorem State.dest_sldEcho_first (first : (s.dest n).echoAt = none) :
    (s.sldEcho n).dest n = { s.dest n with w := max 1 ((s.dest n).w / 2), echoAt := some s.clk } := by
  have first' : ((s.bump Reg.SLD_ECN_ECHO_RX 1).dest n).echoAt = none := first
  rw [State.sldEcho]
  simp only [first', if_true]
  exact State.dest_setDest_same ..

theorem State.sldAnswer_of_packet {seq tag opc : Nat} (st : Nat) (data : List Byte) {p : SldPkt}
    (packet : (s.dest n).pkts.find? (fun p => p.seq == seq && p.op.tag == tag && p.op.opc == opc) = some p) (held : p.op.who ≠ .gone) :
    (s.sldAnswer n seq tag opc st data).sld.ans = s.sld.ans ++ [⟨p.op, st, data⟩] ∧
      (s.sldAnswer n seq tag opc st data).dest n = { s.dest n with pkts := (s.dest n).pkts.filter (·.seq != seq) } := by
  rw [State.sldAnswer]
  simp only [packet, beq_eq_false_iff_ne.mpr held, Bool.false_eq_true, if_false]
  exact ⟨rfl, s.dest_setDest_same n _⟩

section
variable {v : State} {bs : List Byte} {ok : Bool} {h : SldHdr} (taken : s.sldTake bs 2 ok = (v, some h)) (own : h.peer = v.ownInc)
  (present : (v.dest h.src).lost = false)
include taken own present

theorem exec_solderNakReceive_of_gap (gap : h.reason = 1) : exec (.solderNakReceive bs ok) s =
    .next (v.sldResend h.src (((v.dest h.src).pkts.filter fun p => !seqStale 24 p.seq h.seq).take (v.dest h.src).w)) := by
  rw [exec, execSolderNakReceive, taken]
  simp [own, present, gap]

theorem exec_solderNakReceive_of_retired (closed : h.reason = 2) (retired : (v.dest h.src).pkts = []) : exec (.solderNakReceive bs ok) s =
    .next ((v.setDest h.src { v.dest h.src with peerInc := 0 }).sldRun h.src) := by
  rw [exec, execSolderNakReceive, taken]
  simp [own, present, closed, retired]

theorem exec_solderNakReceive_of_unretired (closed : h.reason = 2) (unretired : (v.dest h.src).pkts ≠ []) : exec (.solderNakReceive bs ok) s =
    .next ((v.setDest h.src { v.dest h.src with lost := true }).pfEvent 0x011C h.src (v.dest h.src).pkts.length 0 0) := by
  rw [exec, execSolderNakReceive, taken]
  simp [own, present, closed, unretired]

end

/-! ### Retransmits (R371) -/

/-- The packets sent again, before their times are marked. -/
def State.sldSendAgain (s : State) (n : Nat) (ps : List SldPkt) : State :=
  ps.foldl (fun s p => (s.sldSend n (s.sldRequest n p true)).bump Reg.SLD_RETX 1) s

/-- What a retransmit leaves: all but the frames and the counts of packets. -/
def SolderRetx (s t : State) : Prop :=
  t = { s with regs := t.regs, sld := { s.sld with tx := t.sld.tx } } ∧
    ∀ a, a ∉ [Reg.SLD_TX_PKTS, Reg.SLD_TX_PKTS + 4, Reg.SLD_RETX, Reg.SLD_RETX + 4] → t.reg a = s.reg a

theorem solderRetx_again (s : State) (n : Nat) (p : SldPkt) : SolderRetx s ((s.sldSend n (s.sldRequest n p true)).bump Reg.SLD_RETX 1) := by
  have kept {t : State} (sent : t = { s with regs := t.regs, sld := { s.sld with tx := t.sld.tx } }) : t.bump Reg.SLD_RETX 1 =
      { s with regs := (t.bump Reg.SLD_RETX 1).regs, sld := { s.sld with tx := t.sld.tx } } := by
    rw [sent]
    rfl
  refine ⟨kept ?_, fun a other => ?_⟩
  · unfold State.sldSend
    split <;> rfl
  · simp only [List.mem_cons, List.not_mem_nil, or_false, not_or] at other
    obtain ⟨tx, tx', retx, retx'⟩ := other
    rw [State.reg_bump_other _ _ _ _ (Ne.symm retx) (Ne.symm retx')]
    exact (solderSends_sldSend ..).2 a (by simp [tx, tx'])

theorem solderRetx_sendAgain (s : State) (n : Nat) (ps : List SldPkt) : SolderRetx s (s.sldSendAgain n ps) :=
  rel_foldl (R := SolderRetx) (fun _ => ⟨rfl, fun _ _ => rfl⟩)
    (fun first second => ⟨second.1.trans (by rw [first.1]), fun a other => (second.2 a other).trans (first.2 a other)⟩)
    (fun s p => solderRetx_again s n p) s ps

theorem State.reg_sldResend_other (s : State) (n : Nat) (ps : List SldPkt) {a : Nat}
    (other : a ∉ [Reg.SLD_TX_PKTS, Reg.SLD_TX_PKTS + 4, Reg.SLD_RETX, Reg.SLD_RETX + 4]) : (s.sldResend n ps).reg a = s.reg a :=
  (solderRetx_sendAgain s n ps).2 a other

theorem SolderRetx.sldRequest (kept : SolderRetx s t) (n : Nat) (p : SldPkt) : t.sldRequest n p true = s.sldRequest n p true := by
  have dest : t.dest n = s.dest n := by rw [kept.1]; rfl
  rw [State.sldRequest, dest, State.ownNode, State.field, kept.2 _ (by decide), State.ownInc, kept.2 _ (by decide), State.sldRequest, State.ownNode,
    State.field, State.ownInc]

theorem State.sldSend_of_peer {p : SldPeer} (peer : s.sld.peers.look n = some p) (payload : List Byte) :
    ∃ f : SldFrame, f.payload = payload ∧ (s.sldSend n payload).sld.tx = s.sld.tx ++ [f] := by
  rw [State.sldSend, peer]
  exact ⟨_, rfl, rfl⟩

theorem State.retx_again (s : State) (n : Nat) (payload : List Byte) :
    ((s.sldSend n payload).bump Reg.SLD_RETX 1).reg64 Reg.SLD_RETX = (s.reg64 Reg.SLD_RETX + 1) % 2 ^ 64 := by
  rw [State.reg64_bump, State.reg64, (solderSends_sldSend ..).2 _ (by decide), (solderSends_sldSend ..).2 _ (by decide), State.reg64]

theorem State.reg64_lt (s : State) (a : Nat) : s.reg64 a < 2 ^ 64 := by
  have low := s.reg_lt a
  have high := s.reg_lt (a + 4)
  rw [State.reg64]
  omega

theorem State.sendAgain_frames {p : SldPeer} (peer : s.sld.peers.look n = some p) (ps : List SldPkt) :
    (∃ fs, (s.sldSendAgain n ps).sld.tx = s.sld.tx ++ fs ∧ fs.map (·.payload) = ps.map (s.sldRequest n · true)) ∧
      (s.sldSendAgain n ps).reg64 Reg.SLD_RETX = (s.reg64 Reg.SLD_RETX + ps.length) % 2 ^ 64 := by
  induction ps generalizing s with
  | nil => exact ⟨⟨[], (List.append_nil _).symm, rfl⟩, (Nat.mod_eq_of_lt (s.reg64_lt _)).symm⟩
  | cons q ps ih =>
    have kept := solderRetx_again s n q
    obtain ⟨f, payload, tx⟩ := State.sldSend_of_peer peer (s.sldRequest n q true)
    obtain ⟨⟨fs, later, payloads⟩, count⟩ := ih (s := (s.sldSend n (s.sldRequest n q true)).bump Reg.SLD_RETX 1) (by rw [kept.1]; exact peer)
    refine ⟨⟨f :: fs, ?_, ?_⟩, ?_⟩
    · exact later.trans (by rw [show (State.bump _ _ _).sld.tx = _ from tx, List.append_assoc, List.singleton_append])
    · rw [List.map_cons, List.map_cons, payloads, payload, List.map_congr_left fun r _ => kept.sldRequest n r]
    · refine count.trans ?_
      rw [State.retx_again, List.length_cons]
      omega

theorem exec_retransmitTimeout_of_unretired (unretired : (s.dest n).pkts ≠ []) (clear : s.sldClear n = true) (other : n ≠ s.ownNode) {r : State}
    (resent : r = s.sldResend n ((s.dest n).pkts.take (s.dest n).w)) : exec (.retransmitTimeout n) s =
      .next (r.setDest n { r.dest n with w := 1, rto := min (2 * s.rtoOf (s.dest n)) (s.reg Reg.SLD_RTO_MAX_US) }) := by
  subst resent
  have waits : ¬ ((s.dest n).pkts.isEmpty || !s.sldClear n || n == s.ownNode) = true := by simp [unretired, clear, other]
  have rto (t : State) (kept : t.reg Reg.SLD_RTO_MIN_US = s.reg Reg.SLD_RTO_MIN_US) (d : SldDest) : t.rtoOf d = s.rtoOf d := by
    rw [State.rtoOf, kept, State.rtoOf]
  rw [exec, execRetransmitTimeout]
  refine congrArg Host.Outcome.next ((if_neg waits).trans ?_)
  dsimp only
  rw [rto _ (State.reg_sldResend_other _ _ _ (by decide)), State.reg_sldResend_other _ _ _ (by decide)]

/-! ### The peer window (R385) -/

/-- The word of the window that shows a peer's state: its code, whether it is expelled, and W. -/
def State.peerWord (s : State) (n : Nat) : Nat := (s.dest n).code + 4 * b2n (s.expelled n) + 8 * (s.dest n).w

theorem SldDest.code_lt (d : SldDest) : d.code < 4 := by
  unfold SldDest.code
  split
  · decide
  · split <;> decide

theorem State.sldPeerSel_window (s : State) (v : W32) (n : Nat) (selected : n = v.toNat % 2 ^ 14) :
    (s.sldPeerSel v).reg Reg.SLD_PEER_SEL = n ∧ (s.sldPeerSel v).reg Reg.SLD_PEER_STATE = s.peerWord n % 2 ^ 32 ∧
      (s.sldPeerSel v).reg Reg.SLD_PEER_UNRETIRED = (s.dest n).pkts.length % 2 ^ 32 ∧
      (s.sldPeerSel v).reg Reg.SLD_PEER_RTO_US = s.rtoOf (s.dest n) % 2 ^ 32 ∧ s.sldPeerSel v = { s with regs := (s.sldPeerSel v).regs } := by
  subst selected
  have small : v.toNat % 2 ^ 14 % 2 ^ 32 = v.toNat % 2 ^ 14 := Nat.mod_eq_of_lt (by omega)
  refine ⟨?_, ?_, ?_, ?_, rfl⟩
  · rw [State.sldPeerSel, State.reg_setReg_other _ _ _ _ (by decide), State.reg_setReg_other _ _ _ _ (by decide), State.reg_setReg_other _ _ _ _ (by decide),
      State.reg_setReg_other _ _ _ _ (by decide), State.reg_setReg_same, small]
  · rw [State.sldPeerSel, State.reg_setReg_other _ _ _ _ (by decide), State.reg_setReg_other _ _ _ _ (by decide), State.reg_setReg_other _ _ _ _ (by decide),
      State.reg_setReg_same]
    rfl
  · rw [State.sldPeerSel, State.reg_setReg_other _ _ _ _ (by decide), State.reg_setReg_other _ _ _ _ (by decide), State.reg_setReg_same]
  · rw [State.sldPeerSel, State.reg_setReg_other _ _ _ _ (by decide), State.reg_setReg_same, State.rtoOf, State.reg_setReg_other _ _ _ _ (by decide),
      State.reg_setReg_other _ _ _ _ (by decide), State.reg_setReg_other _ _ _ _ (by decide), State.rtoOf]

theorem exec_sldPeerSel_window (s : State) (v : W32) (n : Nat) (selected : n = v.toNat % 2 ^ 14) :
    ∃ t : State, exec (.sldPeerSel v) s = .next t ∧ t.reg Reg.SLD_PEER_SEL = n ∧
      t.field Reg.SLD_PEER_STATE 1 0 = (if (s.dest n).lost = true then 2 else if (s.dest n).peerInc = 0 then 0 else 1) ∧
      t.flag Reg.SLD_PEER_STATE 2 = s.expelled n ∧ t.reg Reg.SLD_PEER_UNRETIRED = (s.dest n).pkts.length % 2 ^ 32 ∧
      t.reg Reg.SLD_PEER_RTO_US = (if (s.dest n).rto = 0 then s.reg Reg.SLD_RTO_MIN_US else (s.dest n).rto) % 2 ^ 32 ∧
      t = { s with regs := t.regs } := by
  obtain ⟨sel, shown, unretired, rto, rest⟩ := s.sldPeerSel_window v n selected
  have code := (s.dest n).code_lt
  refine ⟨_, rfl, sel, ?_, ?_, unretired, rto, rest⟩
  · rw [State.field, shown, bits, Nat.shiftRight_zero, State.peerWord]
    change _ = (s.dest n).code
    omega
  · rw [State.flag, shown, State.peerWord, Nat.testBit_eq_decide_div_mod_eq]
    cases s.expelled n
    · rw [show b2n false = 0 from rfl, decide_eq_false_iff_not]
      omega
    · rw [show b2n true = 1 from rfl, decide_eq_true_eq]
      omega

/-! ### Enabling (R372, R385) -/

/-- Solder enabled with a fresh incarnation, before held operations go out. -/
def State.sldEnabled (s : State) (v : W32) : State :=
  let t := s.setReg Reg.SLD_CTRL (v.toNat % 2)
  ((t.setReg Reg.SLD_INCARNATION (Config.freeValue t.nonce % (2 ^ 32 - 1) + 1)).tickNonce).setField Reg.SLD_STATUS 0 0 1

theorem State.sldCtrl_of_enable {v : W32} (on : v.toNat.testBit 0 = true) (off : s.sldOn = false) : s.sldCtrl v = (s.sldEnabled v).sldRunAll := by
  rw [State.sldCtrl]
  dsimp only
  rw [if_pos (by simp [on, off])]
  rfl

theorem exec_sldCtrlEn_of_enable {v : W32} (on : v.toNat.testBit 0 = true) (off : s.sldOn = false) : ∃ t : State, exec (.sldCtrlEn v) s = .next t ∧
    t.reg Reg.SLD_CTRL = 1 ∧ t.flag Reg.SLD_STATUS 0 = true ∧ t.reg Reg.SLD_INCARNATION ≠ 0 := by
  have odd : v.toNat % 2 = 1 := by simpa [Nat.testBit_zero] using on
  obtain ⟨-, kept⟩ := solderSends_sldRunAll (s.sldEnabled v)
  refine ⟨_, congrArg Host.Outcome.next (State.sldCtrl_of_enable on off), ?_, ?_, ?_⟩
  · rw [kept _ (by decide), State.sldEnabled, State.reg_setField_other _ _ _ _ _ (by decide), State.tickNonce]
    refine (State.reg_setReg_other _ _ _ _ (by decide)).trans ?_
    rw [State.reg_setReg_same, odd]
    rfl
  · rw [State.flag, kept _ (by decide), State.sldEnabled, ← State.flag, State.flag_setField _ _ (le_refl 0), if_pos ⟨le_refl 0, le_refl 0⟩]
    rfl
  · rw [kept _ (by decide), State.sldEnabled, State.reg_setField_other _ _ _ _ _ (by decide), State.tickNonce]
    refine fun zero => absurd ((State.reg_setReg_same _ _ _).symm.trans zero) ?_
    omega

/-- A session closed by disabling: its incarnation is forgotten, and a peer with unretired operations is lost. -/
def SldDest.closed (d : SldDest) : SldDest := { d with peerInc := 0, lost := d.lost || !d.pkts.isEmpty }

/-- Solder disabled, its sessions dropped. -/
def State.sldDisabled (s : State) (v : W32) : State :=
  let t := (s.setReg Reg.SLD_CTRL (v.toNat % 2)).setField Reg.SLD_STATUS 0 0 0
  { t with sld := { t.sld with srcs := [], dests := t.sld.dests.map fun e => (e.1, e.2.closed) } }

theorem State.sldCtrl_of_disable {v : W32} (off : v.toNat.testBit 0 = false) (on : s.sldOn = true) : s.sldCtrl v = s.sldDisabled v := by
  rw [State.sldCtrl]
  dsimp only
  rw [if_neg (by simp [on]), if_pos (by simp [on, off])]
  rfl

theorem State.peerInc_sldDisabled (s : State) (v : W32) (n : Nat) : ((s.sldDisabled v).dest n).peerInc = 0 :=
  congrArg SldDest.peerInc (Tab.get_map (f := SldDest.closed) (d := {}) rfl s.sld.dests n)

theorem exec_sldCtrlEn_of_disable {v : W32} (off : v.toNat.testBit 0 = false) (on : s.sldOn = true) :
    ∃ t : State, exec (.sldCtrlEn v) s = .next t ∧ t.reg Reg.SLD_CTRL = 0 ∧ t.flag Reg.SLD_STATUS 0 = false ∧ t.sld.srcs = [] ∧
      (∀ n, (t.dest n).peerInc = 0) ∧ t = { s with regs := t.regs, sld := t.sld } := by
  have even : v.toNat % 2 = 0 := by
    have := Nat.testBit_zero v.toNat ▸ off
    simpa using this
  refine ⟨_, congrArg Host.Outcome.next (State.sldCtrl_of_disable off on), ?_, ?_, rfl, s.peerInc_sldDisabled v, rfl⟩
  · refine (State.reg_setField_other _ _ _ _ _ (by decide)).trans ?_
    rw [State.reg_setReg_same, even]
    rfl
  · exact (State.flag_setField _ _ (le_refl 0) _ _).trans (if_pos ⟨le_refl 0, le_refl 0⟩)

/-! ### Peer commands (R356, R357, R372, R383) -/

theorem exec_sldLocalSet_of_mac {i : Issuer} {m : Nat} (ip : Nat) (taken : Taken s i 0x0501) (mac : m < 64) : exec (.sldLocalSet i m ip) s =
    .next (({ s with sld := { s.sld with locals := s.sld.locals.put m (ip % 2 ^ 128) } } : State).answer i 0 0 []) :=
  congrArg Host.Outcome.next (State.command_of_ok taken (if_neg (Nat.not_le.mpr mac)))

/-- The entry that words P0, P1, P2 and P4 of an IPv4 peer make. -/
def ipv4Peer (p0 p1 p2 p4 : Nat) : SldPeer :=
  { mac := bits p0 5 0, v6 := false, valid := bit p0 7, tagged := bit p0 8, vid := bits p0 20 9, pcp := bits p0 23 21
    hop := p1 + 2 ^ 32 * bits p2 15 0, ip := p4 }

theorem exec_sldPeerSet_of_ipv4 {i : Issuer} {p0 p1 p2 p4 : Nat} (taken : Taken s i 0x0502) (node : n < 2 ^ 14) (h0 : p0 < 2 ^ 24) (h1 : p1 < 2 ^ 32)
    (h2 : p2 < 2 ^ 16) (h4 : p4 < 2 ^ 32) (v4 : p0.testBit 6 = false) : exec (.sldPeerSet i n [p0, p1, p2, 0, p4, 0, 0, 0]) s =
      .next ((({ s with sld := { s.sld with peers := s.sld.peers.put n (ipv4Peer p0 p1 p2 p4) } } : State).sldRun n).answer i 0 0 []) := by
  have word {p : Nat} (small : p < 2 ^ 32) : (p : W32).toNat = p := by
    simp only [BitVec.natCast_eq_ofNat, BitVec.toNat_ofNat]
    omega
  have zero : (0 : W32).toNat = 0 := rfl
  have top0 : bits p0 31 24 = 0 := by
    rw [bits, Nat.shiftRight_eq_div_pow]
    omega
  have top2 : bits p2 31 16 = 0 := by
    rw [bits, Nat.shiftRight_eq_div_pow]
    omega
  refine congrArg Host.Outcome.next (State.command_of_ok taken ?_)
  simp only [nth, word h1, word h4, word (show p0 < 2 ^ 32 by omega), word (show p2 < 2 ^ 32 by omega), zero, top0, top2, bit, v4]
  refine (if_neg ?_).trans ?_
  · simpa using node
  · simp [ipv4Peer, bit, bits]

theorem exec_sldPeerReopen_of_owned {i : Issuer} (taken : Taken s i 0x0503) (node : n < 2 ^ 14)
    (owned : ∃ p ∈ (s.dest n).pkts, p.op.ctx.isSome = true) : exec (.sldPeerReopen i n) s = .next (s.refuse i 8) := by
  refine congrArg Host.Outcome.next (State.command_of_error taken (status := stBusy) (by decide) ?_)
  dsimp only
  rw [if_neg (by omega), if_pos (by simpa using owned)]

theorem exec_sldPeerReopen_of_lost {i : Issuer} (taken : Taken s i 0x0503) (node : n < 2 ^ 14) (free : ∀ p ∈ (s.dest n).pkts, p.op.ctx = none)
    (lost : (s.dest n).lost = true) : exec (.sldPeerReopen i n) s =
      .next (((s.setDest n { s.dest n with lost := false, peerInc := 0, pkts := [] }).sldRunAll).answer i 0 0 []) := by
  refine congrArg Host.Outcome.next (State.command_of_ok taken ?_)
  dsimp only
  rw [if_neg (by omega), if_neg (by simpa using free), if_pos lost]

theorem exec_sldFuncDomain_of_function {i : Issuer} {fn d : Nat} (taken : Taken s i 0x0504) (function : fn < 1024) (domain : d < 2 ^ 16) :
    exec (.sldFuncDomain i fn d) s = .next ((s.setFunc fn { s.func fn with domain := d }).answer i 0 0 []) := by
  refine congrArg Host.Outcome.next (State.command_of_ok taken ?_)
  dsimp only
  rw [if_neg (by omega)]

end

/-! ### The obligation -/

/-- Settles O46, one rule per packet, command and register of the requester. -/
theorem solderRequesterWorks : Obligations.SolderRequesterWorks := by
  unfold Obligations.SolderRequesterWorks
  refine ⟨fun s bs k on long version kind addressed member peer =>
      ⟨State.sldTake_of_good on long version kind addressed member peer, State.sldTake_of_bad_sum on bs k⟩,
    fun s v bs ok h taken own session present => ⟨_, rfl, exec_solderResponseReceive_of_session taken own session present _ rfl⟩,
    fun s n => State.dest_sldEcho_first, fun s n seq tag opc st data p => State.sldAnswer_of_packet st data,
    fun s v bs ok h taken own present => ⟨exec_solderNakReceive_of_gap taken own present, exec_solderNakReceive_of_retired taken own present,
      exec_solderNakReceive_of_unretired taken own present⟩,
    fun s r n unretired clear other => exec_retransmitTimeout_of_unretired unretired clear other, fun s n ps p peer => s.sendAgain_frames peer ps, fun _ _ => rfl, exec_sldPeerSel_window,
    fun s v => exec_sldCtrlEn_of_enable, fun s v => exec_sldCtrlEn_of_disable, fun s i m ip => exec_sldLocalSet_of_mac ip,
    fun s i n p0 p1 p2 p4 taken node h0 h1 h2 h4 v4 => ?_,
    fun s i n taken node => ⟨exec_sldPeerReopen_of_owned taken node, exec_sldPeerReopen_of_lost taken node⟩,
    fun s i fn d => exec_sldFuncDomain_of_function⟩
  refine ⟨ipv4Peer p0 p1 p2 p4, ?_, rfl, rfl, ?_, rfl, exec_sldPeerSet_of_ipv4 taken node h0 h1 h2 h4 v4⟩
  · simp [ipv4Peer, bits]
  · have whole : bits p2 15 0 = p2 := Nat.mod_eq_of_lt h2
    rw [ipv4Peer, whole]

end Sys2Proof.Machine
end

section
/-! SUPPORT. Proofs about the Solder responder and the quorum (R358 to R360, R367, R370, R374, R378 to R382), one rule per packet, operation and
command, and the obligation that these rules settle. -/

namespace Sys2Proof.Machine

section
variable {s : State}

/-! ### Requests (R370) -/

section
variable {v : State} {bs : List Byte} {ce ok : Bool} {h : SldHdr} {rs : List SldRec} {r : SldSrc} (taken : s.sldTake bs 0 ok = (v, some h))
  (some_ops : 1 ≤ h.ops) (few_ops : h.ops ≤ 16) (decoded : decodeSldOps h.ops (bs.drop 24) = some rs)
  (session : v.sld.srcs.look h.src = some r)
include taken some_ops few_ops decoded session

/-- What becomes of a well-formed REQUEST of a source that has a session. -/
theorem exec_solderRequestReceive_of_session : exec (.solderRequestReceive bs ce ok) s =
    .next (if h.isOpen && r.inc != h.inc then (v.setSrc h.src { inc := h.inc, expected := h.seq }).sldAccept h rs ce
      else if r.inc == h.inc && (h.isOpen || h.peer == v.ownInc) then
        if h.seq = r.expected then v.sldAccept h rs ce
        else if seqNewer 24 h.seq r.expected then v.sldGap h.src
        else (h.accs false 0 rs).foldl (fun s a => s.sldDup a) (v.bump Reg.SLD_DUP_RX 1)
      else v.sldNak h.src 2 h.inc) := by
  have ops : (if h.ops = 0 ∨ 16 < h.ops then none else decodeSldOps h.ops (bs.drop 24)) = some rs := by
    rw [if_neg (by omega), decoded]
  have src : v.src h.src = r := by rw [State.src, Tab.get, session]; rfl
  rw [exec, execSolderRequestReceive, taken]
  dsimp only
  simp only [ops, src, session, Option.isSome_some, Bool.not_true, Bool.false_or, Bool.true_and]

theorem exec_solderRequestReceive_of_next (same : r.inc = h.inc) (own : h.peer = v.ownInc) (next : h.seq = r.expected) :
    exec (.solderRequestReceive bs ce ok) s = .next (v.sldAccept h rs ce) := by
  rw [exec_solderRequestReceive_of_session taken some_ops few_ops decoded session, if_neg (by simp [same]), if_pos (by simp [same, own]),
    if_pos next]

theorem exec_solderRequestReceive_of_newer (same : r.inc = h.inc) (own : h.peer = v.ownInc) (other : h.seq ≠ r.expected)
    (newer : seqNewer 24 h.seq r.expected = true) : exec (.solderRequestReceive bs ce ok) s = .next (v.sldGap h.src) := by
  rw [exec_solderRequestReceive_of_session taken some_ops few_ops decoded session, if_neg (by simp [same]), if_pos (by simp [same, own]),
    if_neg other, if_pos newer]

theorem exec_solderRequestReceive_of_older (same : r.inc = h.inc) (own : h.peer = v.ownInc) (other : h.seq ≠ r.expected)
    (older : seqNewer 24 h.seq r.expected = false) : exec (.solderRequestReceive bs ce ok) s =
      .next ((h.accs false 0 rs).foldl (fun s a => s.sldDup a) (v.bump Reg.SLD_DUP_RX 1)) := by
  rw [exec_solderRequestReceive_of_session taken some_ops few_ops decoded session, if_neg (by simp [same]), if_pos (by simp [same, own]),
    if_neg other, if_neg (by simp [older])]

theorem exec_solderRequestReceive_of_open (isOpen : h.isOpen = true) (fresh : r.inc ≠ h.inc) : exec (.solderRequestReceive bs ce ok) s =
    .next ((v.setSrc h.src { inc := h.inc, expected := h.seq }).sldAccept h rs ce) := by
  rw [exec_solderRequestReceive_of_session taken some_ops few_ops decoded session, if_pos (by simp [isOpen, fresh])]

theorem exec_solderRequestReceive_of_stranger (closed : h.isOpen = false) (stranger : r.inc ≠ h.inc ∨ h.peer ≠ v.ownInc) :
    exec (.solderRequestReceive bs ce ok) s = .next (v.sldNak h.src 2 h.inc) := by
  rw [exec_solderRequestReceive_of_session taken some_ops few_ops decoded session, if_neg (by simp [closed]), if_neg ?_]
  simp only [closed, Bool.false_or, Bool.and_eq_true, beq_iff_eq, not_and]
  rintro same own
  exact stranger.elim (· same) (· own)

end

theorem SldHdr.length_accs (h : SldHdr) (echo : Bool) (k : Nat) (rs : List SldRec) : (h.accs echo k rs).length = rs.length := by
  induction rs generalizing k with
  | nil => rfl
  | cons r rs ih => rw [SldHdr.accs, List.length_cons, ih, List.length_cons]

theorem State.sldAccept_of_room (h : SldHdr) {rs : List SldRec} (ce : Bool) (room : s.sld.acc.length + rs.length ≤ 65536) :
    ((s.sldAccept h rs ce).src h.src).expected = ((s.src h.src).expected + 1) % 2 ^ 24 ∧
      (s.sldAccept h rs ce).sld.acc.length = s.sld.acc.length + rs.length := by
  rw [State.sldAccept]
  dsimp only
  rw [if_neg (by rw [sldInbound]; omega)]
  refine ⟨?_, (List.length_append).trans (by rw [SldHdr.length_accs]; rfl)⟩
  change ((s.setSrc h.src _).src h.src).expected = _
  rw [State.setSrc, State.src, Tab.get_put, if_pos rfl]

theorem State.sldAccept_of_full (h : SldHdr) {rs : List SldRec} (ce : Bool) (full : 65536 < s.sld.acc.length + rs.length) :
    s.sldAccept h rs ce = s.bump Reg.SLD_RX_OVERFLOW 1 :=
  if_pos full

/-! ### Replies change no memory (R370, R374) -/

theorem State.tier_sldAnswer (s : State) (n seq tag opc status : Nat) (data : List Byte) : (s.sldAnswer n seq tag opc status data).tier = s.tier := by
  unfold State.sldAnswer
  dsimp only
  split
  · rfl
  · split
    · split <;> rfl
    · rfl

theorem State.tier_sldSend (s : State) (n : Nat) (payload : List Byte) : (s.sldSend n payload).tier = s.tier := by
  rw [(solderSends_sldSend s n payload).1]

theorem State.tier_sldReply (s : State) (a : SldAcc) (status : Nat) (data : List Byte) : (s.sldReply a status data).tier = s.tier := by
  unfold State.sldReply
  split
  · exact State.tier_sldAnswer ..
  · dsimp only
    split
    · rfl
    · exact State.tier_sldSend ..

theorem State.tier_sldDup (s : State) (a : SldAcc) : (s.sldDup a).tier = s.tier := by
  unfold State.sldDup
  dsimp only
  split
  · rfl
  · split
    · exact State.tier_sldReply ..
    · split
      · split
        · split
          · exact State.tier_sldReply ..
          · rfl
        · rfl
      · rfl

/-! ### Operations (R358 to R360, R367, R374) -/

section
variable {k : Nat} {a : SldAcc} (entry : s.sld.acc[k]? = some a) (alone : sldBehind a (s.sld.acc.take k) = false)
  (member : a.loc = false ∨ s.sld.selfFenced = false) (ready : s.sldStalled a = none)
include alone member ready

theorem State.runs_of_alone : (sldBehind a (s.sld.acc.take k) || (a.loc && s.sld.selfFenced) || (s.sldStalled a).isSome) = false := by
  rw [alone, ready]
  rcases member with remote | member
  · simp [remote]
  · simp [member]

include entry

theorem exec_solderOpPerform_of_located {t : Nat} {v : State} (taken : v = { s with sld := { s.sld with acc := s.sld.acc.eraseIdx k } })
    (located : v.sldLocate a.opc a.len a.off a.domain = .ok t) :
    exec (.solderOpPerform k) s = .next (((v.sldPerform a t).sldRunAll).hostDone) := by
  subst taken
  rw [exec, execSolderOpPerform]
  simp only [entry, State.runs_of_alone alone member ready, Bool.false_eq_true, if_false, located]

theorem exec_solderOpPerform_of_failed {e : Nat} {v : State} (taken : v = { s with sld := { s.sld with acc := s.sld.acc.eraseIdx k } })
    (failed : v.sldLocate a.opc a.len a.off a.domain = .error e) :
    exec (.solderOpPerform k) s = .next ((((v.sldKeep a e 0).sldReply a e []).sldRunAll).hostDone) := by
  subst taken
  rw [exec, execSolderOpPerform]
  simp only [entry, State.runs_of_alone alone member ready, Bool.false_eq_true, if_false, failed]

end

section
variable {a : SldAcc} {t : Nat} (free : s.sldForbidden a t = [])
include free

theorem State.sldPerform_of_store (store : a.opc = 1) : s.sldPerform a t = (s.tierWrite t a.data).sldReply a 0 [] := by
  have other : ¬ a.opc = 12 := by omega
  simp only [State.sldPerform, other, if_false, free, List.isEmpty_nil, Bool.not_true, Bool.false_eq_true]
  exact if_pos store

theorem State.sldPerform_of_load (load : a.opc = 0) (good : s.poisonIn t a.len = none) :
    s.sldPerform a t = s.sldReply a 0 (s.tierRead t a.len) := by
  have other : ¬ a.opc = 12 := by omega
  have noStore : ¬ a.opc = 1 := by omega
  simp only [State.sldPerform, other, if_false, free, List.isEmpty_nil, Bool.not_true, Bool.false_eq_true, noStore, good]
  exact if_pos load

theorem State.sldPerform_of_atomic (operation : a.opc < 12) (atomic : 2 ≤ a.opc) (good : s.poisonIn t a.len = none) (old : Nat) (held : old = fromLE (s.tierRead t a.len)) :
    s.sldPerform a t = ((s.tierWrite t (toLE a.len (sldNew a.opc old (fromLE (a.data.take 8)) (fromLE (a.data.drop 8))))).sldKeep a 0 old).sldReply a 0
      (toLE 8 old) := by
  have other : ¬ a.opc = 12 := by omega
  have noStore : ¬ a.opc = 1 := by omega
  have noLoad : ¬ a.opc = 0 := by omega
  subst held
  simp only [State.sldPerform, other, if_false, free, List.isEmpty_nil, Bool.not_true, Bool.false_eq_true, noStore, good, noLoad]

end

theorem State.sldLocate_of_opcode {opc : Nat} (len off dom : Nat) (unknown : 12 < opc) : s.sldLocate opc len off dom = .error 5 := by
  rw [State.sldLocate, if_pos unknown]

theorem State.sldLocate_of_misaligned {opc off : Nat} (len dom : Nat) (operation : opc < 12) (odd : off % (if opc = 11 then 4 else 8) ≠ 0) :
    s.sldLocate opc len off dom = .error 3 := by
  rw [State.sldLocate, if_neg (by omega), if_neg (by omega), if_pos odd]

theorem State.sldLocate_of_no_export {opc off len : Nat} (dom : Nat) (operation : opc < 12) (even : off % (if opc = 11 then 4 else 8) = 0)
    (outside : ∀ e ∈ s.sld.exports, e.2.holds off len = false) : s.sldLocate opc len off dom = .error 1 := by
  have none : s.sld.exports.find? (fun e : Nat × SldExport => e.2.holds off len) = none :=
    List.find?_eq_none.mpr fun e member => by simp [outside e member]
  rw [State.sldLocate, if_neg (by omega), if_neg (by omega), if_neg (not_not.mpr even), none]

/-! ### Exports (R358) -/

theorem State.sldDropExport_of_idle {k : Nat} {e : SldExport} (listed : s.sld.exports.look k = some e) (idle : ∀ a ∈ s.sld.acc, s.sldStalled a = none) :
    s.sldDropExport k = { s with sld := { s.sld with exports := s.sld.exports.del k } } := by
  have none_hit : s.sld.acc.filter (fun a => e.holds a.off a.len && (s.sldStalled a).isSome) = [] :=
    List.filter_eq_nil_iff.mpr fun a member => by simp [idle a member]
  have all_kept : s.sld.acc.filter (fun a => !(e.holds a.off a.len && (s.sldStalled a).isSome)) = s.sld.acc :=
    List.filter_eq_self.mpr fun a member => by simp [idle a member]
  rw [State.sldDropExport, listed]
  dsimp only
  rw [none_hit, all_kept]
  rfl

theorem exec_sldExportDel_of_own {i : Issuer} {k : Nat} {e : SldExport} (taken : Taken s i 0x0506) (listed : s.sld.exports.look k = some e)
    (own : s.issuerFn i = 0 ∨ (s.obj e.obj).fn = s.issuerFn i) : exec (.sldExportDel i k) s = .next ((s.sldDropExport k).answer i 0 0 []) := by
  refine congrArg Host.Outcome.next (State.command_of_ok taken ?_)
  rw [listed]
  exact if_neg (by tauto)

/-- The entry that the words of SLD_EXPORT_ADD make. -/
def exportOf (xs : List W32) : SldExport :=
  { base := bits (nth 0 xs 0).toNat 20 0, shelves := bits (nth 0 xs 1).toNat 21 0, obj := bits (nth 0 xs 2).toNat 19 0
    ogen := bits (nth 0 xs 3).toNat 15 0, domain := bits (nth 0 xs 3).toNat 31 16, rd := bit (nth 0 xs 4).toNat 0
    wr := bit (nth 0 xs 4).toNat 1, at_ := bit (nth 0 xs 4).toNat 2, objShelf := bits (nth 0 xs 5).toNat 26 0 }

theorem exec_sldExportAdd_of_good {i : Issuer} {xs : List W32} {o : Obj} {k : Nat} (taken : Taken s i 0x0505)
    (named : s.objFor (s.issuerFn i) (exportOf xs).obj (exportOf xs).ogen = .ok o)
    (domain : s.issuerFn i = 0 ∨ (exportOf xs).domain = (s.func (s.issuerFn i)).domain)
    (some_shelf : 1 ≤ (exportOf xs).shelves) (few : (exportOf xs).shelves ≤ 2097152) (ready : o.st = .ready)
    (inside : (exportOf xs).objShelf + (exportOf xs).shelves ≤ o.shelves) (window : (exportOf xs).base + (exportOf xs).shelves ≤ 2097152)
    (apart : s.sldOverlap (exportOf xs).base (exportOf xs).shelves = false)
    (pinned : ((exportOf xs).wr = false ∧ (exportOf xs).at_ = false) ∨ o.policy = .pinned)
    (lowest : lowestFree 1024 (fun k => (s.sld.exports.look k).isSome) = some k) : exec (.sldExportAdd i xs) s =
      .next (({ s with sld := { s.sld with exports := s.sld.exports.put k (exportOf xs) } } : State).answer i 0 0 [k]) := by
  have own : ¬ (s.issuerFn i ≠ 0 ∧ (exportOf xs).domain ≠ (s.func (s.issuerFn i)).domain) := fun ⟨other, apart⟩ => domain.elim other apart
  have rights : (((exportOf xs).wr || (exportOf xs).at_) && o.policy != .pinned) = false := by
    rcases pinned with ⟨noWrite, noAtomic⟩ | policy
    · rw [noWrite, noAtomic]
      rfl
    · rw [policy]
      simp
  have good : ¬ ((exportOf xs).shelves = 0 ∨ 2097152 < (exportOf xs).shelves ∨ o.st ≠ .ready ∨
      o.shelves < (exportOf xs).objShelf + (exportOf xs).shelves ∨
      (decide (2097152 < (exportOf xs).base + (exportOf xs).shelves) || s.sldOverlap (exportOf xs).base (exportOf xs).shelves ||
        (((exportOf xs).wr || (exportOf xs).at_) && o.policy != .pinned)) = true) := by
    rw [apart, rights]
    simp only [ready, Bool.or_false, decide_eq_true_eq, ne_eq, not_true_eq_false, false_or]
    omega
  simp only [exportOf] at named own good
  refine congrArg Host.Outcome.next (State.command_of_ok taken ?_)
  simp only [named, if_neg own, lowest]
  exact if_neg good

/-! ### The quorum (R378 to R382) -/

theorem exec_sldQuorumKeys_of_keys {i : Issuer} {n : Nat} {keys : List (List Byte)} (taken : Taken s i 0x0507) (registered : s.sld.keys ≠ []) :
    exec (.sldQuorumKeys i n keys) s = .next (s.refuse i 5) :=
  congrArg Host.Outcome.next (State.command_of_error taken (status := stPermission) (by decide) (if_pos (by simp [registered])))

theorem exec_sldQuorumKeys_of_none {i : Issuer} {n : Nat} {keys : List (List Byte)} (taken : Taken s i 0x0507) (few : keys.length ≤ 8)
    (two : 2 ≤ n) (reachable : n ≤ keys.length) (sized : ∀ k ∈ keys, k.length = 57) (none : s.sld.keys = []) :
    exec (.sldQuorumKeys i n keys) s = .next ((((({ s with sld := { s.sld with keys := keys, threshold := n } } : State).setReg
      Reg.SLD_QUORUM_CFG (keys.length + 16 * n)).setField Reg.SLD_STATUS 2 2 1).measure 8 3 (keys.length + 16 * n)
        (shake256 (keys.flatten ++ toLE 1 n) 64)).answer i 0 0 []) := by
  have lengths : keys.any (·.length != 57) = false := List.any_eq_false.mpr fun k member => by simp [sized k member]
  refine congrArg Host.Outcome.next (State.command_of_ok taken ?_)
  refine (if_neg (by simp [none])).trans ((if_neg ?_).trans rfl)
  simp only [lengths, Bool.or_false, decide_eq_true_eq]
  omega

theorem exec_sldFence_of_mailbox {fn m : Nat} (cmd : List Byte) (busy : (s.box (.mbox fn m)).busy = true)
    (code : (s.box (.mbox fn m)).command = 0x0508) (served : s.served (.mbox fn m) = true) (first : ∀ e ∈ s.sld.quorum, e.1 ≠ .mailbox fn m) :
    exec (.sldFence (.mbox fn m) cmd) s = .next { s with sld := { s.sld with quorum := s.sld.quorum ++ [(.mailbox fn m, cmd)] } } := by
  have fresh : (s.sld.quorum.any fun e => e.1 == QuorumFrom.mailbox fn m) = false := List.any_eq_false.mpr fun e member => by simp [first e member]
  rw [exec, execSldFence]
  exact congrArg Host.Outcome.next (if_pos (by simp [busy, code, served, fresh]))

section
variable {v : State} {bs : List Byte} {ok : Bool} {h : SldHdr} (v6 : Bool) (ip port : Nat) (taken : s.sldTake bs 3 ok = (v, some h))
include taken

theorem exec_solderControlReceive_of_running (running : v.boot.phase = .running) : exec (.solderControlReceive bs v6 ip port ok) s =
    .next { v with sld := { v.sld with quorum := v.sld.quorum ++ [(.packet h.src v6 ip port, bs.drop 24)] } } := by
  rw [exec, execSolderControlReceive, taken]
  exact congrArg Host.Outcome.next (if_pos (by simp [running]))

theorem exec_solderControlReceive_of_waiting (waiting : v.boot.phase ≠ .running) :
    exec (.solderControlReceive bs v6 ip port ok) s = .next (v.bump Reg.SLD_QUORUM_REJECT 1) := by
  rw [exec, execSolderControlReceive, taken]
  exact congrArg Host.Outcome.next (if_neg (by simp [waiting]))

end

section
variable {v : State} {q : QuorumFrom} {bs : List Byte} {rest : List (QuorumFrom × List Byte)} (waits : s.sld.quorum = (q, bs) :: rest)
  (taken : v = { s with sld := { s.sld with quorum := rest } }) (running : s.boot.phase = .running)
include waits taken running

/-- An accepted quorum command in force: the last one, with its sequence number, before it is answered. -/
def State.quorumAccepted (s : State) (bs : List Byte) (c : Nat) : State :=
  ({ s with sld := { s.sld with lastCmd := bs } } : State).setReg64 Reg.SLD_QUORUM_SEQ c

theorem exec_quorumVerifyDone_of_first : exec .quorumVerifyDone s = .next (if !s.sld.keys.isEmpty && bs == s.sld.lastCmd then v.quorumReply q 0
    else if v.quorumResult bs ≠ 0 then (v.bump Reg.SLD_QUORUM_REJECT 1).quorumReply q (v.quorumResult bs)
    else (((v.quorumAccepted bs (fromLE (sub bs 8 8))).quorumReply q 0).quorumApply (nth 0 bs 1).toNat (fromLE (sub bs 4 2))).pfEvent 0x011D
      (nth 0 bs 1).toNat (fromLE (sub bs 4 2)) (fromLE (sub bs 8 8) % 2 ^ 32) (fromLE (sub bs 8 8) / 2 ^ 32)) := by
  subst taken
  rw [exec, execQuorumVerifyDone, waits]
  exact congrArg Host.Outcome.next (if_neg (by simp [running]))

theorem exec_quorumVerifyDone_of_repeat (keys : s.sld.keys ≠ []) (last : bs = s.sld.lastCmd) :
    exec .quorumVerifyDone s = .next (v.quorumReply q 0) := by
  rw [exec_quorumVerifyDone_of_first waits taken running, if_pos (by simp [keys, last])]

theorem exec_quorumVerifyDone_of_failed (other : s.sld.keys = [] ∨ bs ≠ s.sld.lastCmd) (failed : v.quorumResult bs ≠ 0) :
    exec .quorumVerifyDone s = .next ((v.bump Reg.SLD_QUORUM_REJECT 1).quorumReply q (v.quorumResult bs)) := by
  rw [exec_quorumVerifyDone_of_first waits taken running, if_neg ?_, if_pos failed]
  rcases other with none | other
  · simp [none]
  · simp [other]

theorem exec_quorumVerifyDone_of_accepted (other : s.sld.keys = [] ∨ bs ≠ s.sld.lastCmd) (good : v.quorumResult bs = 0) :
    exec .quorumVerifyDone s = .next ((((v.quorumAccepted bs (fromLE (sub bs 8 8))).quorumReply q 0).quorumApply (nth 0 bs 1).toNat
      (fromLE (sub bs 4 2))).pfEvent 0x011D (nth 0 bs 1).toNat (fromLE (sub bs 4 2)) (fromLE (sub bs 8 8) % 2 ^ 32) (fromLE (sub bs 8 8) / 2 ^ 32)) := by
  rw [exec_quorumVerifyDone_of_first waits taken running, if_neg ?_, if_neg (not_not.mpr good)]
  rcases other with none | other
  · simp [none]
  · simp [other]

end

theorem State.quorumResult_of_no_keys (bs : List Byte) (none : s.sld.keys = []) : s.quorumResult bs = 7 := by
  rw [State.quorumResult]
  exact if_pos (by simp [none])

theorem SolderSends.expelled {t : State} (sends : SolderSends s t) (n : Nat) : t.expelled n = s.expelled n := by
  rw [sends.1]
  rfl

theorem SolderSends.selfFenced {t : State} (sends : SolderSends s t) : t.sld.selfFenced = s.sld.selfFenced := by rw [sends.1]

theorem State.expelled_quorumApply_expel (s : State) (x : Nat) : (s.quorumApply 1 x).expelled x = true := by
  rw [State.quorumApply]
  dsimp only
  split
  · assumption
  · exact List.contains_iff_mem.mpr (List.mem_append_right _ (List.mem_singleton.mpr rfl))

theorem State.expelled_quorumApply_readmit (s : State) (x : Nat) : (s.quorumApply 2 x).expelled x = false := by
  refine ((solderSends_sldRunAll _).expelled x).trans ?_
  change (s.sld.expelled.filter (· != x)).contains x = false
  simp

theorem State.expelled_quorumApply_clear (s : State) (x n : Nat) : (s.quorumApply 5 x).expelled n = false :=
  (solderSends_sldRunAll _).expelled n

theorem State.selfFenced_quorumApply_release (s : State) (x : Nat) : (s.quorumApply 4 x).sld.selfFenced = false :=
  (solderSends_sldRunAll _).selfFenced

end

/-! ### The obligation -/

/-- Settles O47, one rule per packet, operation and command of the home. -/
theorem solderHomeAndQuorumWork : Obligations.SolderHomeAndQuorumWork := by
  unfold Obligations.SolderHomeAndQuorumWork
  refine ⟨fun s v bs ce ok h rs r taken some_ops few_ops decoded session =>
      ⟨exec_solderRequestReceive_of_next taken some_ops few_ops decoded session, exec_solderRequestReceive_of_newer taken some_ops few_ops decoded session,
        exec_solderRequestReceive_of_older taken some_ops few_ops decoded session, exec_solderRequestReceive_of_open taken some_ops few_ops decoded session,
        exec_solderRequestReceive_of_stranger taken some_ops few_ops decoded session⟩,
    fun s h rs ce => ⟨State.sldAccept_of_room h ce, State.sldAccept_of_full h ce⟩, State.tier_sldDup,
    fun s v k a entry alone member ready taken => ⟨fun t => exec_solderOpPerform_of_located entry alone member ready taken,
      fun e => exec_solderOpPerform_of_failed entry alone member ready taken⟩,
    fun s a t operation free => ⟨State.sldPerform_of_store free, State.sldPerform_of_load free,
      State.sldPerform_of_atomic free operation⟩,
    fun s opc len off dom => ⟨State.sldLocate_of_opcode len off dom, State.sldLocate_of_misaligned len dom, State.sldLocate_of_no_export dom⟩,
    ?_,
    fun s i k e taken listed own => ⟨exec_sldExportDel_of_own taken listed own, State.sldDropExport_of_idle listed⟩,
    fun s i n keys taken few two reachable sized => ⟨exec_sldQuorumKeys_of_keys taken, exec_sldQuorumKeys_of_none taken few two reachable sized⟩,
    fun s fn m => exec_sldFence_of_mailbox,
    fun s v bs v6 ok ip port h taken => ⟨exec_solderControlReceive_of_running v6 ip port taken, exec_solderControlReceive_of_waiting v6 ip port taken⟩,
    ?_, fun s bs => State.quorumResult_of_no_keys bs,
    fun s x => ⟨s.expelled_quorumApply_expel x, s.expelled_quorumApply_readmit x, rfl, s.selfFenced_quorumApply_release x, s.expelled_quorumApply_clear x⟩⟩
  · rintro s i xs _ o k taken rfl named domain some_shelf few ready inside window apart pinned lowest
    exact exec_sldExportAdd_of_good taken named domain some_shelf few ready inside window apart pinned lowest
  · rintro s v q bs rest _ _ _ _ waits taken running rfl rfl rfl rfl
    exact ⟨exec_quorumVerifyDone_of_repeat waits taken running, exec_quorumVerifyDone_of_failed waits taken running,
      exec_quorumVerifyDone_of_accepted waits taken running⟩

end Sys2Proof.Machine
end

section
/-! SUPPORT. Proofs about the queue pool (R391 to R399, R405, R406, R410): doorbells, the posting of a record, the taking of an entry, and the
obligation that these rules settle. -/

namespace Sys2Proof.Machine

section
variable {s v : State} {fn i q : Nat}

/-! ### Doorbells (R391, R394, R399) -/

theorem State.doorbell_of_own (pool : s.poolQueue fn i = some q) (range : q < 262144) (en : (s.queue q).en = true) (own : (s.queue q).fn = fn) :
    s.doorbell fn i = (s, some q) := by
  rw [State.doorbell, pool]
  exact if_neg (by simp [en, own, range])

section
variable {x : Nat} (bell : s.doorbell fn i = (v, some q)) (en : (v.queue q).en = true)
include bell en

/-- A counter doorbell of an enabled queue: the host's counter moves unless the value is stale or would hold more than the ring. -/
theorem exec_doorbellCount_of_enabled : exec (.doorbellCount fn i x) s = .next (
    if (v.queue q).hostProduced then
      if seqStale 32 (x % 2 ^ 32) (v.queue q).prod || decide ((v.queue q).size < (x % 2 ^ 32 + 2 ^ 32 - (v.queue q).cons) % 2 ^ 32) then
        v.bump (Reg.QUE_BAD_DOORBELL q) 1
      else v.setQueue q { v.queue q with prod := x % 2 ^ 32 }
    else
      if seqStale 32 (x % 2 ^ 32) (v.queue q).cons || decide ((v.queue q).size < ((v.queue q).prod + 2 ^ 32 - x % 2 ^ 32) % 2 ^ 32) then
        v.bump (Reg.QUE_BAD_DOORBELL q) 1
      else v.setQueue q { v.queue q with cons := x % 2 ^ 32 }) := by
  rw [exec, execDoorbellCount, bell]
  exact congrArg Host.Outcome.next (if_neg (by simp [en]))

theorem exec_doorbellCount_of_produced (host : (v.queue q).hostProduced = true) (fresh : seqStale 32 (x % 2 ^ 32) (v.queue q).prod = false)
    (fits : (x % 2 ^ 32 + 2 ^ 32 - (v.queue q).cons) % 2 ^ 32 ≤ (v.queue q).size) :
    exec (.doorbellCount fn i x) s = .next (v.setQueue q { v.queue q with prod := x % 2 ^ 32 }) := by
  rw [exec_doorbellCount_of_enabled bell en, if_pos host, if_neg]
  simp only [fresh, Bool.false_or, decide_eq_true_eq]
  omega

theorem exec_doorbellCount_of_consumed (device : (v.queue q).hostProduced = false) (fresh : seqStale 32 (x % 2 ^ 32) (v.queue q).cons = false)
    (fits : ((v.queue q).prod + 2 ^ 32 - x % 2 ^ 32) % 2 ^ 32 ≤ (v.queue q).size) :
    exec (.doorbellCount fn i x) s = .next (v.setQueue q { v.queue q with cons := x % 2 ^ 32 }) := by
  rw [exec_doorbellCount_of_enabled bell en, if_neg (by simp [device]), if_neg]
  simp only [fresh, Bool.false_or, decide_eq_true_eq]
  omega

theorem exec_doorbellCount_of_bad (host : (v.queue q).hostProduced = true) (bad : seqStale 32 (x % 2 ^ 32) (v.queue q).prod = true ∨
    (v.queue q).size < (x % 2 ^ 32 + 2 ^ 32 - (v.queue q).cons) % 2 ^ 32) :
    exec (.doorbellCount fn i x) s = .next (v.bump (Reg.QUE_BAD_DOORBELL q) 1) := by
  rw [exec_doorbellCount_of_enabled bell en, if_pos host, if_pos]
  simpa only [Bool.or_eq_true, decide_eq_true_eq] using bad

theorem exec_doorbellArm_of_newer (device : (v.queue q).hostProduced = false) (newer : seqNewer 32 (v.queue q).prod x = true) :
    exec (.doorbellArm fn i x) s = .next ((v.setQueue q { v.queue q with armed := false }).fire (v.queue q).fn (v.queue q).vector) := by
  rw [exec, execDoorbellArm, bell]
  exact congrArg Host.Outcome.next ((if_neg (by simp [en, device])).trans (if_pos newer))

theorem exec_doorbellArm_of_current (device : (v.queue q).hostProduced = false) (current : seqNewer 32 (v.queue q).prod x = false) :
    exec (.doorbellArm fn i x) s = .next (v.setQueue q { v.queue q with armed := true, since := 0 }) := by
  rw [exec, execDoorbellArm, bell]
  exact congrArg Host.Outcome.next ((if_neg (by simp [en, device])).trans (if_neg (by simp [current])))

end

theorem exec_coalTimer_of_due (en : (s.queue q).en = true) (armed : (s.queue q).armed = true) (waits : (s.queue q).since ≠ 0)
    (coal : (s.queue q).coalUs ≠ 0) : exec (.coalTimer q) s =
      .next ((s.setQueue q { s.queue q with armed := false }).fire (s.queue q).fn (s.queue q).vector) :=
  congrArg Host.Outcome.next (if_pos (by simp [en, armed, waits, coal]))

/-! ### Posting (R396, R397, R410) -/

section
variable {r : PostRec} {fault : Nat}

theorem exec_recordPost_of_first (first : s.host.outbox.find? (fun r => r.queue == q) = some r) (other : r.use.isTask = false) :
    exec (.recordPost q fault) s = .next (s.postRec r fault) := by
  have found : s.firstRec q (fun u => !u.isTask) = some r := by simp [State.firstRec, first, other]
  rw [exec, execRecordPost, found]

theorem exec_completionRecordPost_of_first (first : s.host.outbox.find? (fun r => r.queue == q) = some r) (task : r.use.isTask = true) :
    exec (.completionRecordPost q fault) s = .next (s.postRec r fault) := by
  have found : s.firstRec q RecFor.isTask = some r := by simp [State.firstRec, first, task]
  rw [exec, execCompletionRecordPost, found]

theorem State.postRec_of_stale (fault : Nat) (stale : r.gen ≠ (s.func r.fn).gen) :
    s.postRec r fault = (({ s with host := { s.host with outbox := s.host.outbox.erase r } } : State).staleDrop r.fn).discard r :=
  if_pos stale

section
variable (taken : v = { s with host := { s.host with outbox := s.host.outbox.erase r } }) (current : r.gen = (s.func r.fn).gen)
  (served : s.boot.phase = .running ∨ r.use ≠ .event) (en : (s.queue r.queue).en = true) (own : (s.queue r.queue).fn = r.fn)
  (sound : (s.queue r.queue).failed = false)
include taken current served en own sound

/-- A record of a current generation for a sound queue: it is written, or finds the queue full. -/
theorem State.postRec_of_current : s.postRec r 0 = if (s.queue r.queue).full then s.fullRec r v else v.writeRec r := by
  have posted : ¬ (r.use == .event && s.boot.phase != .running) = true := by
    rcases served with running | other
    · simp [running]
    · simp [other]
  subst taken
  unfold State.postRec
  dsimp only
  rw [if_neg (not_not.mpr current), if_neg posted, if_neg (by simp [en, own, sound]), if_pos rfl]

theorem State.postRec_of_room (room : (s.queue r.queue).held ≠ 2 ^ (s.queue r.queue).logSize) : s.postRec r 0 = v.writeRec r := by
  rw [State.postRec_of_current taken current served en own sound, if_neg (by simpa [Queue.full, Queue.size] using room)]

theorem State.postRec_of_full_event (full : (s.queue r.queue).held = 2 ^ (s.queue r.queue).logSize) (event : r.use = .event) :
    s.postRec r 0 = (v.bump Reg.CAB_EVENT_DROP 1).bump (Reg.QUE_DROPS r.queue) 1 := by
  rw [State.postRec_of_current taken current served en own sound, if_pos (by simpa [Queue.full, Queue.size] using full), State.fullRec, event]

end

theorem State.freeTaskSlot_eq (s : State) (u : RecFor) :
    s.freeTaskSlot u = { s with slots := (s.freeTaskSlot u).slots, tpls := (s.freeTaskSlot u).tpls } := by
  unfold State.freeTaskSlot
  split
  · split
    · split <;> rfl
    · rfl
  · rfl

theorem State.unblock_eq (s : State) (u : RecFor) : s.unblock u = { s with host := (s.unblock u).host } := by
  unfold State.unblock
  split <;> rfl

theorem State.prod_unblock (s : State) (u : RecFor) (q : Nat) : ((s.unblock u).queue q).prod = (s.queue q).prod := by
  unfold State.unblock
  split
  next p =>
    rw [State.queue_setQueue]
    split
    next same => rw [same]
    · rfl
  · rfl

theorem State.writeRec_written (s : State) (r : PostRec) {u : State}
    (written : u = (s.devWrite (s.queue r.queue).fn ((s.queue r.queue).base + (s.queue r.queue).prod % 2 ^ (s.queue r.queue).logSize * 32)
      (s.postBytes r)).devWrite (s.queue r.queue).fn (s.queue r.queue).wb (toLE 4 (((s.queue r.queue).prod + 1) % 2 ^ 32))) :
    (s.writeRec r).tier = u.tier ∧ (s.writeRec r).hostOut = u.hostOut ∧ ((s.writeRec r).queue r.queue).prod = ((s.queue r.queue).prod + 1) % 2 ^ 32 := by
  have ring : s.ringWritten r = { u with host := (s.ringWritten r).host } := by
    subst written
    unfold State.ringWritten
    dsimp only
    rw [State.when_fire_eq]
    rfl
  refine ⟨?_, ?_, ?_⟩
  · rw [State.writeRec_eq, State.unblock_eq, State.freeTaskSlot_eq, ring]
  · rw [State.writeRec_eq, State.unblock_eq, State.freeTaskSlot_eq, ring]
  · rw [State.writeRec_eq, State.prod_unblock, State.queue, State.freeTaskSlot_eq]
    change ((s.ringWritten r).queue r.queue).prod = _
    rw [State.queue_ringWritten]
    rfl

end

/-! ### Entries (R396, R397, R405, R406) -/

section
variable {d : ExtData} (en : (s.queue q).en = true) (host : (s.queue q).hostProduced = true) (sound : (s.queue q).failed = false)
include en host sound

/-- A fetch of a sound host-produced queue fails the queue, or writes its C back. -/
theorem exec_queueEntryFetch_of_sound (wbOk : Bool) : exec (.queueEntryFetch q d wbOk) s = .next (
    if (s.queue q).prod != (s.queue q).cons && (s.ringEntry q (s.queue q).cons (entryBytes (s.queue q).typ) d).isNone then s.failQueue q 0
    else if !wbOk then s.failQueue q 2
    else s.devWrite (s.queue q).fn (s.queue q).wb (toLE 4 (s.queue q).cons)) := by
  rw [exec, execQueueEntryFetch]
  exact congrArg Host.Outcome.next (if_neg (by simp [en, host, sound]))

theorem exec_queueEntryFetch_of_empty (empty : (s.queue q).prod = (s.queue q).cons) :
    exec (.queueEntryFetch q d true) s = .next (s.devWrite (s.queue q).fn (s.queue q).wb (toLE 4 (s.queue q).cons)) := by
  rw [exec_queueEntryFetch_of_sound en host sound, if_neg (by simp [empty]), if_neg (by simp)]

theorem exec_queueEntryFetch_of_entry {bs : List Byte} (entry : s.ringEntry q (s.queue q).cons (entryBytes (s.queue q).typ) d = some bs) :
    exec (.queueEntryFetch q d true) s = .next (s.devWrite (s.queue q).fn (s.queue q).wb (toLE 4 (s.queue q).cons)) := by
  rw [exec_queueEntryFetch_of_sound en host sound, if_neg (by simp [entry]), if_neg (by simp)]

theorem exec_queueEntryFetch_of_failed (entries : (s.queue q).prod ≠ (s.queue q).cons)
    (failed : s.ringEntry q (s.queue q).cons (entryBytes (s.queue q).typ) d = none) :
    exec (.queueEntryFetch q d true) s = .next (s.failQueue q 0) := by
  rw [exec_queueEntryFetch_of_sound en host sound, if_pos (by simp [entries, failed])]

theorem exec_queueEntryFetch_of_bad_writeback (empty : (s.queue q).prod = (s.queue q).cons) :
    exec (.queueEntryFetch q d false) s = .next (s.failQueue q 2) := by
  rw [exec_queueEntryFetch_of_sound en host sound, if_neg (by simp [empty]), if_pos (by rfl)]

end

/-- The entry that the bytes of a host Solder queue's ring make. -/
def State.sldEntryOf (s : State) (q : Nat) (bs : List Byte) : SldEntry :=
  { queue := q, fn := (s.queue q).fn, pair := (s.queue q).pair, id := s.sld.nextEntry, opc := bits (word32At bs 0) 3 0
    len := sldLen (bits (word32At bs 0) 3 0) (bits (word32At bs 0) 8 4), dst := word64At bs 16 % 2 ^ 57, cookie := word64At bs 40
    gen := (s.func (s.queue q).fn).gen }

/-- The atomic or FENCE that they ask for, with its operand in the entry. -/
def State.sldOpOf (s : State) (q : Nat) (bs : List Byte) : SldOp :=
  { who := .host q s.sld.nextEntry, ctx := none, node := word32At bs 1 % 2 ^ 14, opc := bits (word32At bs 0) 3 0
    len := sldLen (bits (word32At bs 0) 3 0) (bits (word32At bs 0) 8 4), off := word64At bs 8 % 2 ^ 42
    domain := (s.func (s.queue q).fn).domain, source := 4096 + (s.queue q).typeCfg
    data := (bs.drop 24).take (sldSends (bits (word32At bs 0) 3 0) (sldLen (bits (word32At bs 0) 3 0) (bits (word32At bs 0) 8 4))), pc := 0 }

theorem State.sldOperand_of_atomic (s : State) (fn len data : Nat) (ops : List Byte) (src : ExtData) {opc : Nat} (atomic : 2 ≤ opc) :
    s.sldOperand fn opc len data ops src = .ok (ops.take (sldSends opc len)) := by
  have noStore : ¬ opc = 1 := by omega
  have noLoad : (decide (opc = 0) && !s.hostOrPinned fn data len) = false := by
    rw [decide_eq_false (by omega)]
    rfl
  simp only [State.sldOperand, noStore, if_false, noLoad, Bool.false_eq_true]

theorem exec_solderQueueEntry_of_atomic {entry : ExtData} (src : ExtData) {bs : List Byte} (en : (s.queue q).en = true) (typ : (s.queue q).typ = 5)
    (sound : (s.queue q).failed = false) (runs : (s.queue q).blocked = false) (entries : (s.queue q).prod ≠ (s.queue q).cons)
    (stores : s.sldStores q < 16) (ring : s.ringEntry q (s.queue q).cons 64 entry = some bs) (domain : (s.func (s.queue q).fn).domain ≠ 0)
    (atomic : 2 ≤ bits (word32At bs 0) 3 0) : exec (.solderQueueEntry q entry src) s =
      .next (({ s.consume q with sld := { s.sld with
        entries := s.sld.entries ++ [s.sldEntryOf q bs], nextEntry := s.sld.nextEntry + 1 } } : State).sldIssue (s.sldOpOf q bs)) := by
  have takes : (!(s.queue q).en || (s.queue q).typ != 5 || (s.queue q).failed || (s.queue q).blocked || (s.queue q).prod == (s.queue q).cons ||
      decide (16 ≤ s.sldStores q)) = false := by
    simp [en, typ, sound, runs, entries, stores]
  rw [exec, execSolderQueueEntry]
  simp only [takes, Bool.false_eq_true, if_false, ring, domain, State.sldOperand_of_atomic _ _ _ _ _ _ atomic]
  rfl

theorem exec_mailboxQueueEntry_of_host {entry : ExtData} (h : MbxHeader) {bs : List Byte} (en : (s.queue q).en = true) (typ : (s.queue q).typ = 6)
    (sound : (s.queue q).failed = false) (runs : (s.queue q).blocked = false) (entries : (s.queue q).prod ≠ (s.queue q).cons)
    (free : s.host.mbxq = none) (running : s.boot.phase = .running) (ring : s.ringEntry q (s.queue q).cons 32 entry = some bs)
    (space : spaceOf (word64At bs 0 % 2 ^ 57) = 1) (inside : offOf (word64At bs 0 % 2 ^ 57) + 4096 ≤ 2 ^ 48) :
    ∃ e : MbxqEntry, e.queue = q ∧ e.buf = word64At bs 0 % 2 ^ 57 ∧ e.cookie = word64At bs 8 ∧ exec (.mailboxQueueEntry q entry h) s =
      .next ((({ s.consume q with host := { (s.consume q).host with mbxq := some e } } : State).setBox (.queue q) {}).takeCommand (.queue q) h
        (bits h.h1.toNat 15 0)) := by
  have takes : (!(s.queue q).en || (s.queue q).typ != 6 || (s.queue q).failed || (s.queue q).blocked || (s.queue q).prod == (s.queue q).cons ||
      s.host.mbxq.isSome || s.boot.phase != .running) = false := by
    simp [en, typ, sound, runs, entries, free, running]
  have allowed (t : State) (fn : Nat) : t.hostOrPinned fn (word64At bs 0 % 2 ^ 57) 4096 = true := by
    rw [State.hostOrPinned, space, if_pos (by rfl)]
    exact decide_eq_true inside
  refine ⟨{ queue := q, fn := (s.queue q).fn, pair := (s.queue q).pair, buf := word64At bs 0 % 2 ^ 57, cookie := word64At bs 8
            gen := (s.func (s.queue q).fn).gen }, rfl, rfl, rfl, ?_⟩
  rw [exec, execMailboxQueueEntry]
  simp only [takes, Bool.false_eq_true, if_false, ring, allowed, if_true, space]

end

/-! ### The obligation -/

/-- Settles O48, one rule per doorbell, record and entry. -/
theorem queuesRingAndPost : Obligations.QueuesRingAndPost := by
  unfold Obligations.QueuesRingAndPost
  refine ⟨fun s fn i q => State.doorbell_of_own, ?_, fun s q => exec_coalTimer_of_due,
    fun s q fault r first => ⟨exec_recordPost_of_first first, exec_completionRecordPost_of_first first⟩,
    fun s v r taken current served en own sound => ⟨State.postRec_of_room taken current served en own sound,
      State.postRec_of_full_event taken current served en own sound⟩,
    fun s r fault => State.postRec_of_stale fault, fun s u r => s.writeRec_written r,
    fun s q d en host sound => ⟨exec_queueEntryFetch_of_empty en host sound, fun bs => exec_queueEntryFetch_of_entry en host sound,
      exec_queueEntryFetch_of_failed en host sound, exec_queueEntryFetch_of_bad_writeback en host sound⟩, ?_, ?_⟩
  · rintro s v fn i x _ q bell en rfl
    exact ⟨exec_doorbellCount_of_produced bell en, exec_doorbellCount_of_consumed bell en, exec_doorbellCount_of_bad bell en,
      exec_doorbellArm_of_newer bell en, exec_doorbellArm_of_current bell en⟩
  · rintro s q entry src bs _ en typ sound runs entries stores ring rfl domain _ rfl atomic
    exact ⟨s.sldEntryOf q bs, s.sldOpOf q bs, rfl, rfl, rfl, rfl, rfl, rfl, rfl, rfl, rfl,
      exec_solderQueueEntry_of_atomic src en typ sound runs entries stores ring domain atomic⟩
  · rintro s q _ entry h bs en typ sound runs entries free running ring rfl space inside
    exact exec_mailboxQueueEntry_of_host h en typ sound runs entries free running ring space inside

end Sys2Proof.Machine
end

section
/-! SUPPORT. Proofs about the commands of queues and about mailboxes (R401, R402, R414 to R422), and the obligation that these rules settle. -/

namespace Sys2Proof.Machine

section
variable {s v : State} {i : Issuer} {q idx : Nat}

/-! ### Creating and destroying (R401, R402, R420) -/

/-- A submission, completion or event queue as QUE_CREATE makes it. -/
def QueArgs.queue (a : QueArgs) (fn : Nat) : Queue :=
  { en := true, typ := a.typ, kind := if a.typ = 1 then a.kind else 0, fn := fn, logSize := a.logSize, vector := a.vector, base := a.base, wb := a.wb
    coalCount := a.coalCount, coalUs := a.coalUs }

/-- The pool with a queue created in it: the physical function takes the block of sixteen where nobody holds it. -/
def State.withQueue (s : State) (fn q : Nat) (v : Queue) : State :=
  if fn == 0 && decide (2048 ≤ q) && !s.host.pfBlocks.contains (q / 16) then
    { s.setQueue q v with host := { (s.setQueue q v).host with pfBlocks := s.host.pfBlocks ++ [q / 16] } }
  else s.setQueue q v

theorem State.queue_withQueue (s : State) (fn q k : Nat) (v : Queue) : (s.withQueue fn q v).queue k = if q = k then v else s.queue k := by
  rw [← State.queue_setQueue]
  unfold State.withQueue
  split <;> rfl

theorem State.withQueue_eq (s : State) (fn q : Nat) (v : Queue) : s.withQueue fn q v =
    { s with host := { s.host with queues := (s.withQueue fn q v).host.queues, pfBlocks := (s.withQueue fn q v).host.pfBlocks } } := by
  unfold State.withQueue
  split <;> rfl

theorem exec_queCreate_of_good {a : QueArgs} (taken : Taken s i 0x0101) (pool : s.poolQueue (s.issuerFn i) idx = some q) (typ : a.typ < 3)
    (cfg : a.typeCfg = 0) (persist : a.persist = false) (good : s.queBad (s.issuerFn i) (s.box i).version a = false)
    (may : s.issuerFn i = 0 → s.pfMay q = true) (free : (s.queue q).en = false) :
    exec (.queCreate i idx a.typ a.kind a.logSize a.base a.wb a.pair a.vector a.coalCount a.coalUs 0 false) s =
      .next ((s.withQueue (s.issuerFn i) q (a.queue (s.issuerFn i))).answer i 0 0 []) := by
  have no3 : a.typ ≠ 3 := by omega
  have no4 : a.typ ≠ 4 := by omega
  have no5 : a.typ ≠ 5 := by omega
  have allowed : (s.issuerFn i == 0 && !s.pfMay q) = false := by
    by_cases pf : s.issuerFn i = 0
    · simp [may pf]
    · simp [pf]
  have pair (a' : QueArgs) (same : a'.typ = a.typ) : s.pairOk (s.issuerFn i) a' = some 0 := by
    rw [State.pairOk, same, if_pos typ]
  obtain ⟨t, kind, logSize, base, wb, p, vec, cc, cu, c, per⟩ := a
  subst cfg persist
  refine congrArg Host.Outcome.next (State.command_of_ok taken ?_)
  simp only [no3, no4, no5, if_false, Bool.false_and, pool, good, allowed, Bool.or_false, Bool.false_eq_true, free, beq_eq_false_iff_ne.mpr no3,
    beq_eq_false_iff_ne.mpr no4, Bool.and_false, pair]
  rfl

section
variable (taken : Taken s i 0x0102) (pool : s.poolQueue (s.issuerFn i) idx = some q) (en : (s.queue q).en = true)
  (own : (s.queue q).fn = s.issuerFn i)
include taken pool en own

theorem exec_queDestroy_of_unused (alone : s.paired q = false) (noEvents : ∀ c ∈ s.liveCtxs, c.2.evq ≠ q) (noTask : s.cqTask q = false) :
    exec (.queDestroy i idx) s = .next ((s.stopQueue q).answer i 0 0 []) := by
  have unused : (!(s.queue q).failed && ((s.liveCtxs.any fun c => c.2.evq == q) || s.cqTask q)) = false := by
    have : (s.liveCtxs.any fun c => c.2.evq == q) = false := List.any_eq_false.mpr fun c member => by simp [noEvents c member]
    rw [this, noTask]
    simp
  refine congrArg Host.Outcome.next (State.command_of_ok taken ?_)
  rw [pool]
  exact (if_neg (by simp [en, own])).trans ((if_neg (by simp [alone])).trans (if_neg (by simp only [unused]; decide)))

end

theorem State.queue_stopQueue (s : State) (q : Nat) : (s.stopQueue q).queue q = {} := State.queue_setQueue_same ..

theorem exec_queQuery_of_own (taken : Taken s i 0x0103) (pool : s.poolQueue (s.issuerFn i) idx = some q)
    (own : (s.queue q).en = false ∨ (s.queue q).fn = s.issuerFn i) : exec (.queQuery i idx) s =
      .next (s.answer i 0 0 (s.queWords q ++ [s.reg (Reg.QUE_DROPS q), s.reg (Reg.QUE_DROPS q + 4),
        s.reg (Reg.QUE_BAD_DOORBELL q), s.reg (Reg.QUE_BAD_DOORBELL q + 4)])) := by
  refine congrArg Host.Outcome.next (State.command_of_ok taken ?_)
  rw [pool]
  refine if_neg ?_
  rcases own with off | own
  · simp [off]
  · simp [own]

/-! ### Mailbox doorbells (R414, R416, R418) -/

section
variable {fn m seq : Nat} {h : MbxHeader} (present : s.mboxExists (.mbox fn m) = true) (range : seq < 2 ^ 16)
include present range

theorem exec_mbxDoorbell_of_present : exec (.mbxDoorbell fn m seq h) s = .next (
    if (s.box (.mbox fn m)).busy then s.bump (Reg.VF_MBX_IGNORED fn) 1
    else if seq = (s.box (.mbox fn m)).last then s.raiseBox (.mbox fn m)
    else if seq = ((s.box (.mbox fn m)).last + 1) % 2 ^ 16 ∧ bits h.h1.toNat 15 0 = seq then s.takeCommand (.mbox fn m) h seq
    else (s.setBox (.mbox fn m) { s.box (.mbox fn m) with status := stSeq }).raiseBox (.mbox fn m)) := by
  rw [exec, execMbxDoorbell]
  dsimp only
  rw [Nat.mod_eq_of_lt range, if_neg (by simp [present])]

theorem exec_mbxDoorbell_of_busy (busy : (s.box (.mbox fn m)).busy = true) :
    exec (.mbxDoorbell fn m seq h) s = .next (s.bump (Reg.VF_MBX_IGNORED fn) 1) := by
  rw [exec_mbxDoorbell_of_present present range, if_pos busy]

theorem exec_mbxDoorbell_of_same (idle : (s.box (.mbox fn m)).busy = false) (same : seq = (s.box (.mbox fn m)).last) :
    exec (.mbxDoorbell fn m seq h) s = .next (s.raiseBox (.mbox fn m)) := by
  rw [exec_mbxDoorbell_of_present present range, if_neg (by simp [idle]), if_pos same]

theorem exec_mbxDoorbell_of_next (idle : (s.box (.mbox fn m)).busy = false) (other : seq ≠ (s.box (.mbox fn m)).last)
    (next : seq = ((s.box (.mbox fn m)).last + 1) % 2 ^ 16) (header : bits h.h1.toNat 15 0 = seq) :
    exec (.mbxDoorbell fn m seq h) s = .next (s.takeCommand (.mbox fn m) h seq) := by
  rw [exec_mbxDoorbell_of_present present range, if_neg (by simp [idle]), if_neg other, if_pos ⟨next, header⟩]

theorem exec_mbxDoorbell_of_wrong (idle : (s.box (.mbox fn m)).busy = false) (other : seq ≠ (s.box (.mbox fn m)).last)
    (wrong : seq ≠ ((s.box (.mbox fn m)).last + 1) % 2 ^ 16 ∨ bits h.h1.toNat 15 0 ≠ seq) : exec (.mbxDoorbell fn m seq h) s =
      .next ((s.setBox (.mbox fn m) { s.box (.mbox fn m) with status := 4 }).raiseBox (.mbox fn m)) := by
  rw [exec_mbxDoorbell_of_present present range, if_neg (by simp [idle]), if_neg other, if_neg (not_and_or.mpr wrong), stSeq]

end

/-! ### Commands and answers (R416 to R419, R422) -/

theorem State.takeCommand_of_unserved (h : MbxHeader) (seq : Nat) (unserved : s.served i = false) :
    s.takeCommand i h seq = s.setBox i { s.box i with busy := true, command := 0, seq := seq, header := some h } :=
  if_neg (by simp [unserved])

/-- A served command stays BUSY for its own row, or is answered with the first of its checks that fails. -/
theorem State.takeCommand_of_served {h : MbxHeader} {seq : Nat} (served : s.served i = true) (taken : v = (s.setBox i { s.box i with
      busy := true, version := bits h.h0.toNat 7 0, command := bits h.h0.toNat 31 16, seq := seq, header := none }).bump
        (Reg.VF_MBX_CMDS (s.issuerFn i)) 1) :
    s.takeCommand i h seq = if v.takenStatus i h = stOk then v else v.answer i (v.takenStatus i h) 0 [] := by
  subst taken
  exact if_pos served

theorem State.takenStatus_of_version {h : MbxHeader} (not1 : bits h.h0.toNat 7 0 ≠ 1) (not2 : bits h.h0.toNat 7 0 ≠ 2) : s.takenStatus i h = 1 :=
  if_pos ⟨not1, not2⟩

theorem State.box_setBox_same (s : State) (i : Issuer) (b : Mbox) : (s.setBox i b).box i = b := by
  rw [State.box, State.setBox, Tab.get_put, if_pos rfl]

theorem State.box_raiseBox (s : State) (i j : Issuer) : (s.raiseBox i).box j = s.box j := by
  unfold State.raiseBox
  split
  next fn m =>
    dsimp only
    generalize (if fn = 0 then s.reg (Reg.SBD_MBX_IRQ m) else (s.box (.mbox fn m)).irq.toNat) = irq
    split
    · rw [State.fire_eq]
      rfl
    · rfl
  · rfl

theorem State.box_answer_mbox {fn m : Nat} (st dt : Nat) (body : List Nat) (heard : (s.box (.mbox fn m)).mute = false)
    (version : (s.box (.mbox fn m)).version ≠ 1) : (s.answer (.mbox fn m) st dt body).box (.mbox fn m) =
      { s.box (.mbox fn m) with busy := false, status := st, last := (s.box (.mbox fn m)).seq, detail := dt, reply := body } := by
  have plain : v1Status (s.box (.mbox fn m)).version st dt = (st, dt) := if_neg fun old => version old.1
  rw [State.answer, plain]
  dsimp only
  rw [if_neg (by simp [heard]), State.box_raiseBox, State.box_setBox_same]

end

/-! ### The obligation -/

/-- Settles O49, one rule per command and doorbell. -/
theorem queuesAndMailboxesAreServed : Obligations.QueuesAndMailboxesAreServed := by
  unfold Obligations.QueuesAndMailboxesAreServed
  refine ⟨?_, fun s i idx q taken pool en own alone noEvents noTask =>
      ⟨exec_queDestroy_of_unused taken pool en own alone noEvents noTask, s.queue_stopQueue q⟩,
    fun s i idx q => exec_queQuery_of_own,
    fun s fn m seq h present range => ⟨exec_mbxDoorbell_of_busy present range, exec_mbxDoorbell_of_same present range,
      exec_mbxDoorbell_of_next present range, exec_mbxDoorbell_of_wrong present range⟩,
    fun s i h seq => State.takeCommand_of_unserved h seq, fun s v i h seq served taken => ?_, fun s i h => State.takenStatus_of_version,
    fun s i taken => congrArg Host.Outcome.next (State.command_of_ok taken rfl),
    fun s i taken => congrArg Host.Outcome.next (State.command_of_ok taken rfl),
    fun s fn m st dt body => State.box_answer_mbox st dt body⟩
  · rintro s i idx q typ kind logSize base wb pair vec cc cu _ taken pool small rfl good may free
    refine ⟨_, exec_queCreate_of_good taken pool (a := { typ := typ, kind := kind, logSize := logSize, base := base, wb := wb, pair := pair, vector := vec, coalCount := cc, coalUs := cu, typeCfg := 0, persist := false }) small rfl rfl good may free, ?_, fun k other => ?_, State.withQueue_eq ..⟩
    · rw [State.queue_withQueue, if_pos rfl]
      rfl
    · rw [State.queue_withQueue, if_neg (Ne.symm other)]
  · rw [State.takeCommand_of_served served taken]
    exact ⟨fun ok => if_pos ok, fun refused => if_neg refused⟩

end Sys2Proof.Machine
end

section
/-! SUPPORT. Proofs about the loading and the restarts of firmware and about RST_BLOCK (R438 to R445, R470 to R474), and the obligation that these
rules settle. -/

namespace Sys2Proof.Machine

section
variable {s v : State} {i : Issuer}

/-! ### Staging (R438, R439) -/

theorem exec_fwLoadBegin_of_good {total : Nat} {names : List Nat} (taken : Taken s i 0x0601) (enough : 4 ≤ s.goodStacks.length)
    (fits : total ≤ 268435456) (overlays : s.choice = 0 ∨ ∀ n ∈ names, n = 0xFF) : exec (.fwLoadBegin i total names) s =
      .next (({ s with boot := { s.boot with stage := some { total := total, names := names.take 4 } } } : State).answer i 0 0 []) := by
  have bad : (decide (bundleMax < total) || (s.choice != 0 && names.any (· != 0xFF))) = false := by
    have small : decide (bundleMax < total) = false := decide_eq_false (by rw [bundleMax]; omega)
    rcases overlays with host | none
    · simp [small, host]
    · have : names.any (· != 0xFF) = false := List.any_eq_false.mpr fun n member => by simp [none n member]
      simp [small, this]
  refine congrArg Host.Outcome.next (State.command_of_ok taken ?_)
  dsimp only
  rw [if_neg (by omega), if_neg (by simp only [bad]; decide)]

theorem exec_fwLoadChunk_of_good {off mode : Nat} {bs : List Byte} {g : Stage} (taken : Taken s i 0x0602) (open_ : s.boot.stage = some g)
    (inside : off + bs.length ≤ g.total) (some_byte : bs ≠ [])
    (fits : (mode = 0 ∧ bs.length ≤ 4048) ∨ (mode = 1 ∧ (s.box i).version ≠ 1 ∧ bs.length ≤ 16777216)) :
    exec (.fwLoadChunk i off bs.length mode (.data bs)) s =
      .next (({ s with boot := { s.boot with stage := some { g with data := Mem.write g.data off bs } } } : State).answer i 0 0 []) := by
  have length : bs.length ≠ 0 := fun none => some_byte (List.length_eq_zero_iff.mp none)
  have good : (decide (1 < mode) || ((s.box i).version == 1 && mode == 1) || decide (bs.length = 0) ||
      decide ((if mode = 0 then 4048 else 16777216) < bs.length)) = false := by
    rcases fits with ⟨rfl, short⟩ | ⟨rfl, version, short⟩
    · simp [some_byte, short]
    · simp [some_byte, short, version]
  refine congrArg Host.Outcome.next (State.command_of_ok taken ?_)
  dsimp only
  rw [if_neg (by simp only [good]; decide)]
  simp only [open_]
  rw [if_neg (by omega), if_neg (not_not.mpr rfl)]

/-! ### The end of a load (R440, R441, R473) -/

section
variable {gib : Nat} {cert : List Byte} {g : Stage} (taken : Taken s i 0x0603) (open_ : s.boot.stage = some g)
  (closed : v = { s with boot := { s.boot with stage := none } })
include taken open_ closed

theorem exec_fwLoadEnd_of_bad {e : Nat} (bad : s.checkBundle g = .error e) : exec (.fwLoadEnd i gib cert) s = .next (v.refuse i e) := by
  obtain ⟨busy, code, served⟩ := taken
  subst closed
  rw [exec, execFwLoadEnd]
  simp only [busy, code, served, open_, bad]
  rfl

variable {b : Bundle} (good : s.checkBundle g = .ok b)
include good

theorem exec_fwLoadEnd_of_rom (rom : s.boot.phase = .rom) :
    exec (.fwLoadEnd i gib cert) s = .next ((v.firstStart b gib cert).answer i 0 0 []) := by
  obtain ⟨busy, code, served⟩ := taken
  subst closed
  rw [exec, execFwLoadEnd]
  simp only [busy, code, served, open_, good, rom]
  rfl

theorem exec_fwLoadEnd_of_awaiting (awaiting : s.boot.phase = .awaiting) : exec (.fwLoadEnd i gib cert) s =
    .next (if s.sameConfig b = true then v.beginRestart { cause := 2, issuer := some i, bundle := some b } else v.refuse i 6) := by
  obtain ⟨busy, code, served⟩ := taken
  subst closed
  rw [exec, execFwLoadEnd]
  simp only [busy, code, served, open_, good, awaiting]
  rfl

theorem exec_fwLoadEnd_of_running (running : s.boot.phase = .running) : exec (.fwLoadEnd i gib cert) s =
    .next (({ v with boot := { v.boot with held := some b } } : State).answer i 0 0 []) := by
  obtain ⟨busy, code, served⟩ := taken
  subst closed
  rw [exec, execFwLoadEnd]
  simp only [busy, code, served, open_, good, running]
  rfl

end

/-! ### The configuration (R444) -/

theorem exec_cfgQuery_of_none {items : List Nat} (taken : Taken s i 0x0610) (few : items.length ≤ 500) (none : s.boot.bundle = none) :
    exec (.cfgQuery i items) s = .next (s.answer i 0 0 ([s.reg Reg.RST_STRAP, 2 ^ 32 - 1] ++
      items.map (fun k => (s.item k).getD (2 ^ 32 - 1)) ++ List.replicate 16 0)) := by
  have zeros : ((List.range 16).map fun j => leAt (List.replicate 64 0) (4 * j)) = List.replicate 16 0 := by decide
  refine congrArg Host.Outcome.next (State.command_of_ok taken ?_)
  simp only [none, zeros, if_neg (show ¬ 500 < items.length by omega)]

theorem exec_cfgQuery_of_bundle {items : List Nat} {b : Bundle} (taken : Taken s i 0x0610) (few : items.length ≤ 500)
    (bundle : s.boot.bundle = some b) : exec (.cfgQuery i items) s = .next (s.answer i 0 0 ([s.reg Reg.RST_STRAP,
      fromLE ((b.overlays ++ List.replicate 4 0xFF).take 4 |>.map (BitVec.ofNat 8))] ++
      items.map (fun k => (s.item k).getD (2 ^ 32 - 1)) ++ (List.range 16).map fun j => leAt b.config (4 * j))) := by
  refine congrArg Host.Outcome.next (State.command_of_ok taken ?_)
  simp only [bundle, if_neg (show ¬ 500 < items.length by omega)]

/-! ### RST_BLOCK (R445) -/

section
variable {b : RstBlock} (taken : Taken s i 0x0611) (known : s.blockOk b = true)
include taken known

theorem exec_rstBlock_of_hold (free : s.blockHeld b = false) (idle : s.holdBusy b = false) :
    exec (.rstBlock i b true) s = .next ((s.holdBlock b).answer i 0 0 []) :=
  congrArg Host.Outcome.next (State.command_of_ok taken (by simp [known, free, idle]))

theorem exec_rstBlock_of_busy (free : s.blockHeld b = false) (busy : s.holdBusy b = true) :
    exec (.rstBlock i b true) s = .next (s.refuse i 8) :=
  congrArg Host.Outcome.next (State.command_of_error taken (status := stBusy) (by decide) (by simp [known, free, busy]))

theorem exec_rstBlock_of_release (held : s.blockHeld b = true) :
    exec (.rstBlock i b false) s = .next ((s.releaseBlock b).answer i 0 0 []) :=
  congrArg Host.Outcome.next (State.command_of_ok taken (by simp [known, held]))

theorem exec_rstBlock_of_free (free : s.blockHeld b = false) : exec (.rstBlock i b false) s = .next (s.answer i 0 0 []) :=
  congrArg Host.Outcome.next (State.command_of_ok taken (by simp [known, free]))

end

theorem State.flag_setField_one (s : State) (a : Nat) {n : Nat} (word : n < 32) : (s.setField a n n 1).flag a n = true := by
  rw [State.flag_setField _ _ (le_refl n), if_pos ⟨le_refl n, le_refl n⟩, Nat.sub_self, decide_eq_true word]
  rfl

theorem State.testBit_setReg64_or (s : State) (a x : Nat) {n : Nat} (double : n < 64) : ((s.setReg64 a (x ||| 2 ^ n)).reg64 a).testBit n = true := by
  rw [State.reg64_setReg64, Nat.testBit_mod_two_pow, decide_eq_true double, Nat.testBit_or, Nat.testBit_two_pow_self, Bool.or_true, Bool.and_self]

theorem State.blockHeld_holdBlock {b : RstBlock} (known : s.blockOk b = true) : (s.holdBlock b).blockHeld b = true := by
  have within {n k : Nat} (known : decide (n < k) = true) (word : k ≤ 32) : n < 32 := (of_decide_eq_true known).trans_le word
  cases b with
  | cluster c => exact State.flag_setField_one _ _ (within known (by decide))
  | bronze u => exact State.testBit_setReg64_or _ _ _ ((of_decide_eq_true known).trans (by decide))
  | nand n => exact State.flag_setField_one _ _ (within known (by decide))
  | port p => exact State.flag_setField_one _ _ (within known (by decide))
  | solder => exact State.flag_setField_one _ _ (by decide)
  | _ => cases known

/-! ### Restarts (R470 to R474) -/

section
variable (taken : Taken s i 0x0805) (running : s.boot.phase = .running)
include taken running

theorem exec_fwRestart_of_image (image : s.boot.imageLost = false) :
    exec (.fwRestart i 0) s = .next (s.beginRestart { cause := 1, issuer := some i }) := by
  obtain ⟨busy, code, -⟩ := taken
  rw [exec, execFwRestart]
  simp [busy, code, running, image]

theorem exec_fwRestart_of_held {b : Bundle} (held : s.boot.held = some b) (same : s.sameConfig b = true) :
    exec (.fwRestart i 1) s = .next (s.beginRestart { cause := 2, issuer := some i, bundle := some b }) := by
  obtain ⟨busy, code, -⟩ := taken
  rw [exec]
  unfold execFwRestart
  rw [held]
  exact congrArg Host.Outcome.next ((if_neg (by simp [busy, code, running])).trans (if_pos same))

theorem exec_fwRestart_of_none (none : s.boot.held = none) : exec (.fwRestart i 1) s = .next (s.refuse i 8) := by
  obtain ⟨busy, code, -⟩ := taken
  rw [exec]
  unfold execFwRestart
  rw [none]
  exact congrArg Host.Outcome.next (if_neg (by simp [busy, code, running]))

end

/-- The state in which an expiry of the watchdog has been counted. -/
def State.expired (s : State) : State :=
  let t := (s.cause 5).bump Reg.RST_WDT_COUNT 1
  { t with boot := { t.boot with expiries := s.recent s.boot.expiries ++ [s.clk] } }

theorem exec_watchdogExpiry_of_running (running : s.boot.phase = .running) : exec .watchdogExpiry s = .next (
    if 3 ≤ (s.recent s.boot.expiries ++ [s.clk]).length || s.boot.imageLost then s.expired.await else s.expired.beginRestart { cause := 0 }) :=
  congrArg Host.Outcome.next (if_neg (by simp [running]))

theorem exec_watchdogExpiry_of_few (running : s.boot.phase = .running) (few : (s.recent s.boot.expiries ++ [s.clk]).length < 3)
    (image : s.boot.imageLost = false) : exec .watchdogExpiry s = .next (s.expired.beginRestart { cause := 0 }) := by
  rw [exec_watchdogExpiry_of_running running, if_neg]
  simp only [image, Bool.or_false, decide_eq_true_eq]
  omega

theorem exec_watchdogExpiry_of_third (running : s.boot.phase = .running)
    (lost : 3 ≤ (s.recent s.boot.expiries ++ [s.clk]).length ∨ s.boot.imageLost = true) : exec .watchdogExpiry s = .next s.expired.await := by
  rw [exec_watchdogExpiry_of_running running, if_pos]
  simpa only [Bool.or_eq_true, decide_eq_true_eq] using lost

end

/-! ### The obligation -/

/-- Settles O52, one rule per command and restart. -/
theorem firmwareLoadsAndRestarts : Obligations.FirmwareLoadsAndRestarts := by
  unfold Obligations.FirmwareLoadsAndRestarts
  refine ⟨fun s i total names => exec_fwLoadBegin_of_good, fun s i off mode bs g => exec_fwLoadChunk_of_good,
    fun s v i gib cert g taken open_ closed => ⟨fun rom => ?_, fun awaiting => ?_, fun running => ?_⟩,
    fun s i items taken few => ⟨exec_cfgQuery_of_none taken few, fun b => exec_cfgQuery_of_bundle taken few⟩,
    fun s i b taken known => ⟨exec_rstBlock_of_hold taken known, exec_rstBlock_of_busy taken known, exec_rstBlock_of_release taken known,
      exec_rstBlock_of_free taken known⟩,
    fun s b => State.blockHeld_holdBlock,
    fun s i taken running => ⟨exec_fwRestart_of_image taken running, fun b => exec_fwRestart_of_held taken running,
      exec_fwRestart_of_none taken running⟩, ?_, fun _ _ => rfl, fun s r restarting asked image => State.phase_finishRestart_of_image restarting asked ?_⟩
  · cases checked : s.checkBundle g with
    | error e => exact exec_fwLoadEnd_of_bad taken open_ closed checked
    | ok b => exact exec_fwLoadEnd_of_rom taken open_ closed checked rom
  · cases checked : s.checkBundle g with
    | error e => exact exec_fwLoadEnd_of_bad taken open_ closed checked
    | ok b => exact exec_fwLoadEnd_of_awaiting taken open_ closed checked awaiting
  · cases checked : s.checkBundle g with
    | error e => exact exec_fwLoadEnd_of_bad taken open_ closed checked
    | ok b => exact exec_fwLoadEnd_of_running taken open_ closed checked running
  · rintro s _ _ running rfl rfl
    exact ⟨s.expired, rfl, exec_watchdogExpiry_of_few running, exec_watchdogExpiry_of_third running⟩
  · rcases image with kept | given
    · simp [kept]
    · simp [given]

end Sys2Proof.Machine
end

section
/-! SUPPORT. Proofs about region filters, the identity, the measurement log and the attestation report (R450 to R460), and the obligation that these
rules settle. -/

namespace Sys2Proof.Machine

section
variable {s : State} {i : Issuer}

/-! ### Region filters (R451) -/

section
variable {f flags base limit : Nat} (taken : Taken s i 0x0702) (filter : f ≤ 63) (low : base % 4096 = 0) (high : limit % 4096 = 0xFFF)
  (order : base ≤ limit) (space : limit < 2 ^ 48)

/-- A filter as SET leaves it. -/
def State.withFilter (s : State) (f flags base limit : Nat) : State :=
  ((s.setReg (Reg.SEC_RF_CFG f) (1 + 2 * (flags % 4))).setReg64 (Reg.SEC_RF_BASE f) base).setReg64 (Reg.SEC_RF_LIMIT f) limit

theorem State.cfg_withFilter (s : State) (f flags base limit : Nat) :
    (s.withFilter f flags base limit).reg (Reg.SEC_RF_CFG f) = 1 + 2 * (flags % 4) := by
  rw [State.withFilter, State.reg_setReg64_other _ _ _ _ (by simp only [Reg.SEC_RF_LIMIT, Reg.SEC_RF_CFG]; omega)
    (by simp only [Reg.SEC_RF_LIMIT, Reg.SEC_RF_CFG]; omega), State.reg_setReg64_other _ _ _ _ (by simp only [Reg.SEC_RF_BASE, Reg.SEC_RF_CFG]; omega)
    (by simp only [Reg.SEC_RF_BASE, Reg.SEC_RF_CFG]; omega), State.reg_setReg_same]
  omega

theorem State.bounds_withFilter (s : State) (f flags : Nat) {base limit : Nat} (order : base ≤ limit) (space : limit < 2 ^ 48) :
    (s.withFilter f flags base limit).reg64 (Reg.SEC_RF_BASE f) = base ∧ (s.withFilter f flags base limit).reg64 (Reg.SEC_RF_LIMIT f) = limit := by
  constructor
  · rw [State.withFilter, State.reg64_setReg64_other _ _ _ (by simp only [Reg.SEC_RF_LIMIT, Reg.SEC_RF_BASE]; omega), State.reg64_setReg64]
    omega
  · rw [State.withFilter, State.reg64_setReg64]
    omega

include taken filter low high order space

/-- SEC_REGION_SET of a filter with aligned bounds, by its action. -/
theorem exec_secRegionSet_of_good {action : Nat} {t : State} {body : List Nat} (known : action ≤ 2)
    (done : (t, body) = if action = 0 then (s.withFilter f flags base limit, []) else if action = 1 then (s.setField (Reg.SEC_RF_CFG f) 0 0 0, [])
      else (s, [s.reg (Reg.SEC_RF_CFG f), s.reg (Reg.SEC_RF_BASE f), s.reg (Reg.SEC_RF_BASE f + 4), s.reg (Reg.SEC_RF_LIMIT f),
        s.reg (Reg.SEC_RF_LIMIT f + 4), s.reg (Reg.SEC_RF_VIOL f), s.reg (Reg.SEC_RF_VIOL f + 4), s.reg Reg.SEC_VIOL_TOTAL, s.reg (Reg.SEC_VIOL_TOTAL + 4),
        s.reg Reg.SEC_VIOL_LAST, s.reg Reg.SEC_VIOL_ADDR, s.reg (Reg.SEC_VIOL_ADDR + 4)])) :
    exec (.secRegionSet i f action flags base limit) s = .next (t.answer i 0 0 body) := by
  have good : (decide (63 < f) || decide (2 < action) || base % 4096 != 0 || limit % 4096 != 0xFFF || decide (limit < base) ||
      decide (2 ^ 48 ≤ limit)) = false := by
    simp only [low, high, bne_self_eq_false, Bool.or_false, Bool.or_eq_false_iff, decide_eq_false_iff_not]
    omega
  refine congrArg Host.Outcome.next (State.command_of_ok taken ?_)
  dsimp only
  rw [if_neg (by simp only [good]; decide)]
  split
  next set => rw [done, if_pos set]; rfl
  next other =>
    split
    next off => rw [done, if_neg other, if_pos off]
    next query => rw [done, if_neg other, if_neg query]; rfl

end

/-! ### Identity (R453, R455) -/

theorem exec_identityDerivation_of_pending (ok : Bool) (pending : s.flag Reg.SEC_STATUS 1 = true) :
    ∃ t : State, exec (.identityDerivation ok) s = .next t ∧ t.flag Reg.SEC_STATUS 1 = false ∧ t.flag Reg.SEC_STATUS 0 = ok ∧ t = { s with regs := t.regs } := by
  refine ⟨_, congrArg Host.Outcome.next (if_neg (by simp [pending])), ?_, ?_, rfl⟩
  · rw [State.flag_setField _ _ (le_refl 0), if_neg (by decide), State.flag_setField _ _ (le_refl 1), if_pos (by decide)]
    rfl
  · rw [State.flag_setField _ _ (le_refl 0), if_pos (by decide)]
    cases ok <;> rfl

/-! ### The measurement log (R458) -/

theorem State.chain_measure (s : State) (k c d : Nat) (g : List Byte) :
    (s.measure k c d g).boot.chain = shake256 (s.boot.chain ++ (⟨k, c, d, g⟩ : LogEntry).bytes) 64 := by
  unfold State.measure
  dsimp only
  split <;> rfl

theorem State.measure_eq (s : State) (k c d : Nat) (g : List Byte) : s.measure k c d g =
    { s with boot := (s.measure k c d g).boot, regs := (s.measure k c d g).regs } := by
  unfold State.measure
  dsimp only
  split <;> rfl

theorem State.debug_measure (s : State) (k c d : Nat) (g : List Byte) : (s.measure k c d g).boot.debug = s.boot.debug := by
  unfold State.measure
  dsimp only
  split <;> rfl

theorem State.measure_of_room (k c d : Nat) (g : List Byte) (room : s.boot.log.length < 256) :
    (s.measure k c d g).boot.log = s.boot.log ++ [⟨k, c, d, g⟩] ∧ (s.measure k c d g).measured k = g := by
  have stored : (s.measure k c d g).boot.log = s.boot.log ++ [⟨k, c, d, g⟩] := by
    unfold State.measure
    dsimp only
    rw [if_neg (by omega)]
    rfl
  exact ⟨stored, by simp [State.measured, stored]⟩

theorem State.measure_of_full (k c d : Nat) (g : List Byte) (full : 256 ≤ s.boot.log.length) :
    (s.measure k c d g).boot.log = s.boot.log ∧ (s.measure k c d g).flag Reg.SEC_STATUS 3 = true := by
  unfold State.measure
  dsimp only
  rw [if_pos full]
  exact ⟨rfl, State.flag_setField_one _ _ (by decide)⟩

theorem State.field_measure_identity (s : State) (k c d : Nat) (g : List Byte) :
    (s.measure k c d g).field Reg.SEC_STATUS 2 0 = s.field Reg.SEC_STATUS 2 0 := by
  unfold State.measure
  dsimp only
  split
  · exact State.field_setField_apart _ _ _ (le_refl 3) (by decide)
  · rw [State.field, State.reg_setReg_other _ _ _ _ (by decide)]
    rfl

/-- The device as DEBUG_ACCESS leaves it before the log entry. -/
def State.debugged (s : State) : State := ({ s with boot := { s.boot with debug := true } } : State).setField Reg.SEC_STATUS 2 0 4

theorem exec_debugAccess (s : State) : ∃ t : State, exec .debugAccess s = .next t ∧ t.boot.debug = true ∧ t.field Reg.SEC_STATUS 2 0 = 4 ∧
    t.boot.chain = shake256 (s.boot.chain ++ (⟨10, 3, 1, List.replicate 64 0⟩ : LogEntry).bytes) 64 ∧ t = { s with boot := t.boot, regs := t.regs } := by
  refine ⟨s.debugged.measure 10 3 1 (List.replicate 64 0), rfl, State.debug_measure .., ?_, State.chain_measure .., ?_⟩
  · rw [State.field_measure_identity, State.debugged, State.field_setField_same _ _ _ (show 0 ≤ 2 by decide) (by decide)]
    rfl
  · rw [State.measure_eq]
    rfl

/-! ### The attestation report (R460) -/

section
variable {nonce r : List Byte} {first count : Nat} (taken : Taken s i 0x0701) (few : count ≤ 40)
include taken few

theorem exec_attReport_of_identity (identity : s.flag Reg.SEC_STATUS 0 = true) (report : r = s.reportBytes (s.issuerFn i) nonce first count) :
    exec (.attReport i nonce first count) s = .next (s.answer i 0 0 (wordsOfBytes (r ++ ed448Sign Config.identitySeed r))) := by
  rw [exec, execAttReport]
  refine congrArg Host.Outcome.next (State.command_of_ok taken ?_)
  rw [if_neg (by omega), if_neg (by simp [identity]), report]

theorem exec_attReport_of_no_identity (none : s.flag Reg.SEC_STATUS 0 = false) :
    exec (.attReport i nonce first count) s = .next (s.refuse i 10) := by
  rw [exec, execAttReport]
  refine congrArg Host.Outcome.next (State.command_of_error taken (status := stAuth) (by decide) ?_)
  rw [if_neg (by omega), if_pos (by simp [none])]

end

theorem length_toLE (n x : Nat) : (toLE n x).length = n := by
  induction n generalizing x with
  | zero => rfl
  | succ n ih => rw [toLE, List.length_cons, ih]

theorem LogEntry.length_bytes {e : LogEntry} (digest : e.digest.length = 64) : e.bytes.length = 72 := by
  simp [LogEntry.bytes, length_toLE, digest]

theorem State.length_measured (digests : ∀ e ∈ s.boot.log, e.digest.length = 64) (k : Nat) : (s.measured k).length = 64 := by
  unfold State.measured
  split
  next e found => exact digests e (List.mem_reverse.mp (List.mem_of_find?_eq_some found))
  · exact List.length_replicate

theorem length_flatMap_of_all {α β : Type} {f : α → List β} {n : Nat} {as : List α} (each : ∀ a ∈ as, (f a).length = n) :
    (as.flatMap f).length = as.length * n := by
  rw [List.length_flatMap, List.map_congr_left each, List.map_const', List.sum_replicate, smul_eq_mul]

theorem State.length_reportBytes (fn first count : Nat) (nonce : List Byte) (digests : ∀ e ∈ s.boot.log, e.digest.length = 64)
    (chain : s.boot.chain.length = 64) :
    (s.reportBytes fn nonce first count).length = 768 + 72 * min count (s.boot.log.length - min first s.boot.log.length) := by
  have entries : (((s.boot.log.drop (min first s.boot.log.length)).take count).flatMap LogEntry.bytes).length =
      min count (s.boot.log.length - min first s.boot.log.length) * 72 := by
    rw [length_flatMap_of_all fun e member => LogEntry.length_bytes (digests e (List.mem_of_mem_drop (List.mem_of_mem_take member))), List.length_take,
      List.length_drop]
  have measured : ((List.range 8).flatMap fun k => s.measured (k + 1)).length = 512 := by
    rw [length_flatMap_of_all fun k _ => State.length_measured digests (k + 1)]
    rfl
  unfold State.reportBytes
  dsimp only
  simp only [List.length_append, length_toLE, List.length_take, List.length_replicate, List.length_map, entries, measured, chain, List.length_cons,
    List.length_nil]
  omega

end

/-! ### The obligation -/

/-- Settles O53, one rule per command, log entry and report. -/
theorem filtersIdentityAndReport : Obligations.FiltersIdentityAndReport := by
  unfold Obligations.FiltersIdentityAndReport
  refine ⟨fun s i f flags base limit taken filter low high order space => ⟨⟨s.withFilter f flags base limit,
      exec_secRegionSet_of_good taken filter low high order space (by decide) rfl, s.cfg_withFilter f flags base limit,
      (s.bounds_withFilter f flags order space).1, (s.bounds_withFilter f flags order space).2, rfl⟩,
      exec_secRegionSet_of_good taken filter low high order space (by decide) rfl, exec_secRegionSet_of_good taken filter low high order space (by decide) rfl⟩,
    fun s ok => exec_identityDerivation_of_pending ok, exec_debugAccess,
    fun s k c d g => ⟨s.chain_measure k c d g, State.measure_of_room k c d g, State.measure_of_full k c d g⟩,
    fun s i nonce r first count taken few => ⟨exec_attReport_of_identity taken few, exec_attReport_of_no_identity taken few⟩,
    fun s fn first count nonce => State.length_reportBytes fn first count nonce⟩

end Sys2Proof.Machine
end

section
/-! SUPPORT. Proofs about the resets of the package (R423 to R434, R446, R487, R488): which registers a full reset and a power-on keep, the sources,
the release sequence, and the obligation that these rules settle. -/

namespace Sys2Proof.Tab

theorem look_filter {α : Type} (tab : Tab α) (keep : Nat → Bool) (k : Nat) :
    look (tab.filter fun e => keep e.1) k = if keep k = true then look tab k else none := by
  induction tab with
  | nil => simp [look]
  | cons e tab ih =>
    obtain ⟨j, v⟩ := e
    by_cases same : j = k
    · subst same
      by_cases kept : keep j = true
      · simp [look, kept]
      · rw [List.filter_cons, if_neg kept, ih]
        simp [kept]
    · by_cases kept : keep j = true
      · rw [List.filter_cons, if_pos kept, look, if_neg same, ih, look, if_neg same]
      · rw [List.filter_cons, if_neg kept, ih, look, if_neg same]

theorem look_putAll {α : Type} (es base : Tab α) (k : Nat) :
    look (es.foldr (fun e t => t.put e.1 e.2) base) k = (look es k).or (look base k) := by
  induction es with
  | nil => rfl
  | cons e es ih =>
    obtain ⟨j, v⟩ := e
    rw [List.foldr_cons, look_put, look]
    split
    · rfl
    · exact ih

end Sys2Proof.Tab

namespace Sys2Proof.Machine

section
variable {s : State}

/-! ### Registers that a reset keeps (R423, R426, R432) -/

theorem look_dropKeys {α : Type} (tab : Tab α) (f : Nat → Bool) (k : Nat) : (dropKeys tab f).look k = if f k = true then none else tab.look k := by
  refine (Tab.look_filter tab (fun j => !f j) k).trans ?_
  cases f k <;> rfl

theorem State.look_retiredNand (s : State) {a : Nat} (other : ∀ n, n < 32 → a ≠ Reg.SBD_SVC_NAND n) : s.retiredNand.look a = none := by
  unfold State.retiredNand
  refine List.foldlRecOn (motive := fun t : Tab W32 => t.look a = none) _ _ rfl fun t absent n member => ?_
  split
  · rw [Tab.look_put, if_neg (Ne.symm (other n (List.mem_range.mp member)))]
    exact absent
  · exact absent

/-- A register after a full reset: a kept one holds its value, another its reset value. -/
theorem State.look_fullReset (s : State) {a : Nat} (other : ∀ n, n < 32 → a ≠ Reg.SBD_SVC_NAND n) :
    s.fullReset.regs.look a = if keptReg a = true then s.regs.look a else none := by
  refine (Tab.look_putAll _ _ a).trans ?_
  rw [State.look_retiredNand s other, look_dropKeys]
  cases keptReg a <;> simp

theorem State.reg_of_look_none {t : State} {a : Nat} (absent : t.regs.look a = none) : t.reg a = State.reset.reg a := by
  rw [State.reg, absent]
  rfl

theorem State.reg_fullReset_kept {a : Nat} (other : ∀ n, n < 32 → a ≠ Reg.SBD_SVC_NAND n) (kept : keptReg a = true) :
    s.fullReset.reg a = s.reg a := by
  rw [State.reg, State.look_fullReset s other, if_pos kept, State.reg]

theorem State.reg_fullReset_reset {a : Nat} (lost : keptReg a = false) (other : ∀ n, n < 32 → a ≠ Reg.SBD_SVC_NAND n) :
    s.fullReset.reg a = State.reset.reg a :=
  State.reg_of_look_none (by rw [State.look_fullReset s other, if_neg (by simp [lost])])

/-- A register that lasts until power-on only (R423, R426). -/
def lastsReg (a : Nat) : Bool :=
  retReg a || a == Reg.RST_CAUSE || a == Reg.RST_SCOPE || decide (0x500040 ≤ a) && decide (a < 0x500050) || decide (2 ^ 48 ≤ a)

theorem keptReg_of_lasts_not {a : Nat} (lost : lastsReg a = false) (other : ∀ n, n < 32 → a ≠ Reg.NAND_BAD_BLOCKS n) : keptReg a = false := by
  have blocks : ((List.range 32).any fun n => a == Reg.NAND_BAD_BLOCKS n) = false :=
    List.any_eq_false.mpr fun n member => by simp [other n (List.mem_range.mp member)]
  simp only [lastsReg, Bool.or_eq_false_iff] at lost
  obtain ⟨⟨⟨⟨ret, cause⟩, scope⟩, counts⟩, target⟩ := lost
  simp only [keptReg, ret, cause, scope, counts, target, blocks, Bool.or_self]

theorem State.reg_powerOn (s : State) {a : Nat} (other : ∀ n, n < 32 → a ≠ Reg.NAND_BAD_BLOCKS n ∧ a ≠ Reg.SBD_SVC_NAND n) :
    s.powerOn.reg a = State.reset.reg a := by
  refine State.reg_of_look_none ((look_dropKeys s.fullReset.regs lastsReg a).trans ?_)
  split
  · rfl
  next lost =>
    have notKept := keptReg_of_lasts_not (eq_false_of_ne_true lost) fun n small => (other n small).1
    rw [State.look_fullReset s fun n small => (other n small).2, if_neg (by simp [notKept])]

theorem State.tier_fullReset (none : s.savedObjs = []) : s.fullReset.tier = [] := by
  unfold State.fullReset
  dsimp only
  rw [none]
  exact List.filter_eq_nil_iff.mpr fun e _ => by simp

/-! ### Sources (R423 to R425, R446, R487, R488) -/

theorem State.fullBy_of_running (bit : Nat) (running : s.boot.phase ≠ .held) :
    s.fullBy bit = (s.cause bit).fullReset.bump Reg.RST_FULL_COUNT 1 :=
  if_neg (by simpa using running)

theorem State.fullBy_of_held (bit : Nat) (held : s.boot.phase = .held) : s.fullBy bit = s.cause bit :=
  if_pos (by simp [held])

section
variable {n : Nat}

theorem exec_resetNAssert_of_long (long : 250 ≤ n) : exec (.resetNAssert n) s = .next (s.fullBy 1) :=
  congrArg Host.Outcome.next (if_neg (by omega))

theorem exec_perstNAssert_of_full (long : 25 ≤ n) (running : s.boot.phase ≠ .held) (full : s.flag Reg.RST_SCOPE 0 = false) :
    exec (.perstNAssert n) s = .next ((s.cause 2).fullReset.bump Reg.RST_FULL_COUNT 1) := by
  rw [exec, execPerstNAssert, if_neg (by omega), if_neg (by simpa using running), if_neg (by simp [full]), State.fullBy_of_running 2 running]

theorem exec_perstNAssert_of_function (long : 25 ≤ n) (running : s.boot.phase ≠ .held) (function : s.flag Reg.RST_SCOPE 0 = true) :
    exec (.perstNAssert n) s = .next ((s.cause 2).resetLink.resetPf) := by
  rw [exec, execPerstNAssert, if_neg (by omega), if_neg (by simpa using running), if_pos function]

theorem exec_perstNAssert_of_held (long : 25 ≤ n) (held : s.boot.phase = .held) : exec (.perstNAssert n) s = .next (s.cause 2) := by
  rw [exec, execPerstNAssert, if_neg (by omega), if_pos (by simp [held])]

end

theorem exec_rstFull_of_key {v : W32} (key : bits v.toNat 31 16 = 0xD1E5) (go : v.toNat.testBit 0 = true) (running : s.boot.phase ≠ .held) :
    exec (.rstFull v) s = .next ((s.cause 3).fullReset.bump Reg.RST_FULL_COUNT 1) :=
  congrArg Host.Outcome.next ((if_pos ⟨key, go⟩).trans (State.fullBy_of_running 3 running))

theorem exec_rstFull_of_other {v : W32} (other : bits v.toNat 31 16 ≠ 0xD1E5 ∨ v.toNat.testBit 0 = false) : exec (.rstFull v) s = .next s := by
  refine congrArg Host.Outcome.next (if_neg fun ⟨key, go⟩ => ?_)
  rcases other with noKey | noGo
  · exact noKey key
  · exact absurd go (by simp [bit, noGo])

/-- The state after a thermal trip. -/
def State.tripped (s : State) : State := { s.fullBy 4 with boot := { (s.fullBy 4).boot with trip := true } }

theorem exec_thermalTrip (s : State) : ∃ t : State, exec .thermalTrip s = .next t ∧ t.boot.trip = true ∧ t.driven .thermtrip = true ∧
    (s.boot.phase ≠ .held → ∃ u, u = (s.cause 4).fullReset.bump Reg.RST_FULL_COUNT 1 ∧ t = { u with boot := { u.boot with trip := true } }) := by
  refine ⟨s.tripped, rfl, rfl, ?_, fun running => ⟨_, rfl, ?_⟩⟩
  · rw [State.driven]
    simp [State.tripped]
  · rw [State.tripped, State.fullBy_of_running 4 running]

theorem exec_railUndervoltage_of_low {k uv ns : Nat} (rail : k < 16) (long : 2000 < ns) (low : uv < s.railLow k)
    (watched : s.boot.trip = false ∨ 14 ≤ k) : exec (.railUndervoltage k uv ns) s = .next s.powerOn := by
  rw [exec, execRailUndervoltage, if_neg (by omega), if_neg]
  rcases watched with free | aon
  · simp [free]
  · simp [aon]

theorem exec_railUndervoltage_of_good {k uv ns : Nat} (good : ns ≤ 2000 ∨ s.railLow k ≤ uv) : exec (.railUndervoltage k uv ns) s = .next s := by
  rw [exec, execRailUndervoltage, if_pos (.inr good)]

/-! ### The release sequence (R429 to R434) -/

section
variable {code : Nat} {stackNos dies : List Nat}

theorem exec_resetRelease_of_held (held : s.boot.phase = .held) (free : s.boot.trip = false) :
    exec (.resetRelease code stackNos dies) s = .next (s.release code stackNos dies) :=
  congrArg Host.Outcome.next (if_neg (by simp [held, free]))

theorem exec_resetRelease_of_other (other : s.boot.phase ≠ .held ∨ s.boot.trip = true) :
    exec (.resetRelease code stackNos dies) s = .next s := by
  refine congrArg Host.Outcome.next (if_pos ?_)
  rcases other with running | tripped
  · simp [running]
  · simp [tripped]

theorem exec_tripHoldEnd_of_cool (tripped : s.boot.trip = true) :
    exec (.tripHoldEnd false code stackNos dies) s = .next (s.release code stackNos dies) :=
  congrArg Host.Outcome.next (if_neg (by simp [tripped]))

theorem exec_tripHoldEnd_of_hot : exec (.tripHoldEnd true code stackNos dies) s = .next s :=
  congrArg Host.Outcome.next (if_pos (by simp))

end

/-- What the measurements and the training of the release sequence leave: the phase, the trip, the stacks found bad, the time and the strap. -/
def ReleaseKeeps (s t : State) : Prop :=
  t.boot.phase = s.boot.phase ∧ t.boot.trip = s.boot.trip ∧ t.boot.badStacks = s.boot.badStacks ∧ t.time = s.time ∧
    t.reg Reg.RST_STRAP = s.reg Reg.RST_STRAP

theorem ReleaseKeeps.trans {s t u : State} (first : ReleaseKeeps s t) (second : ReleaseKeeps t u) : ReleaseKeeps s u := by
  obtain ⟨phase, trip, stackNos, time, strap⟩ := first
  obtain ⟨phase', trip', stackNos', time', strap'⟩ := second
  exact ⟨phase'.trans phase, trip'.trans trip, stackNos'.trans stackNos, time'.trans time, strap'.trans strap⟩

theorem releaseKeeps_setReg (s : State) {a : Nat} (v : Nat) (other : a ≠ Reg.RST_STRAP) : ReleaseKeeps s (s.setReg a v) :=
  ⟨rfl, rfl, rfl, rfl, s.reg_setReg_other _ _ _ other⟩

theorem releaseKeeps_log (s : State) (chain : List Byte) (log : List LogEntry) :
    ReleaseKeeps s { s with boot := { s.boot with chain := chain, log := log } } :=
  ⟨rfl, rfl, rfl, rfl, rfl⟩

theorem releaseKeeps_measure (s : State) (k c d : Nat) (g : List Byte) : ReleaseKeeps s (s.measure k c d g) := by
  unfold State.measure
  dsimp only
  split
  · exact (releaseKeeps_log ..).trans (releaseKeeps_setReg _ _ (by decide))
  · exact (releaseKeeps_log ..).trans (releaseKeeps_setReg _ _ (by decide))

theorem releaseKeeps_setStack (s : State) (t pcs : Nat) : ReleaseKeeps s (s.setStack t pcs) :=
  (releaseKeeps_setReg _ _ (by simp only [Reg.HBM_PC_PRESENT, Reg.RST_STRAP]; omega)).trans
    (releaseKeeps_setReg _ _ (by simp only [Reg.HBM_CAPACITY_GIB, Reg.RST_STRAP]; omega))

/-- The release sequence with its strap recorded, before anything is measured or trained. -/
def State.strapped (s : State) (code : Nat) (stackNos dies : List Nat) : State :=
  ({ s with boot := { s.boot with phase := .rom, trip := false, badStacks := stackNos, badDies := dies }, time := 0 } : State).setReg Reg.RST_STRAP
    (strapOf code)

theorem releaseKeeps_release (s : State) (code : Nat) (stackNos dies : List Nat) :
    ReleaseKeeps (s.strapped code stackNos dies) (s.release code stackNos dies) := by
  have identity (s : State) : ReleaseKeeps s (if s.boot.debug then s.setField Reg.SEC_STATUS 2 2 1 else s.setField Reg.SEC_STATUS 1 1 1) := by
    split
    · exact releaseKeeps_setReg _ _ (by decide)
    · exact releaseKeeps_setReg _ _ (by decide)
  have trained (s : State) (ts : List Nat) : ReleaseKeeps s (ts.foldl (fun s t => s.setStack t (2 ^ 32 - 1)) s) :=
    rel_foldl (fun _ => ⟨rfl, rfl, rfl, rfl, rfl⟩) .trans (fun s t => releaseKeeps_setStack s t _) s ts
  exact (identity _).trans ((releaseKeeps_measure ..).trans ((releaseKeeps_measure ..).trans (trained _ _)))

theorem State.release_facts (s : State) (code : Nat) (stackNos dies : List Nat) : (s.release code stackNos dies).boot.phase = .rom ∧
    (s.release code stackNos dies).boot.trip = false ∧ (s.release code stackNos dies).boot.badStacks = stackNos ∧
    (s.release code stackNos dies).time = 0 ∧ (s.release code stackNos dies).reg Reg.RST_STRAP = strapOf code % 2 ^ 32 := by
  obtain ⟨phase, trip, bad, time, strap⟩ := releaseKeeps_release s code stackNos dies
  exact ⟨phase, trip, bad, time, strap.trans (State.reg_setReg_same ..)⟩

end

/-! ### The obligation -/

/-- Settles O51, one rule per reset source and register kept. -/
theorem packageResetsAndReleases : Obligations.PackageResetsAndReleases := by
  unfold Obligations.PackageResetsAndReleases
  refine ⟨fun s => ⟨s.powerOn, rfl, rfl, rfl, rfl, rfl, fun a other => s.reg_powerOn other⟩,
    fun s => ⟨rfl, rfl, rfl, rfl, State.reg_fullReset_kept (fun n _ => ?_) (by decide), State.tier_fullReset,
      fun a lost other => State.reg_fullReset_reset lost other⟩,
    fun s n => ⟨fun short => congrArg Host.Outcome.next (if_pos short), fun short => congrArg Host.Outcome.next (if_pos short)⟩,
    fun s n running => ⟨fun long => ?_, fun long => exec_perstNAssert_of_full long running, fun long => exec_perstNAssert_of_function long running⟩,
    fun s n held => ⟨fun long => ?_, fun long => exec_perstNAssert_of_held long held⟩,
    fun s v => ⟨exec_rstFull_of_key, exec_rstFull_of_other⟩, exec_thermalTrip,
    fun s k uv ns rail => ⟨exec_railUndervoltage_of_low rail, exec_railUndervoltage_of_good⟩,
    fun s code stackNos dies => ⟨exec_resetRelease_of_held, exec_resetRelease_of_other, exec_tripHoldEnd_of_cool, exec_tripHoldEnd_of_hot⟩,
    State.release_facts⟩
  · simp only [Reg.RST_CAUSE, Reg.SBD_SVC_NAND]
    omega
  · rw [exec_resetNAssert_of_long long, State.fullBy_of_running 1 running]
  · rw [exec_resetNAssert_of_long long, State.fullBy_of_held 1 held]

end Sys2Proof.Machine
end

section
/-! SUPPORT. That stopping queues, ending tasks, tearing contexts down and freeing what a function holds leave the functions' own state as it is
(R402, R411): a relation that the steps of a reset compose. -/

namespace Sys2Proof.Machine

section
variable {s t u : State}

/-- `t` has the functions of `s`. -/
def SameFuncs (s t : State) : Prop := t.host.funcs = s.host.funcs

theorem SameFuncs.refl (s : State) : SameFuncs s s := rfl

theorem SameFuncs.trans (first : SameFuncs s t) (second : SameFuncs t u) : SameFuncs s u := Eq.trans second first

theorem SameFuncs.after (second : SameFuncs t u) (first : SameFuncs s t) : SameFuncs s u := first.trans second

theorem SameFuncs.func (same : SameFuncs s t) (n : Nat) : t.func n = s.func n := by rw [State.func, same, State.func]

theorem SameFuncs.foldl {α : Type} {f : State → α → State} (each : ∀ s a, SameFuncs s (f s a)) (s : State) (as : List α) :
    SameFuncs s (as.foldl f s) :=
  rel_foldl SameFuncs.refl SameFuncs.trans each s as

theorem SameFuncs.ite {c : Prop} [Decidable c] (yes : SameFuncs s t) (no : SameFuncs s u) : SameFuncs s (if c then t else u) := by
  split
  · exact yes
  · exact no

theorem SameFuncs.when {f : State → State} (move : SameFuncs s (f s)) (b : Bool) : SameFuncs s (s.when b f) := SameFuncs.ite move (.refl s)

/-! ### Events and readers -/

theorem sameFuncs_eventTo (s : State) (q : Option Nat) (fn kind ctx e4 e5 e6 e7 : Nat) : SameFuncs s (s.eventTo q fn kind ctx e4 e5 e6 e7) := by
  cases q <;> rfl

theorem sameFuncs_pfEvent (s : State) (kind e4 e5 e6 e7 : Nat) : SameFuncs s (s.pfEvent kind e4 e5 e6 e7) := by
  unfold State.pfEvent State.fnEvent
  exact sameFuncs_eventTo ..

theorem sameFuncs_ctxEvent (s : State) (x kind e4 e5 e6 e7 : Nat) : SameFuncs s (s.ctxEvent x kind e4 e5 e6 e7) := by
  unfold State.ctxEvent
  exact sameFuncs_eventTo ..

theorem sameFuncs_setShelf (s : State) (sh : Nat) (v : Shelf) : SameFuncs s (s.setShelf sh v) := rfl

theorem sameFuncs_setObj (s : State) (k : Nat) (o : Obj) : SameFuncs s (s.setObj k o) := rfl

theorem sameFuncs_staleDrop (s : State) (fn : Nat) : SameFuncs s (s.staleDrop fn) := rfl

theorem sameFuncs_resEvent (s : State) (r : ResSlot) (kind e4 e5 e6 e7 : Nat) : SameFuncs s (s.resEvent r kind e4 e5 e6 e7) :=
  SameFuncs.ite (sameFuncs_eventTo ..) (sameFuncs_eventTo ..)

theorem sameFuncs_dropReader (s : State) (r : Reader) : SameFuncs s (s.dropReader r) := by
  rw [SameFuncs, (FillsOnly.dropReader s r).1]

/-! ### Ends of tasks (R185, R191) -/

theorem sameFuncs_slackCheck (s : State) (g : Nat) : SameFuncs s (s.slackCheck g) := by
  unfold State.slackCheck
  dsimp only
  refine SameFuncs.ite (.refl s) ?_
  refine SameFuncs.ite ((sameFuncs_pfEvent ..).after ?_) ?_
  · refine SameFuncs.ite ((sameFuncs_pfEvent ..).after ?_) ?_ <;> rfl
  · refine SameFuncs.ite ((sameFuncs_pfEvent ..).after ?_) ?_ <;> rfl

theorem sameFuncs_slackSettle (s : State) (g : Nat) : SameFuncs s (s.slackSettle g) := by
  unfold State.slackSettle
  dsimp only
  refine SameFuncs.ite ?_ (.refl s)
  split
  · rfl
  · exact (sameFuncs_slackCheck ..).after rfl

theorem sameFuncs_slackDone (s : State) (k : Task) : SameFuncs s (s.slackDone k) := by
  unfold State.slackDone
  split
  · rfl
  · exact SameFuncs.ite (.refl s) ((sameFuncs_slackSettle ..).after ((sameFuncs_slackCheck ..).after rfl))

theorem sameFuncs_recorded (s : State) (i : Nat) (k : Task) : SameFuncs s (s.recorded i k) := by
  refine (sameFuncs_slackDone ..).after ?_
  rw [SameFuncs, State.resolve_eq, State.countEnd_eq]
  rfl

theorem sameFuncs_recordTask (s : State) (i : Nat) (record : Bool) : SameFuncs s (s.recordTask i record) := by
  cases task : (s.slot i).task with
  | none =>
    simp only [State.recordTask, task]
    exact .refl s
  | some k =>
    rcases State.recordTask_cases task record with freed | ⟨_, bs, sent⟩
    · rw [freed]
      exact (sameFuncs_recorded s i k).trans rfl
    · rw [sent]
      exact (sameFuncs_recorded s i k).trans rfl

theorem sameFuncs_endTask (s : State) (i status cause place : Nat) : SameFuncs s (s.endTask i status cause place) := by
  unfold State.endTask
  dsimp only
  split
  · rfl
  · exact SameFuncs.ite rfl ((sameFuncs_recordTask ..).after rfl)

theorem sameFuncs_abortTask (s : State) (i : Nat) : SameFuncs s (s.abortTask i) := by
  unfold State.abortTask
  dsimp only
  split
  · rfl
  · exact (sameFuncs_recordTask ..).after rfl

theorem sameFuncs_abortTasks (s : State) (x : Nat) (f : TaskSt → Bool) : SameFuncs s (s.abortTasks x f) := by
  have ended (s : State) (is : List Nat) : SameFuncs s (is.foldl (fun s i => s.abortTask i) s) := SameFuncs.foldl sameFuncs_abortTask s is
  exact SameFuncs.trans (SameFuncs.trans (t := s.mapTasks _) rfl (ended _ _)) rfl

/-! ### Teardown of a context (R191) -/

theorem sameFuncs_freeThread (s : State) (m t : Nat) : SameFuncs s (s.freeThread m t) := (sameFuncs_dropReader ..).after rfl

theorem sameFuncs_dropDma (s : State) (c x : Nat) : SameFuncs s (s.dropDma c x) := by
  refine (SameFuncs.foldl (fun s q => ?_) s (List.range 2)).trans rfl
  split
  · exact SameFuncs.ite (.refl s) (sameFuncs_dropReader ..)
  · rfl

theorem sameFuncs_dropBronze (s : State) (n x : Nat) : SameFuncs s (s.dropBronze n x) :=
  (SameFuncs.when (sameFuncs_dropReader ..) _).after rfl

theorem sameFuncs_sterlingSync (s : State) (r : Nat) : SameFuncs s (s.sterlingSync r) := by rw [SameFuncs, State.sterlingSync_eq]

theorem sameFuncs_setLatGran (s : State) (c g : Nat) (owner : Option Nat) : SameFuncs s (s.setLatGran c g owner) :=
  (SameFuncs.foldl (fun _ _ => rfl) s (List.range 8)).trans rfl

theorem sameFuncs_becomeResident (s : State) (c k : Nat) (r : ResSlot) : SameFuncs s (s.becomeResident c k r) :=
  (sameFuncs_sterlingSync ..).after ((sameFuncs_resEvent ..).after rfl)

theorem sameFuncs_holdObj (s : State) (a n : Nat) (d : Int) : SameFuncs s (s.holdObj a n d) := by
  unfold State.holdObj
  split <;> rfl

theorem sameFuncs_startCopy (s : State) (c x : Nat) (use : DmaUse) (d : DmaDesc) : SameFuncs s (s.startCopy c x use d) := rfl

theorem sameFuncs_grant (s : State) (c : Nat) (q : ResReq) : SameFuncs s (s.grant c q) := by
  unfold State.grant
  split
  · rfl
  · have given := (SameFuncs.foldl (fun v g => sameFuncs_setLatGran v c g (some q.ctx)) (s.scrubGrans c ((s.freeGrans c).take q.grans))
      ((s.freeLats c).take q.lats)).after (s := s) rfl
    exact SameFuncs.ite (given.trans (sameFuncs_becomeResident ..)) ((sameFuncs_startCopy ..).after ((sameFuncs_holdObj ..).after (given.trans rfl)))

theorem sameFuncs_grantPending (s : State) (c : Nat) (qs : List ResReq) : SameFuncs s (s.grantPending c qs) := by
  induction qs generalizing s with
  | nil => rfl
  | cons q qs ih =>
    rw [State.grantPending]
    exact SameFuncs.ite (((sameFuncs_grant _ c q).trans (ih _)).after rfl) (.refl s)

theorem sameFuncs_dropRequests (s : State) (c x : Nat) : SameFuncs s (s.dropRequests c x) := by
  unfold State.dropRequests
  exact ((SameFuncs.foldl (fun v _ => sameFuncs_ctxEvent v ..) _ _).trans (sameFuncs_grantPending ..)).after rfl

theorem sameFuncs_dropWaits (s : State) (x : Nat) : SameFuncs s (s.dropWaits x) := rfl

theorem sameFuncs_pwtReap (s : State) (n : Nat) : SameFuncs s (s.pwtReap n) := rfl

theorem sameFuncs_tasksEnded (s : State) (x : Nat) : SameFuncs s (s.tasksEnded x) := (sameFuncs_abortTasks ..).after rfl

theorem sameFuncs_threadsFreed (s : State) (x : Nat) : SameFuncs s (s.threadsFreed x) :=
  (SameFuncs.foldl (fun s (p : Nat × Nat) => sameFuncs_freeThread s p.1 p.2) _ _).after rfl

theorem sameFuncs_tearCtx (s : State) (x : Nat) : SameFuncs s (s.tearCtx x) := by
  have each {f : State → Nat → State} {p : State → Nat → Bool} (step : ∀ s n, SameFuncs s (f s n)) (s : State) (ns : List Nat) :
      SameFuncs s (ns.foldl (fun s n => if p s n = true then f s n else s) s) :=
    SameFuncs.foldl (fun s n => SameFuncs.ite (step s n) (.refl s)) s ns
  unfold State.tearCtx
  refine (each (fun s c => sameFuncs_dropRequests s c x) _ _).after ?_
  refine (sameFuncs_dropWaits ..).after ?_
  refine (each (fun s n => sameFuncs_dropBronze s n x) _ _).after ?_
  refine (each (fun s c => sameFuncs_dropDma s c x) _ _).after ?_
  refine (each sameFuncs_pwtReap _ _).after ?_
  refine SameFuncs.trans ((sameFuncs_threadsFreed _ x).after (sameFuncs_tasksEnded s x)) ?_
  exact rfl

theorem sameFuncs_tearAll (s : State) (xs : List Nat) : SameFuncs s (s.tearAll xs) :=
  SameFuncs.foldl (fun s x => SameFuncs.ite (.refl s) (sameFuncs_tearCtx s x)) s xs

/-! ### Queues and records (R397, R402, R410) -/

theorem sameFuncs_txDone (s : State) (q : Nat) (d : TxDesc) (gen status : Nat) (stamp : List Nat) : SameFuncs s (s.txDone q d gen status stamp) := by
  have counted : SameFuncs s (s.txCounted q status) := by rw [SameFuncs, State.txCounted_eq]
  exact SameFuncs.trans counted (SameFuncs.ite (.refl _) rfl)

theorem sameFuncs_killHead (s : State) (q status : Nat) : SameFuncs s (s.killHead q status) := by
  unfold State.killHead
  split
  · rfl
  · exact (sameFuncs_txDone ..).after rfl

theorem sameFuncs_stopQueue (s : State) (q : Nat) : SameFuncs s (s.stopQueue q) := by
  have ended (s : State) (is : List Nat) : SameFuncs s (is.foldl (fun s i => s.endTask i 4 0 0xFF) s) :=
    SameFuncs.foldl (fun s i => sameFuncs_endTask s i 4 0 0xFF) s is
  unfold State.stopQueue
  have killed : SameFuncs s (if (s.queue q).typ = 3 then s.killHead q txFlushed else s) := SameFuncs.ite (sameFuncs_killHead ..) (.refl s)
  exact SameFuncs.trans (killed.trans (SameFuncs.ite (ended _ _) (.refl _))) rfl

theorem sameFuncs_stopQueues (s : State) (qs : List Nat) : SameFuncs s (qs.foldl (fun s q => s.stopQueue q) s) :=
  SameFuncs.foldl sameFuncs_stopQueue s qs

theorem sameFuncs_discard (s : State) (r : PostRec) : SameFuncs s (s.discard r) := by
  have freed : SameFuncs s (s.freeTaskSlot r.use) := by rw [SameFuncs, State.freeTaskSlot_eq]
  refine freed.trans ?_
  unfold State.discard State.unblock
  split <;> rfl

theorem sameFuncs_purge (s : State) (fn : Nat) : SameFuncs s (s.purge fn) := by
  have dropped (s : State) (rs : List PostRec) : SameFuncs s (rs.foldl (fun s r => (s.staleDrop fn).discard r) s) :=
    SameFuncs.foldl (fun s r => (sameFuncs_discard _ r).after (sameFuncs_staleDrop s fn)) s rs
  exact (dropped _ _).after rfl

/-! ### What a function holds (R411, R412) -/

theorem sameFuncs_sldAnswer (s : State) (n seq tag opc status : Nat) (data : List Byte) : SameFuncs s (s.sldAnswer n seq tag opc status data) := by
  unfold State.sldAnswer
  dsimp only
  split
  · rfl
  · exact SameFuncs.ite (SameFuncs.ite rfl rfl) rfl

theorem sameFuncs_sldReply (s : State) (a : SldAcc) (status : Nat) (data : List Byte) : SameFuncs s (s.sldReply a status data) := by
  have sent (n : Nat) (payload : List Byte) : SameFuncs s (s.sldSend n payload) := by rw [SameFuncs, (solderSends_sldSend s n payload).1]
  exact SameFuncs.ite (sameFuncs_sldAnswer ..) (SameFuncs.ite (.refl s) (sent ..))

theorem sameFuncs_sldDropExport (s : State) (k : Nat) : SameFuncs s (s.sldDropExport k) := by
  have answered (s : State) (as : List SldAcc) : SameFuncs s (as.foldl (fun s a => (s.dropReader a.reader).sldReply a 1 []) s) :=
    SameFuncs.foldl (fun s a => (sameFuncs_sldReply ..).after (sameFuncs_dropReader ..)) s as
  unfold State.sldDropExport
  split
  · rfl
  · exact (answered _ _).after rfl

theorem sameFuncs_freeFn (s : State) (n : Nat) (all : Bool) : SameFuncs s (s.freeFn n all) := by
  have exports (s : State) (ks : List Nat) : SameFuncs s (ks.foldl (fun s k => s.sldDropExport k) s) := SameFuncs.foldl sameFuncs_sldDropExport s ks
  have shelves (s : State) (ks : List Nat) : SameFuncs s (ks.foldl (fun s sh => s.setShelf sh { s.shelf sh with holds := 0 }) s) :=
    SameFuncs.foldl (fun s sh => sameFuncs_setShelf s sh _) s ks
  have objects (s : State) (es : List (Nat × Obj)) : SameFuncs s (es.foldl (fun s (e : Nat × Obj) =>
      if (all || e.2.policy == .pinned) = true then s.setObj e.1 { e.2 with st := .destroying } else s) s) :=
    SameFuncs.foldl (fun s e => SameFuncs.ite (sameFuncs_setObj s e.1 _) (.refl s)) s es
  exact (objects _ _).after ((shelves _ _).after ((exports _ _).after rfl))

end

end Sys2Proof.Machine
end

section
/-! SUPPORT. Proofs about virtual functions, function-level resets and the link (R386, R408 to R413, R423), and the obligation that these rules
settle. -/

namespace Sys2Proof.Machine

section
variable {s t u : State} {i : Issuer} {n : Nat}

/-! ### Grants (R408, R409) -/

theorem firstFit_fits {lo hi n b : Nat} {held : List (Nat × Nat)} (fit : firstFit lo hi n held = some b) :
    lo ≤ b ∧ b + n ≤ hi ∧ ∀ r ∈ held, b + n ≤ r.1 ∨ r.1 + r.2 ≤ b := by
  have member := List.min?_mem fit
  obtain ⟨-, ok⟩ := List.mem_filter.mp member
  simpa [and_assoc] using ok

theorem State.freeQueues_fits {b : Nat} (free : s.freeQueues n = some b) :
    2048 ≤ b ∧ b + n ≤ 262144 ∧ ∀ e ∈ s.vfs, b + n ≤ e.2.qbase ∨ e.2.qbase + e.2.qcount ≤ b := by
  obtain ⟨low, high, apart⟩ := firstFit_fits free
  exact ⟨low, high, fun e member => apart (e.2.qbase, e.2.qcount) (List.mem_append_left _ (List.mem_map.mpr ⟨e, member, rfl⟩))⟩

/-- A function as VF_CREATE makes it, before its ranges of queues and vectors are found. -/
def State.newFunc (s : State) (n qs vs cs sh la hbm ca ob jo mm tx rx : Nat) : Func :=
  { st := .active, enabled := true, gen := (s.func n).gen, qcount := qs, vectors := vs, contexts := cs, shareGran := sh, latchGran := la, hbm := hbm
    cacheAllow := some ca, objects := ob, bronzeJobs := jo, macMask := mm, txRate := tx, rxFilters := rx, txCredit := 8388608000, txAt := s.clk }

theorem exec_vfCreate_of_good {qs vs cs sh la hbm ca ob jo mm tx rx qb vb : Nat} (taken : Taken s i 0x0110)
    (ranges : vfRanges n (s.newFunc n qs vs cs sh la hbm ca ob jo mm tx rx) ca = true) (absent : (s.func n).st = .absent)
    (queues : s.freeQueues qs = some qb) (vectors : s.freeVectors vs = some vb)
    (fits : s.vfFits (s.newFunc n qs vs cs sh la hbm ca ob jo mm tx rx) = true) : exec (.vfCreate i n qs vs cs sh la hbm ca ob jo mm tx rx) s =
      .next ((s.setFunc n { s.newFunc n qs vs cs sh la hbm ca ob jo mm tx rx with qbase := qb, vec0 := vb }).answer i 0 0 []) := by
  refine congrArg Host.Outcome.next (State.command_of_ok taken ?_)
  simp only [State.newFunc] at ranges fits ⊢
  simp only [queues, vectors]
  exact (if_neg (by simp [ranges])).trans ((if_neg (by simp [absent])).trans (if_pos fits))

theorem exec_vfQuery_of_function (taken : Taken s i 0x0112) (virtual : 0 < n) (range : n < 1024) :
    exec (.vfQuery i n) s = .next (s.answer i 0 0 (s.vfWords n)) :=
  congrArg Host.Outcome.next (State.command_of_ok taken (if_neg (by omega)))

theorem exec_vfDestroy_of_function (taken : Taken s i 0x0111) (virtual : 0 < n) (range : n < 1024)
    (stands : (s.func n).st = .active ∨ (s.func n).st = .resetting) (idle : s.installing n = false) :
    exec (.vfDestroy i n) s = .next ((s.resetVf n true).answer i 0 0 []) := by
  have known : (decide (n = 0) || decide (1024 ≤ n) || (s.func n).st == .absent) = false := by
    rcases stands with active | resetting
    · simp [active, range]
      omega
    · simp [resetting, range]
      omega
  have free : ((s.func n).st == .removing || s.installing n) = false := by
    rcases stands with active | resetting
    · simp [active, idle]
    · simp [resetting, idle]
  refine congrArg Host.Outcome.next (State.command_of_ok taken ?_)
  dsimp only
  rw [if_neg (by simp only [known]; decide), if_neg (by simp only [free]; decide)]

/-! ### Generations through a reset (R410 to R413) -/

/-- `t` has the generations of `s`. -/
def SameGens (s t : State) : Prop := ∀ k, (t.func k).gen = (s.func k).gen

theorem SameGens.trans (first : SameGens s t) (second : SameGens t u) : SameGens s u := fun k => (second k).trans (first k)

theorem SameFuncs.gens (same : SameFuncs s t) : SameGens s t := fun k => congrArg Func.gen (same.func k)

theorem SameGens.foldl {α : Type} {f : State → α → State} (each : ∀ s a, SameGens s (f s a)) (s : State) (as : List α) :
    SameGens s (as.foldl f s) :=
  rel_foldl (fun _ _ => rfl) .trans each s as

theorem sameGens_setFunc (s : State) (n : Nat) {v : Func} (gen : v.gen = (s.func n).gen) : SameGens s (s.setFunc n v) := by
  intro k
  rw [State.func_setFunc]
  split
  next same => rw [gen, same]
  · rfl

theorem sameGens_vfEnd (s : State) (n : Nat) : SameGens s (s.vfEnd n) := by
  have released : SameGens s (s.vfRelease n) := SameFuncs.gens rfl
  unfold State.vfEnd
  dsimp only
  split
  · exact released
  · split
    · exact released.trans (sameGens_setFunc _ _ rfl)
    · exact released.trans (sameGens_setFunc _ _ rfl)

theorem sameGens_vfSettle (s : State) : SameGens s s.vfSettle := by
  refine SameGens.foldl (fun s e => ?_) s _
  obtain ⟨n, f⟩ := e
  dsimp only
  split
  · exact sameGens_vfEnd s n
  · exact fun _ => rfl

/-- A virtual function whose reset or removal has begun, with its next generation. -/
def State.resetBegun (s : State) (n : Nat) (all : Bool) : State :=
  s.setFunc n { s.func n with gen := ((s.func n).gen + 1) % 2 ^ 16, st := if all then .removing else .resetting }

theorem sameFuncs_resetMsix (s : State) (n : Nat) : SameFuncs s (s.resetMsix n) := rfl

theorem sameFuncs_dropEntries (s : State) (n : Nat) : SameFuncs s (s.dropEntries n) := rfl

theorem sameFuncs_resetBoxes (s : State) (n : Nat) : SameFuncs s (s.resetBoxes n) := rfl

theorem sameGens_resetVf (s : State) (n : Nat) (all : Bool) : SameGens (s.resetBegun n all) (s.resetVf n all) := by
  unfold State.resetVf
  refine SameGens.trans (SameFuncs.gens ?_) (sameGens_vfSettle _)
  refine (sameFuncs_purge ..).after ?_
  refine (sameFuncs_resetMsix ..).after ?_
  refine (sameFuncs_freeFn ..).after ?_
  refine (sameFuncs_tearAll ..).after ?_
  refine (sameFuncs_dropEntries ..).after ?_
  refine (sameFuncs_stopQueues ..).after ?_
  exact sameFuncs_resetBoxes (s.resetBegun n all) n

theorem State.gen_resetVf_same (s : State) (n : Nat) (all : Bool) : ((s.resetVf n all).func n).gen = ((s.func n).gen + 1) % 2 ^ 16 := by
  rw [sameGens_resetVf s n all n, State.resetBegun, State.func_setFunc_same]

theorem State.gen_resetVf_other (s : State) (all : Bool) {n k : Nat} (other : k ≠ n) : ((s.resetVf n all).func k).gen = (s.func k).gen := by
  rw [sameGens_resetVf s n all k, State.resetBegun, State.func_setFunc, if_neg (Ne.symm other)]

/-! ### Function-level resets (R411, R413) -/

/-- What a reset of function `n` alone, or of all, hits. -/
def flrHits (fn : Option Nat) (e : Nat × Func) : Bool := e.1 != 0 && e.2.st == .active && (fn == some e.1 || fn.isNone)

theorem filter_keys_eq_nil {tab : Tab Func} (unlisted : n ∉ tab.map (·.1)) : tab.filter (flrHits (some n)) = [] := by
  refine List.filter_eq_nil_iff.mpr fun e member hit => unlisted (List.mem_map.mpr ⟨e, member, ?_⟩)
  simp only [flrHits, Bool.and_eq_true, Bool.or_eq_true, beq_iff_eq, Option.some.injEq, Option.isNone_some, Bool.false_eq_true, or_false] at hit
  exact hit.2.symm

theorem filter_keys_of_nodup {tab : Tab Func} {f : Func} (keys : (tab.map (·.1)).Nodup) (listed : tab.look n = some f)
    (hit : flrHits (some n) (n, f) = true) : (tab.filter (flrHits (some n))).map (·.1) = [n] := by
  induction tab with
  | nil => cases listed
  | cons e tab ih =>
    obtain ⟨k, g⟩ := e
    obtain ⟨fresh, rest⟩ := List.nodup_cons.mp keys
    rw [Tab.look] at listed
    split at listed
    next same =>
      obtain rfl := same
      obtain rfl := Option.some.inj listed
      rw [List.filter_cons_of_pos hit, filter_keys_eq_nil fresh]
      rfl
    next other =>
      have misses : ¬ flrHits (some n) (k, g) = true := by simp [flrHits, Ne.symm other]
      rw [List.filter_cons_of_neg misses, ih rest listed]

/-- The functions that a reset of `fn` hits. -/
def State.flrFns (s : State) (fn : Option Nat) : List Nat := (s.host.funcs.filter (flrHits fn)).map (·.1)

theorem State.flrFns_ne_zero {fn : Option Nat} {k : Nat} (member : k ∈ s.flrFns fn) : k ≠ 0 := by
  obtain ⟨e, hit, rfl⟩ := List.mem_map.mp member
  have ok := (List.mem_filter.mp hit).2
  simp only [flrHits, Bool.and_eq_true, bne_iff_ne] at ok
  exact ok.1.1

theorem State.flr_some (s : State) (n : Nat) :
    s.flr (some n) = (s.flrFns (some n)).foldl (fun s n => s.resetVf n false) (if (s.flrFns (some n)).isEmpty = true then s else s.cause 8) := rfl

theorem State.flr_none (s : State) : s.flr none = (s.flrFns none).foldl (fun s n => s.resetVf n false)
    ((s.flrFns none).foldl (fun s n => s.setFunc n { s.func n with enabled := false }) (if (s.flrFns none).isEmpty = true then s else s.cause 8)) := rfl

theorem State.flr_of_active (virtual : n ≠ 0) (active : (s.func n).st = .active) (keys : (s.host.funcs.map (·.1)).Nodup) :
    s.flr (some n) = (s.cause 8).resetVf n false := by
  obtain ⟨f, listed, isActive⟩ : ∃ f, s.host.funcs.look n = some f ∧ f.st = .active := by
    cases listed : s.host.funcs.look n with
    | none =>
      rw [State.func, Tab.get, listed] at active
      cases active
    | some f =>
      rw [State.func, Tab.get, listed] at active
      exact ⟨f, rfl, active⟩
  have only : s.flrFns (some n) = [n] := filter_keys_of_nodup keys listed (by simp [flrHits, virtual, isActive])
  rw [State.flr_some, only, List.foldl_cons, List.foldl_nil, if_neg (by simp)]

theorem State.gen0_resetVfs (s : State) {ns : List Nat} (virtual : ∀ k ∈ ns, k ≠ 0) :
    ((ns.foldl (fun s n => s.resetVf n false) s).func 0).gen = (s.func 0).gen := by
  induction ns generalizing s with
  | nil => rfl
  | cons n ns ih =>
    rw [List.foldl_cons, ih _ fun k member => virtual k (List.mem_cons_of_mem n member),
      State.gen_resetVf_other s false (virtual n List.mem_cons_self).symm]

theorem State.gen0_flr (s : State) : ((s.flr none).func 0).gen = (s.func 0).gen := by
  have recorded : SameFuncs s (if (s.flrFns none).isEmpty = true then s else s.cause 8) := SameFuncs.ite (.refl s) rfl
  have disabled (t : State) (ns : List Nat) : SameGens t (ns.foldl (fun s n => s.setFunc n { s.func n with enabled := false }) t) :=
    SameGens.foldl (fun s n => sameGens_setFunc s n (v := { s.func n with enabled := false }) rfl) t ns
  rw [State.flr_none, State.gen0_resetVfs _ fun k => State.flrFns_ne_zero]
  exact recorded.gens.trans (disabled _ _) 0

theorem State.gen_resetPf (s : State) : (s.resetPf.func 0).gen = ((s.func 0).gen + 1) % 2 ^ 16 := by
  unfold State.resetPf
  refine ((sameFuncs_tearAll ..).gens 0).trans ?_
  refine ((sameFuncs_stopQueues ..).gens 0).trans ?_
  rw [State.gen0_flr, State.func_setFunc_same]

/-! ### Causes and the link (R386, R423, R426) -/

theorem State.flag_cause_same (s : State) {b : Nat} (word : b < 32) : (s.cause b).flag Reg.RST_CAUSE b = true := State.flag_setField_one _ _ word

theorem State.flag_cause_other (s : State) {b k : Nat} (other : k ≠ b) : (s.cause b).flag Reg.RST_CAUSE k = s.flag Reg.RST_CAUSE k := by
  rw [State.cause, State.flag_setField _ _ (le_refl b), if_neg (by omega)]

theorem exec_hotReset_of_firmware (firmware : s.boot.phase = .running ∨ s.boot.phase = .restarting) :
    exec .hotReset s = .next ((s.cause 6).resetLink.resetPf) := by
  have phase : (s.cause 6).boot.phase = s.boot.phase := rfl
  rw [exec, execHotReset]
  rcases firmware with running | restarting
  · simp only [phase, running]
  · simp only [phase, restarting]

theorem exec_hotReset_of_rom (rom : s.boot.phase = .rom ∨ s.boot.phase = .awaiting) :
    exec .hotReset s = .next (({ s.cause 6 with boot := { s.boot with stage := none } } : State).resetLink.resetPf) := by
  have phase : (s.cause 6).boot.phase = s.boot.phase := rfl
  rw [exec, execHotReset]
  rcases rom with rom | awaiting
  · simp only [phase, rom]
    rfl
  · simp only [phase, awaiting]
    rfl

theorem exec_pcieLinkTrained_of_caps {speed width : Nat} (flit : Bool) (running : s.boot.phase = .running) (some_speed : 1 ≤ speed) (fast : speed ≤ 6)
    (speed_cap : speed ≤ (s.item 0x50001).getD 6) (lanes : width = 8 ∨ width = 16) (width_cap : width ≤ (s.item 0x50002).getD 16) :
    exec (.pcieLinkTrained speed width flit) s = .next (s.setReg Reg.PCI_LINK_STATUS (speed + 8 * width + (if flit = true then 256 else 0))) := by
  have bits : 256 * b2n flit = if flit = true then 256 else 0 := by cases flit <;> rfl
  have trains : (s.boot.phase == .held || decide (speed = 0) || decide (min 6 ((s.item 0x50001).getD 6) < speed) || !(width == 8 || width == 16) ||
      decide ((s.item 0x50002).getD 16 < width)) = false := by
    have widths : (width == 8 || width == 16) = true := by rcases lanes with rfl | rfl <;> rfl
    have some_speed' : speed ≠ 0 := by omega
    simp [running, some_speed', fast, speed_cap, widths, width_cap]
  rw [exec, execPcieLinkTrained]
  simp only [running] at trains ⊢
  refine congrArg Host.Outcome.next ((if_neg ?_).trans (by rw [bits]))
  simpa using trains

end

/-! ### The obligation -/

/-- Settles O50, one rule per command, reset and state of the link. -/
theorem functionsComeAndGo : Obligations.FunctionsComeAndGo := by
  unfold Obligations.FunctionsComeAndGo
  refine ⟨?_, fun s n b => State.freeQueues_fits, fun s i n => exec_vfQuery_of_function, fun s i n => exec_vfDestroy_of_function,
    fun s n all => ⟨s.gen_resetVf_same n all, fun k => s.gen_resetVf_other all⟩,
    fun s fn running => congrArg Host.Outcome.next (if_neg (by simpa using running)),
    fun s fn held => congrArg Host.Outcome.next (if_pos (by simp [held])), fun s n => State.flr_of_active,
    fun s running => congrArg Host.Outcome.next (if_neg (by simpa using running)),
    fun s held => congrArg Host.Outcome.next (if_pos (by simp [held])), State.gen_resetPf,
    fun s b word => ⟨s.flag_cause_same word, fun k => s.flag_cause_other⟩, fun s => exec_hotReset_of_firmware, fun s => exec_hotReset_of_rom,
    fun s => ⟨State.reg_setReg_same .., rfl, rfl, rfl⟩, fun s speed width flit => exec_pcieLinkTrained_of_caps flit⟩
  rintro s i n qs vs cs sh la hbm ca ob jo mm tx rx qb vb _ taken rfl ranges absent queues vectors fits
  exact exec_vfCreate_of_good taken ranges absent queues vectors fits

end Sys2Proof.Machine
end
